-- ==== Sys2Proof/Word.lean ====
section
/-! DEFINITION. The words of the TG368 and their plainest arithmetic. -/

namespace Sys2Proof

/-- A 32-bit register word. -/
abbrev Word := BitVec 32

/-- A byte of an image, a frame or a memory. -/
abbrev Byte := BitVec 8

/-- A 64-bit value: a count of qn, a token, a FIFO word. -/
abbrev Dword := BitVec 64

/-- The five access paths of spec/00_scope.md R11: each has its own cleat latch and staging word. -/
inductive Path where
  | spi | i2c | jtag | sup | dbg
  deriving DecidableEq, Repr

end Sys2Proof
end

