-- ==== Sys2Proof/Syntax.lean ====
section
/-! DEFINITION. The commands of the block, and the data they carry. -/

namespace Sys2Proof

/-- Which lock a lane loses (spec/14_network_lanes.md R711). -/
inductive LaneLock where
  | pcs | cdr | pll
  deriving DecidableEq, Repr

/-- A frame received on a lane, as its line delivers it (spec/14_network_lanes.md R712): octets, whether a
PCS error fell within it, and the FEC codewords corrected and uncorrectable in it (R735). -/
structure RxFrame where
  octets : List Byte
  perr : Bool
  fecCorr : Nat
  fecUncorr : Nat
  deriving DecidableEq, Repr

/-- An edge of PPS_IN (spec/03_discipline_and_holdover.md R107): the level it leads to, and how many qn past the beat it falls. -/
structure PpsEdge where
  level : Bool
  qn : Fin 5
  deriving DecidableEq, Repr

/-- What an SRAM read finds (spec/09_fifo_engines.md R425): no error, a corrected bit, or two bits and the word as read. -/
inductive Ecc where
  | clean
  | single
  | double (data : Dword) (tag : Byte)
  deriving DecidableEq, Repr


/-- A call of a ROM routine (spec/12_flash_store.md R632): its arguments, the return address and the base of mtvec. -/
structure RoutineCall where
  a0 : Word
  a1 : Word
  a2 : Word
  a3 : Word
  ra : Word
  mtvec : Word
  deriving DecidableEq, Repr

/-- How the flash ends an operation: the pulses of its last unit or sector, or the unit or sector that failed. -/
inductive FlashEnd where
  | passed (pulses : Nat)
  | failed (at_ : Nat)
  deriving DecidableEq, Repr

/-- What the probe of the external serial flash finds (spec/10_hoist.md R488-R494): whether a flash answers, its three JEDEC ID bytes,
whether the SFDP signature reads right, the BFPT's revision, the fast reads that it lists, whether the quad-enable condition holds in the
status register, log2 of the density in bytes, and whether the 4-byte address instruction table is present. -/
structure FlashProbe where
  present : Bool
  jedec : BitVec 24
  signature : Bool
  major : Nat
  minor : Nat
  reads144 : Bool
  reads114 : Bool
  reads122 : Bool
  reads112 : Bool
  quadEnabled : Bool
  density : Nat
  table4 : Bool
  deriving DecidableEq, Repr

/-- The commands of the block: one constructor per row of spec/opcode_table.json, with the row's operands.  The table gives no
fields and no bits, so the operands are what the row's rule reads from outside the block. -/
inductive Instr where
  /-- POR, R1074: VDDAUX and VDDS become good and within range, starting a Hoist of CAUSE 0x1. -/
  | por
  /-- PORST_N_ASSERT, R50: PORST_N is asserted, abandoning any Reef entry sequence and stopping any erase pulse at once. -/
  | porstNAssert (lag : Nat)
  /-- PORST_N_RELEASE, R1075: PORST_N is released with the supplies good, starting ROM boot, with CAUSE 0x2 or 0x1. -/
  | porstNRelease
  /-- SUPPLY_DROPOUT, R855: VDDS or VDDAUX leaves its range without PFI; DROPOUT is set, ACT_OUT falls and the device goes unpowered. -/
  | supplyDropout (lag : Nat)
  /-- VDDF_OUT_OF_RANGE, R803: VDDF leaves its operating range, so ACT_OUT falls and the user pins go to high impedance within 1 µs. -/
  | vddfOutOfRange
  /-- PFI_ASSERT, R879: PFI is taken as asserted: in Sail it starts the Reef entry sequence, and in Hoist it pauses the load. -/
  | pfiAssert
  /-- PFI_DEASSERT, R43: PFI is taken as deasserted; a paused Hoist restarts from ROM boot, and a power-good wake may become true. -/
  | pfiDeassert
  /-- REEF_COMMAND, R878: A PWR_CMD.REEF write starts the Reef entry sequence, or is refused with 0x0E08. -/
  | reefCommand (p : Path) (v : Word)
  /-- REEF_ENTRY_COMPLETE, R879: Step 6: the pins are tristated, the Mast passes to the 32 kHz domain, PWR_REEF_STATUS is written, the register space closes and the device enters Reef. -/
  | reefEntryComplete
  /-- WAKE_LATCH, R884: A WAKE0 or WAKE1 condition passes the 10 µs filter and latches its wake. -/
  | wakeLatch (n : Fin 2)
  /-- REEF_WAKE, R885: A latched wake, a timer wake or the power-good wake is taken with the core supplies good, and the device leaves Reef for Hoist. -/
  | reefWake
  /-- TAMPER, R584: A high level on TAMPER of at least 200 ns zeroises the battery-backed key and sets TAMPERED. -/
  | tamper
  /-- VBAT_LOSS, R851: VBAT falls below 1.6 V while VDDAUX is not good, so the battery-backed domain loses its contents. -/
  | vbatLoss
  /-- ROM_BOOT, R474: ROM boot samples the straps, reads the fuses, completes journal erases and requests VDDF at 0.80 V. -/
  | romBoot (straps : BitVec 11) (fails : List Nat)
  /-- ROM_BOOT_COMPLETE, R481: A Voltage read reports 800 mV ±10 mV, so ROM boot ends, the host targets open and source selection begins. -/
  | romBootComplete (mV : Nat) (late : Bool) (p : FlashProbe)
  /-- DIRECTORY_READ, R498: Hoist reads a directory copy and builds its candidate list, with the golden image last. -/
  | directoryRead (noise : List (Nat × Byte))
  /-- IMAGE_HEADER, R551: A 512-byte image header is received and verified: format, public key, signature, policy and KCV. -/
  | imageHeader (answers : Bool) (noise : List (Nat × Byte)) (errs : List (Nat × Nat))
  /-- IMAGE_RECORD, R503: A record is received, framed, authenticated and then takes effect. -/
  | imageRecord (noise : List (Nat × Byte)) (errs : List (Nat × Nat))
  /-- HOST_DATA_WORD, R515: A write of HST_HOST_DATA delivers one image word, or overflows and fails the attempt. -/
  | hostDataWord (p : Path) (w : Word)
  /-- HOST_WORD_TIMEOUT, R518: No image word arrives for 100 ms on a host path, so the attempt fails with REASON 0x6. -/
  | hostWordTimeout
  /-- REHOIST, R51: An HST_CMD REHOIST with a correct KEY starts a Hoist of CAUSE 0x4. -/
  | rehoist (p : Path) (v : Word)
  /-- HOST_LOAD, R36: An HST_CMD HOST_LOAD starts a full-device load over the host SPI target, CAUSE 0x5. -/
  | hostLoad (p : Path) (v : Word)
  /-- MAST_PLL_LOCK, R79: The Mast PLL locks; the beat engine takes the battery-backed Mast and continues from it. -/
  | mastPllLock
  /-- MAST_PLL_UNLOCK, R546: The Mast PLL loses lock: 0x0401 is logged, and in Hoist before release the clock-loop wait restarts. -/
  | mastPllUnlock
  /-- CLOCK_LOOP_WAIT_END, R522: Every declared PLL is locked and sheet calibration is done, so the device releases HALYARD. -/
  | clockLoopWaitEnd (codes : List Nat)
  /-- CLOCK_LOOP_TIMEOUT, R523: HST_PLL_WAIT expires before the clock loops lock, so the attempt fails with REASON 0x7. -/
  | clockLoopTimeout
  /-- HALYARD_TAKEN, R525: HALYARD has read high for 4,000 qn, so the first release stage applies. -/
  | halyardTaken
  /-- HALYARD_TIMEOUT, R526: TO_MS expires without the halyard taken, so the release begins alone with HAL_ALONE set. -/
  | halyardTimeout
  /-- RELEASE_STAGE, R530: After its gap, the next stage of the staged release (OUT, WE or GSR) applies. -/
  | releaseStage
  /-- UPDATE_SERVICE_AT_SAIL, R677: After entry into Sail, the update service counts the trial boot, retires unbooted trials, repairs the directory and checks the golden image. -/
  | updateServiceAtSail (errs : List (Nat × Nat))
  /-- CONFIRM_WINDOW_CLOSE, R682: The confirmation window expires unconfirmed, so the service starts a rehoist and logs 0x0116. -/
  | confirmWindowClose
  /-- PHASE_COMMIT, R70: A write of MAST_PHASE_LO commits a phase request as a slew, a step, or a step converted to a slew. -/
  | phaseCommit (p : Path) (lo : Word)
  /-- STEP_APPLY, R66: A committed step changes the Mast by its amount, sets REM to 0 and sets SET. -/
  | stepApply
  /-- SLEW_DONE, R62: The slew engine applies the last remainder of REM and sets SLEW_DONE. -/
  | slewDone
  /-- FREQ_RAMP_UPDATE, R60: At each 4,000,000 qn update, MAST_FREQ_EFF moves toward MAST_FREQ by up to RAMP. -/
  | freqRampUpdate
  /-- MAST_FREQ_WRITE, R104: A write of MAST_FREQ sets the frequency target, taken at once while SET is 0, or refused under STEER_AUTH. -/
  | mastFreqWrite (p : Path) (v : Word)
  /-- SLEW_CANCEL, R101: MAST_CTRL.SLEW_CANCEL sets REM to 0. -/
  | slewCancel
  /-- MARK_SET, R67: MAST_CTRL.MARK_SET sets MAST_STATUS.SET. -/
  | markSet
  /-- UNSET, R68: MAST_CTRL.UNSET clears SET in Hoist, and in Sail is refused with 0x0404. -/
  | unset
  /-- REFIN_LOSS, R75: No REFIN edge arrives for 1 µs, so REF_OK clears and 0x0402 is logged. -/
  | refinLoss
  /-- REFIN_RETURN, R77: REFIN returns and the Mast PLL relocks without a step. -/
  | refinReturn
  /-- XT32_STOP, R85: No XT32 edge arrives for 1 ms, so XT_OK clears and 0x0407 is logged. -/
  | xt32Stop
  /-- XT32_RESUME, R1072: The first XT32 edge after POR or after a stop sets XT_OK without adding a tick. -/
  | xt32Resume
  /-- RCAL_WINDOW_COMPLETE, R87: A window of 2,097,152 XT32 periods completes and its tick length is stored in MAST_RCAL. -/
  | rcalWindowComplete
  /-- WIDE_LO_READ, R93: A read of a wide register's _LO word returns the low word and loads the path's cleat latch. -/
  | wideLoRead (p : Path) (addr : Nat)
  /-- WIDE_HI_WRITE, R96: A write of a writable _HI word stages the value, discarding any earlier staged word with 0x0408. -/
  | wideHiWrite (p : Path) (addr : Nat) (v : Word)
  /-- PPS_IN_EDGE, R107: A PPS_IN edge is stamped and processed as a phase sample and for qualification. -/
  | ppsInEdge (edge : PpsEdge)
  /-- PPS_TIMEOUT, R118: No PPS edge arrives within 1.5 s, so PPS is disqualified. -/
  | ppsTimeout
  /-- TOD_COMMIT, R108: A write of DSC_TOD_SEC_LO commits a TAI second for the last PPS edge. -/
  | todCommit (p : Path) (lo : Word)
  /-- PTP_AT_COMMIT, R112: A write of DSC_PTP_AT_LO commits the Mast instant of the next PTP sample. -/
  | ptpAtCommit (p : Path) (lo : Word)
  /-- PTP_SAMPLE_COMMIT, R112: A write of DSC_PTP_ERR_LO commits one PTP sample to the loop. -/
  | ptpSampleCommit (p : Path) (lo : Word)
  /-- PTP_TIMEOUT, R119: PTP_TIMEOUT passes with no accepted sample, so PTP is disqualified. -/
  | ptpTimeout
  /-- PTP_DISQ, R119: DSC_CTRL.PTP_DISQ disqualifies PTP. -/
  | ptpDisq
  /-- SYNCE_MEASUREMENT, R116: Once per second the recovered clock is measured into DSC_SYNCE_MEAS and SyncE qualification is updated. -/
  | synceMeasurement (meas : Word)
  /-- STEER_AUTH_WRITE, R159: A change of STEER_AUTH reseeds I and moves the loop's authority, or 0b11 is refused. -/
  | steerAuthWrite (p : Path) (auth : Fin 4)
  /-- INJ_CLEAR, R160: DSC_CTRL.INJ_CLEAR sets INJ to 0. -/
  | injClear
  /-- MODEL_RESET, R169: DSC_CTRL.MODEL_RESET clears the model, and in holdover is refused with 0x050F. -/
  | modelReset
  /-- MODEL_TREF_WRITE, R170: A write of DSC_MODEL_TREF resets the model, and in holdover is refused. -/
  | modelTrefWrite (p : Path) (v : Word)
  /-- SNAP_NOW, R148: DSC_CTRL.SNAP_NOW requests a model snapshot with REASON 0x3. -/
  | snapNow
  /-- MODEL_EPOCH, R139: A 16 s model epoch ends and is applied to the fit when its conditions hold. -/
  | modelEpoch
  /-- MODEL_PREDICTION, R144: Once per second in HOLDOVER or FREE-RUN the model writes MAST_FREQ and computes HO_BOUND. -/
  | modelPrediction
  /-- PERIODIC_SNAPSHOT, R148: SNAP_MIN expires and a model snapshot is attempted under the ledger. -/
  | periodicSnapshot
  /-- PPS_OUT_PULSE, R161: PPS_OUT rises at each second plus PPS_OUT_OFS and falls after OUT_WIDTH. -/
  | ppsOutPulse
  /-- CMP_VAL_COMMIT, R176: A write of CMPn_VAL_LO commits VAL and arms the channel. -/
  | cmpValCommit (p : Path) (n : Fin 256) (lo : Word)
  /-- COMPARE_FIRE, R177: An armed compare channel reaches VAL, fires and performs its actions. -/
  | compareFire (n : Fin 256)
  /-- TIMER_OVERFLOW, R193: A running timer reaches PERIOD, advances ORIGIN and performs its overflow actions. -/
  | timerOverflow (n : Fin 64)
  /-- TIMER_MATCH, R195: A running timer reaches MATCH, sets MATCHED and performs its match actions. -/
  | timerMatch (n : Fin 64)
  /-- TIMER_START, R190: TMRn_CMD.START makes the timer RUNNING. -/
  | timerStart (n : Fin 64)
  /-- TIMER_STOP, R191: TMRn_CMD.STOP makes a RUNNING timer STOPPED. -/
  | timerStop (n : Fin 64)
  /-- TIMER_RESET, R189: TMRn_CMD.RESET sets ORIGIN to the present Mast and FROZEN to 0. -/
  | timerReset (n : Fin 64)
  /-- TIMER_ORIGIN_COMMIT, R235: A write of TMRn_ORIGIN_LO re-phases the timer. -/
  | timerOriginCommit (p : Path) (n : Fin 64) (lo : Word)
  /-- TIMER_PERIOD_WRITE, R197: A write of TMRn_PERIOD_LO sets PERIOD, raising 1 to 39 qn to 40 qn. -/
  | timerPeriodWrite (p : Path) (n : Fin 64) (lo : Word)
  /-- GSTART_NOW, R202: GSTART_GO.NOW starts every selected timer with the present Mast as ORIGIN. -/
  | gstartNow
  /-- GSTART_AT, R203: GSTART_GO.AT starts every selected timer with GSTART_AT as ORIGIN. -/
  | gstartAt
  /-- CAPTURE_LEADING_EDGE, R216: A capture unit stamps a leading edge and publishes RISE and PERIOD, or overruns. -/
  | captureLeadingEdge (n : Fin 64) (fine : Fin 40)
  /-- CAPTURE_TRAILING_EDGE, R217: A capture unit stamps a trailing edge and publishes FALL and WIDTH. -/
  | captureTrailingEdge (n : Fin 64) (fine : Fin 40)
  /-- CAPTURE_RISE_READ, R224: A read of CAPn_RISE_LO cleats the capture set and clears UNREAD. -/
  | captureRiseRead (p : Path) (n : Fin 64)
  /-- CAPTURE_WIN_OPEN, R221: CAPn_CMD.WIN_OPEN opens the capture window. -/
  | captureWinOpen (n : Fin 64)
  /-- CAPTURE_WIN_CLOSE, R221: CAPn_CMD.WIN_CLOSE closes the capture window. -/
  | captureWinClose (n : Fin 64)
  /-- SHEET_TOKEN_ACCEPT, R244: A sheet accepts a token from the fabric and computes its release instant. -/
  | sheetTokenAccept (idx : Fin 288) (token : Dword)
  /-- SHEET_RELEASE, R246: A sheet releases its head token at its release instant, or handles it as late. -/
  | sheetRelease (idx : Fin 288)
  /-- SHEET_RECAL, R256: SHT_CAL_CTRL.RECAL remeasures every path, and each adopts its code at its next gap. -/
  | sheetRecal (codes : List Nat)
  /-- CALIBRATION_TRACK, R255: Once per second each path is remeasured and FD_CAL moves by at most one step. -/
  | calibrationTrack (codes : List Nat)
  /-- STAMP_CHANNEL_EDGE, R266: A stamp channel stamps a pin edge and buffers a token for the fabric, or loses it. -/
  | stampChannelEdge (n : Fin 256) (level : Bool) (fine : Fin 40)
  /-- ILLEGAL_DUAL_RAIL, R292: A stage finds an illegal state on its input, stalls, and counts and logs it. -/
  | illegalDualRail (loc : Word)
  /-- EDGE_PORT_STALL, R318: An edge-port handshake waits longer than FAB_EP_STALL_TIME, so its stall bit is set. -/
  | edgePortStall (n : Fin 384)
  /-- PANEL_STUCK, R319: A panel shows offered tokens and no handshake for FAB_STUCK_TIME, so its stuck bit is set. -/
  | panelStuck (k : Fin 24)
  /-- QUIESCE, R342: PNL_CMD.QUIESCE starts quiesce of each RUNNING panel named in PNL_SEL. -/
  | quiesce (p : Path)
  /-- QUIESCE_COMPLETE, R343: No handshake remains in a quiescing panel, so it enters FROZEN. -/
  | quiesceComplete (k : Fin 24)
  /-- QUIESCE_TIMEOUT, R344: PNL_QTIMEOUT expires, so the panel is forced frozen and marked TORN. -/
  | quiesceTimeout (k : Fin 24)
  /-- RESUME, R346: PNL_CMD.RESUME returns each FROZEN panel that is not TORN to RUNNING. -/
  | resume (p : Path)
  /-- PANEL_LOAD, R347: PNL_CMD.LOAD starts a partial load from the source in PNL_LOAD_SRC, or is refused. -/
  | panelLoad (p : Path)
  /-- PANEL_RELEASE_STAGE, R357: After its gap, a releasing panel applies its next stage, entering RUNNING after the third. -/
  | panelReleaseStage (k : Fin 24)
  /-- PANEL_LOAD_WORD_TIMEOUT, R353: No image word arrives for PNL_LOAD_TIMEOUT, so the partial load fails with 0x0807. -/
  | panelLoadWordTimeout
  /-- PANEL_ABORT, R372: PNL_CMD.ABORT abandons the load in progress. -/
  | panelAbort (p : Path)
  /-- PANEL_HOST_DATA, R361: A write of PNL_HOST_DATA delivers one partial-image word, or overflows. -/
  | panelHostData (p : Path) (w : Word)
  /-- ICP_DATA_TOKEN, R362: A data token at the internal configuration port starts or feeds a partial load. -/
  | icpDataToken (d : Dword)
  /-- FENCE_HANDSHAKE, R335: A fence channel of a panel that is away delivers a STAND-IN token or SINKs a token. -/
  | fenceHandshake (entry : Nat) (d : Dword)
  /-- CROSSING_PULSE_EVENT, R380: A PULSE crossing carries one event, or discards it while one is in transit. -/
  | crossingPulseEvent (n : Fin 96) (acknowledge : Bool)
  /-- CROSSING_LEVEL_TRANSFER, R382: A LEVEL crossing passes a sampled level across on each handshake. -/
  | crossingLevelTransfer (n : Fin 96) (level : Dword)
  /-- CROSSING_WORD_TRANSFER, R386: A WORD crossing carries one held word in a full round trip. -/
  | crossingWordTransfer (n : Fin 96) (w : Option Dword)
  /-- CROSSING_REQUEST, R388: A request event on the companion makes a REQ WORD crossing sample its client and send the word. -/
  | crossingRequest (n : Fin 96)
  /-- CROSSING_STREAM_WRITE, R391: A clocked-side client writes a word into a STREAM crossing, or overruns. -/
  | crossingStreamWrite (n : Fin 96) (w : Dword)
  /-- CROSSING_STREAM_TAKE, R391: The fabric takes a word from a STREAM crossing, freeing a slot. -/
  | crossingStreamTake (n : Fin 96)
  /-- CROSSING_STREAM_PULL, R394: A clocked-side client pulls a word from a STREAM crossing, or finds it empty. -/
  | crossingStreamPull (n : Fin 96)
  /-- CROSSING_WATCHDOG_EXPIRY, R399: The clocked side's clock stops for XNGn_WDOG.US, so the crossing sets STALL and parks. -/
  | crossingWatchdogExpiry (n : Fin 96)
  /-- UNPARK, R403: XNGn_CMD.UNPARK unparks a crossing whose clock has returned, or is refused with 0x0906. -/
  | unpark (n : Fin 96) (edges : Bool)
  /-- RST_C, R406: XNGn_CMD.RST_C performs one clocked-side reset under the reset mode. -/
  | rstC (n : Fin 96)
  /-- CROSSING_RESET_EXIT, R409: A side leaves reset: REJOIN resynchronises, and LOCKSTEP may set RESET_SKEW. -/
  | crossingResetExit (n : Fin 96) (clocked : Bool)
  /-- CROSSING_RESYNC_DONE, R409: The REJOIN resynchronisation handshake completes and RESYNC clears. -/
  | crossingResyncDone (n : Fin 96)
  /-- CROSSING_CLR_HWM, R396: XNGn_CMD.CLR_HWM sets HWM to FILL. -/
  | crossingClrHwm (n : Fin 96)
  /-- MAILBOX_POP, R414: XNGn_CMD.POP releases the received mailbox word and loads the next. -/
  | mailboxPop (n : Fin 96)
  /-- MAILBOX_COMMIT, R413: A write of XNGn_MBOX_LO commits one word to the fabric, or is refused while busy. -/
  | mailboxCommit (p : Path) (n : Fin 96) (lo : Word)
  /-- FIFO_PUSH, R429: A producer pushes a word into a FIFO engine under its mode, room and framing rules. -/
  | fifoPush (n : Fin 64) (data : Dword) (tag : Byte)
  /-- FIFO_POP, R433: A consumer's pop or pull takes the next visible word, or an empty word. -/
  | fifoPop (n : Fin 64) (ecc : Ecc)
  /-- FIFO_REGISTER_PUSH, R446: A write of FIFOn_PUSH_LO pushes one word through the register port. -/
  | fifoRegisterPush (p : Path) (n : Fin 64) (lo : Word)
  /-- FIFO_REGISTER_POP, R447: A read of FIFOn_POP_LO pops one word and latches its high word and tag. -/
  | fifoRegisterPop (p : Path) (n : Fin 64) (ecc : Ecc)
  /-- FIFO_FLUSH, R463: FIFOn_CMD.FLUSH discards every word held and ends any open frame. -/
  | fifoFlush (n : Fin 64)
  /-- FIFO_CLR_HWM, R457: FIFOn_CMD.CLR_HWM sets HWM to FILL. -/
  | fifoClrHwm (n : Fin 64)
  /-- SCRUB_VISIT, R453: The scrubber visits the next SRAM address and corrects or poisons a faulty word. -/
  | scrubVisit (ecc : Ecc) (touched : Bool)
  /-- LANE_PLL_LOCK, R709: A lane PLL locks and the lane moves from LOCKING to NO_SIGNAL. -/
  | lanePllLock (k : Fin 8)
  /-- LANE_CDR_LOCK, R709: The receiver CDR locks and the lane enters ALIGNING. -/
  | laneCdrLock (k : Fin 8)
  /-- LANE_PCS_LOCK, R710: PCS lock is reached and the lane enters UP. -/
  | lanePcsLock (k : Fin 8)
  /-- LANE_LOCK_LOSS, R711: A lane loses PCS, CDR or PLL lock and falls back a state, logging 0x0B01 or 0x0B02. -/
  | laneLockLoss (k : Fin 8) (what : LaneLock)
  /-- LANE_UP, R709: LNk_CMD.UP starts a lane that is OFF. -/
  | laneUp (k : Fin 8)
  /-- LANE_DOWN, R709: LNk_CMD.DOWN turns the lane OFF. -/
  | laneDown (k : Fin 8)
  /-- RECEIVE_FRAME, R712: A received frame is delivered with its ingress stamp to a crossing or a FIFO engine. -/
  | receiveFrame (k : Fin 8) (f : RxFrame)
  /-- TRANSMIT_FRAME_START, R718: A ready transmit source starts its frame at a block boundary, gated or ungated. -/
  | transmitFrameStart (k : Fin 8) (j : Fin 4) (lead : Nat)
  /-- TRANSMIT_UNDERRUN, R721: A data word is missing when needed, so the frame is ended with an error. -/
  | transmitUnderrun (k : Fin 8)
  /-- TXTS_POP, R740: LNk_CMD.TXTS_POP removes the head two-step report. -/
  | txtsPop (k : Fin 8)
  /-- SHROUD_PORT_ALIGN, R749: A shroud port gains block lock on both lanes and deskews, entering TRAINING. -/
  | shroudPortAlign (q : Fin 5)
  /-- TRAIN_FLIT, R749: A good TRAIN flit is received, and after 8 with PEER_SEEN the port enters UP. -/
  | trainFlit (q : Fin 5) (good rxReady peerSeen : Bool) (port : Fin 4)
  /-- SHROUD_PORT_DOWN, R750: A shroud port leaves UP, discards its queued frames and logs 0x0C01. -/
  | shroudPortDown (q : Fin 5) (cause : Fin 16)
  /-- SHROUD_FRAME, R752: A frame is received on a port, checked for CRC and SEQ, then acknowledged and routed. -/
  | shroudFrame (q : Fin 5) (bytes : List Byte)
  /-- ACK_FLIT, R752: An ACK or NAK flit is received, releasing frames or starting a replay. -/
  | ackFlit (q : Fin 5) (good nak : Bool) (seq : Byte)
  /-- REPLAY_TIMEOUT, R752: 2 µs pass without ACK progress, so every unacknowledged frame is resent. -/
  | replayTimeout (q : Fin 5)
  /-- CREDIT_FLIT, R754: A CREDIT flit is received and the link credits are updated. -/
  | creditFlit (q : Fin 5) (good : Bool) (vc0 vc1 : BitVec 16)
  /-- HELLO_SEND, R757: A HELLO is sent on each UP port every 10 µs, or 100 µs once FORMED. -/
  | helloSend
  /-- HELLO, R758: A HELLO is received and the best key, DIST and parent are updated. -/
  | hello (q : Fin 4) (data : List Byte)
  /-- COORD_SEQ_TICK, R759: The coordinator increments COORD_SEQ every 100 µs. -/
  | coordSeqTick
  /-- FORM_QUIET, R761: The best key is unchanged for FORM_QUIET_US, so the device enters FORMING. -/
  | formQuiet
  /-- TOPO, R762: A TOPO frame is sent, forwarded up the tree, or collected by the coordinator. -/
  | topo (frame : Option (Fin 4 × List Byte))
  /-- FORMATION_COMPLETE, R763: The coordinator completes a formation, assigns addresses and sends ROUTE frames. -/
  | formationComplete
  /-- ROUTE, R767: A ROUTE frame is received and its table installed, or held until SWITCH. -/
  | route (q : Fin 4) (bytes : List Byte)
  /-- ROUTE_SWITCH, R767: The Mast reaches SWITCH and the held routing table is installed. -/
  | routeSwitch
  /-- LINKDOWN, R779: A LINKDOWN is flooded, and at the coordinator triggers a recompute. -/
  | linkdown (q : Fin 4) (uid : BitVec 96) (port : Fin 4) (epoch : Byte)
  /-- COORDINATOR_LOST, R782: COORD_SEQ does not change for 1 ms, so the coordinator is declared lost. -/
  | coordinatorLost
  /-- REFORM, R763: SHR_CMD.REFORM runs a new formation on the coordinator. -/
  | reform
  /-- SHROUD_SYNC_REQ, R783: Every SYNC_US a member sends SYNC_REQ to its parent, which answers with SYNC_RESP. -/
  | shroudSyncReq (arrived : Option (Fin 4)) (ofs : Nat)
  /-- SHROUD_SYNC_RESP, R783: A member receives SYNC_RESP and computes its delay and error against the coordinator. -/
  | shroudSyncResp (q : Fin 4) (t2 t3 : Dword) (ep : Word) (set : Bool) (ofs : Nat)
  /-- REPORT, R784: A REPORT frame of ALIGNED reaches the coordinator, which updates FAB_ALIGNED. -/
  | report (addr : Fin 64) (aligned : Bool)
  /-- ENDPOINT_TRANSMIT, R774: A transmit side takes a token or pops a word while it holds credit, and sends a TOKEN frame. -/
  | endpointTransmit (n : Fin 64) (feed : List (Dword × Ecc))
  /-- ENDPOINT_CREDIT_FRAME, R772: A receive side sends a CREDIT frame after 8 tokens, after 1 µs, or on a PROBE. -/
  | endpointCreditFrame (n : Fin 64)
  /-- PROBE, R776: A transmit side whose book is unbalanced sends a PROBE after 1 ms. -/
  | probe (n : Fin 64)
  /-- PROBE_REPLY, R777: A CREDIT reply to a PROBE writes off the lost tokens in TX_LOST. -/
  | probeReply (n : Fin 64) (recv taken : Word)
  /-- PEER_WRITE, R792: A write of TX_PEER or RX_PEER resets the pair counters, or is refused. -/
  | peerWrite (p : Path) (n : Fin 64) (rx : Bool) (v : Word)
  /-- HEARTBEAT_SEND, R807: Each member sends a heartbeat every 5 µs while the stay link is UP. -/
  | heartbeatSend
  /-- HEARTBEAT, R807: A good heartbeat is received and the partner's role and flags are updated. -/
  | heartbeat (good : Bool) (role : Fin 4) (flags : Byte)
  /-- HEARTBEAT_MISS, R814: A heartbeat miss is counted, and the third may trigger a takeover. -/
  | heartbeatMiss
  /-- ACT_IN_CHANGE, R804: ACT_IN holds a new level for 64 qn and is taken; a fall may trigger a takeover. -/
  | actInChange (level : Bool)
  /-- TAKEOVER_COMPLETE, R817: Every step of the takeover is met, so TAKEOVER is set and 0x0D04 logged. -/
  | takeoverComplete
  /-- CLAIM_WAIT_END, R813: CLAIM_US passes without ACT_IN high, so the SECONDARY becomes ACTIVE. -/
  | claimWaitEnd
  /-- CONTENTION, R821: An ACTIVE member sees ACT_IN high for 1 µs and demotes if SECONDARY. -/
  | contention
  /-- PAIR, R809: A PAIR frame is received, setting PAIRED, the partner UID and SIG_MATCH. -/
  | pair (uid : BitVec 96) (primary : Bool) (sig : Word)
  /-- SWITCHOVER, R823: STY_CMD.SWITCHOVER sends a refresh, END and HANDOVER, then demotes the ACTIVE. -/
  | switchover (p : Path) (v : Word)
  /-- HANDOVER_ACK, R823: The ACK of HANDOVER arrives, or 100 µs pass, so ACT_OUT falls and the member becomes STANDBY. -/
  | handoverAck
  /-- REFRESH, R824: STY_CMD.REFRESH, or the REFRESH_MS timer, sends a full refresh of the mirrored state. -/
  | refresh (cmd : Option Word)
  /-- MIRROR_CHANGE_FRAME, R824: The ACTIVE sends a change frame when a declared entry's mirrored fields change. -/
  | mirrorChangeFrame (idx : Fin 512)
  /-- MIRROR_REG, R826: A STANDBY applies a REG frame to its declared registers. -/
  | mirrorReg (items : List (BitVec 16 × Word))
  /-- MIRROR_TIMER, R828: A STANDBY applies a TIMER frame, keeping or rephasing ORIGIN. -/
  | mirrorTimer (idx : Fin 512) (data : List Byte)
  /-- MIRROR_COMPARE, R829: A STANDBY applies a COMPARE frame, rearming only on a new ARM_SEQ. -/
  | mirrorCompare (idx : Fin 512) (data : List Byte)
  /-- MIRROR_DSC, R830: A DSC frame loads STY_PARTNER_DSC. -/
  | mirrorDsc (data : List Byte)
  /-- MIRROR_MODEL, R830: A MODEL pair replaces the STANDBY's model under MIRROR_ADOPT. -/
  | mirrorModel (record : List Byte)
  /-- SLOT, R833: A SLOT frame is received and offered on the slot's in port. -/
  | slot (n : Fin 32) (t0 t1 t2 t3 : Dword)
  /-- STAY_END, R825: An END frame is received and may set WARM. -/
  | stayEnd
  /-- MIRROR_SLOT_SNAPSHOT, R832: The fourth token on a mirror-slot out port completes a snapshot, which an ACTIVE sends. -/
  | mirrorSlotSnapshot (n : Fin 32) (d : Dword)
  /-- STAY_SYNC_REQ, R835: Every SYNC_US a NONE or STANDBY member sends SYNC_REQ to the ACTIVE. -/
  | staySyncReq (arrived : Bool) (ofs : Nat)
  /-- STAY_SYNC_RESP, R835: A SYNC_RESP is received and STY_LAST_ERR and ALIGNED are updated. -/
  | staySyncResp (t2 t3 : Dword) (set : Bool) (ofs : Nat)
  /-- AVSBUS_POLL, R857: Once per ms the device reads Voltage, Current and Status from the VDDF regulator. -/
  | avsbusPoll (mV mA : Nat)
  /-- AVSBUS_VOLTAGE_WRITE, R857: The device writes the Voltage command at a change of the VDDF target. -/
  | avsbusVoltageWrite
  /-- AVSBUS_FAULT, R858: An AVSBus frame fails after 3 retries, so AVS_FAULT is set and the target held. -/
  | avsbusFault (cmd : Fin 16)
  /-- PACE_SAMPLE, R861: At the end of each PACE_US period the loop moves REQ and recomputes T. -/
  | paceSample
  /-- POWER_CAP_CHECK, R864: At each 1 ms read, CAPLIM moves against POWER_CAP. -/
  | powerCapCheck
  /-- RESERVE_SAMPLE, R868: Every 100 µs V is sampled, E recomputed and RSV_CHG controlled. -/
  | reserveSample (code : Fin 4096)
  /-- CHARGE_TIMEOUT, R870: RSV_CHG stays asserted for CHG_TO without reaching VSTOP, so 0x0E07 is logged. -/
  | chargeTimeout
  /-- RSV_VTGT_WRITE, R867: A write of RSV_VTGT recomputes VSTOP. -/
  | rsvVtgtWrite (p : Path) (v : Word)
  /-- LEDGER_REQUEST, R872: A gated operation asks the ledger, and is granted or refused. -/
  | ledgerRequest (code : Fin 7) (cost : Nat) (reefOp : Bool)
  /-- VBAT_MEASURE, R887: Once per second in Sail, VBAT is measured and VBAT_LOW may be set. -/
  | vbatMeasure (mV : Nat)
  /-- VIO_CHECK, R899: At OUT and once per second, each bank's VDDIO is checked against its declaration. -/
  | vioCheck (mV : List Nat)
  /-- GPIO_STATIC_WRITE, R910: A write of GPIO_Bb_OE or GPIO_Bb_OUT sets static pins, and refuses the bits of sheet-owned pins. -/
  | gpioStaticWrite (p : Path) (oe : Bool) (b : Fin 16) (v : Word)
  /-- EVENT_LINE_TRIGGER, R915: An event line triggers, stamps, counts, pends and goes to the fabric and compares. -/
  | eventLineTrigger (n : Fin 16) (level : Bool) (fine : Fin 40)
  /-- EV_CFG_WRITE, R925: A write of EVn_CFG changes the line's pin and mode, or is refused for an odd LVDS pin. -/
  | evCfgWrite (p : Path) (n : Fin 16) (v : Word)
  /-- FLASH_INFO, R631: flash_info returns the geometry, WARN_LEVEL and busy state. -/
  | flashInfo (c : RoutineCall)
  /-- FLASH_READ, R623: flash_read copies flash to SRAM with BCH correction and warnings. -/
  | flashRead (c : RoutineCall) (errs : List (Nat × Nat))
  /-- FLASH_PROGRAM, R625: flash_program checks its arguments, asks the ledger and programs units by pulse and verify. -/
  | flashProgram (c : RoutineCall)
  /-- FLASH_ERASE, R627: flash_erase journals and erases sectors by pulse and verify. -/
  | flashErase (c : RoutineCall)
  /-- FLASH_WAIT, R637: flash_wait returns the caller's operation status, or a timeout. -/
  | flashWait (c : RoutineCall)
  /-- FLASH_BLANK, R631: flash_blank checks a range for erased bytes. -/
  | flashBlank (c : RoutineCall)
  /-- FLASH_CONFIG, R663: flash_config sets WARN_LEVEL and the patrol interval. -/
  | flashConfig (c : RoutineCall)
  /-- FLASH_OPERATION_COMPLETE, R646: A program or erase completes, the DONE unit is programmed and the bank is freed. -/
  | flashOperationComplete (end_ : FlashEnd)
  /-- PATROL_READ, R655: Each patrol interval the patrol reads one chunk and logs any weak or uncorrectable chunk. -/
  | patrolRead (errs : List (Nat × Nat))
  /-- FLC_ACCESS_REFUSED, R628: An access to the FLC block that is not from ROM code is refused with 0x0301. -/
  | flcAccessRefused (p : Path) (ofs : Fin 65536) (write : Bool)
  /-- UPD_INFO, R688: upd_info returns UPD_STATUS and UPD_WIN_LEFT. -/
  | updInfo (c : RoutineCall)
  /-- UPD_BEGIN, R690: upd_begin appends WRITING and erases the slot's range. -/
  | updBegin (c : RoutineCall)
  /-- UPD_WRITE, R691: upd_write programs image bytes into the slot being written. -/
  | updWrite (c : RoutineCall)
  /-- UPD_FINISH, R671: upd_finish moves a WRITING slot to WRITTEN. -/
  | updFinish (c : RoutineCall)
  /-- UPD_VERIFY, R692: upd_verify authenticates the slot's image in place and appends VERIFIED or RETIRED. -/
  | updVerify (c : RoutineCall)
  /-- UPD_ACTIVATE, R693: upd_activate snapshots the model, appends TRIAL and starts a rehoist. -/
  | updActivate (c : RoutineCall)
  /-- UPD_CONFIRM, R694: upd_confirm appends CONFIRMED and closes the window. -/
  | updConfirm (c : RoutineCall)
  /-- UPD_RETIRE, R695: upd_retire appends RETIRED with REASON 0xF. -/
  | updRetire (c : RoutineCall)
  /-- UPD_GOLDEN, R697: upd_golden rewrites the golden image from a CONFIRMED slot, programming its first unit last. -/
  | updGolden (c : RoutineCall)
  /-- UPD_WAIT, R688: upd_wait returns the status of the caller's upd_verify or upd_golden. -/
  | updWait (c : RoutineCall)
  /-- DIRECTORY_WRITE_RETRY, R683: A directory write refused by the ledger is retried once per second. -/
  | directoryWriteRetry
  /-- CONFIRM_S_WRITE, R699: A write of CONFIRM_S moves the close of an open window. -/
  | confirmSWrite (p : Path) (v : Word)
  /-- ZEROISE, R585: IMG_CMD.ZEROISE zeroises the battery-backed key. -/
  | zeroise (p : Path) (v : Word)
  /-- DBG_CHAL, R594: IMG_CMD.DBG_CHAL loads a fresh challenge and clears DBG_UNLOCKED. -/
  | dbgChal (p : Path) (v : Word)
  /-- DBG_UNLOCK, R596: IMG_CMD.DBG_UNLOCK verifies the signed token and grants or refuses debug. -/
  | dbgUnlock (p : Path) (v : Word)
  /-- BBK_LOAD, R583: IMG_CMD.BBK_LOAD loads the battery-backed key and its KCV. -/
  | bbkLoad (p : Path) (v : Word)
  /-- PL_RAISE, R592: IMG_CMD.PL_RAISE writes PL1 into the protection word. -/
  | plRaise (p : Path) (v : Word)
  /-- PL_LOWER, R597: IMG_CMD.PL_LOWER zeroises the key, mass-erases the flash, writes PL0 and rehoists. -/
  | plLower (p : Path) (v : Word)
  /-- FUSE_PROG, R599: IMG_CMD.FUSE_PROG programs one fuse word, or is refused. -/
  | fuseProg (p : Path) (v : Word)
  /-- SVN_COMMIT, R589: IMG_CMD.SVN_COMMIT raises MIN_SVN to the running image's SVN. -/
  | svnCommit (p : Path) (v : Word)
  /-- IMG_CMD_COMPLETE, R600: A long IMG_CMD command, such as a fuse program, ends and sets DONE. -/
  | imgCmdComplete (ok : Bool)
  /-- DBG_TOKEN_WRITE, R595: A write of IMG_DBG_TOKEN appends one word to the token buffer. -/
  | dbgTokenWrite (p : Path) (w : Word)
  /-- RB_DATA_READ, R591: A read of IMG_RB_DATA returns 4 bytes and advances IMG_RB_ADDR, or is refused. -/
  | rbDataRead (p : Path) (errs : List (Nat × Nat))
  /-- IDCODE, R601: JTAG IDCODE shifts out 0x1368_A2C9. -/
  | idcode
  /-- BYPASS, R601: JTAG BYPASS selects the 1-bit bypass register. -/
  | bypass
  /-- SAMPLE_PRELOAD, R601: JTAG SAMPLE/PRELOAD accesses the boundary register under IEEE 1149.1. -/
  | samplePreload (bits_ : List Bool)
  /-- EXTEST, R601: JTAG EXTEST drives the pins from the boundary register. -/
  | extest (bits_ : List Bool)
  /-- CLAMP, R601: JTAG CLAMP holds the boundary outputs and selects bypass. -/
  | clamp
  /-- HIGHZ, R601: JTAG HIGHZ places the outputs at high impedance. -/
  | highz
  /-- DTMCS, R601: JTAG DTMCS accesses the debug transport control register. -/
  | dtmcs (v : Word)
  /-- DMI, R947: A DMI access operates the debug module: halt, resume, step, abstract commands or system bus access. -/
  | dmi (op : Fin 4) (addr : Fin 128) (data : Word)
  /-- CFG_IN, R603: JTAG CFG_IN delivers an image word, which in Sail starts a full-device load. -/
  | cfgIn (w : Word)
  /-- CFG_STATUS, R602: JTAG CFG_STATUS captures BOOT_STATUS, MODE_STATUS and the last Hoist or image code. -/
  | cfgStatus
  /-- PL_QUERY, R602: JTAG PL_QUERY captures the protection state. -/
  | plQuery
  /-- MAST_PEEK, R614: JTAG MAST_PEEK captures the whole Mast with SET, PLL_LOCK and DOMAIN. -/
  | mastPeek
  /-- DEBUG_HALT, R950: A halt request stops the core and freezes timers with FRZ_ON_HALT. -/
  | debugHalt
  /-- DEBUG_RESUME, R947: A resume request restarts the halted core. -/
  | debugResume
  /-- SYSTEM_BUS_ACCESS, R948: A debug system bus access reaches the shell register space on the JTAG path. -/
  | systemBusAccess (write : Bool) (addr data : Word)
  /-- SERVICE_EPISODE, R939: A pending service request runs in an episode of at most 50 µs between user instructions. -/
  | serviceEpisode (errs : List (Nat × Nat))
  /-- DEFAULT_TRAP, R938: A trap reaches the ROM default handler, which records it and holds user firmware. -/
  | defaultTrap (cause epc tval : Word)
  /-- SPI_WRITE, R956: An SPI WRITE frame posts words at ascending addresses. -/
  | spiWrite (addr : BitVec 24) (data : List Byte) (drains : List Nat)
  /-- SPI_WRITE_FIXED, R956: An SPI WRITE_FIXED frame posts words to one address. -/
  | spiWriteFixed (addr : BitVec 24) (data : List Byte) (drains : List Nat)
  /-- SPI_WRITE_CRC, R961: An SPI WRITE_CRC frame posts CRC-checked words at ascending addresses. -/
  | spiWriteCrc (addr : BitVec 24) (data : List Byte) (drains : List Nat)
  /-- SPI_WRITE_FIXED_CRC, R961: An SPI WRITE_FIXED_CRC frame posts CRC-checked words to one address. -/
  | spiWriteFixedCrc (addr : BitVec 24) (data : List Byte) (drains : List Nat)
  /-- SPI_READ, R958: An SPI READ frame fetches words at ascending addresses. -/
  | spiRead (addr : BitVec 24) (waits : List (Fin 33)) (len : Nat)
  /-- SPI_READ_FIXED, R958: An SPI READ_FIXED frame fetches words from one address. -/
  | spiReadFixed (addr : BitVec 24) (waits : List (Fin 33)) (len : Nat)
  /-- SPI_READ_CRC, R958: An SPI READ_CRC frame fetches words at ascending addresses, each with a CRC byte. -/
  | spiReadCrc (addr : BitVec 24) (waits : List (Fin 33)) (len : Nat)
  /-- SPI_READ_FIXED_CRC, R958: An SPI READ_FIXED_CRC frame fetches words from one address, each with a CRC byte. -/
  | spiReadFixedCrc (addr : BitVec 24) (waits : List (Fin 33)) (len : Nat)
  /-- SPI_STATUS, R955: An SPI STATUS command returns the status byte and clears CRCERR and WOVF. -/
  | spiStatus
  /-- SPI_READ_NOT_READY, R959: A read word is not ready after 32 wait bytes, so 0xE1 is sent and the frame ignored. -/
  | spiReadNotReady (fixed crc : Bool) (addr : BitVec 24) (waits : List (Fin 33))
  /-- POSTED_WRITE, R957: A posted write from the host buffer is performed on the register, in order. -/
  | postedWrite (i2c : Bool)
  /-- I2C_WRITE, R965: An I2C write transfer sets the pointer and posts words. -/
  | i2cWrite (dev : BitVec 7) (bytes : List Byte) (drains : List Nat)
  /-- I2C_READ, R967: An I2C read transfer returns words from the pointer, stretching SCL while each is fetched. -/
  | i2cRead (dev : BitVec 7) (len : Nat)
  /-- I2C_STOP, R968: A STOP or repeated START ends a transfer, discarding any unfinished word. -/
  | i2cStop (restart : Bool)
  /-- I2C_TIMEOUT, R969: Under I2C_TIMEOUT, SCL held low for 25 ms abandons the transfer. -/
  | i2cTimeout
  /-- FEAT_ACCEPT_WRITE, R971: A write of FEAT_ACCEPTk keeps only offered bits and logs 0x1007 for the rest. -/
  | featAcceptWrite (p : Path) (k : Fin 4) (v : Word)
  /-- FEAT_LOCK, R973: A write of FEAT_LOCK.LOCK locks the accept set and the FEAT_LOCK RWL fields. -/
  | featLock (p : Path) (v : Word)
  /-- ERR_HEAD_READ, R977: A read of ERR_HEAD_TIME_LO cleats the oldest collector entry. -/
  | errHeadRead (p : Path)
  /-- ERR_POP, R978: ERR_CMD.POP removes the oldest entry when its SEQ matches. -/
  | errPop (p : Path) (v : Word)
  /-- TEMPERATURE_SAMPLE, R985: Once per ms the die and OSC_TEMP temperatures are sampled and checked against WARN and CRIT. -/
  | temperatureSample (die : BitVec 16) (c : Fin 4096)
  /-- SUPPLY_MEASURE, R986: Once per ms VDDS, VDDA, VDDH and VDDAUX are measured and excursions logged. -/
  | supplyMeasure (vdds vdda vddh vddaux : BitVec 16)
  /-- MBOX_CMD, R988: A write of MBOX_CMD requests a flash or update routine, or is refused. -/
  | mboxCmd (p : Path) (v : Word)
  /-- MBOX_RESULT, R990: The mailbox's routine result becomes final and is loaded into MBOX_RET0–2. -/
  | mboxResult
  /-- MBOX_BUF_DATA_ACCESS, R987: A read or write of MBOX_BUF_DATA accesses the buffer and advances MBOX_BUF_ADDR. -/
  | mboxBufDataAccess (p : Path) (w : Option Word)
  /-- UNLISTED_OFFSET_ACCESS, R14: A host-path access to an unlisted offset returns 0 or changes nothing, and logs 0x1002. -/
  | unlistedOffsetAccess (p : Path) (addr : Nat) (w : Option Word)
  /-- REGISTER_WRITE, R7: A write to a register with no row of its own sets its fields under their access codes. -/
  | registerWrite (p : Path) (addr : Nat) (v : Word)
  /-- SHROUD_PORT_PLL_LOCK, R749: A shroud or stay port PLL locks and the port moves from LOCKING to ALIGNING. -/
  | shroudPortPllLock (q : Fin 5)
  /-- SHROUD_PORT_LOCK_LOSS, R749: A shroud or stay port below UP loses block lock, misses 3 ALIGN flits, hears no good flit for 10 µs or loses PLL lock, and falls back to ALIGNING or LOCKING. -/
  | shroudPortLockLoss (q : Fin 5) (pll : Bool)
  /-- FRAME_WAIT_TIMEOUT, R755: A VC0 frame that has waited in a device for more than 50 µs is discarded and counted in SHR_DISC. -/
  | frameWaitTimeout (q : Fin 4)
  /-- REPORT_SEND, R784: A shroud member sends a REPORT of ALIGNED every 10 ms. -/
  | reportSend
  /-- SYNC_SAMPLE_TIMEOUT, R787: 3 × SYNC_US pass with no phase sample, so COORD or PARTNER is disqualified. -/
  | syncSampleTimeout (partner : Bool)
  /-- DSC_FRAME_SEND, R824: With DSC_MIRROR, the ACTIVE sends a DSC frame once per second. -/
  | dscFrameSend
  /-- CORE_SUPPLIES_LOST, R897: The core supplies are lost during the Reef entry sequence or in Reef, ending the sequence at once or arming the power-good wake of R49. -/
  | coreSuppliesLost (lag : Nat)
  /-- UPDATE_OPERATION_COMPLETE, R692: An upd_verify or upd_golden started without WAIT, or an external program or erase of the update service, ends and its result is recorded. -/
  | updateOperationComplete (ok : Bool) (noise : List (Nat × Byte)) (errs : List (Nat × Nat))
  /-- FABRIC_TOKEN_TAKE, R772: The fabric takes a token offered by a stamp channel, shroud receive side, event line or mirror-slot in port, freeing its buffer and advancing counts such as RX_TAKEN. -/
  | fabricTokenTake (port : Fin 384)
  /-- CROSSING_STREAM_PUSH, R391: The fabric offers a word to a fabric-to-shell STREAM crossing, which takes it when it has room, or discards it while parked or held in reset. -/
  | crossingStreamPush (n : Fin 96) (w : Dword)
  /-- LINK_FAULT_SEQUENCE, R723: A lane receives or stops receiving Local Fault or Remote Fault sequences, setting or clearing RX_LF and RX_RF. -/
  | linkFaultSequence (k : Fin 8) (remote on : Bool)
  /-- RC_FIELD_READ, R11: A supervisor-code read of an RC field returns it and clears it, rearming its once-per-read log. -/
  | rcFieldRead (p : Path) (addr : Nat)
  /-- SPI_UNKNOWN_COMMAND, R962: A host SPI frame begins with a command byte not in the table, so the target ignores it until HSPI_CS_N rises and logs 0x1003 with cause 1. -/
  | spiUnknownCommand (cmd : Byte)
  deriving DecidableEq, Repr

end Sys2Proof
end

