-- ==== Sys2Proof/Decode.lean ====
section
/-! DEFINITION. The decoder of command words.  spec/opcode_table.json gives no row any bits: the device is driven by accesses, frames and
events, and none of its commands is spelled by a word.  So no word spells a command. -/

namespace Sys2Proof

/-- The command that a word of the opcode table spells: none, since no row of the table has bits. -/
def decodeTableWord (_nbits _w : Nat) : Option Instr := none

end Sys2Proof
end

