-- ==== Sys2Proof/Machine/Mem.lean ====
section
/-! DEFINITION. Sparse tables: a list of key and value pairs in one canonical form, keys strictly rising and no entry
equal to what an unlisted key reads as.  Registers, memories and per-unit records are held this way. -/

namespace Sys2Proof.Machine

/-- A sparse table from Nat keys.  What an unlisted key reads as is an argument of the operations. -/
abbrev Table (α : Type) := List (Nat × α)

/-- Read one key. -/
def Table.get {α : Type} (d : Nat → α) : Table α → Nat → α
  | [], k => d k
  | (j, v) :: t, k => if j = k then v else Table.get d t k

/-- Put an entry at its place among rising keys. -/
def Table.insert {α : Type} : Table α → Nat → α → Table α
  | [], k, v => [(k, v)]
  | (j, w) :: t, k, v => if k < j then (k, v) :: (j, w) :: t else (j, w) :: Table.insert t k v

/-- Drop the entries of one key. -/
def Table.erase {α : Type} : Table α → Nat → Table α
  | [], _ => []
  | (j, w) :: t, k => if j = k then Table.erase t k else (j, w) :: Table.erase t k

/-- Write one key: the value an unlisted key reads as removes the entry, so equal tables are equal lists. -/
def Table.put {α : Type} [DecidableEq α] (d : Nat → α) (t : Table α) (k : Nat) (v : α) : Table α :=
  if v = d k then Table.erase t k else Table.insert (Table.erase t k) k v

/-- Every key above a bound, rising. -/
def Table.rising {α : Type} : Table α → Bool
  | [] => true
  | [_] => true
  | (j, _) :: (k, w) :: t => j < k && Table.rising ((k, w) :: t)

/-- The canonical form of a table. -/
def Table.wf {α : Type} [DecidableEq α] (d : Nat → α) (t : Table α) : Bool :=
  Table.rising t && t.all (fun p => p.2 != d p.1)

/-- A byte memory: sparse, one canonical form. -/
abbrev Memory := List Host.Cell

/-- Unlisted bytes of a flash read as erased. -/
def erasedByte : Nat → Byte := fun _ => 0xFF

/-- Unlisted bytes of a RAM read 0. -/
def zeroByte : Nat → Byte := fun _ => 0

/-- Whether a memory is in canonical form. -/
def Memory.wf (d : Nat → Byte) (m : Memory) : Bool := Table.wf d m

/-- n bytes from an address. -/
def Memory.bytes (d : Nat → Byte) (m : Memory) (a : Nat) : Nat → List Byte
  | 0 => []
  | n + 1 => Table.get d m a :: Memory.bytes d m (a + 1) n

/-- Write bytes from an address on. -/
def Memory.putBytes (d : Nat → Byte) (m : Memory) : Nat → List Byte → Memory
  | _, [] => m
  | a, b :: bs => Memory.putBytes d (Table.put d m a b) (a + 1) bs

/-- Fill n bytes from an address with what an unlisted byte reads as. -/
def Memory.clear (m : Memory) (a n : Nat) : Memory := m.filter (fun p => p.1 < a || a + n ≤ p.1)

/-- Little-endian value of bytes (R3). -/
def leNat : List Byte → Nat
  | [] => 0
  | b :: bs => b.toNat + 256 * leNat bs

/-- n little-endian bytes of a value (R3). -/
def leBytes : Nat → Nat → List Byte
  | 0, _ => []
  | n + 1, v => BitVec.ofNat 8 v :: leBytes n (v / 256)

/-- Big-endian bytes of a value. -/
def beBytes (n v : Nat) : List Byte := (leBytes n v).reverse

/-- Big-endian value of bytes. -/
def beNat (bs : List Byte) : Nat := leNat bs.reverse

/-- Bits [hi:lo] of a value. -/
def bits (v hi lo : Nat) : Nat := v / 2 ^ lo % 2 ^ (hi - lo + 1)

/-- A value read as two's complement of a width. -/
def signed (w v : Nat) : Int := if v % 2 ^ w < 2 ^ (w - 1) then (v % 2 ^ w : Nat) else (v % 2 ^ w : Nat) - (2 ^ w : Nat)

/-- The low bits of a signed value, in two's complement. -/
def unsigned (w : Nat) (v : Int) : Nat := (v % (2 ^ w : Nat)).toNat

/-- A signed value held within limits. -/
def clampInt (lo hi v : Int) : Int := max lo (min hi v)

end Sys2Proof.Machine
end

