-- ==== Sys2Proof/Config.lean ====
section
/-! DEFINITION. What an implementation fixes and what the spec leaves open.  Every constant here is opaque: it has no
body, so nothing in Lean can evaluate it, and a claim about it holds whatever it is. -/

namespace Sys2Proof.Config

/-- The n-th value that the spec leaves open in a run (log entry 1).  State counts how many have been used. -/
opaque freeValue : Nat → Nat

/-- SHA-384 (FIPS 180-4), named by spec/11_images_and_keys.md R552 and R565; outside the spec (log entry 2). -/
opaque sha384 : List Byte → List Byte

/-- ECDSA P-384 verification of a signature over a SHA-384 digest: public key, digest, signature (log entry 2). -/
opaque ecdsaVerify : List Byte → List Byte → List Byte → Bool

/-- AES-256 of one block: key, block (log entry 2). -/
opaque aesBlock : List Byte → List Byte → List Byte

/-- AES-256-GCM: key, nonce, additional data, ciphertext; the plaintext and the tag (log entry 2). -/
opaque aesGcm : List Byte → List Byte → List Byte → List Byte → List Byte × List Byte

/-- AES-CMAC: key, message (log entry 2). -/
opaque aesCmac : List Byte → List Byte → List Byte

/-- DEFLATE (RFC 1951): compressed bytes, none when the stream is malformed (log entry 2). -/
opaque inflate : List Byte → Option (List Byte)

/-- One step of the model engine's recursive least squares (spec/03_discipline_and_holdover.md): the spec names the fit, its forgetting
factor and its inputs and not its fixed-point arithmetic (log entry 52).  From LAMBDA_K, the terms in the fit, the averages of I and of the
temperature less TREF, t - t0, the coefficients, the covariance and the residual to the new coefficients, covariance and residual. -/
opaque modelFit : List Int → List Int

/-- The bytes of the ROM at 0x1000_0000, which the spec does not list (log entry 1). -/
opaque romByte : Nat → Byte

/-- The constant of an input that the image leaves unconnected (spec/06_fabric.md): bay, cell and input (log entry 53). -/
opaque tiedInput : Nat → Nat → Nat → Bool

/-- The sum bit and the carry out of a cell of a carry chain, from its truth table, its four inputs as a number and the carry in; and the
carry into the lowest cell of a chain (log entry 53). -/
opaque carrySum : Nat → Nat → Bool → Bool
opaque carryOut : Nat → Nat → Bool → Bool
opaque carryFirst : Nat → Bool

/-- The cell inputs (4 x cell + input) that take the five select bits of a wide multiplexer, and the inputs of a LUT-RAM's four cells that take
its read address, its write address and its write data (log entry 53). -/
opaque muxPin : Nat → Nat
opaque ramPin : Nat → Nat

/-- What the boundary register drives on user pin n under EXTEST and CLAMP: the spec does not list its cells (log entry 1). -/
opaque boundaryDrives : Nat → List Bool → Option Bool

end Sys2Proof.Config
end

