-- ==== Sys2Proof/Machine/RegMap.lean ====
section
/-! DEFINITION. The register map of the TG368: one row per register of the spec's offset and field tables, and one
named field per field of those tables.  A row gives the register's absolute address, how many copies stand at which
stride, its Reset column, and the bits of each access code (spec/00_scope.md R7: RW, W1C, W1S, RC, WO, RWL). -/

namespace Sys2Proof.Machine

/-- What a write stores in a field whose Meaning limits it: the nearer limit, or 0 above a last code. -/
inductive Limit where
  | clamp (lo hi : Nat)
  | zeroAbove (last : Nat)
  deriving DecidableEq, Repr

/-- A limited field of a register: its lowest bit, its width and its limit. -/
structure LimitedField where
  lo : Nat
  width : Nat
  limit : Limit
  deriving DecidableEq, Repr

/-- One register, or `count` registers `stride` bytes apart.  The masks name the bits of each access code;
`sailLocked` and `featLocked` are RWL bits by their lock event (R8), `loads` the fields whose Meaning says that Hoist
loads them, `param` the fields marked (P), `kept` the fields
that the battery-backed domain keeps. -/
structure RegRow where
  base : Nat
  stride : Nat := 4
  count : Nat := 1
  reset : Nat := 0
  rw : Nat := 0
  w1c : Nat := 0
  w1s : Nat := 0
  rc : Nat := 0
  wo : Nat := 0
  sailLocked : Nat := 0
  featLocked : Nat := 0
  loads : Nat := 0
  param : Nat := 0
  kept : Nat := 0
  limits : List LimitedField := []
  deriving DecidableEq, Repr

/-- A field of a register: absolute address, lowest bit, width. -/
structure Fld where
  addr : Nat
  lo : Nat
  width : Nat
  deriving DecidableEq, Repr

/-- Registers of the IDENT block (spec/01_architecture.md, spec/19_supervisor_and_host.md). -/
def rowsIdent : List RegRow :=
  [
    /- DEV_ID -/ { base := 0x0, reset := 0x74368001 },
    /- REV_ID -/ { base := 0x4, reset := 0xA1 },
    /- MODE_STATUS -/ { base := 0x8, reset := 0x20 },
    /- HOIST_CAUSE -/ { base := 0xC },
    /- FEAT_OFFER0 -/ { base := 0x10, reset := 0x7 },
    /- FEAT_OFFER -/ { base := 0x14, stride := 4, count := 3 },
    /- FEAT_ACCEPT -/ { base := 0x20, stride := 4, count := 4, featLocked := 0xFFFFFFFF },
    /- FEAT_LOCK -/ { base := 0x30, w1s := 0x1 },
    /- IRQ_STATUS -/ { base := 0x40 },
    /- IRQ_HOST_DIS -/ { base := 0x44, rw := 0x7FFF },
    /- IRQ_SUP_DIS -/ { base := 0x48, rw := 0x7FFF },
    /- SUP_STATUS -/ { base := 0x50 } ]
  ++
  [
    /- SUP_LAST_CAUSE -/ { base := 0x54 },
    /- SUP_LAST_EPC -/ { base := 0x58 },
    /- SUP_EVENT -/ { base := 0x5C, w1c := 0xF },
    /- SUP_IRQ_EN -/ { base := 0x60, rw := 0xF },
    /- MBOX_CMD -/ { base := 0x80, wo := 0xFFFF010F },
    /- MBOX_STATUS -/ { base := 0x84 },
    /- MBOX_ARG -/ { base := 0x88, stride := 4, count := 4, rw := 0xFFFFFFFF },
    /- MBOX_RET -/ { base := 0x98, stride := 4, count := 3 },
    /- MBOX_BUF_ADDR -/ { base := 0xA4, rw := 0xFFC },
    /- MBOX_BUF_DATA -/ { base := 0xA8, rw := 0xFFFFFFFF } ]

/-- Registers of the HST block (spec/10_hoist.md, spec/13_field_update.md). -/
def rowsHst : List RegRow :=
  [
    /- HST_CMD -/ { base := 0x10000, wo := 0xFFFF0003 },
    /- HST_STRAPS -/ { base := 0x10004 },
    /- BOOT_STATUS -/ { base := 0x10008 },
    /- HST_REL_CFG -/ { base := 0x1000C, loads := 0x7 },
    /- HST_REL_GAP1 -/ { base := 0x10010, loads := 0xFFFFFFFF },
    /- HST_REL_GAP2 -/ { base := 0x10014, loads := 0xFFFFFFFF },
    /- HST_PLL_WAIT -/ { base := 0x10018, reset := 0x4E20, loads := 0xFFFFFF },
    /- HST_PLL_STATUS -/ { base := 0x1001C },
    /- HST_HAL_CFG -/ { base := 0x10020, loads := 0xFFFF },
    /- HST_HAL_STATUS -/ { base := 0x10024, reset := 0x2 },
    /- HST_HOST_DATA -/ { base := 0x10028, wo := 0xFFFFFFFF },
    /- HST_HOST_STATUS -/ { base := 0x1002C, reset := 0x4000 } ]
  ++
  [
    /- HST_FLASH_INFO -/ { base := 0x10030 },
    /- HST_PULL_FUSE -/ { base := 0x10034 },
    /- HST_EVENT -/ { base := 0x10038, w1c := 0x7F },
    /- HST_IRQ_EN -/ { base := 0x1003C, rw := 0x7F },
    /- HST_T_START_LO -/ { base := 0x10040 },
    /- HST_T_START_HI -/ { base := 0x10044 },
    /- HST_T_SAIL_LO -/ { base := 0x10048 },
    /- HST_T_SAIL_HI -/ { base := 0x1004C },
    /- HST_STEP_US -/ { base := 0x10050, stride := 4, count := 7 },
    /- HST_ATTEMPT -/ { base := 0x10080, stride := 4, count := 9 },
    /- UPD_STATUS -/ { base := 0x10100 },
    /- UPD_CFG -/ { base := 0x10104, reset := 0x10258, rw := 0x1FFFF, param := 0x1FFFF, limits := [⟨0, 16, .clamp 1 65535⟩] } ]
  ++
  [
    /- UPD_WIN_LEFT -/ { base := 0x10108 },
    /- UPD_TRIAL_ID -/ { base := 0x1010C },
    /- UPD_TRIAL_CNT -/ { base := 0x10110 },
    /- UPD_COST_ERASE -/ { base := 0x10114, reset := 0x9C40, rw := 0xFFFFFFFF, param := 0xFFFFFFFF },
    /- UPD_COST_PAGE -/ { base := 0x10118, reset := 0x50, rw := 0xFFFFFFFF, param := 0xFFFFFFFF },
    /- UPD_DIR_GEN -/ { base := 0x1011C },
    /- UPD_DIR_USED -/ { base := 0x10120 } ]

/-- Registers of the IMG block (spec/11_images_and_keys.md). -/
def rowsImg : List RegRow :=
  [
    /- IMG_CMD -/ { base := 0x20000, wo := 0xFFFF00FF },
    /- IMG_STATUS -/ { base := 0x20004, w1c := 0x2000, kept := 0x2800 },
    /- IMG_INFO -/ { base := 0x20008 },
    /- IMG_SVN -/ { base := 0x2000C },
    /- IMG_BUILD_ID -/ { base := 0x20010 },
    /- IMG_NONCE_LO -/ { base := 0x20014 },
    /- IMG_NONCE_HI -/ { base := 0x20018 },
    /- IMG_EFK_KCV_LO -/ { base := 0x2001C },
    /- IMG_EFK_KCV_HI -/ { base := 0x20020 },
    /- IMG_BBK_KCV_LO -/ { base := 0x20024, kept := 0xFFFFFFFF },
    /- IMG_BBK_KCV_HI -/ { base := 0x20028, kept := 0xFFFFFFFF },
    /- IMG_BBK_DATA -/ { base := 0x20030, stride := 4, count := 8, wo := 0xFFFFFFFF } ]
  ++
  [
    /- IMG_DBG_CHAL -/ { base := 0x20050, stride := 4, count := 4 },
    /- IMG_DBG_TOKEN -/ { base := 0x20060, wo := 0xFFFFFFFF },
    /- IMG_DBG_TOKEN_CNT -/ { base := 0x20064 },
    /- IMG_RB_ADDR -/ { base := 0x20068, rw := 0xFFFFFFFF },
    /- IMG_RB_DATA -/ { base := 0x2006C },
    /- IMG_FUSE_ADDR -/ { base := 0x20070, rw := 0x3F },
    /- IMG_FUSE_DATA -/ { base := 0x20074, rw := 0xFFFFFFFF },
    /- IMG_UID -/ { base := 0x20078, stride := 4, count := 3 },
    /- IMG_EVENT -/ { base := 0x20084, w1c := 0xF },
    /- IMG_IRQ_EN -/ { base := 0x20088, rw := 0xF } ]

/-- Registers of the FLC block (spec/12_flash_store.md). -/
def rowsFlc : List RegRow :=
  [
    /- FLC_CTRL -/ { base := 0x30000, wo := 0xFFFF0007 },
    /- FLC_ADDR -/ { base := 0x30004, rw := 0xFFFFFF },
    /- FLC_SRC -/ { base := 0x30008, rw := 0xFFFFFFFF },
    /- FLC_STATUS -/ { base := 0x3000C },
    /- FLC_PULSES -/ { base := 0x30010 },
    /- FLC_WARN -/ { base := 0x30014, reset := 0x2, rw := 0x7, limits := [⟨0, 3, .clamp 1 4⟩] },
    /- FLC_LAST_CE -/ { base := 0x30018 },
    /- FLC_PATROL_CFG -/ { base := 0x3001C, reset := 0x64, rw := 0xFFFF },
    /- FLC_PATROL_STATUS -/ { base := 0x30020 },
    /- FLC_PATROL_POS -/ { base := 0x30024 },
    /- FLC_SYS -/ { base := 0x30028 } ]

/-- Registers of the MAST block (spec/02_mast.md). -/
def rowsMast : List RegRow :=
  [
    /- MAST_NOW_LO -/ { base := 0x40000, kept := 0xFFFFFFFF },
    /- MAST_NOW_HI -/ { base := 0x40004, kept := 0xFFFFFFFF },
    /- MAST_FRAC -/ { base := 0x40008, kept := 0xFFFFFF },
    /- MAST_STATUS -/ { base := 0x4000C, reset := 0x20, kept := 0x44 },
    /- MAST_CTRL -/ { base := 0x40010, rw := 0x1, wo := 0xE },
    /- MAST_FREQ -/ { base := 0x40014, rw := 0xFFFFFFFF },
    /- MAST_FREQ_EFF -/ { base := 0x40018 },
    /- MAST_SLEW_LIMIT -/ { base := 0x4001C, reset := 0x64, rw := 0x3FFF, limits := [⟨0, 14, .clamp 1 10000⟩] },
    /- MAST_PHASE_LO -/ { base := 0x40020, rw := 0xFFFFFFFF },
    /- MAST_PHASE_HI -/ { base := 0x40024, rw := 0xFFFFFFFF },
    /- MAST_REM_LO -/ { base := 0x40028 },
    /- MAST_REM_HI -/ { base := 0x4002C } ]
  ++
  [
    /- MAST_SLEW_TERM -/ { base := 0x40030 },
    /- MAST_PLL_CFG -/ { base := 0x40034, sailLocked := 0x7, loads := 0x7 },
    /- MAST_RCAL_LO -/ { base := 0x40038, reset := 0xD6500000, kept := 0xFFFFFFFF },
    /- MAST_RCAL_HI -/ { base := 0x4003C, reset := 0x1DC, kept := 0x3FF },
    /- MAST_RCAL_PPB -/ { base := 0x40040, kept := 0xFFFFFFFF },
    /- MAST_RCAL_AGE -/ { base := 0x40044, kept := 0xFFFFFFFF },
    /- MAST_EVENT -/ { base := 0x40048, w1c := 0x1FF },
    /- MAST_IRQ_EN -/ { base := 0x4004C, rw := 0x1FF },
    /- MTAP_CFG -/ { base := 0x40050, stride := 4, count := 8, sailLocked := 0xFFFFF, loads := 0xFFFFF } ]

/-- Registers of the TMR block (spec/04_timers_compares_captures.md). -/
def rowsTmr : List RegRow :=
  [
    /- GSTART_GO -/ { base := 0x50000, wo := 0x3 },
    /- GSTART_AT_LO -/ { base := 0x50008, rw := 0xFFFFFFFF },
    /- GSTART_AT_HI -/ { base := 0x5000C, rw := 0xFFFFFFFF },
    /- GSTART_MASK -/ { base := 0x50010, stride := 4, count := 2, rw := 0xFFFFFFFF },
    /- CMP_PEND -/ { base := 0x50020, stride := 4, count := 8, w1c := 0xFFFFFFFF },
    /- TMR_MPEND -/ { base := 0x50040, stride := 4, count := 2, w1c := 0xFFFFFFFF },
    /- TMR_OPEND -/ { base := 0x50048, stride := 4, count := 2, w1c := 0xFFFFFFFF },
    /- CAP_PEND -/ { base := 0x50050, stride := 4, count := 2, w1c := 0xFFFFFFFF },
    /- TEQ_CFG -/ { base := 0x50060, stride := 4, count := 4, sailLocked := 0xFF, param := 0xFF },
    /- TEQ_LOST -/ { base := 0x50070, stride := 4, count := 4, rc := 0xFFFFFFFF },
    /- TMR_REEF_WAKE -/ { base := 0x50080, kept := 0xFF },
    /- TMR_ORIGIN_LO -/ { base := 0x51000, stride := 64, count := 64, rw := 0xFFFFFFFF, param := 0xFFFFFFFF } ]
  ++
  [
    /- TMR_ORIGIN_HI -/ { base := 0x51004, stride := 64, count := 64, rw := 0xFFFFFFFF, param := 0xFFFFFFFF },
    /- TMR_PERIOD_LO -/ { base := 0x51008, stride := 64, count := 64, rw := 0xFFFFFFFF, param := 0xFFFFFFFF },
    /- TMR_PERIOD_HI -/ { base := 0x5100C, stride := 64, count := 64, rw := 0xFFFF, param := 0xFFFF },
    /- TMR_MATCH_LO -/ { base := 0x51010, stride := 64, count := 64, rw := 0xFFFFFFFF, param := 0xFFFFFFFF },
    /- TMR_MATCH_HI -/ { base := 0x51014, stride := 64, count := 64, rw := 0xFFFF, param := 0xFFFF },
    /- TMR_FROZEN_LO -/ { base := 0x51018, stride := 64, count := 64 },
    /- TMR_FROZEN_HI -/ { base := 0x5101C, stride := 64, count := 64 },
    /- TMR_VALUE_LO -/ { base := 0x51020, stride := 64, count := 64 },
    /- TMR_VALUE_HI -/ { base := 0x51024, stride := 64, count := 64 },
    /- TMR_CTRL -/ { base := 0x51028, stride := 64, count := 8, rw := 0xFF003F, param := 0xFF003F },
    /- TMR_CTRL -/ { base := 0x51228, stride := 64, count := 56, rw := 0xFF0007, param := 0xFF0007 },
    /- TMR_CMD -/ { base := 0x5102C, stride := 64, count := 64, wo := 0x7 } ]
  ++
  [
    /- TMR_MACT -/ { base := 0x51030, stride := 64, count := 64, rw := 0x7FFFFFFF, param := 0x7FFFFFFF },
    /- TMR_OACT -/ { base := 0x51034, stride := 64, count := 64, rw := 0x7FFFFFFF, param := 0x7FFFFFFF },
    /- TMR_STATUS -/ { base := 0x51038, stride := 64, count := 64 },
    /- TMR_MISSED -/ { base := 0x5103C, stride := 64, count := 64, rc := 0xFFFFFFFF },
    /- CMP_VAL_LO -/ { base := 0x52000, stride := 32, count := 256, rw := 0xFFFFFFFF, param := 0xFFFFFFFF },
    /- CMP_VAL_HI -/ { base := 0x52004, stride := 32, count := 256, rw := 0xFFFFFFFF, param := 0xFFFFFFFF },
    /- CMP_DELAY -/ { base := 0x52008, stride := 32, count := 256, rw := 0xFFFFFFFF, param := 0xFFFFFFFF },
    /- CMP_CTRL -/ { base := 0x5200C, stride := 32, count := 256, rw := 0xFFFF, param := 0xFFFF },
    /- CMP_ACT -/ { base := 0x52010, stride := 32, count := 256, rw := 0x7FFFFFFC, param := 0x7FFFFFFC },
    /- CMP_STATUS -/ { base := 0x52014, stride := 32, count := 256, w1c := 0x11 },
    /- CMP_FIRED_LO -/ { base := 0x52018, stride := 32, count := 256 },
    /- CMP_FIRED_HI -/ { base := 0x5201C, stride := 32, count := 256 } ]
  ++
  [
    /- CAP_RISE_LO -/ { base := 0x54000, stride := 64, count := 64 },
    /- CAP_RISE_HI -/ { base := 0x54004, stride := 64, count := 64 },
    /- CAP_FALL_LO -/ { base := 0x54008, stride := 64, count := 64 },
    /- CAP_FALL_HI -/ { base := 0x5400C, stride := 64, count := 64 },
    /- CAP_WIDTH_LO -/ { base := 0x54010, stride := 64, count := 64 },
    /- CAP_WIDTH_HI -/ { base := 0x54014, stride := 64, count := 64 },
    /- CAP_PERIOD_LO -/ { base := 0x54018, stride := 64, count := 64 },
    /- CAP_PERIOD_HI -/ { base := 0x5401C, stride := 64, count := 64 },
    /- CAP_FINE -/ { base := 0x54020, stride := 64, count := 64 },
    /- CAP_STATUS -/ { base := 0x54024, stride := 64, count := 64, w1c := 0x6 },
    /- CAP_CTRL -/ { base := 0x54028, stride := 64, count := 64, rw := 0xFF03EFFF, param := 0xFF03EFFF },
    /- CAP_CMD -/ { base := 0x5402C, stride := 64, count := 64, wo := 0x3 } ]
  ++
  [
    /- CAP_OVR_CNT -/ { base := 0x54030, stride := 64, count := 64, rc := 0xFFFFFFFF } ]

/-- Registers of the SHT block (spec/05_sheets.md). -/
def rowsSht : List RegRow :=
  [
    /- SHT_CAL_CTRL -/ { base := 0x60000, reset := 0x1, rw := 0x1, wo := 0x2, param := 0x1 },
    /- SHT_CAL_STATUS -/ { base := 0x60004 },
    /- SHT_PPSO_FD -/ { base := 0x60008, rw := 0xFF00, param := 0xFF00 },
    /- SHT_LATE_PEND -/ { base := 0x60010, stride := 4, count := 8, w1c := 0xFFFFFFFF },
    /- SHT_LLATE_PEND -/ { base := 0x60030, w1c := 0xFFFFFFFF },
    /- SHT_IRQ_EN -/ { base := 0x60034, rw := 0x1 },
    /- SHT_CFG -/ { base := 0x61000, stride := 32, count := 256, reset := 0xC10000, rw := 0xC, sailLocked := 0xFF8011, param := 0xFF801D },
    /- SHT_SKEW -/ { base := 0x61004, stride := 32, count := 256, rw := 0xFF, param := 0xFF },
    /- SHT_STATUS -/ { base := 0x61008, stride := 32, count := 256, reset := 0x400, w1c := 0x1F },
    /- SHT_FD -/ { base := 0x6100C, stride := 32, count := 256 },
    /- SHT_NEXT_LO -/ { base := 0x61010, stride := 32, count := 256 },
    /- SHT_NEXT_HI -/ { base := 0x61014, stride := 32, count := 256 } ]
  ++
  [
    /- SHT_REL_CNT -/ { base := 0x61018, stride := 32, count := 256 },
    /- SHT_LATE_CNT -/ { base := 0x6101C, stride := 32, count := 256, rc := 0xFFFFFFFF },
    /- LSH_CFG -/ { base := 0x63000, stride := 32, count := 32, reset := 0xC00000, rw := 0x4, sailLocked := 0xF80011, param := 0xF80015 },
    /- LSH_STATUS -/ { base := 0x63008, stride := 32, count := 32, w1c := 0x3D },
    /- LSH_NEXT_LO -/ { base := 0x63010, stride := 32, count := 32 },
    /- LSH_NEXT_HI -/ { base := 0x63014, stride := 32, count := 32 },
    /- LSH_REL_CNT -/ { base := 0x63018, stride := 32, count := 32 },
    /- LSH_LATE_CNT -/ { base := 0x6301C, stride := 32, count := 32, rc := 0xFFFFFFFF },
    /- STMP_CFG -/ { base := 0x64000, stride := 16, count := 256, reset := 0xC00000, rw := 0xFF000006, sailLocked := 0xF80001, param := 0xFFF80007 },
    /- STMP_STATUS -/ { base := 0x64004, stride := 16, count := 256, w1c := 0x3 },
    /- STMP_LOST -/ { base := 0x64008, stride := 16, count := 256, rc := 0xFFFFFFFF } ]

/-- Registers of the DSC block (spec/03_discipline_and_holdover.md). -/
def rowsDsc : List RegRow :=
  [
    /- DSC_CTRL -/ { base := 0x70000, rw := 0x87, wo := 0x78, param := 0x7 },
    /- DSC_STATUS -/ { base := 0x70004, reset := 0xC0 },
    /- DSC_SRC_PRIO -/ { base := 0x70008, reset := 0x1, rw := 0xFFF, param := 0xFFF },
    /- DSC_SRC_QUAL -/ { base := 0x7000C },
    /- DSC_BW -/ { base := 0x70010, reset := 0x353, rw := 0xFFF, param := 0xFFF, limits := [⟨8, 4, .clamp 0 12⟩, ⟨4, 4, .clamp 0 12⟩, ⟨0, 4, .clamp 0 12⟩] },
    /- DSC_LOCK_THR -/ { base := 0x70014, reset := 0x190, rw := 0xFFFFFFFF, param := 0xFFFFFFFF },
    /- DSC_UNLOCK_THR -/ { base := 0x70018, reset := 0xFA0, rw := 0xFFFFFFFF, param := 0xFFFFFFFF },
    /- DSC_COUNTS -/ { base := 0x7001C, reset := 0x30410, rw := 0xFFFFFF, param := 0xFFFFFF, limits := [⟨16, 8, .clamp 1 255⟩, ⟨8, 8, .clamp 1 255⟩, ⟨0, 8, .clamp 1 255⟩] },
    /- DSC_FREQ_LIM -/ { base := 0x70020, reset := 0x640032, rw := 0xFFFFFFFF, param := 0xFFFFFFFF, limits := [⟨16, 16, .clamp 0 1953⟩] },
    /- DSC_AGED_BOUND -/ { base := 0x70024, reset := 0x44C, rw := 0xFFFFFFFF, param := 0xFFFFFFFF },
    /- DSC_AGED_TIME -/ { base := 0x70028, reset := 0xA8C0, rw := 0xFFFFFFFF, param := 0xFFFFFFFF },
    /- DSC_PPS_CFG -/ { base := 0x7002C, reset := 0xE3E, rw := 0x3FFF, param := 0x3FFF } ]
  ++
  [
    /- DSC_PPS_COMP -/ { base := 0x70030, rw := 0xFFFFFFFF, param := 0xFFFFFFFF },
    /- DSC_PPS_OUT_OFS -/ { base := 0x70034, rw := 0xFFFFFFFF, param := 0xFFFFFFFF },
    /- DSC_PTP_TIMEOUT -/ { base := 0x70038, reset := 0xBB8, rw := 0xFFFFFFFF, param := 0xFFFFFFFF },
    /- DSC_SYNCE_CFG -/ { base := 0x7003C, reset := 0x1400, rw := 0xFF1D, param := 0xFF1D },
    /- DSC_PPS_STAMP_LO -/ { base := 0x70040 },
    /- DSC_PPS_STAMP_HI -/ { base := 0x70044 },
    /- DSC_TOD_SEC_LO -/ { base := 0x70048, rw := 0xFFFFFFFF },
    /- DSC_TOD_SEC_HI -/ { base := 0x7004C, rw := 0xFFFF },
    /- DSC_PTP_AT_LO -/ { base := 0x70050, rw := 0xFFFFFFFF },
    /- DSC_PTP_AT_HI -/ { base := 0x70054, rw := 0xFFFFFFFF },
    /- DSC_PTP_ERR_LO -/ { base := 0x70058, rw := 0xFFFFFFFF },
    /- DSC_PTP_ERR_HI -/ { base := 0x7005C, rw := 0xFFFFFFFF } ]
  ++
  [
    /- DSC_SYNCE_MEAS -/ { base := 0x70060 },
    /- DSC_LAST_ERR_LO -/ { base := 0x70064 },
    /- DSC_LAST_ERR_HI -/ { base := 0x70068 },
    /- DSC_SAMPLE_CNT -/ { base := 0x7006C },
    /- DSC_INTEG -/ { base := 0x70070 },
    /- DSC_SW_OFFSET -/ { base := 0x70074, rw := 0xFFFFFFFF },
    /- DSC_INJ_LO -/ { base := 0x70078 },
    /- DSC_INJ_HI -/ { base := 0x7007C },
    /- DSC_HO_ELAPSED -/ { base := 0x70080 },
    /- DSC_HO_BOUND -/ { base := 0x70084 },
    /- DSC_MODEL_CFG -/ { base := 0x70088, reset := 0xF0E00, rw := 0xFF1F03, param := 0xFF1F03, limits := [⟨16, 8, .clamp 1 240⟩, ⟨8, 5, .clamp 10 24⟩] },
    /- DSC_MODEL_TREF -/ { base := 0x7008C, reset := 0x1900, rw := 0xFFFF, param := 0xFFFF } ]
  ++
  [
    /- DSC_MODEL_STATUS -/ { base := 0x70090 },
    /- DSC_MODEL_TRAIN -/ { base := 0x70094 },
    /- DSC_MODEL_A0 -/ { base := 0x70098 },
    /- DSC_MODEL_A1 -/ { base := 0x7009C },
    /- DSC_MODEL_B1 -/ { base := 0x700A0 },
    /- DSC_MODEL_B2 -/ { base := 0x700A4 },
    /- DSC_MODEL_T0_LO -/ { base := 0x700A8 },
    /- DSC_MODEL_T0_HI -/ { base := 0x700AC },
    /- DSC_TEMP_NOW -/ { base := 0x700B0 },
    /- DSC_MODEL_SPAN -/ { base := 0x700B4 },
    /- DSC_MODEL_RESID -/ { base := 0x700B8 },
    /- DSC_SNAP_STATUS -/ { base := 0x700BC } ]
  ++
  [
    /- DSC_EVENT -/ { base := 0x700C0, w1c := 0xFFF },
    /- DSC_IRQ_EN -/ { base := 0x700C4, rw := 0xFFF } ]

/-- Registers of the GPIO block (spec/18_pins_and_event_lines.md). -/
def rowsGpio : List RegRow :=
  [
    /- GPIO_VIO -/ { base := 0x80000, loads := 0xFFFFFFFF },
    /- GPIO_VIO_OK -/ { base := 0x80004 },
    /- GPIO_IN -/ { base := 0x80010, stride := 4, count := 16 },
    /- GPIO_OUT -/ { base := 0x80050, stride := 4, count := 16, rw := 0xFFFF },
    /- GPIO_OE -/ { base := 0x80090, stride := 4, count := 16, rw := 0xFFFF },
    /- GPIO_PIN_CFG -/ { base := 0x80100, stride := 4, count := 256, reset := 0x2, rw := 0x3F0, sailLocked := 0x8, loads := 0xFFB, limits := [⟨6, 2, .clamp 0 2⟩] },
    /- EV_CFG -/ { base := 0x81000, stride := 4, count := 16, rw := 0xF1D, loads := 0xF1D, limits := [⟨2, 3, .zeroAbove 5⟩] },
    /- EVL_PEND -/ { base := 0x81040, w1c := 0xFFFF },
    /- EVL_IRQ_EN -/ { base := 0x81044, rw := 0xFFFFFFFF },
    /- EVL_LEVEL -/ { base := 0x81048 },
    /- EVL_OVR -/ { base := 0x8104C, w1c := 0xFFFF },
    /- EV_COUNT -/ { base := 0x81050, stride := 4, count := 16 } ]
  ++
  [
    /- EV_LAST_LO -/ { base := 0x81100, stride := 8, count := 16 },
    /- EV_LAST_HI -/ { base := 0x81104, stride := 8, count := 16 } ]

/-- Registers of the XNG block (spec/08_crossings.md). -/
def rowsXng : List RegRow :=
  [
    /- XNG_OVR_PEND -/ { base := 0x90000, stride := 4, count := 3, w1c := 0xFFFFFFFF },
    /- XNG_STALL_PEND -/ { base := 0x90010, stride := 4, count := 3, w1c := 0xFFFFFFFF },
    /- XNG_SKEW_PEND -/ { base := 0x90020, stride := 4, count := 3, w1c := 0xFFFFFFFF },
    /- XNG_IRQ_EN -/ { base := 0x90030, rw := 0x7 },
    /- XNG_CFG -/ { base := 0x91000, stride := 32, count := 96, loads := 0x3FF7FD3 },
    /- XNG_WDOG -/ { base := 0x91004, stride := 32, count := 96, loads := 0x3FFF },
    /- XNG_STATUS -/ { base := 0x91008, stride := 32, count := 96, reset := 0x4, w1c := 0x150 },
    /- XNG_CMD -/ { base := 0x9100C, stride := 32, count := 96, wo := 0xF },
    /- XNG_OVR_CNT -/ { base := 0x91010, stride := 32, count := 96, rc := 0xFFFFFFFF },
    /- XNG_DISC -/ { base := 0x91014, stride := 32, count := 96, rc := 0xFFFFFFFF },
    /- XNG_MBOX_LO -/ { base := 0x91018, stride := 32, count := 96, rw := 0xFFFFFFFF },
    /- XNG_MBOX_HI -/ { base := 0x9101C, stride := 32, count := 96, rw := 0xFFFFFFFF } ]

/-- Registers of the FIFO block (spec/09_fifo_engines.md). -/
def rowsFifo : List RegRow :=
  [
    /- FIFO_SCRUB_CFG -/ { base := 0xA0000, reset := 0x7D, rw := 0xFF, param := 0xFF },
    /- FIFO_SCRUB_STATUS -/ { base := 0xA0004 },
    /- FIFO_SCRUB_CE -/ { base := 0xA0008, rc := 0xFFFFFFFF },
    /- FIFO_SCRUB_UE -/ { base := 0xA000C, rc := 0xFFFFFFFF },
    /- FIFO_LEVEL_PEND -/ { base := 0xA0010, stride := 4, count := 2, w1c := 0xFFFFFFFF },
    /- FIFO_ERR_PEND -/ { base := 0xA0018, stride := 4, count := 2, w1c := 0xFFFFFFFF },
    /- FIFO_IRQ_EN -/ { base := 0xA0020, rw := 0x3 },
    /- FIFO_FREE_BLOCKS -/ { base := 0xA0024, reset := 0x200, loads := 0x3FF },
    /- FIFO_CFG -/ { base := 0xA1000, stride := 128, count := 64, loads := 0x3FFFF7F },
    /- FIFO_REGION -/ { base := 0xA1004, stride := 128, count := 64, loads := 0x3FF01FF },
    /- FIFO_CT_THR -/ { base := 0xA1008, stride := 128, count := 64, loads := 0xFFFFF },
    /- FIFO_AF_THR -/ { base := 0xA100C, stride := 128, count := 64, rw := 0xFFFFF, param := 0xFFFFF } ]
  ++
  [
    /- FIFO_FILL -/ { base := 0xA1010, stride := 128, count := 64 },
    /- FIFO_HWM -/ { base := 0xA1014, stride := 128, count := 64 },
    /- FIFO_STATUS -/ { base := 0xA1018, stride := 128, count := 64, reset := 0x1, w1c := 0xFE0 },
    /- FIFO_CMD -/ { base := 0xA101C, stride := 128, count := 64, wo := 0x3 },
    /- FIFO_CE_CNT -/ { base := 0xA1020, stride := 128, count := 64, rc := 0xFFFFFFFF },
    /- FIFO_UE_CNT -/ { base := 0xA1024, stride := 128, count := 64, rc := 0xFFFFFFFF },
    /- FIFO_DROP_CNT -/ { base := 0xA1028, stride := 128, count := 64, rc := 0xFFFFFFFF },
    /- FIFO_ABORT_CNT -/ { base := 0xA102C, stride := 128, count := 64, rc := 0xFFFFFFFF },
    /- FIFO_FRAME_CNT -/ { base := 0xA1030, stride := 128, count := 64 },
    /- FIFO_PUSH_LO -/ { base := 0xA1040, stride := 128, count := 64, wo := 0xFFFFFFFF },
    /- FIFO_PUSH_HI -/ { base := 0xA1044, stride := 128, count := 64, wo := 0xFFFFFFFF },
    /- FIFO_PUSH_TAG -/ { base := 0xA1048, stride := 128, count := 64, rw := 0xFF } ]
  ++
  [
    /- FIFO_POP_LO -/ { base := 0xA1050, stride := 128, count := 64 },
    /- FIFO_POP_HI -/ { base := 0xA1054, stride := 128, count := 64 },
    /- FIFO_POP_TAG -/ { base := 0xA1058, stride := 128, count := 64 } ]

/-- Registers of the LAN block (spec/14_network_lanes.md). -/
def rowsLan : List RegRow :=
  [
    /- LAN_RCLK_CFG -/ { base := 0xB0000, rw := 0xF8FFF8FF, param := 0xF8FFF8FF },
    /- LAN_EVENT_PEND -/ { base := 0xB0004 },
    /- LN_CFG -/ { base := 0xB1000, stride := 256, count := 8, rw := 0x8000, sailLocked := 0x4000, loads := 0x3F37, param := 0xC000 },
    /- LN_XNG -/ { base := 0xB1004, stride := 256, count := 8, reset := 0x7F7F7F7F, loads := 0xFFFFFFFF },
    /- LN_XNG_RX -/ { base := 0xB1008, stride := 256, count := 8, reset := 0x7F7F, loads := 0xFFFF },
    /- LN_RX_CFG -/ { base := 0xB100C, stride := 256, count := 8, reset := 0x25F8, loads := 0x7FFF },
    /- LN_TX_CFG -/ { base := 0xB1010, stride := 256, count := 8, reset := 0x4, rw := 0xFF, param := 0xFF, limits := [⟨0, 5, .clamp 1 16⟩] },
    /- LN_STATUS -/ { base := 0xB1014, stride := 256, count := 8, w1c := 0x10 },
    /- LN_CMD -/ { base := 0xB1018, stride := 256, count := 8, wo := 0x7 },
    /- LN_RX_ASYM -/ { base := 0xB101C, stride := 256, count := 8, rw := 0xFFFFFFFF, param := 0xFFFFFFFF },
    /- LN_TX_ASYM -/ { base := 0xB1020, stride := 256, count := 8, rw := 0xFFFFFFFF, param := 0xFFFFFFFF },
    /- LN_RAW_IDLE_LO -/ { base := 0xB1024, stride := 256, count := 8, rw := 0xFFFFFFFF, param := 0xFFFFFFFF } ]
  ++
  [
    /- LN_RAW_IDLE_HI -/ { base := 0xB1028, stride := 256, count := 8, rw := 0xFFFFFFFF, param := 0xFFFFFFFF },
    /- LN_RAW_MARK -/ { base := 0xB102C, stride := 256, count := 8, rw := 0xFFFFFFFF, param := 0xFFFFFFFF },
    /- LN_RAW_MASK -/ { base := 0xB1030, stride := 256, count := 8, rw := 0xFFFFFFFF, param := 0xFFFFFFFF },
    /- LN_TXTS_LO -/ { base := 0xB1034, stride := 256, count := 8 },
    /- LN_TXTS_HI -/ { base := 0xB1038, stride := 256, count := 8 },
    /- LN_TXTS_INFO -/ { base := 0xB103C, stride := 256, count := 8 },
    /- LN_RX_FRAMES -/ { base := 0xB1040, stride := 256, count := 8 },
    /- LN_RX_PERR -/ { base := 0xB1044, stride := 256, count := 8, rc := 0xFFFFFFFF },
    /- LN_RX_TRUNC -/ { base := 0xB1048, stride := 256, count := 8, rc := 0xFFFFFFFF },
    /- LN_RX_DLOST -/ { base := 0xB104C, stride := 256, count := 8, rc := 0xFFFFFFFF },
    /- LN_TX_FRAMES -/ { base := 0xB1050, stride := 256, count := 8 },
    /- LN_TX_UNDR -/ { base := 0xB1054, stride := 256, count := 8, rc := 0xFFFFFFFF } ]
  ++
  [
    /- LN_TX_SLIP -/ { base := 0xB1058, stride := 256, count := 8, rc := 0xFFFFFFFF },
    /- LN_TX_BAD -/ { base := 0xB105C, stride := 256, count := 8, rc := 0xFFFFFFFF },
    /- LN_FEC_CORR -/ { base := 0xB1060, stride := 256, count := 8, rc := 0xFFFFFFFF },
    /- LN_FEC_UNCORR -/ { base := 0xB1064, stride := 256, count := 8, rc := 0xFFFFFFFF },
    /- LN_EVENT -/ { base := 0xB1068, stride := 256, count := 8, w1c := 0x7 },
    /- LN_IRQ_EN -/ { base := 0xB106C, stride := 256, count := 8, rw := 0x7 } ]

/-- Registers of the SHR block (spec/15_shrouds.md). -/
def rowsShr : List RegRow :=
  [
    /- SHR_CFG -/ { base := 0xC0000, loads := 0x7F3F },
    /- SHR_TIMING -/ { base := 0xC0004, loads := 0xFFFFFFFF },
    /- SHR_STATUS -/ { base := 0xC0008 },
    /- SHR_FABRIC -/ { base := 0xC000C, reset := 0x70000 },
    /- SHR_COORD_UID -/ { base := 0xC0010, stride := 4, count := 3 },
    /- SHR_MEMBERS -/ { base := 0xC0020, stride := 4, count := 2 },
    /- SHR_ALIGN_THR -/ { base := 0xC0028, reset := 0x8, rw := 0xFFFF, param := 0xFFFF },
    /- SHR_LAST_ERR -/ { base := 0xC002C },
    /- SHR_CMD -/ { base := 0xC0030, wo := 0x1 },
    /- SHR_EVENT -/ { base := 0xC0034, w1c := 0x3F },
    /- SHR_IRQ_EN -/ { base := 0xC0038, rw := 0x3F },
    /- SHR_DISC -/ { base := 0xC003C, rc := 0xFFFFFFFF } ]
  ++
  [
    /- SHR_ROUTE -/ { base := 0xC0040, stride := 4, count := 8, reset := 0xFFFFFFFF },
    /- SHR_P_STATUS -/ { base := 0xC0100, stride := 64, count := 4 },
    /- SHR_P_ASYM -/ { base := 0xC0104, stride := 64, count := 4, rw := 0xFFFFFFFF, param := 0xFFFFFFFF },
    /- SHR_P_DELAY -/ { base := 0xC0108, stride := 64, count := 4 },
    /- SHR_P_NBR_UID0 -/ { base := 0xC010C, stride := 64, count := 4 },
    /- SHR_P_NBR_UID1 -/ { base := 0xC0110, stride := 64, count := 4 },
    /- SHR_P_NBR_UID2 -/ { base := 0xC0114, stride := 64, count := 4 },
    /- SHR_P_CRC_ERR -/ { base := 0xC0118, stride := 64, count := 4, rc := 0xFFFFFFFF },
    /- SHR_P_REPLAY -/ { base := 0xC011C, stride := 64, count := 4, rc := 0xFFFFFFFF },
    /- SHR_P_DOWN_CNT -/ { base := 0xC0120, stride := 64, count := 4, rc := 0xFFFFFFFF },
    /- SHR_P_LOST_FR -/ { base := 0xC0124, stride := 64, count := 4, rc := 0xFFFFFFFF },
    /- SHR_EP_CFG -/ { base := 0xC1000, stride := 64, count := 64, loads := 0xFFFF } ]
  ++
  [
    /- SHR_EP_TX_PEER -/ { base := 0xC1004, stride := 64, count := 64, rw := 0xFFF, loads := 0xFFF },
    /- SHR_EP_RX_PEER -/ { base := 0xC1008, stride := 64, count := 64, rw := 0xFFF, loads := 0xFFF },
    /- SHR_EP_TX_STATUS -/ { base := 0xC100C, stride := 64, count := 64, reset := 0x20 },
    /- SHR_EP_TX_SENT -/ { base := 0xC1010, stride := 64, count := 64 },
    /- SHR_EP_TX_LOST -/ { base := 0xC1014, stride := 64, count := 64 },
    /- SHR_EP_RX_STATUS -/ { base := 0xC1018, stride := 64, count := 64 },
    /- SHR_EP_RX_RECV -/ { base := 0xC101C, stride := 64, count := 64 },
    /- SHR_EP_RX_TAKEN -/ { base := 0xC1020, stride := 64, count := 64 },
    /- SHR_EP_RX_DISC -/ { base := 0xC1024, stride := 64, count := 64, rc := 0xFFFFFFFF },
    /- SHR_EP_DROPS -/ { base := 0xC1028, stride := 64, count := 64, rc := 0xFFFFFFFF } ]

/-- Registers of the STY block (spec/16_stay.md). -/
def rowsSty : List RegRow :=
  [
    /- STY_CFG -/ { base := 0xD0000, loads := 0xFFFF3FFD },
    /- STY_TIMING -/ { base := 0xD0004, loads := 0xFFFFFFFF },
    /- STY_STATUS -/ { base := 0xD0008 },
    /- STY_CMD -/ { base := 0xD000C, wo := 0xFFFF0003 },
    /- STY_ASYM -/ { base := 0xD0010, rw := 0xFFFFFFFF, param := 0xFFFFFFFF },
    /- STY_DELAY -/ { base := 0xD0014 },
    /- STY_LAST_ERR -/ { base := 0xD0018 },
    /- STY_ALIGN_THR -/ { base := 0xD001C, reset := 0x4, rw := 0xFFFF, param := 0xFFFF },
    /- STY_PUSH_COST -/ { base := 0xD0020, reset := 0x14, rw := 0xFFFFFFFF, param := 0xFFFFFFFF },
    /- STY_SIG -/ { base := 0xD0024, loads := 0xFFFFFFFF },
    /- STY_PARTNER_SIG -/ { base := 0xD0028 },
    /- STY_PARTNER_UID -/ { base := 0xD002C, stride := 4, count := 3 } ]
  ++
  [
    /- STY_PARTNER_DSC -/ { base := 0xD0038 },
    /- STY_SLOT_RX -/ { base := 0xD003C },
    /- STY_LAST_TO_LO -/ { base := 0xD0040 },
    /- STY_LAST_TO_HI -/ { base := 0xD0044 },
    /- STY_TAKEOVERS -/ { base := 0xD0048 },
    /- STY_HB_MISS -/ { base := 0xD004C, rc := 0xFFFFFFFF },
    /- STY_SLOT_SKIP -/ { base := 0xD0050, rc := 0xFFFFFFFF },
    /- STY_MIRROR_RX -/ { base := 0xD0054 },
    /- STY_CRC_ERR -/ { base := 0xD0058, rc := 0xFFFFFFFF },
    /- STY_REPLAY -/ { base := 0xD005C, rc := 0xFFFFFFFF },
    /- STY_DOWN_CNT -/ { base := 0xD0060, rc := 0xFFFFFFFF },
    /- STY_LOST_FR -/ { base := 0xD0064, rc := 0xFFFFFFFF } ]
  ++
  [
    /- STY_EVENT -/ { base := 0xD0068, w1c := 0x7F },
    /- STY_IRQ_EN -/ { base := 0xD006C, rw := 0x7F },
    /- STY_SLOTS -/ { base := 0xD0070, loads := 0xFFFFFFFF } ]

/-- Registers of the PWR block (spec/17_power_and_reef.md). -/
def rowsPwr : List RegRow :=
  [
    /- PWR_CMD -/ { base := 0xE0000, wo := 0xFFFF0001 },
    /- PWR_STATUS -/ { base := 0xE0004, w1c := 0x100 },
    /- PWR_VDDF_FLOOR -/ { base := 0xE0008, reset := 0x226, rw := 0x3FF, param := 0x3FF, limits := [⟨0, 10, .clamp 550 950⟩] },
    /- PWR_VDDF_CEIL -/ { base := 0xE000C, reset := 0x3B6, rw := 0x3FF, param := 0x3FF, limits := [⟨0, 10, .clamp 550 950⟩] },
    /- PWR_POWER_CAP -/ { base := 0xE0010, rw := 0xFFFFFFFF, param := 0xFFFFFFFF },
    /- PWR_VDDF_TARGET -/ { base := 0xE0014, reset := 0x3200320 },
    /- PWR_VDDF_MEAS -/ { base := 0xE0018 },
    /- PWR_PACE_CFG -/ { base := 0xE001C, reset := 0x80200A05, rw := 0xFFFFFFFF, param := 0xFFFFFFFF, limits := [⟨8, 8, .clamp 1 255⟩, ⟨0, 8, .clamp 1 255⟩] },
    /- PWR_PACE_TIME -/ { base := 0xE0020, reset := 0x64000A, rw := 0xFFFFFFFF, param := 0xFFFFFFFF, limits := [⟨16, 16, .clamp 1 65535⟩, ⟨0, 16, .clamp 1 65535⟩] },
    /- PWR_PACE_STATUS -/ { base := 0xE0024 },
    /- PWR_PRESS_MS -/ { base := 0xE0028, rc := 0xFFFFFFFF },
    /- PWR_RSV_C -/ { base := 0xE0030, loads := 0xFFFFFFFF } ]
  ++
  [
    /- PWR_RSV_VRANGE -/ { base := 0xE0034, loads := 0xFFFFFFFF },
    /- PWR_RSV_ECAP -/ { base := 0xE0038, loads := 0xFFFFFFFF },
    /- PWR_RSV_VTGT -/ { base := 0xE003C, reset := 0xFFFF, rw := 0xFFFF, param := 0xFFFF },
    /- PWR_RSV_VSTOP -/ { base := 0xE0040 },
    /- PWR_RSV_V -/ { base := 0xE0044 },
    /- PWR_RSV_E -/ { base := 0xE0048 },
    /- PWR_RSV_CTRL -/ { base := 0xE004C, reset := 0x3C00C8, rw := 0xFFFFFFFF, param := 0xFFFFFFFF },
    /- PWR_LEDGER_MARGIN -/ { base := 0xE0050, reset := 0xC350, rw := 0xFFFFFFFF, param := 0xFFFFFFFF },
    /- PWR_LEDGER_COMMIT -/ { base := 0xE0054 },
    /- PWR_LEDGER_LAST -/ { base := 0xE0058 },
    /- PWR_LEDGER_REFUSED -/ { base := 0xE005C, rc := 0xFFFFFFFF },
    /- PWR_EXPOSED -/ { base := 0xE0060, loads := 0xFFFF } ]
  ++
  [
    /- PWR_WAKE_CFG -/ { base := 0xE0064, rw := 0x1FF, param := 0xFF, kept := 0x1FF, limits := [⟨4, 4, .zeroAbove 4⟩, ⟨0, 4, .zeroAbove 4⟩] },
    /- PWR_REEF_STATUS -/ { base := 0xE0068, kept := 0xF },
    /- PWR_VBAT -/ { base := 0xE006C },
    /- PWR_EVENT -/ { base := 0xE0070, w1c := 0x3F },
    /- PWR_IRQ_EN -/ { base := 0xE0074, rw := 0x3F } ]

/-- Registers of the PNL block (spec/06_fabric.md, spec/07_panels.md). -/
def rowsPnl : List RegRow :=
  [
    /- PNL_CTRL -/ { base := 0xF0000, rw := 0x1, param := 0x1 },
    /- PNL_CMD -/ { base := 0xF0004, wo := 0xF },
    /- PNL_SEL -/ { base := 0xF0008, rw := 0xFFFFFF },
    /- PNL_LOAD_SRC -/ { base := 0xF000C, rw := 0x13, limits := [⟨0, 2, .clamp 0 2⟩] },
    /- PNL_LOAD_ADDR -/ { base := 0xF0010, rw := 0xFFFFFFFF },
    /- PNL_QTIMEOUT -/ { base := 0xF0014, reset := 0x64, rw := 0xFFFFF, param := 0xFFFFF, limits := [⟨0, 20, .clamp 1 1048575⟩] },
    /- PNL_LOAD_TIMEOUT -/ { base := 0xF0018, reset := 0x64, rw := 0xFFFF, param := 0xFFFF, limits := [⟨0, 16, .clamp 1 65535⟩] },
    /- PNL_FB_SRC -/ { base := 0xF001C, rw := 0x3, param := 0x3, limits := [⟨0, 2, .clamp 0 1⟩] },
    /- PNL_FB_ADDR -/ { base := 0xF0020, rw := 0xFFFFFFFF, param := 0xFFFFFFFF },
    /- PNL_LOAD_STATUS -/ { base := 0xF0024, reset := 0x4000 },
    /- PNL_LOAD_MASK -/ { base := 0xF0028 },
    /- PNL_LOAD_ERR -/ { base := 0xF002C } ]
  ++
  [
    /- PNL_HOST_DATA -/ { base := 0xF0030, wo := 0xFFFFFFFF },
    /- PNL_TORN -/ { base := 0xF0034 },
    /- PNL_EVENT -/ { base := 0xF0038, w1c := 0x7F },
    /- PNL_IRQ_EN -/ { base := 0xF003C, rw := 0x7F },
    /- PNL_ICP_CFG -/ { base := 0xF0040, rw := 0x3, param := 0x3 },
    /- PNL_FENCE_SIG -/ { base := 0xF0044, loads := 0xFFFFFFFF },
    /- PNL_FCH_COUNT -/ { base := 0xF0048, loads := 0xFFF },
    /- PNL_FCH_SEL -/ { base := 0xF004C, rw := 0x7FF },
    /- PNL_FCH_INFO -/ { base := 0xF0050 },
    /- PNL_FCH_SI_LO -/ { base := 0xF0054 },
    /- PNL_FCH_SI_HI -/ { base := 0xF0058 },
    /- PNL_STATE -/ { base := 0xF0100, stride := 32, count := 24 } ]
  ++
  [
    /- PNL_REL -/ { base := 0xF0104, stride := 32, count := 24 },
    /- PNL_SINK_CNT -/ { base := 0xF0108, stride := 32, count := 24, rc := 0xFFFFFFFF },
    /- PNL_STANDIN_CNT -/ { base := 0xF010C, stride := 32, count := 24, rc := 0xFFFFFFFF },
    /- PNL_LOAD_CNT -/ { base := 0xF0110, stride := 32, count := 24 },
    /- PNL_QTIME -/ { base := 0xF0114, stride := 32, count := 24 },
    /- PNL_RUN_LO -/ { base := 0xF0118, stride := 32, count := 24 },
    /- PNL_RUN_HI -/ { base := 0xF011C, stride := 32, count := 24 },
    /- FAB_STATUS -/ { base := 0xF8000, reset := 0x3 },
    /- FAB_CTRL -/ { base := 0xF8004, reset := 0x1, rw := 0x1, param := 0x1 },
    /- FAB_STUCK_TIME -/ { base := 0xF8008, reset := 0x3E8, rw := 0xFFFFFF, param := 0xFFFFFF, limits := [⟨0, 24, .clamp 1 16777215⟩] },
    /- FAB_STUCK -/ { base := 0xF800C, w1c := 0xFFFFFF },
    /- FAB_ILLEGAL_CNT -/ { base := 0xF8010, rc := 0xFFFFFFFF } ]
  ++
  [
    /- FAB_ILLEGAL_LOC -/ { base := 0xF8014 },
    /- FAB_EP_STALL_TIME -/ { base := 0xF8018, rw := 0xFFFFFF, param := 0xFFFFFF },
    /- FAB_EP_STALL -/ { base := 0xF8020, stride := 4, count := 12, w1c := 0xFFFFFFFF },
    /- EP_BIND -/ { base := 0xF9000, stride := 4, count := 384, loads := 0x7F0FF0F },
    /- EP_COUNT -/ { base := 0xFA000, stride := 4, count := 384 } ]

/-- Registers of the MON block (spec/19_supervisor_and_host.md). -/
def rowsMon : List RegRow :=
  [
    /- MON_DIE_TEMP -/ { base := 0x100000 },
    /- MON_OSC_TEMP -/ { base := 0x100004 },
    /- MON_OSC_RAW -/ { base := 0x100008 },
    /- MON_OSC_RPULL -/ { base := 0x10000C, reset := 0x2710, rw := 0xFFFFFFFF, param := 0xFFFFFFFF },
    /- MON_OSC_R25 -/ { base := 0x100010, reset := 0x2710, rw := 0xFFFFFFFF, param := 0xFFFFFFFF },
    /- MON_OSC_BETA -/ { base := 0x100014, reset := 0xD6B, rw := 0xFFFFFFFF, param := 0xFFFFFFFF },
    /- MON_TEMP_LIM -/ { base := 0x100018, reset := 0x6E006400, rw := 0xFFFFFFFF, param := 0xFFFFFFFF },
    /- MON_TEMP_PEAK -/ { base := 0x10001C, rc := 0xFFFF },
    /- MON_V0 -/ { base := 0x100020 },
    /- MON_V1 -/ { base := 0x100024 },
    /- ERR_STATUS -/ { base := 0x100030 },
    /- ERR_DROPPED -/ { base := 0x100034, rc := 0xFFFFFFFF } ]
  ++
  [
    /- ERR_HEAD_TIME_LO -/ { base := 0x100038 },
    /- ERR_HEAD_TIME_HI -/ { base := 0x10003C },
    /- ERR_HEAD_CODE -/ { base := 0x100040 },
    /- ERR_HEAD_DETAIL -/ { base := 0x100044 },
    /- ERR_CMD -/ { base := 0x100048, wo := 0xFFFF0001 },
    /- ERR_NEXT_SEQ -/ { base := 0x10004C },
    /- MON_EVENT -/ { base := 0x100050, w1c := 0x3F },
    /- MON_IRQ_EN -/ { base := 0x100054, rw := 0x3F } ]

/-- The rows of the block that holds an absolute address (blocks are 64 KiB, spec/01_architecture.md). -/
def rowsOf (a : Nat) : List RegRow :=
  match a / 0x10000 with
  | 0x0 => rowsIdent
  | 0x1 => rowsHst
  | 0x2 => rowsImg
  | 0x3 => rowsFlc
  | 0x4 => rowsMast
  | 0x5 => rowsTmr
  | 0x6 => rowsSht
  | 0x7 => rowsDsc
  | 0x8 => rowsGpio
  | 0x9 => rowsXng
  | 0xA => rowsFifo
  | 0xB => rowsLan
  | 0xC => rowsShr
  | 0xD => rowsSty
  | 0xE => rowsPwr
  | 0xF => rowsPnl
  | 0x10 => rowsMon
  | _ => []

/-- Whether a row covers an address. -/
def RegRow.covers (r : RegRow) (a : Nat) : Bool :=
  r.base ≤ a && (a - r.base) % r.stride == 0 && (a - r.base) / r.stride < r.count

/-- The row of an address, none for an unlisted offset. -/
def findRow (a : Nat) : Option RegRow := (rowsOf a).find? (·.covers a)

/-- The panel that owns an edge port, by geometry (spec/06_fabric.md, the placement table and the panel formula). -/
def panelOfPort (n : Nat) : Nat :=
  let bay : Nat × Nat :=
    if n < 120 then (n, 0)
    else if n < 192 then (119, 4 * (n - 120) / 3)
    else if n < 312 then (311 - n, 95)
    else (0, 4 * (383 - n) / 3)
  6 * (bay.2 / 24) + bay.1 / 20

/-- The word a register holds where nothing has written it: its Reset column, with the panel of an EPn_BIND register
taken from the port's place. -/
def resetWord (a : Nat) : BitVec 32 :=
  match findRow a with
  | some r => BitVec.ofNat 32 (r.reset + if 0xF9000 ≤ a ∧ a < 0xF9600 then panelOfPort ((a - 0xF9000) / 4) <<< 27 else 0)
  | none => 0

/-- The _LO words of the wide registers (spec/00_scope.md R20): address, stride, count. -/
def wides : List (Nat × Nat × Nat) :=

  [(0x10040, 4, 1), (0x10048, 4, 1), (0x20014, 4, 1), (0x2001C, 4, 1), (0x20024, 4, 1), (0x40000, 4, 1),
   (0x40020, 4, 1), (0x40028, 4, 1), (0x40038, 4, 1), (0x50008, 4, 1), (0x51000, 64, 64), (0x51008, 64, 64),
   (0x51010, 64, 64), (0x51018, 64, 64), (0x51020, 64, 64), (0x52000, 32, 256), (0x52018, 32, 256), (0x54000, 64, 64),
   (0x54008, 64, 64), (0x54010, 64, 64), (0x54018, 64, 64), (0x61010, 32, 256), (0x63010, 32, 32), (0x70040, 4, 1),
   (0x70048, 4, 1), (0x70050, 4, 1), (0x70058, 4, 1), (0x70064, 4, 1), (0x70078, 4, 1), (0x700A8, 4, 1),
   (0x81100, 8, 16), (0x91018, 32, 96), (0xA1040, 128, 64), (0xA1050, 128, 64), (0xB1024, 256, 8), (0xB1034, 256, 8),
   (0xD0040, 4, 1), (0xF0054, 4, 1), (0xF0118, 32, 24), (0x100038, 4, 1)]

/-- The _LO word of a wide register. -/
def isWideLo (a : Nat) : Bool := wides.any fun w => w.1 ≤ a && (a - w.1) % w.2.1 == 0 && (a - w.1) / w.2.1 < w.2.2

namespace F

/-- DEV_ID: address. -/
abbrev DEV_ID : Nat := 0x0
abbrev DEV_ID_DEV : Fld := ⟨0x0, 0, 32⟩
/-- REV_ID: address. -/
abbrev REV_ID : Nat := 0x4
abbrev REV_ID_MAJOR : Fld := ⟨0x4, 4, 4⟩
abbrev REV_ID_MINOR : Fld := ⟨0x4, 0, 4⟩
/-- MODE_STATUS: address. -/
abbrev MODE_STATUS : Nat := 0x8
abbrev MODE_STATUS_PFI_PAUSED : Fld := ⟨0x8, 10, 1⟩
abbrev MODE_STATUS_GOLDEN : Fld := ⟨0x8, 9, 1⟩
abbrev MODE_STATUS_PARKED : Fld := ⟨0x8, 8, 1⟩
abbrev MODE_STATUS_HOIST_STEP : Fld := ⟨0x8, 4, 4⟩
abbrev MODE_STATUS_REEFING : Fld := ⟨0x8, 2, 1⟩
abbrev MODE_STATUS_MODE : Fld := ⟨0x8, 0, 2⟩
/-- HOIST_CAUSE: address. -/
abbrev HOIST_CAUSE : Nat := 0xC
abbrev HOIST_CAUSE_PFI_RESTART : Fld := ⟨0xC, 9, 1⟩
abbrev HOIST_CAUSE_VBAT_LOST : Fld := ⟨0xC, 8, 1⟩
abbrev HOIST_CAUSE_WAKE_PG : Fld := ⟨0xC, 7, 1⟩
abbrev HOIST_CAUSE_WAKE_TMR : Fld := ⟨0xC, 6, 1⟩
abbrev HOIST_CAUSE_WAKE1 : Fld := ⟨0xC, 5, 1⟩
abbrev HOIST_CAUSE_WAKE0 : Fld := ⟨0xC, 4, 1⟩
abbrev HOIST_CAUSE_CAUSE : Fld := ⟨0xC, 0, 4⟩
/-- FEAT_OFFER: address. -/
abbrev FEAT_OFFER (i : Nat) : Nat := 0x10 + 4 * i
abbrev FEAT_OFFER_OFFER (i : Nat) : Fld := ⟨0x10 + 4 * i, 0, 32⟩
/-- FEAT_ACCEPT: address. -/
abbrev FEAT_ACCEPT (i : Nat) : Nat := 0x20 + 4 * i
abbrev FEAT_ACCEPT_ACCEPT (i : Nat) : Fld := ⟨0x20 + 4 * i, 0, 32⟩
/-- FEAT_LOCK: address. -/
abbrev FEAT_LOCK : Nat := 0x30
abbrev FEAT_LOCK_LOCK : Fld := ⟨0x30, 0, 1⟩
/-- IRQ_STATUS: address. -/
abbrev IRQ_STATUS : Nat := 0x40
abbrev IRQ_STATUS_LINE : Fld := ⟨0x40, 0, 32⟩
/-- IRQ_HOST_DIS: address. -/
abbrev IRQ_HOST_DIS : Nat := 0x44
abbrev IRQ_HOST_DIS_DIS : Fld := ⟨0x44, 0, 15⟩
/-- IRQ_SUP_DIS: address. -/
abbrev IRQ_SUP_DIS : Nat := 0x48
abbrev IRQ_SUP_DIS_DIS : Fld := ⟨0x48, 0, 15⟩
/-- SUP_STATUS: address. -/
abbrev SUP_STATUS : Nat := 0x50
abbrev SUP_STATUS_USER : Fld := ⟨0x50, 3, 1⟩
abbrev SUP_STATUS_TRAPPED : Fld := ⟨0x50, 2, 1⟩
abbrev SUP_STATUS_EPISODE : Fld := ⟨0x50, 1, 1⟩
abbrev SUP_STATUS_HALTED : Fld := ⟨0x50, 0, 1⟩
/-- SUP_LAST_CAUSE: address. -/
abbrev SUP_LAST_CAUSE : Nat := 0x54
abbrev SUP_LAST_CAUSE_VALUE : Fld := ⟨0x54, 0, 32⟩
/-- SUP_LAST_EPC: address. -/
abbrev SUP_LAST_EPC : Nat := 0x58
abbrev SUP_LAST_EPC_VALUE : Fld := ⟨0x58, 0, 32⟩
/-- SUP_EVENT: address. -/
abbrev SUP_EVENT : Nat := 0x5C
abbrev SUP_EVENT_HOST : Fld := ⟨0x5C, 3, 1⟩
abbrev SUP_EVENT_MBOX_REF : Fld := ⟨0x5C, 2, 1⟩
abbrev SUP_EVENT_MBOX : Fld := ⟨0x5C, 1, 1⟩
abbrev SUP_EVENT_TRAP : Fld := ⟨0x5C, 0, 1⟩
/-- SUP_IRQ_EN: address. -/
abbrev SUP_IRQ_EN : Nat := 0x60
abbrev SUP_IRQ_EN_HOST : Fld := ⟨0x60, 3, 1⟩
abbrev SUP_IRQ_EN_MBOX_REF : Fld := ⟨0x60, 2, 1⟩
abbrev SUP_IRQ_EN_MBOX : Fld := ⟨0x60, 1, 1⟩
abbrev SUP_IRQ_EN_TRAP : Fld := ⟨0x60, 0, 1⟩
/-- MBOX_CMD: address. -/
abbrev MBOX_CMD : Nat := 0x80
abbrev MBOX_CMD_KEY : Fld := ⟨0x80, 16, 16⟩
abbrev MBOX_CMD_FAMILY : Fld := ⟨0x80, 8, 1⟩
abbrev MBOX_CMD_INDEX : Fld := ⟨0x80, 0, 4⟩
/-- MBOX_STATUS: address. -/
abbrev MBOX_STATUS : Nat := 0x84
abbrev MBOX_STATUS_BUSY : Fld := ⟨0x84, 8, 1⟩
abbrev MBOX_STATUS_REFUSE : Fld := ⟨0x84, 0, 8⟩
/-- MBOX_ARG: address. -/
abbrev MBOX_ARG (i : Nat) : Nat := 0x88 + 4 * i
abbrev MBOX_ARG_VALUE (i : Nat) : Fld := ⟨0x88 + 4 * i, 0, 32⟩
/-- MBOX_RET: address. -/
abbrev MBOX_RET (i : Nat) : Nat := 0x98 + 4 * i
abbrev MBOX_RET_VALUE (i : Nat) : Fld := ⟨0x98 + 4 * i, 0, 32⟩
/-- MBOX_BUF_ADDR: address. -/
abbrev MBOX_BUF_ADDR : Nat := 0xA4
abbrev MBOX_BUF_ADDR_WORD : Fld := ⟨0xA4, 2, 10⟩
/-- MBOX_BUF_DATA: address. -/
abbrev MBOX_BUF_DATA : Nat := 0xA8
abbrev MBOX_BUF_DATA_DATA : Fld := ⟨0xA8, 0, 32⟩
/-- HST_CMD: address. -/
abbrev HST_CMD : Nat := 0x10000
abbrev HST_CMD_KEY : Fld := ⟨0x10000, 16, 16⟩
abbrev HST_CMD_HOST_LOAD : Fld := ⟨0x10000, 1, 1⟩
abbrev HST_CMD_REHOIST : Fld := ⟨0x10000, 0, 1⟩
/-- HST_STRAPS: address. -/
abbrev HST_STRAPS : Nat := 0x10004
abbrev HST_STRAPS_ADDR : Fld := ⟨0x10004, 5, 6⟩
abbrev HST_STRAPS_ROLE : Fld := ⟨0x10004, 4, 1⟩
abbrev HST_STRAPS_COORD : Fld := ⟨0x10004, 3, 1⟩
abbrev HST_STRAPS_BOOTSEL : Fld := ⟨0x10004, 0, 3⟩
/-- BOOT_STATUS: address. -/
abbrev BOOT_STATUS : Nat := 0x10008
abbrev BOOT_STATUS_CLK : Fld := ⟨0x10008, 16, 2⟩
abbrev BOOT_STATUS_DIR_COPY : Fld := ⟨0x10008, 15, 1⟩
abbrev BOOT_STATUS_HAL_ALONE : Fld := ⟨0x10008, 13, 1⟩
abbrev BOOT_STATUS_PARKED : Fld := ⟨0x10008, 12, 1⟩
abbrev BOOT_STATUS_GOLDEN : Fld := ⟨0x10008, 11, 1⟩
abbrev BOOT_STATUS_CAND : Fld := ⟨0x10008, 8, 3⟩
abbrev BOOT_STATUS_ATTEMPTS : Fld := ⟨0x10008, 4, 4⟩
abbrev BOOT_STATUS_REASON : Fld := ⟨0x10008, 0, 4⟩
/-- HST_REL_CFG: address. -/
abbrev HST_REL_CFG : Nat := 0x1000C
abbrev HST_REL_CFG_ORDER : Fld := ⟨0x1000C, 0, 3⟩
/-- HST_REL_GAP1: address. -/
abbrev HST_REL_GAP1 : Nat := 0x10010
abbrev HST_REL_GAP1_GAP : Fld := ⟨0x10010, 0, 32⟩
/-- HST_REL_GAP2: address. -/
abbrev HST_REL_GAP2 : Nat := 0x10014
abbrev HST_REL_GAP2_GAP : Fld := ⟨0x10014, 0, 32⟩
/-- HST_PLL_WAIT: address. -/
abbrev HST_PLL_WAIT : Nat := 0x10018
abbrev HST_PLL_WAIT_US : Fld := ⟨0x10018, 0, 24⟩
/-- HST_PLL_STATUS: address. -/
abbrev HST_PLL_STATUS : Nat := 0x1001C
abbrev HST_PLL_STATUS_REQ : Fld := ⟨0x1001C, 16, 14⟩
abbrev HST_PLL_STATUS_LOCK : Fld := ⟨0x1001C, 0, 14⟩
/-- HST_HAL_CFG: address. -/
abbrev HST_HAL_CFG : Nat := 0x10020
abbrev HST_HAL_CFG_TO_MS : Fld := ⟨0x10020, 0, 16⟩
/-- HST_HAL_STATUS: address. -/
abbrev HST_HAL_STATUS : Nat := 0x10024
abbrev HST_HAL_STATUS_TAKEN : Fld := ⟨0x10024, 2, 1⟩
abbrev HST_HAL_STATUS_DRIVE : Fld := ⟨0x10024, 1, 1⟩
abbrev HST_HAL_STATUS_LEVEL : Fld := ⟨0x10024, 0, 1⟩
/-- HST_HOST_DATA: address. -/
abbrev HST_HOST_DATA : Nat := 0x10028
abbrev HST_HOST_DATA_DATA : Fld := ⟨0x10028, 0, 32⟩
/-- HST_HOST_STATUS: address. -/
abbrev HST_HOST_STATUS : Nat := 0x1002C
abbrev HST_HOST_STATUS_HBUF_FREE : Fld := ⟨0x1002C, 8, 8⟩
abbrev HST_HOST_STATUS_WAITING : Fld := ⟨0x1002C, 1, 1⟩
abbrev HST_HOST_STATUS_BUSY : Fld := ⟨0x1002C, 0, 1⟩
/-- HST_FLASH_INFO: address. -/
abbrev HST_FLASH_INFO : Nat := 0x10030
abbrev HST_FLASH_INFO_MFR : Fld := ⟨0x10030, 24, 8⟩
abbrev HST_FLASH_INFO_BFPT_REV : Fld := ⟨0x10030, 16, 8⟩
abbrev HST_FLASH_INFO_DENSITY : Fld := ⟨0x10030, 8, 8⟩
abbrev HST_FLASH_INFO_ADDR4 : Fld := ⟨0x10030, 4, 1⟩
abbrev HST_FLASH_INFO_WIDTH : Fld := ⟨0x10030, 2, 2⟩
abbrev HST_FLASH_INFO_SFDP_OK : Fld := ⟨0x10030, 1, 1⟩
abbrev HST_FLASH_INFO_PRESENT : Fld := ⟨0x10030, 0, 1⟩
/-- HST_PULL_FUSE: address. -/
abbrev HST_PULL_FUSE : Nat := 0x10034
abbrev HST_PULL_FUSE_PULL : Fld := ⟨0x10034, 0, 32⟩
/-- HST_EVENT: address. -/
abbrev HST_EVENT : Nat := 0x10038
abbrev HST_EVENT_JOURNAL : Fld := ⟨0x10038, 6, 1⟩
abbrev HST_EVENT_WAITING : Fld := ⟨0x10038, 5, 1⟩
abbrev HST_EVENT_HAL_ALONE : Fld := ⟨0x10038, 4, 1⟩
abbrev HST_EVENT_PARKED : Fld := ⟨0x10038, 3, 1⟩
abbrev HST_EVENT_GOLDEN : Fld := ⟨0x10038, 2, 1⟩
abbrev HST_EVENT_ATTEMPT_FAIL : Fld := ⟨0x10038, 1, 1⟩
abbrev HST_EVENT_SAIL : Fld := ⟨0x10038, 0, 1⟩
/-- HST_IRQ_EN: address. -/
abbrev HST_IRQ_EN : Nat := 0x1003C
abbrev HST_IRQ_EN_JOURNAL : Fld := ⟨0x1003C, 6, 1⟩
abbrev HST_IRQ_EN_WAITING : Fld := ⟨0x1003C, 5, 1⟩
abbrev HST_IRQ_EN_HAL_ALONE : Fld := ⟨0x1003C, 4, 1⟩
abbrev HST_IRQ_EN_PARKED : Fld := ⟨0x1003C, 3, 1⟩
abbrev HST_IRQ_EN_GOLDEN : Fld := ⟨0x1003C, 2, 1⟩
abbrev HST_IRQ_EN_ATTEMPT_FAIL : Fld := ⟨0x1003C, 1, 1⟩
abbrev HST_IRQ_EN_SAIL : Fld := ⟨0x1003C, 0, 1⟩
/-- HST_T_START_LO: address. -/
abbrev HST_T_START_LO : Nat := 0x10040
abbrev HST_T_START_LO_MAST : Fld := ⟨0x10040, 0, 32⟩
/-- HST_T_START_HI: address. -/
abbrev HST_T_START_HI : Nat := 0x10044
abbrev HST_T_START_HI_MAST : Fld := ⟨0x10044, 0, 32⟩
/-- HST_T_SAIL_LO: address. -/
abbrev HST_T_SAIL_LO : Nat := 0x10048
abbrev HST_T_SAIL_LO_MAST : Fld := ⟨0x10048, 0, 32⟩
/-- HST_T_SAIL_HI: address. -/
abbrev HST_T_SAIL_HI : Nat := 0x1004C
abbrev HST_T_SAIL_HI_MAST : Fld := ⟨0x1004C, 0, 32⟩
/-- HST_STEP_US: address. -/
abbrev HST_STEP_US (i : Nat) : Nat := 0x10050 + 4 * i
abbrev HST_STEP_US_US (i : Nat) : Fld := ⟨0x10050 + 4 * i, 0, 32⟩
/-- HST_ATTEMPT: address. -/
abbrev HST_ATTEMPT (i : Nat) : Nat := 0x10080 + 4 * i
abbrev HST_ATTEMPT_CODE (i : Nat) : Fld := ⟨0x10080 + 4 * i, 16, 16⟩
abbrev HST_ATTEMPT_CLK (i : Nat) : Fld := ⟨0x10080 + 4 * i, 14, 2⟩
abbrev HST_ATTEMPT_CAND (i : Nat) : Fld := ⟨0x10080 + 4 * i, 8, 3⟩
abbrev HST_ATTEMPT_REASON (i : Nat) : Fld := ⟨0x10080 + 4 * i, 0, 4⟩
/-- UPD_STATUS: address. -/
abbrev UPD_STATUS : Nat := 0x10100
abbrev UPD_STATUS_LAST : Fld := ⟨0x10100, 24, 8⟩
abbrev UPD_STATUS_SLOTB : Fld := ⟨0x10100, 20, 4⟩
abbrev UPD_STATUS_SLOTA : Fld := ⟨0x10100, 16, 4⟩
abbrev UPD_STATUS_DIR1_OK : Fld := ⟨0x10100, 15, 1⟩
abbrev UPD_STATUS_DIR0_OK : Fld := ⟨0x10100, 14, 1⟩
abbrev UPD_STATUS_BUSY : Fld := ⟨0x10100, 13, 1⟩
abbrev UPD_STATUS_GOLDEN_OK : Fld := ⟨0x10100, 12, 1⟩
abbrev UPD_STATUS_ATTEMPT : Fld := ⟨0x10100, 9, 3⟩
abbrev UPD_STATUS_TRIAL : Fld := ⟨0x10100, 8, 1⟩
abbrev UPD_STATUS_RUN : Fld := ⟨0x10100, 0, 3⟩
/-- UPD_CFG: address. -/
abbrev UPD_CFG : Nat := 0x10104
abbrev UPD_CFG_HO_GUARD : Fld := ⟨0x10104, 16, 1⟩
abbrev UPD_CFG_CONFIRM_S : Fld := ⟨0x10104, 0, 16⟩
/-- UPD_WIN_LEFT: address. -/
abbrev UPD_WIN_LEFT : Nat := 0x10108
abbrev UPD_WIN_LEFT_S : Fld := ⟨0x10108, 0, 16⟩
/-- UPD_TRIAL_ID: address. -/
abbrev UPD_TRIAL_ID : Nat := 0x1010C
abbrev UPD_TRIAL_ID_ID : Fld := ⟨0x1010C, 0, 32⟩
/-- UPD_TRIAL_CNT: address. -/
abbrev UPD_TRIAL_CNT : Nat := 0x10110
abbrev UPD_TRIAL_CNT_VALID : Fld := ⟨0x10110, 2, 1⟩
abbrev UPD_TRIAL_CNT_CNT : Fld := ⟨0x10110, 0, 2⟩
/-- UPD_COST_ERASE: address. -/
abbrev UPD_COST_ERASE : Nat := 0x10114
abbrev UPD_COST_ERASE_UJ : Fld := ⟨0x10114, 0, 32⟩
/-- UPD_COST_PAGE: address. -/
abbrev UPD_COST_PAGE : Nat := 0x10118
abbrev UPD_COST_PAGE_UJ : Fld := ⟨0x10118, 0, 32⟩
/-- UPD_DIR_GEN: address. -/
abbrev UPD_DIR_GEN : Nat := 0x1011C
abbrev UPD_DIR_GEN_GEN : Fld := ⟨0x1011C, 0, 32⟩
/-- UPD_DIR_USED: address. -/
abbrev UPD_DIR_USED : Nat := 0x10120
abbrev UPD_DIR_USED_N : Fld := ⟨0x10120, 0, 10⟩
/-- IMG_CMD: address. -/
abbrev IMG_CMD : Nat := 0x20000
abbrev IMG_CMD_KEY : Fld := ⟨0x20000, 16, 16⟩
abbrev IMG_CMD_SVN_COMMIT : Fld := ⟨0x20000, 7, 1⟩
abbrev IMG_CMD_FUSE_PROG : Fld := ⟨0x20000, 6, 1⟩
abbrev IMG_CMD_PL_LOWER : Fld := ⟨0x20000, 5, 1⟩
abbrev IMG_CMD_PL_RAISE : Fld := ⟨0x20000, 4, 1⟩
abbrev IMG_CMD_BBK_LOAD : Fld := ⟨0x20000, 3, 1⟩
abbrev IMG_CMD_DBG_UNLOCK : Fld := ⟨0x20000, 2, 1⟩
abbrev IMG_CMD_DBG_CHAL : Fld := ⟨0x20000, 1, 1⟩
abbrev IMG_CMD_ZEROISE : Fld := ⟨0x20000, 0, 1⟩
/-- IMG_STATUS: address. -/
abbrev IMG_STATUS : Nat := 0x20004
abbrev IMG_STATUS_BUSY : Fld := ⟨0x20004, 15, 1⟩
abbrev IMG_STATUS_OPEN_KEY : Fld := ⟨0x20004, 14, 1⟩
abbrev IMG_STATUS_TAMPERED : Fld := ⟨0x20004, 13, 1⟩
abbrev IMG_STATUS_DBG_UNLOCKED : Fld := ⟨0x20004, 12, 1⟩
abbrev IMG_STATUS_BBK_VALID : Fld := ⟨0x20004, 11, 1⟩
abbrev IMG_STATUS_EFK_VALID : Fld := ⟨0x20004, 10, 1⟩
abbrev IMG_STATUS_PK1_OK : Fld := ⟨0x20004, 9, 1⟩
abbrev IMG_STATUS_PK0_OK : Fld := ⟨0x20004, 8, 1⟩
abbrev IMG_STATUS_PL2_FUSE : Fld := ⟨0x20004, 2, 1⟩
abbrev IMG_STATUS_PL : Fld := ⟨0x20004, 0, 2⟩
/-- IMG_INFO: address. -/
abbrev IMG_INFO : Nat := 0x20008
abbrev IMG_INFO_ROLLS : Fld := ⟨0x20008, 24, 8⟩
abbrev IMG_INFO_ENC : Fld := ⟨0x20008, 7, 1⟩
abbrev IMG_INFO_KEYSRC : Fld := ⟨0x20008, 6, 1⟩
abbrev IMG_INFO_PK_SLOT : Fld := ⟨0x20008, 5, 1⟩
abbrev IMG_INFO_KIND : Fld := ⟨0x20008, 0, 5⟩
/-- IMG_SVN: address. -/
abbrev IMG_SVN : Nat := 0x2000C
abbrev IMG_SVN_MIN_SVN : Fld := ⟨0x2000C, 16, 7⟩
abbrev IMG_SVN_SVN : Fld := ⟨0x2000C, 0, 16⟩
/-- IMG_BUILD_ID: address. -/
abbrev IMG_BUILD_ID : Nat := 0x20010
abbrev IMG_BUILD_ID_VALUE : Fld := ⟨0x20010, 0, 32⟩
/-- IMG_NONCE_LO: address. -/
abbrev IMG_NONCE_LO : Nat := 0x20014
abbrev IMG_NONCE_LO_VALUE : Fld := ⟨0x20014, 0, 32⟩
/-- IMG_NONCE_HI: address. -/
abbrev IMG_NONCE_HI : Nat := 0x20018
abbrev IMG_NONCE_HI_VALUE : Fld := ⟨0x20018, 0, 32⟩
/-- IMG_EFK_KCV_LO: address. -/
abbrev IMG_EFK_KCV_LO : Nat := 0x2001C
abbrev IMG_EFK_KCV_LO_KCV : Fld := ⟨0x2001C, 0, 32⟩
/-- IMG_EFK_KCV_HI: address. -/
abbrev IMG_EFK_KCV_HI : Nat := 0x20020
abbrev IMG_EFK_KCV_HI_KCV : Fld := ⟨0x20020, 0, 32⟩
/-- IMG_BBK_KCV_LO: address. -/
abbrev IMG_BBK_KCV_LO : Nat := 0x20024
abbrev IMG_BBK_KCV_LO_KCV : Fld := ⟨0x20024, 0, 32⟩
/-- IMG_BBK_KCV_HI: address. -/
abbrev IMG_BBK_KCV_HI : Nat := 0x20028
abbrev IMG_BBK_KCV_HI_KCV : Fld := ⟨0x20028, 0, 32⟩
/-- IMG_BBK_DATA: address. -/
abbrev IMG_BBK_DATA (i : Nat) : Nat := 0x20030 + 4 * i
abbrev IMG_BBK_DATA_KEY (i : Nat) : Fld := ⟨0x20030 + 4 * i, 0, 32⟩
/-- IMG_DBG_CHAL: address. -/
abbrev IMG_DBG_CHAL (i : Nat) : Nat := 0x20050 + 4 * i
abbrev IMG_DBG_CHAL_CHAL (i : Nat) : Fld := ⟨0x20050 + 4 * i, 0, 32⟩
/-- IMG_DBG_TOKEN: address. -/
abbrev IMG_DBG_TOKEN : Nat := 0x20060
abbrev IMG_DBG_TOKEN_WORD : Fld := ⟨0x20060, 0, 32⟩
/-- IMG_DBG_TOKEN_CNT: address. -/
abbrev IMG_DBG_TOKEN_CNT : Nat := 0x20064
abbrev IMG_DBG_TOKEN_CNT_N : Fld := ⟨0x20064, 0, 6⟩
/-- IMG_RB_ADDR: address. -/
abbrev IMG_RB_ADDR : Nat := 0x20068
abbrev IMG_RB_ADDR_ADDR : Fld := ⟨0x20068, 0, 32⟩
/-- IMG_RB_DATA: address. -/
abbrev IMG_RB_DATA : Nat := 0x2006C
abbrev IMG_RB_DATA_DATA : Fld := ⟨0x2006C, 0, 32⟩
/-- IMG_FUSE_ADDR: address. -/
abbrev IMG_FUSE_ADDR : Nat := 0x20070
abbrev IMG_FUSE_ADDR_WORD : Fld := ⟨0x20070, 0, 6⟩
/-- IMG_FUSE_DATA: address. -/
abbrev IMG_FUSE_DATA : Nat := 0x20074
abbrev IMG_FUSE_DATA_BITS : Fld := ⟨0x20074, 0, 32⟩
/-- IMG_UID: address. -/
abbrev IMG_UID (i : Nat) : Nat := 0x20078 + 4 * i
abbrev IMG_UID_UID (i : Nat) : Fld := ⟨0x20078 + 4 * i, 0, 32⟩
/-- IMG_EVENT: address. -/
abbrev IMG_EVENT : Nat := 0x20084
abbrev IMG_EVENT_UNLOCK : Fld := ⟨0x20084, 3, 1⟩
abbrev IMG_EVENT_REFUSED : Fld := ⟨0x20084, 2, 1⟩
abbrev IMG_EVENT_ZEROISED : Fld := ⟨0x20084, 1, 1⟩
abbrev IMG_EVENT_DONE : Fld := ⟨0x20084, 0, 1⟩
/-- IMG_IRQ_EN: address. -/
abbrev IMG_IRQ_EN : Nat := 0x20088
abbrev IMG_IRQ_EN_UNLOCK : Fld := ⟨0x20088, 3, 1⟩
abbrev IMG_IRQ_EN_REFUSED : Fld := ⟨0x20088, 2, 1⟩
abbrev IMG_IRQ_EN_ZEROISED : Fld := ⟨0x20088, 1, 1⟩
abbrev IMG_IRQ_EN_DONE : Fld := ⟨0x20088, 0, 1⟩
/-- FLC_CTRL: address. -/
abbrev FLC_CTRL : Nat := 0x30000
abbrev FLC_CTRL_KEY : Fld := ⟨0x30000, 16, 16⟩
abbrev FLC_CTRL_OP : Fld := ⟨0x30000, 1, 2⟩
abbrev FLC_CTRL_GO : Fld := ⟨0x30000, 0, 1⟩
/-- FLC_ADDR: address. -/
abbrev FLC_ADDR : Nat := 0x30004
abbrev FLC_ADDR_OFS : Fld := ⟨0x30004, 0, 24⟩
/-- FLC_SRC: address. -/
abbrev FLC_SRC : Nat := 0x30008
abbrev FLC_SRC_ADDR : Fld := ⟨0x30008, 0, 32⟩
/-- FLC_STATUS: address. -/
abbrev FLC_STATUS : Nat := 0x3000C
abbrev FLC_STATUS_RESULT : Fld := ⟨0x3000C, 4, 4⟩
abbrev FLC_STATUS_BLANK : Fld := ⟨0x3000C, 3, 1⟩
abbrev FLC_STATUS_DONE : Fld := ⟨0x3000C, 2, 1⟩
abbrev FLC_STATUS_BUSY_B : Fld := ⟨0x3000C, 1, 1⟩
abbrev FLC_STATUS_BUSY_A : Fld := ⟨0x3000C, 0, 1⟩
/-- FLC_PULSES: address. -/
abbrev FLC_PULSES : Nat := 0x30010
abbrev FLC_PULSES_N : Fld := ⟨0x30010, 0, 6⟩
/-- FLC_WARN: address. -/
abbrev FLC_WARN : Nat := 0x30014
abbrev FLC_WARN_LEVEL : Fld := ⟨0x30014, 0, 3⟩
/-- FLC_LAST_CE: address. -/
abbrev FLC_LAST_CE : Nat := 0x30018
abbrev FLC_LAST_CE_COUNT : Fld := ⟨0x30018, 24, 4⟩
abbrev FLC_LAST_CE_OFS : Fld := ⟨0x30018, 0, 24⟩
/-- FLC_PATROL_CFG: address. -/
abbrev FLC_PATROL_CFG : Nat := 0x3001C
abbrev FLC_PATROL_CFG_MS : Fld := ⟨0x3001C, 0, 16⟩
/-- FLC_PATROL_STATUS: address. -/
abbrev FLC_PATROL_STATUS : Nat := 0x30020
abbrev FLC_PATROL_STATUS_PASSES : Fld := ⟨0x30020, 16, 16⟩
abbrev FLC_PATROL_STATUS_WARNS : Fld := ⟨0x30020, 0, 16⟩
/-- FLC_PATROL_POS: address. -/
abbrev FLC_PATROL_POS : Nat := 0x30024
abbrev FLC_PATROL_POS_OFS : Fld := ⟨0x30024, 0, 24⟩
/-- FLC_SYS: address. -/
abbrev FLC_SYS : Nat := 0x30028
abbrev FLC_SYS_LEVEL : Fld := ⟨0x30028, 1, 1⟩
abbrev FLC_SYS_ACTIVE : Fld := ⟨0x30028, 0, 1⟩
/-- MAST_NOW_LO: address. -/
abbrev MAST_NOW_LO : Nat := 0x40000
abbrev MAST_NOW_LO_NOW : Fld := ⟨0x40000, 0, 32⟩
/-- MAST_NOW_HI: address. -/
abbrev MAST_NOW_HI : Nat := 0x40004
abbrev MAST_NOW_HI_NOW : Fld := ⟨0x40004, 0, 32⟩
/-- MAST_FRAC: address. -/
abbrev MAST_FRAC : Nat := 0x40008
abbrev MAST_FRAC_FRAC : Fld := ⟨0x40008, 0, 24⟩
/-- MAST_STATUS: address. -/
abbrev MAST_STATUS : Nat := 0x4000C
abbrev MAST_STATUS_XT_OK : Fld := ⟨0x4000C, 7, 1⟩
abbrev MAST_STATUS_RCAL_VALID : Fld := ⟨0x4000C, 6, 1⟩
abbrev MAST_STATUS_DOMAIN : Fld := ⟨0x4000C, 5, 1⟩
abbrev MAST_STATUS_RAMPING : Fld := ⟨0x4000C, 4, 1⟩
abbrev MAST_STATUS_SLEWING : Fld := ⟨0x4000C, 3, 1⟩
abbrev MAST_STATUS_SET : Fld := ⟨0x4000C, 2, 1⟩
abbrev MAST_STATUS_REF_OK : Fld := ⟨0x4000C, 1, 1⟩
abbrev MAST_STATUS_PLL_LOCK : Fld := ⟨0x4000C, 0, 1⟩
/-- MAST_CTRL: address. -/
abbrev MAST_CTRL : Nat := 0x40010
abbrev MAST_CTRL_SLEW_CANCEL : Fld := ⟨0x40010, 3, 1⟩
abbrev MAST_CTRL_MARK_SET : Fld := ⟨0x40010, 2, 1⟩
abbrev MAST_CTRL_UNSET : Fld := ⟨0x40010, 1, 1⟩
abbrev MAST_CTRL_PH_MODE : Fld := ⟨0x40010, 0, 1⟩
/-- MAST_FREQ: address. -/
abbrev MAST_FREQ : Nat := 0x40014
abbrev MAST_FREQ_FREQ : Fld := ⟨0x40014, 0, 32⟩
/-- MAST_FREQ_EFF: address. -/
abbrev MAST_FREQ_EFF : Nat := 0x40018
abbrev MAST_FREQ_EFF_FREQ : Fld := ⟨0x40018, 0, 32⟩
/-- MAST_SLEW_LIMIT: address. -/
abbrev MAST_SLEW_LIMIT : Nat := 0x4001C
abbrev MAST_SLEW_LIMIT_LIMIT_NS : Fld := ⟨0x4001C, 0, 14⟩
/-- MAST_PHASE_LO: address. -/
abbrev MAST_PHASE_LO : Nat := 0x40020
abbrev MAST_PHASE_LO_PHASE : Fld := ⟨0x40020, 0, 32⟩
/-- MAST_PHASE_HI: address. -/
abbrev MAST_PHASE_HI : Nat := 0x40024
abbrev MAST_PHASE_HI_PHASE : Fld := ⟨0x40024, 0, 32⟩
/-- MAST_REM_LO: address. -/
abbrev MAST_REM_LO : Nat := 0x40028
abbrev MAST_REM_LO_REM : Fld := ⟨0x40028, 0, 32⟩
/-- MAST_REM_HI: address. -/
abbrev MAST_REM_HI : Nat := 0x4002C
abbrev MAST_REM_HI_REM : Fld := ⟨0x4002C, 0, 32⟩
/-- MAST_SLEW_TERM: address. -/
abbrev MAST_SLEW_TERM : Nat := 0x40030
abbrev MAST_SLEW_TERM_S : Fld := ⟨0x40030, 0, 32⟩
/-- MAST_PLL_CFG: address. -/
abbrev MAST_PLL_CFG : Nat := 0x40034
abbrev MAST_PLL_CFG_REFIN_SEL : Fld := ⟨0x40034, 0, 3⟩
/-- MAST_RCAL_LO: address. -/
abbrev MAST_RCAL_LO : Nat := 0x40038
abbrev MAST_RCAL_LO_TICK : Fld := ⟨0x40038, 0, 32⟩
/-- MAST_RCAL_HI: address. -/
abbrev MAST_RCAL_HI : Nat := 0x4003C
abbrev MAST_RCAL_HI_TICK : Fld := ⟨0x4003C, 0, 10⟩
/-- MAST_RCAL_PPB: address. -/
abbrev MAST_RCAL_PPB : Nat := 0x40040
abbrev MAST_RCAL_PPB_PPB : Fld := ⟨0x40040, 0, 32⟩
/-- MAST_RCAL_AGE: address. -/
abbrev MAST_RCAL_AGE : Nat := 0x40044
abbrev MAST_RCAL_AGE_AGE : Fld := ⟨0x40044, 0, 32⟩
/-- MAST_EVENT: address. -/
abbrev MAST_EVENT : Nat := 0x40048
abbrev MAST_EVENT_SLEW_DONE : Fld := ⟨0x40048, 8, 1⟩
abbrev MAST_EVENT_UNSET_REFUSED : Fld := ⟨0x40048, 7, 1⟩
abbrev MAST_EVENT_STAGE_DROP : Fld := ⟨0x40048, 6, 1⟩
abbrev MAST_EVENT_XT_STOP : Fld := ⟨0x40048, 5, 1⟩
abbrev MAST_EVENT_RCAL_BAD : Fld := ⟨0x40048, 4, 1⟩
abbrev MAST_EVENT_REM_CLAMP : Fld := ⟨0x40048, 3, 1⟩
abbrev MAST_EVENT_STEP_CONV : Fld := ⟨0x40048, 2, 1⟩
abbrev MAST_EVENT_REF_LOST : Fld := ⟨0x40048, 1, 1⟩
abbrev MAST_EVENT_PLL_UNLOCK : Fld := ⟨0x40048, 0, 1⟩
/-- MAST_IRQ_EN: address. -/
abbrev MAST_IRQ_EN : Nat := 0x4004C
abbrev MAST_IRQ_EN_SLEW_DONE : Fld := ⟨0x4004C, 8, 1⟩
abbrev MAST_IRQ_EN_UNSET_REFUSED : Fld := ⟨0x4004C, 7, 1⟩
abbrev MAST_IRQ_EN_STAGE_DROP : Fld := ⟨0x4004C, 6, 1⟩
abbrev MAST_IRQ_EN_XT_STOP : Fld := ⟨0x4004C, 5, 1⟩
abbrev MAST_IRQ_EN_RCAL_BAD : Fld := ⟨0x4004C, 4, 1⟩
abbrev MAST_IRQ_EN_REM_CLAMP : Fld := ⟨0x4004C, 3, 1⟩
abbrev MAST_IRQ_EN_STEP_CONV : Fld := ⟨0x4004C, 2, 1⟩
abbrev MAST_IRQ_EN_REF_LOST : Fld := ⟨0x4004C, 1, 1⟩
abbrev MAST_IRQ_EN_PLL_UNLOCK : Fld := ⟨0x4004C, 0, 1⟩
/-- MTAP_CFG: address. -/
abbrev MTAP_CFG (i : Nat) : Nat := 0x40050 + 4 * i
abbrev MTAP_CFG_WIDTH_M1 (i : Nat) : Fld := ⟨0x40050 + 4 * i, 14, 6⟩
abbrev MTAP_CFG_SHIFT (i : Nat) : Fld := ⟨0x40050 + 4 * i, 8, 6⟩
abbrev MTAP_CFG_XNG (i : Nat) : Fld := ⟨0x40050 + 4 * i, 1, 7⟩
abbrev MTAP_CFG_EN (i : Nat) : Fld := ⟨0x40050 + 4 * i, 0, 1⟩
/-- GSTART_GO: address. -/
abbrev GSTART_GO : Nat := 0x50000
abbrev GSTART_GO_AT : Fld := ⟨0x50000, 1, 1⟩
abbrev GSTART_GO_NOW : Fld := ⟨0x50000, 0, 1⟩
/-- GSTART_AT_LO: address. -/
abbrev GSTART_AT_LO : Nat := 0x50008
abbrev GSTART_AT_LO_AT : Fld := ⟨0x50008, 0, 32⟩
/-- GSTART_AT_HI: address. -/
abbrev GSTART_AT_HI : Nat := 0x5000C
abbrev GSTART_AT_HI_AT : Fld := ⟨0x5000C, 0, 32⟩
/-- GSTART_MASK: address. -/
abbrev GSTART_MASK (i : Nat) : Nat := 0x50010 + 4 * i
abbrev GSTART_MASK_MASK (i : Nat) : Fld := ⟨0x50010 + 4 * i, 0, 32⟩
/-- CMP_PEND: address. -/
abbrev CMP_PEND (i : Nat) : Nat := 0x50020 + 4 * i
abbrev CMP_PEND_PEND (i : Nat) : Fld := ⟨0x50020 + 4 * i, 0, 32⟩
/-- TMR_MPEND: address. -/
abbrev TMR_MPEND (i : Nat) : Nat := 0x50040 + 4 * i
abbrev TMR_MPEND_PEND (i : Nat) : Fld := ⟨0x50040 + 4 * i, 0, 32⟩
/-- TMR_OPEND: address. -/
abbrev TMR_OPEND (i : Nat) : Nat := 0x50048 + 4 * i
abbrev TMR_OPEND_PEND (i : Nat) : Fld := ⟨0x50048 + 4 * i, 0, 32⟩
/-- CAP_PEND: address. -/
abbrev CAP_PEND (i : Nat) : Nat := 0x50050 + 4 * i
abbrev CAP_PEND_PEND (i : Nat) : Fld := ⟨0x50050 + 4 * i, 0, 32⟩
/-- TEQ_CFG: address. -/
abbrev TEQ_CFG (i : Nat) : Nat := 0x50060 + 4 * i
abbrev TEQ_CFG_XNG (i : Nat) : Fld := ⟨0x50060 + 4 * i, 1, 7⟩
abbrev TEQ_CFG_EN (i : Nat) : Fld := ⟨0x50060 + 4 * i, 0, 1⟩
/-- TEQ_LOST: address. -/
abbrev TEQ_LOST (i : Nat) : Nat := 0x50070 + 4 * i
abbrev TEQ_LOST_CNT (i : Nat) : Fld := ⟨0x50070 + 4 * i, 0, 32⟩
/-- TMR_REEF_WAKE: address. -/
abbrev TMR_REEF_WAKE : Nat := 0x50080
abbrev TMR_REEF_WAKE_TMR : Fld := ⟨0x50080, 0, 8⟩
/-- TMR_ORIGIN_LO: address. -/
abbrev TMR_ORIGIN_LO (i : Nat) : Nat := 0x51000 + 64 * i
abbrev TMR_ORIGIN_LO_ORIGIN (i : Nat) : Fld := ⟨0x51000 + 64 * i, 0, 32⟩
/-- TMR_ORIGIN_HI: address. -/
abbrev TMR_ORIGIN_HI (i : Nat) : Nat := 0x51004 + 64 * i
abbrev TMR_ORIGIN_HI_ORIGIN (i : Nat) : Fld := ⟨0x51004 + 64 * i, 0, 32⟩
/-- TMR_PERIOD_LO: address. -/
abbrev TMR_PERIOD_LO (i : Nat) : Nat := 0x51008 + 64 * i
abbrev TMR_PERIOD_LO_PERIOD (i : Nat) : Fld := ⟨0x51008 + 64 * i, 0, 32⟩
/-- TMR_PERIOD_HI: address. -/
abbrev TMR_PERIOD_HI (i : Nat) : Nat := 0x5100C + 64 * i
abbrev TMR_PERIOD_HI_PERIOD (i : Nat) : Fld := ⟨0x5100C + 64 * i, 0, 16⟩
/-- TMR_MATCH_LO: address. -/
abbrev TMR_MATCH_LO (i : Nat) : Nat := 0x51010 + 64 * i
abbrev TMR_MATCH_LO_MATCH (i : Nat) : Fld := ⟨0x51010 + 64 * i, 0, 32⟩
/-- TMR_MATCH_HI: address. -/
abbrev TMR_MATCH_HI (i : Nat) : Nat := 0x51014 + 64 * i
abbrev TMR_MATCH_HI_MATCH (i : Nat) : Fld := ⟨0x51014 + 64 * i, 0, 16⟩
/-- TMR_FROZEN_LO: address. -/
abbrev TMR_FROZEN_LO (i : Nat) : Nat := 0x51018 + 64 * i
abbrev TMR_FROZEN_LO_FROZEN (i : Nat) : Fld := ⟨0x51018 + 64 * i, 0, 32⟩
/-- TMR_FROZEN_HI: address. -/
abbrev TMR_FROZEN_HI (i : Nat) : Nat := 0x5101C + 64 * i
abbrev TMR_FROZEN_HI_FROZEN (i : Nat) : Fld := ⟨0x5101C + 64 * i, 0, 32⟩
/-- TMR_VALUE_LO: address. -/
abbrev TMR_VALUE_LO (i : Nat) : Nat := 0x51020 + 64 * i
abbrev TMR_VALUE_LO_V (i : Nat) : Fld := ⟨0x51020 + 64 * i, 0, 32⟩
/-- TMR_VALUE_HI: address. -/
abbrev TMR_VALUE_HI (i : Nat) : Nat := 0x51024 + 64 * i
abbrev TMR_VALUE_HI_V (i : Nat) : Fld := ⟨0x51024 + 64 * i, 0, 32⟩
/-- TMR_CTRL: address. -/
abbrev TMR_CTRL (i : Nat) : Nat := 0x51028 + 64 * i
abbrev TMR_CTRL_PULSE_W (i : Nat) : Fld := ⟨0x51028 + 64 * i, 16, 8⟩
abbrev TMR_CTRL_REEF_WAKE_O (i : Nat) : Fld := ⟨0x51028 + 64 * i, 5, 1⟩
abbrev TMR_CTRL_REEF_WAKE_M (i : Nat) : Fld := ⟨0x51028 + 64 * i, 4, 1⟩
abbrev TMR_CTRL_REEF_RUN (i : Nat) : Fld := ⟨0x51028 + 64 * i, 3, 1⟩
abbrev TMR_CTRL_FRZ_ON_HALT (i : Nat) : Fld := ⟨0x51028 + 64 * i, 2, 1⟩
abbrev TMR_CTRL_OIRQ_EN (i : Nat) : Fld := ⟨0x51028 + 64 * i, 1, 1⟩
abbrev TMR_CTRL_MIRQ_EN (i : Nat) : Fld := ⟨0x51028 + 64 * i, 0, 1⟩
/-- TMR_CMD: address. -/
abbrev TMR_CMD (i : Nat) : Nat := 0x5102C + 64 * i
abbrev TMR_CMD_RESET (i : Nat) : Fld := ⟨0x5102C + 64 * i, 2, 1⟩
abbrev TMR_CMD_STOP (i : Nat) : Fld := ⟨0x5102C + 64 * i, 1, 1⟩
abbrev TMR_CMD_START (i : Nat) : Fld := ⟨0x5102C + 64 * i, 0, 1⟩
/-- TMR_MACT: address. -/
abbrev TMR_MACT (i : Nat) : Nat := 0x51030 + 64 * i
abbrev TMR_MACT_ACT (i : Nat) : Fld := ⟨0x51030 + 64 * i, 0, 32⟩
/-- TMR_OACT: address. -/
abbrev TMR_OACT (i : Nat) : Nat := 0x51034 + 64 * i
abbrev TMR_OACT_ACT (i : Nat) : Fld := ⟨0x51034 + 64 * i, 0, 32⟩
/-- TMR_STATUS: address. -/
abbrev TMR_STATUS (i : Nat) : Nat := 0x51038 + 64 * i
abbrev TMR_STATUS_MATCHED (i : Nat) : Fld := ⟨0x51038 + 64 * i, 4, 1⟩
abbrev TMR_STATUS_PENDING (i : Nat) : Fld := ⟨0x51038 + 64 * i, 3, 1⟩
abbrev TMR_STATUS_HALT_FROZEN (i : Nat) : Fld := ⟨0x51038 + 64 * i, 2, 1⟩
abbrev TMR_STATUS_STATE (i : Nat) : Fld := ⟨0x51038 + 64 * i, 0, 2⟩
/-- TMR_MISSED: address. -/
abbrev TMR_MISSED (i : Nat) : Nat := 0x5103C + 64 * i
abbrev TMR_MISSED_CNT (i : Nat) : Fld := ⟨0x5103C + 64 * i, 0, 32⟩
/-- CMP_VAL_LO: address. -/
abbrev CMP_VAL_LO (i : Nat) : Nat := 0x52000 + 32 * i
abbrev CMP_VAL_LO_VAL (i : Nat) : Fld := ⟨0x52000 + 32 * i, 0, 32⟩
/-- CMP_VAL_HI: address. -/
abbrev CMP_VAL_HI (i : Nat) : Nat := 0x52004 + 32 * i
abbrev CMP_VAL_HI_VAL (i : Nat) : Fld := ⟨0x52004 + 32 * i, 0, 32⟩
/-- CMP_DELAY: address. -/
abbrev CMP_DELAY (i : Nat) : Nat := 0x52008 + 32 * i
abbrev CMP_DELAY_DELAY (i : Nat) : Fld := ⟨0x52008 + 32 * i, 0, 32⟩
/-- CMP_CTRL: address. -/
abbrev CMP_CTRL (i : Nat) : Nat := 0x5200C + 32 * i
abbrev CMP_CTRL_PULSE_W (i : Nat) : Fld := ⟨0x5200C + 32 * i, 8, 8⟩
abbrev CMP_CTRL_LOG_LATE (i : Nat) : Fld := ⟨0x5200C + 32 * i, 7, 1⟩
abbrev CMP_CTRL_RETRIG (i : Nat) : Fld := ⟨0x5200C + 32 * i, 6, 1⟩
abbrev CMP_CTRL_EV (i : Nat) : Fld := ⟨0x5200C + 32 * i, 2, 4⟩
abbrev CMP_CTRL_EVARM (i : Nat) : Fld := ⟨0x5200C + 32 * i, 1, 1⟩
abbrev CMP_CTRL_IRQ_EN (i : Nat) : Fld := ⟨0x5200C + 32 * i, 0, 1⟩
/-- CMP_ACT: address. -/
abbrev CMP_ACT (i : Nat) : Nat := 0x52010 + 32 * i
abbrev CMP_ACT_ACT (i : Nat) : Fld := ⟨0x52010 + 32 * i, 0, 32⟩
/-- CMP_STATUS: address. -/
abbrev CMP_STATUS (i : Nat) : Nat := 0x52014 + 32 * i
abbrev CMP_STATUS_LAG (i : Nat) : Fld := ⟨0x52014 + 32 * i, 16, 16⟩
abbrev CMP_STATUS_EV_DROP (i : Nat) : Fld := ⟨0x52014 + 32 * i, 4, 1⟩
abbrev CMP_STATUS_STEPPED (i : Nat) : Fld := ⟨0x52014 + 32 * i, 3, 1⟩
abbrev CMP_STATUS_LATE (i : Nat) : Fld := ⟨0x52014 + 32 * i, 2, 1⟩
abbrev CMP_STATUS_ARMED (i : Nat) : Fld := ⟨0x52014 + 32 * i, 0, 1⟩
/-- CMP_FIRED_LO: address. -/
abbrev CMP_FIRED_LO (i : Nat) : Nat := 0x52018 + 32 * i
abbrev CMP_FIRED_LO_FIRED (i : Nat) : Fld := ⟨0x52018 + 32 * i, 0, 32⟩
/-- CMP_FIRED_HI: address. -/
abbrev CMP_FIRED_HI (i : Nat) : Nat := 0x5201C + 32 * i
abbrev CMP_FIRED_HI_FIRED (i : Nat) : Fld := ⟨0x5201C + 32 * i, 0, 32⟩
/-- CAP_RISE_LO: address. -/
abbrev CAP_RISE_LO (i : Nat) : Nat := 0x54000 + 64 * i
abbrev CAP_RISE_LO_STAMP (i : Nat) : Fld := ⟨0x54000 + 64 * i, 0, 32⟩
/-- CAP_RISE_HI: address. -/
abbrev CAP_RISE_HI (i : Nat) : Nat := 0x54004 + 64 * i
abbrev CAP_RISE_HI_STAMP (i : Nat) : Fld := ⟨0x54004 + 64 * i, 0, 32⟩
/-- CAP_FALL_LO: address. -/
abbrev CAP_FALL_LO (i : Nat) : Nat := 0x54008 + 64 * i
abbrev CAP_FALL_LO_STAMP (i : Nat) : Fld := ⟨0x54008 + 64 * i, 0, 32⟩
/-- CAP_FALL_HI: address. -/
abbrev CAP_FALL_HI (i : Nat) : Nat := 0x5400C + 64 * i
abbrev CAP_FALL_HI_STAMP (i : Nat) : Fld := ⟨0x5400C + 64 * i, 0, 32⟩
/-- CAP_WIDTH_LO: address. -/
abbrev CAP_WIDTH_LO (i : Nat) : Nat := 0x54010 + 64 * i
abbrev CAP_WIDTH_LO_VALUE (i : Nat) : Fld := ⟨0x54010 + 64 * i, 0, 32⟩
/-- CAP_WIDTH_HI: address. -/
abbrev CAP_WIDTH_HI (i : Nat) : Nat := 0x54014 + 64 * i
abbrev CAP_WIDTH_HI_VALUE (i : Nat) : Fld := ⟨0x54014 + 64 * i, 0, 32⟩
/-- CAP_PERIOD_LO: address. -/
abbrev CAP_PERIOD_LO (i : Nat) : Nat := 0x54018 + 64 * i
abbrev CAP_PERIOD_LO_VALUE (i : Nat) : Fld := ⟨0x54018 + 64 * i, 0, 32⟩
/-- CAP_PERIOD_HI: address. -/
abbrev CAP_PERIOD_HI (i : Nat) : Nat := 0x5401C + 64 * i
abbrev CAP_PERIOD_HI_VALUE (i : Nat) : Fld := ⟨0x5401C + 64 * i, 0, 32⟩
/-- CAP_FINE: address. -/
abbrev CAP_FINE (i : Nat) : Nat := 0x54020 + 64 * i
abbrev CAP_FINE_FALL_FINE (i : Nat) : Fld := ⟨0x54020 + 64 * i, 4, 3⟩
abbrev CAP_FINE_RISE_FINE (i : Nat) : Fld := ⟨0x54020 + 64 * i, 0, 3⟩
/-- CAP_STATUS: address. -/
abbrev CAP_STATUS (i : Nat) : Nat := 0x54024 + 64 * i
abbrev CAP_STATUS_PERIOD_VALID (i : Nat) : Fld := ⟨0x54024 + 64 * i, 6, 1⟩
abbrev CAP_STATUS_FALL_PEND (i : Nat) : Fld := ⟨0x54024 + 64 * i, 5, 1⟩
abbrev CAP_STATUS_STEPPED (i : Nat) : Fld := ⟨0x54024 + 64 * i, 4, 1⟩
abbrev CAP_STATUS_WIN_OPEN (i : Nat) : Fld := ⟨0x54024 + 64 * i, 3, 1⟩
abbrev CAP_STATUS_GLITCH (i : Nat) : Fld := ⟨0x54024 + 64 * i, 2, 1⟩
abbrev CAP_STATUS_OVR (i : Nat) : Fld := ⟨0x54024 + 64 * i, 1, 1⟩
abbrev CAP_STATUS_UNREAD (i : Nat) : Fld := ⟨0x54024 + 64 * i, 0, 1⟩
/-- CAP_CTRL: address. -/
abbrev CAP_CTRL (i : Nat) : Nat := 0x54028 + 64 * i
abbrev CAP_CTRL_COMP (i : Nat) : Fld := ⟨0x54028 + 64 * i, 24, 8⟩
abbrev CAP_CTRL_FAB_TRAIL (i : Nat) : Fld := ⟨0x54028 + 64 * i, 17, 1⟩
abbrev CAP_CTRL_FABQ (i : Nat) : Fld := ⟨0x54028 + 64 * i, 15, 2⟩
abbrev CAP_CTRL_FAB (i : Nat) : Fld := ⟨0x54028 + 64 * i, 14, 1⟩
abbrev CAP_CTRL_IRQ_EN (i : Nat) : Fld := ⟨0x54028 + 64 * i, 13, 1⟩
abbrev CAP_CTRL_GATED (i : Nat) : Fld := ⟨0x54028 + 64 * i, 11, 1⟩
abbrev CAP_CTRL_OVR_KEEP (i : Nat) : Fld := ⟨0x54028 + 64 * i, 10, 1⟩
abbrev CAP_CTRL_POL (i : Nat) : Fld := ⟨0x54028 + 64 * i, 9, 1⟩
abbrev CAP_CTRL_SRC (i : Nat) : Fld := ⟨0x54028 + 64 * i, 0, 9⟩
/-- CAP_CMD: address. -/
abbrev CAP_CMD (i : Nat) : Nat := 0x5402C + 64 * i
abbrev CAP_CMD_WIN_CLOSE (i : Nat) : Fld := ⟨0x5402C + 64 * i, 1, 1⟩
abbrev CAP_CMD_WIN_OPEN (i : Nat) : Fld := ⟨0x5402C + 64 * i, 0, 1⟩
/-- CAP_OVR_CNT: address. -/
abbrev CAP_OVR_CNT (i : Nat) : Nat := 0x54030 + 64 * i
abbrev CAP_OVR_CNT_CNT (i : Nat) : Fld := ⟨0x54030 + 64 * i, 0, 32⟩
/-- SHT_CAL_CTRL: address. -/
abbrev SHT_CAL_CTRL : Nat := 0x60000
abbrev SHT_CAL_CTRL_RECAL : Fld := ⟨0x60000, 1, 1⟩
abbrev SHT_CAL_CTRL_TRACK_EN : Fld := ⟨0x60000, 0, 1⟩
/-- SHT_CAL_STATUS: address. -/
abbrev SHT_CAL_STATUS : Nat := 0x60004
abbrev SHT_CAL_STATUS_ERR : Fld := ⟨0x60004, 1, 1⟩
abbrev SHT_CAL_STATUS_BUSY : Fld := ⟨0x60004, 0, 1⟩
/-- SHT_PPSO_FD: address. -/
abbrev SHT_PPSO_FD : Nat := 0x60008
abbrev SHT_PPSO_FD_SKEW : Fld := ⟨0x60008, 8, 8⟩
abbrev SHT_PPSO_FD_CAL_ERR : Fld := ⟨0x60008, 7, 1⟩
abbrev SHT_PPSO_FD_FD_CAL : Fld := ⟨0x60008, 0, 7⟩
/-- SHT_LATE_PEND: address. -/
abbrev SHT_LATE_PEND (i : Nat) : Nat := 0x60010 + 4 * i
abbrev SHT_LATE_PEND_PEND (i : Nat) : Fld := ⟨0x60010 + 4 * i, 0, 32⟩
/-- SHT_LLATE_PEND: address. -/
abbrev SHT_LLATE_PEND : Nat := 0x60030
abbrev SHT_LLATE_PEND_PEND : Fld := ⟨0x60030, 0, 32⟩
/-- SHT_IRQ_EN: address. -/
abbrev SHT_IRQ_EN : Nat := 0x60034
abbrev SHT_IRQ_EN_LATE : Fld := ⟨0x60034, 0, 1⟩
/-- SHT_CFG: address. -/
abbrev SHT_CFG (i : Nat) : Nat := 0x61000 + 32 * i
abbrev SHT_CFG_OWNER (i : Nat) : Fld := ⟨0x61000 + 32 * i, 19, 5⟩
abbrev SHT_CFG_RELOAD (i : Nat) : Fld := ⟨0x61000 + 32 * i, 17, 2⟩
abbrev SHT_CFG_INIT (i : Nat) : Fld := ⟨0x61000 + 32 * i, 15, 2⟩
abbrev SHT_CFG_STBY_GATE (i : Nat) : Fld := ⟨0x61000 + 32 * i, 4, 1⟩
abbrev SHT_CFG_TC_EN (i : Nat) : Fld := ⟨0x61000 + 32 * i, 3, 1⟩
abbrev SHT_CFG_LATE_POL (i : Nat) : Fld := ⟨0x61000 + 32 * i, 2, 1⟩
abbrev SHT_CFG_EN (i : Nat) : Fld := ⟨0x61000 + 32 * i, 0, 1⟩
/-- SHT_SKEW: address. -/
abbrev SHT_SKEW (i : Nat) : Nat := 0x61004 + 32 * i
abbrev SHT_SKEW_SKEW (i : Nat) : Fld := ⟨0x61004 + 32 * i, 0, 8⟩
/-- SHT_STATUS: address. -/
abbrev SHT_STATUS (i : Nat) : Nat := 0x61008 + 32 * i
abbrev SHT_STATUS_DEPTH (i : Nat) : Fld := ⟨0x61008 + 32 * i, 12, 4⟩
abbrev SHT_STATUS_DRIVEN (i : Nat) : Fld := ⟨0x61008 + 32 * i, 11, 1⟩
abbrev SHT_STATUS_LEVEL (i : Nat) : Fld := ⟨0x61008 + 32 * i, 9, 2⟩
abbrev SHT_STATUS_RELOADING (i : Nat) : Fld := ⟨0x61008 + 32 * i, 8, 1⟩
abbrev SHT_STATUS_STEPPED (i : Nat) : Fld := ⟨0x61008 + 32 * i, 4, 1⟩
abbrev SHT_STATUS_FLUSHED (i : Nat) : Fld := ⟨0x61008 + 32 * i, 3, 1⟩
abbrev SHT_STATUS_ORDER (i : Nat) : Fld := ⟨0x61008 + 32 * i, 2, 1⟩
abbrev SHT_STATUS_CROWD (i : Nat) : Fld := ⟨0x61008 + 32 * i, 1, 1⟩
abbrev SHT_STATUS_LATE (i : Nat) : Fld := ⟨0x61008 + 32 * i, 0, 1⟩
/-- SHT_FD: address. -/
abbrev SHT_FD (i : Nat) : Nat := 0x6100C + 32 * i
abbrev SHT_FD_FD_LAST (i : Nat) : Fld := ⟨0x6100C + 32 * i, 8, 8⟩
abbrev SHT_FD_CAL_ERR (i : Nat) : Fld := ⟨0x6100C + 32 * i, 7, 1⟩
abbrev SHT_FD_FD_CAL (i : Nat) : Fld := ⟨0x6100C + 32 * i, 0, 7⟩
/-- SHT_NEXT_LO: address. -/
abbrev SHT_NEXT_LO (i : Nat) : Nat := 0x61010 + 32 * i
abbrev SHT_NEXT_LO_NEXT (i : Nat) : Fld := ⟨0x61010 + 32 * i, 0, 32⟩
/-- SHT_NEXT_HI: address. -/
abbrev SHT_NEXT_HI (i : Nat) : Nat := 0x61014 + 32 * i
abbrev SHT_NEXT_HI_NEXT (i : Nat) : Fld := ⟨0x61014 + 32 * i, 0, 32⟩
/-- SHT_REL_CNT: address. -/
abbrev SHT_REL_CNT (i : Nat) : Nat := 0x61018 + 32 * i
abbrev SHT_REL_CNT_CNT (i : Nat) : Fld := ⟨0x61018 + 32 * i, 0, 32⟩
/-- SHT_LATE_CNT: address. -/
abbrev SHT_LATE_CNT (i : Nat) : Nat := 0x6101C + 32 * i
abbrev SHT_LATE_CNT_CNT (i : Nat) : Fld := ⟨0x6101C + 32 * i, 0, 32⟩
/-- LSH_CFG: address. -/
abbrev LSH_CFG (i : Nat) : Nat := 0x63000 + 32 * i
abbrev LSH_CFG_OWNER (i : Nat) : Fld := ⟨0x63000 + 32 * i, 19, 5⟩
abbrev LSH_CFG_STBY_GATE (i : Nat) : Fld := ⟨0x63000 + 32 * i, 4, 1⟩
abbrev LSH_CFG_LATE_POL (i : Nat) : Fld := ⟨0x63000 + 32 * i, 2, 1⟩
abbrev LSH_CFG_EN (i : Nat) : Fld := ⟨0x63000 + 32 * i, 0, 1⟩
/-- LSH_STATUS: address. -/
abbrev LSH_STATUS (i : Nat) : Nat := 0x63008 + 32 * i
abbrev LSH_STATUS_DEPTH (i : Nat) : Fld := ⟨0x63008 + 32 * i, 12, 4⟩
abbrev LSH_STATUS_NOFRAME (i : Nat) : Fld := ⟨0x63008 + 32 * i, 5, 1⟩
abbrev LSH_STATUS_STEPPED (i : Nat) : Fld := ⟨0x63008 + 32 * i, 4, 1⟩
abbrev LSH_STATUS_FLUSHED (i : Nat) : Fld := ⟨0x63008 + 32 * i, 3, 1⟩
abbrev LSH_STATUS_ORDER (i : Nat) : Fld := ⟨0x63008 + 32 * i, 2, 1⟩
abbrev LSH_STATUS_LATE (i : Nat) : Fld := ⟨0x63008 + 32 * i, 0, 1⟩
/-- LSH_NEXT_LO: address. -/
abbrev LSH_NEXT_LO (i : Nat) : Nat := 0x63010 + 32 * i
abbrev LSH_NEXT_LO_NEXT (i : Nat) : Fld := ⟨0x63010 + 32 * i, 0, 32⟩
/-- LSH_NEXT_HI: address. -/
abbrev LSH_NEXT_HI (i : Nat) : Nat := 0x63014 + 32 * i
abbrev LSH_NEXT_HI_NEXT (i : Nat) : Fld := ⟨0x63014 + 32 * i, 0, 32⟩
/-- LSH_REL_CNT: address. -/
abbrev LSH_REL_CNT (i : Nat) : Nat := 0x63018 + 32 * i
abbrev LSH_REL_CNT_CNT (i : Nat) : Fld := ⟨0x63018 + 32 * i, 0, 32⟩
/-- LSH_LATE_CNT: address. -/
abbrev LSH_LATE_CNT (i : Nat) : Nat := 0x6301C + 32 * i
abbrev LSH_LATE_CNT_CNT (i : Nat) : Fld := ⟨0x6301C + 32 * i, 0, 32⟩
/-- STMP_CFG: address. -/
abbrev STMP_CFG (i : Nat) : Nat := 0x64000 + 16 * i
abbrev STMP_CFG_COMP (i : Nat) : Fld := ⟨0x64000 + 16 * i, 24, 8⟩
abbrev STMP_CFG_OWNER (i : Nat) : Fld := ⟨0x64000 + 16 * i, 19, 5⟩
abbrev STMP_CFG_EDGES (i : Nat) : Fld := ⟨0x64000 + 16 * i, 1, 2⟩
abbrev STMP_CFG_EN (i : Nat) : Fld := ⟨0x64000 + 16 * i, 0, 1⟩
/-- STMP_STATUS: address. -/
abbrev STMP_STATUS (i : Nat) : Nat := 0x64004 + 16 * i
abbrev STMP_STATUS_DEPTH (i : Nat) : Fld := ⟨0x64004 + 16 * i, 2, 3⟩
abbrev STMP_STATUS_GLITCH (i : Nat) : Fld := ⟨0x64004 + 16 * i, 1, 1⟩
abbrev STMP_STATUS_LOST (i : Nat) : Fld := ⟨0x64004 + 16 * i, 0, 1⟩
/-- STMP_LOST: address. -/
abbrev STMP_LOST (i : Nat) : Nat := 0x64008 + 16 * i
abbrev STMP_LOST_CNT (i : Nat) : Fld := ⟨0x64008 + 16 * i, 0, 32⟩
/-- DSC_CTRL: address. -/
abbrev DSC_CTRL : Nat := 0x70000
abbrev DSC_CTRL_FORCE_HO : Fld := ⟨0x70000, 7, 1⟩
abbrev DSC_CTRL_PTP_DISQ : Fld := ⟨0x70000, 6, 1⟩
abbrev DSC_CTRL_MODEL_RESET : Fld := ⟨0x70000, 5, 1⟩
abbrev DSC_CTRL_SNAP_NOW : Fld := ⟨0x70000, 4, 1⟩
abbrev DSC_CTRL_INJ_CLEAR : Fld := ⟨0x70000, 3, 1⟩
abbrev DSC_CTRL_STEER_AUTH : Fld := ⟨0x70000, 1, 2⟩
abbrev DSC_CTRL_EN : Fld := ⟨0x70000, 0, 1⟩
/-- DSC_STATUS: address. -/
abbrev DSC_STATUS : Nat := 0x70004
abbrev DSC_STATUS_CLAMPED : Fld := ⟨0x70004, 15, 1⟩
abbrev DSC_STATUS_TOD_MISMATCH : Fld := ⟨0x70004, 14, 1⟩
abbrev DSC_STATUS_REF_HOLD : Fld := ⟨0x70004, 13, 1⟩
abbrev DSC_STATUS_MODEL_USABLE : Fld := ⟨0x70004, 12, 1⟩
abbrev DSC_STATUS_TOD_NEEDED : Fld := ⟨0x70004, 11, 1⟩
abbrev DSC_STATUS_SYNCE_ACTIVE : Fld := ⟨0x70004, 10, 1⟩
abbrev DSC_STATUS_SYNCE_AIDED : Fld := ⟨0x70004, 9, 1⟩
abbrev DSC_STATUS_FREQ_LOCK : Fld := ⟨0x70004, 8, 1⟩
abbrev DSC_STATUS_ACQ_PHASE : Fld := ⟨0x70004, 6, 2⟩
abbrev DSC_STATUS_ACTIVE_SRC : Fld := ⟨0x70004, 3, 3⟩
abbrev DSC_STATUS_STATE : Fld := ⟨0x70004, 0, 3⟩
/-- DSC_SRC_PRIO: address. -/
abbrev DSC_SRC_PRIO : Nat := 0x70008
abbrev DSC_SRC_PRIO_PRIO3 : Fld := ⟨0x70008, 9, 3⟩
abbrev DSC_SRC_PRIO_PRIO2 : Fld := ⟨0x70008, 6, 3⟩
abbrev DSC_SRC_PRIO_PRIO1 : Fld := ⟨0x70008, 3, 3⟩
abbrev DSC_SRC_PRIO_PRIO0 : Fld := ⟨0x70008, 0, 3⟩
/-- DSC_SRC_QUAL: address. -/
abbrev DSC_SRC_QUAL : Nat := 0x7000C
abbrev DSC_SRC_QUAL_SYNCE : Fld := ⟨0x7000C, 8, 1⟩
abbrev DSC_SRC_QUAL_PARTNER : Fld := ⟨0x7000C, 4, 1⟩
abbrev DSC_SRC_QUAL_COORD : Fld := ⟨0x7000C, 3, 1⟩
abbrev DSC_SRC_QUAL_PTP : Fld := ⟨0x7000C, 2, 1⟩
abbrev DSC_SRC_QUAL_PPS : Fld := ⟨0x7000C, 1, 1⟩
/-- DSC_BW: address. -/
abbrev DSC_BW : Nat := 0x70010
abbrev DSC_BW_FREQ : Fld := ⟨0x70010, 8, 4⟩
abbrev DSC_BW_ACQ : Fld := ⟨0x70010, 4, 4⟩
abbrev DSC_BW_TRACK : Fld := ⟨0x70010, 0, 4⟩
/-- DSC_LOCK_THR: address. -/
abbrev DSC_LOCK_THR : Nat := 0x70014
abbrev DSC_LOCK_THR_THR : Fld := ⟨0x70014, 0, 32⟩
/-- DSC_UNLOCK_THR: address. -/
abbrev DSC_UNLOCK_THR : Nat := 0x70018
abbrev DSC_UNLOCK_THR_THR : Fld := ⟨0x70018, 0, 32⟩
/-- DSC_COUNTS: address. -/
abbrev DSC_COUNTS : Nat := 0x7001C
abbrev DSC_COUNTS_QUAL_N : Fld := ⟨0x7001C, 16, 8⟩
abbrev DSC_COUNTS_UNLOCK_N : Fld := ⟨0x7001C, 8, 8⟩
abbrev DSC_COUNTS_LOCK_N : Fld := ⟨0x7001C, 0, 8⟩
/-- DSC_FREQ_LIM: address. -/
abbrev DSC_FREQ_LIM : Nat := 0x70020
abbrev DSC_FREQ_LIM_FREQ_CLAMP : Fld := ⟨0x70020, 16, 16⟩
abbrev DSC_FREQ_LIM_FREQ_OK : Fld := ⟨0x70020, 0, 16⟩
/-- DSC_AGED_BOUND: address. -/
abbrev DSC_AGED_BOUND : Nat := 0x70024
abbrev DSC_AGED_BOUND_BOUND : Fld := ⟨0x70024, 0, 32⟩
/-- DSC_AGED_TIME: address. -/
abbrev DSC_AGED_TIME : Nat := 0x70028
abbrev DSC_AGED_TIME_TIME : Fld := ⟨0x70028, 0, 32⟩
/-- DSC_PPS_CFG: address. -/
abbrev DSC_PPS_CFG : Nat := 0x7002C
abbrev DSC_PPS_CFG_OUT_GATE : Fld := ⟨0x7002C, 12, 2⟩
abbrev DSC_PPS_CFG_OUT_WIDTH : Fld := ⟨0x7002C, 9, 3⟩
abbrev DSC_PPS_CFG_WIN : Fld := ⟨0x7002C, 1, 8⟩
abbrev DSC_PPS_CFG_EDGE : Fld := ⟨0x7002C, 0, 1⟩
/-- DSC_PPS_COMP: address. -/
abbrev DSC_PPS_COMP : Nat := 0x70030
abbrev DSC_PPS_COMP_COMP : Fld := ⟨0x70030, 0, 32⟩
/-- DSC_PPS_OUT_OFS: address. -/
abbrev DSC_PPS_OUT_OFS : Nat := 0x70034
abbrev DSC_PPS_OUT_OFS_OFS : Fld := ⟨0x70034, 0, 32⟩
/-- DSC_PTP_TIMEOUT: address. -/
abbrev DSC_PTP_TIMEOUT : Nat := 0x70038
abbrev DSC_PTP_TIMEOUT_MS : Fld := ⟨0x70038, 0, 32⟩
/-- DSC_SYNCE_CFG: address. -/
abbrev DSC_SYNCE_CFG : Nat := 0x7003C
abbrev DSC_SYNCE_CFG_SYNCE_WIN : Fld := ⟨0x7003C, 8, 8⟩
abbrev DSC_SYNCE_CFG_LANE : Fld := ⟨0x7003C, 2, 3⟩
abbrev DSC_SYNCE_CFG_EN : Fld := ⟨0x7003C, 0, 1⟩
/-- DSC_PPS_STAMP_LO: address. -/
abbrev DSC_PPS_STAMP_LO : Nat := 0x70040
abbrev DSC_PPS_STAMP_LO_STAMP : Fld := ⟨0x70040, 0, 32⟩
/-- DSC_PPS_STAMP_HI: address. -/
abbrev DSC_PPS_STAMP_HI : Nat := 0x70044
abbrev DSC_PPS_STAMP_HI_STAMP : Fld := ⟨0x70044, 0, 32⟩
/-- DSC_TOD_SEC_LO: address. -/
abbrev DSC_TOD_SEC_LO : Nat := 0x70048
abbrev DSC_TOD_SEC_LO_SEC : Fld := ⟨0x70048, 0, 32⟩
/-- DSC_TOD_SEC_HI: address. -/
abbrev DSC_TOD_SEC_HI : Nat := 0x7004C
abbrev DSC_TOD_SEC_HI_SEC : Fld := ⟨0x7004C, 0, 16⟩
/-- DSC_PTP_AT_LO: address. -/
abbrev DSC_PTP_AT_LO : Nat := 0x70050
abbrev DSC_PTP_AT_LO_AT : Fld := ⟨0x70050, 0, 32⟩
/-- DSC_PTP_AT_HI: address. -/
abbrev DSC_PTP_AT_HI : Nat := 0x70054
abbrev DSC_PTP_AT_HI_AT : Fld := ⟨0x70054, 0, 32⟩
/-- DSC_PTP_ERR_LO: address. -/
abbrev DSC_PTP_ERR_LO : Nat := 0x70058
abbrev DSC_PTP_ERR_LO_ERR : Fld := ⟨0x70058, 0, 32⟩
/-- DSC_PTP_ERR_HI: address. -/
abbrev DSC_PTP_ERR_HI : Nat := 0x7005C
abbrev DSC_PTP_ERR_HI_ERR : Fld := ⟨0x7005C, 0, 32⟩
/-- DSC_SYNCE_MEAS: address. -/
abbrev DSC_SYNCE_MEAS : Nat := 0x70060
abbrev DSC_SYNCE_MEAS_MEAS : Fld := ⟨0x70060, 0, 32⟩
/-- DSC_LAST_ERR_LO: address. -/
abbrev DSC_LAST_ERR_LO : Nat := 0x70064
abbrev DSC_LAST_ERR_LO_ERR : Fld := ⟨0x70064, 0, 32⟩
/-- DSC_LAST_ERR_HI: address. -/
abbrev DSC_LAST_ERR_HI : Nat := 0x70068
abbrev DSC_LAST_ERR_HI_ERR : Fld := ⟨0x70068, 0, 32⟩
/-- DSC_SAMPLE_CNT: address. -/
abbrev DSC_SAMPLE_CNT : Nat := 0x7006C
abbrev DSC_SAMPLE_CNT_CNT : Fld := ⟨0x7006C, 0, 32⟩
/-- DSC_INTEG: address. -/
abbrev DSC_INTEG : Nat := 0x70070
abbrev DSC_INTEG_I : Fld := ⟨0x70070, 0, 32⟩
/-- DSC_SW_OFFSET: address. -/
abbrev DSC_SW_OFFSET : Nat := 0x70074
abbrev DSC_SW_OFFSET_OFS : Fld := ⟨0x70074, 0, 32⟩
/-- DSC_INJ_LO: address. -/
abbrev DSC_INJ_LO : Nat := 0x70078
abbrev DSC_INJ_LO_INJ : Fld := ⟨0x70078, 0, 32⟩
/-- DSC_INJ_HI: address. -/
abbrev DSC_INJ_HI : Nat := 0x7007C
abbrev DSC_INJ_HI_INJ : Fld := ⟨0x7007C, 0, 32⟩
/-- DSC_HO_ELAPSED: address. -/
abbrev DSC_HO_ELAPSED : Nat := 0x70080
abbrev DSC_HO_ELAPSED_S : Fld := ⟨0x70080, 0, 32⟩
/-- DSC_HO_BOUND: address. -/
abbrev DSC_HO_BOUND : Nat := 0x70084
abbrev DSC_HO_BOUND_NS : Fld := ⟨0x70084, 0, 32⟩
/-- DSC_MODEL_CFG: address. -/
abbrev DSC_MODEL_CFG : Nat := 0x70088
abbrev DSC_MODEL_CFG_SNAP_MIN : Fld := ⟨0x70088, 16, 8⟩
abbrev DSC_MODEL_CFG_LAMBDA_K : Fld := ⟨0x70088, 8, 5⟩
abbrev DSC_MODEL_CFG_MIRROR_ADOPT : Fld := ⟨0x70088, 1, 1⟩
abbrev DSC_MODEL_CFG_TSRC : Fld := ⟨0x70088, 0, 1⟩
/-- DSC_MODEL_TREF: address. -/
abbrev DSC_MODEL_TREF : Nat := 0x7008C
abbrev DSC_MODEL_TREF_TREF : Fld := ⟨0x7008C, 0, 16⟩
/-- DSC_MODEL_STATUS: address. -/
abbrev DSC_MODEL_STATUS : Nat := 0x70090
abbrev DSC_MODEL_STATUS_LOADED : Fld := ⟨0x70090, 4, 2⟩
abbrev DSC_MODEL_STATUS_TERMS : Fld := ⟨0x70090, 0, 4⟩
/-- DSC_MODEL_TRAIN: address. -/
abbrev DSC_MODEL_TRAIN : Nat := 0x70094
abbrev DSC_MODEL_TRAIN_TRAIN_S : Fld := ⟨0x70094, 0, 32⟩
/-- DSC_MODEL_A0: address. -/
abbrev DSC_MODEL_A0 : Nat := 0x70098
abbrev DSC_MODEL_A0_A0 : Fld := ⟨0x70098, 0, 32⟩
/-- DSC_MODEL_A1: address. -/
abbrev DSC_MODEL_A1 : Nat := 0x7009C
abbrev DSC_MODEL_A1_COEF : Fld := ⟨0x7009C, 0, 32⟩
/-- DSC_MODEL_B1: address. -/
abbrev DSC_MODEL_B1 : Nat := 0x700A0
abbrev DSC_MODEL_B1_COEF : Fld := ⟨0x700A0, 0, 32⟩
/-- DSC_MODEL_B2: address. -/
abbrev DSC_MODEL_B2 : Nat := 0x700A4
abbrev DSC_MODEL_B2_COEF : Fld := ⟨0x700A4, 0, 32⟩
/-- DSC_MODEL_T0_LO: address. -/
abbrev DSC_MODEL_T0_LO : Nat := 0x700A8
abbrev DSC_MODEL_T0_LO_T0 : Fld := ⟨0x700A8, 0, 32⟩
/-- DSC_MODEL_T0_HI: address. -/
abbrev DSC_MODEL_T0_HI : Nat := 0x700AC
abbrev DSC_MODEL_T0_HI_T0 : Fld := ⟨0x700AC, 0, 32⟩
/-- DSC_TEMP_NOW: address. -/
abbrev DSC_TEMP_NOW : Nat := 0x700B0
abbrev DSC_TEMP_NOW_VALID : Fld := ⟨0x700B0, 16, 1⟩
abbrev DSC_TEMP_NOW_T : Fld := ⟨0x700B0, 0, 16⟩
/-- DSC_MODEL_SPAN: address. -/
abbrev DSC_MODEL_SPAN : Nat := 0x700B4
abbrev DSC_MODEL_SPAN_TMAX : Fld := ⟨0x700B4, 16, 16⟩
abbrev DSC_MODEL_SPAN_TMIN : Fld := ⟨0x700B4, 0, 16⟩
/-- DSC_MODEL_RESID: address. -/
abbrev DSC_MODEL_RESID : Nat := 0x700B8
abbrev DSC_MODEL_RESID_RESID : Fld := ⟨0x700B8, 0, 32⟩
/-- DSC_SNAP_STATUS: address. -/
abbrev DSC_SNAP_STATUS : Nat := 0x700BC
abbrev DSC_SNAP_STATUS_RESULT : Fld := ⟨0x700BC, 28, 2⟩
abbrev DSC_SNAP_STATUS_REASON : Fld := ⟨0x700BC, 24, 4⟩
abbrev DSC_SNAP_STATUS_SEQ : Fld := ⟨0x700BC, 0, 24⟩
/-- DSC_EVENT: address. -/
abbrev DSC_EVENT : Nat := 0x700C0
abbrev DSC_EVENT_AUTH_REFUSED : Fld := ⟨0x700C0, 11, 1⟩
abbrev DSC_EVENT_LOCKED : Fld := ⟨0x700C0, 10, 1⟩
abbrev DSC_EVENT_TEMP_BAD : Fld := ⟨0x700C0, 9, 1⟩
abbrev DSC_EVENT_CLAMP : Fld := ⟨0x700C0, 8, 1⟩
abbrev DSC_EVENT_SNAP_FAIL : Fld := ⟨0x700C0, 7, 1⟩
abbrev DSC_EVENT_SNAP_SKIP : Fld := ⟨0x700C0, 6, 1⟩
abbrev DSC_EVENT_PTP_REFUSED : Fld := ⟨0x700C0, 5, 1⟩
abbrev DSC_EVENT_TOD_BAD : Fld := ⟨0x700C0, 4, 1⟩
abbrev DSC_EVENT_AGED : Fld := ⟨0x700C0, 3, 1⟩
abbrev DSC_EVENT_HOLDOVER : Fld := ⟨0x700C0, 2, 1⟩
abbrev DSC_EVENT_SRC_DISQ : Fld := ⟨0x700C0, 1, 1⟩
abbrev DSC_EVENT_STATE_CHG : Fld := ⟨0x700C0, 0, 1⟩
/-- DSC_IRQ_EN: address. -/
abbrev DSC_IRQ_EN : Nat := 0x700C4
abbrev DSC_IRQ_EN_AUTH_REFUSED : Fld := ⟨0x700C4, 11, 1⟩
abbrev DSC_IRQ_EN_LOCKED : Fld := ⟨0x700C4, 10, 1⟩
abbrev DSC_IRQ_EN_TEMP_BAD : Fld := ⟨0x700C4, 9, 1⟩
abbrev DSC_IRQ_EN_CLAMP : Fld := ⟨0x700C4, 8, 1⟩
abbrev DSC_IRQ_EN_SNAP_FAIL : Fld := ⟨0x700C4, 7, 1⟩
abbrev DSC_IRQ_EN_SNAP_SKIP : Fld := ⟨0x700C4, 6, 1⟩
abbrev DSC_IRQ_EN_PTP_REFUSED : Fld := ⟨0x700C4, 5, 1⟩
abbrev DSC_IRQ_EN_TOD_BAD : Fld := ⟨0x700C4, 4, 1⟩
abbrev DSC_IRQ_EN_AGED : Fld := ⟨0x700C4, 3, 1⟩
abbrev DSC_IRQ_EN_HOLDOVER : Fld := ⟨0x700C4, 2, 1⟩
abbrev DSC_IRQ_EN_SRC_DISQ : Fld := ⟨0x700C4, 1, 1⟩
abbrev DSC_IRQ_EN_STATE_CHG : Fld := ⟨0x700C4, 0, 1⟩
/-- GPIO_VIO: address. -/
abbrev GPIO_VIO : Nat := 0x80000
abbrev GPIO_VIO_VIO : Fld := ⟨0x80000, 0, 32⟩
/-- GPIO_VIO_OK: address. -/
abbrev GPIO_VIO_OK : Nat := 0x80004
abbrev GPIO_VIO_OK_OK : Fld := ⟨0x80004, 0, 16⟩
/-- GPIO_IN: address. -/
abbrev GPIO_IN (i : Nat) : Nat := 0x80010 + 4 * i
abbrev GPIO_IN_IN (i : Nat) : Fld := ⟨0x80010 + 4 * i, 0, 16⟩
/-- GPIO_OUT: address. -/
abbrev GPIO_OUT (i : Nat) : Nat := 0x80050 + 4 * i
abbrev GPIO_OUT_BITS (i : Nat) : Fld := ⟨0x80050 + 4 * i, 0, 16⟩
/-- GPIO_OE: address. -/
abbrev GPIO_OE (i : Nat) : Nat := 0x80090 + 4 * i
abbrev GPIO_OE_BITS (i : Nat) : Fld := ⟨0x80090 + 4 * i, 0, 16⟩
/-- GPIO_PIN_CFG: address. -/
abbrev GPIO_PIN_CFG (i : Nat) : Nat := 0x80100 + 4 * i
abbrev GPIO_PIN_CFG_TERM (i : Nat) : Fld := ⟨0x80100 + 4 * i, 11, 1⟩
abbrev GPIO_PIN_CFG_LVDS (i : Nat) : Fld := ⟨0x80100 + 4 * i, 10, 1⟩
abbrev GPIO_PIN_CFG_HYST (i : Nat) : Fld := ⟨0x80100 + 4 * i, 9, 1⟩
abbrev GPIO_PIN_CFG_SLEW (i : Nat) : Fld := ⟨0x80100 + 4 * i, 8, 1⟩
abbrev GPIO_PIN_CFG_DRIVE (i : Nat) : Fld := ⟨0x80100 + 4 * i, 6, 2⟩
abbrev GPIO_PIN_CFG_PULL (i : Nat) : Fld := ⟨0x80100 + 4 * i, 4, 2⟩
abbrev GPIO_PIN_CFG_STBY_GATE (i : Nat) : Fld := ⟨0x80100 + 4 * i, 3, 1⟩
abbrev GPIO_PIN_CFG_INIT (i : Nat) : Fld := ⟨0x80100 + 4 * i, 0, 2⟩
/-- EV_CFG: address. -/
abbrev EV_CFG (i : Nat) : Nat := 0x81000 + 4 * i
abbrev EV_CFG_BANK (i : Nat) : Fld := ⟨0x81000 + 4 * i, 8, 4⟩
abbrev EV_CFG_TRIG (i : Nat) : Fld := ⟨0x81000 + 4 * i, 2, 3⟩
abbrev EV_CFG_EN (i : Nat) : Fld := ⟨0x81000 + 4 * i, 0, 1⟩
/-- EVL_PEND: address. -/
abbrev EVL_PEND : Nat := 0x81040
abbrev EVL_PEND_PEND : Fld := ⟨0x81040, 0, 16⟩
/-- EVL_IRQ_EN: address. -/
abbrev EVL_IRQ_EN : Nat := 0x81044
abbrev EVL_IRQ_EN_HOST : Fld := ⟨0x81044, 16, 16⟩
abbrev EVL_IRQ_EN_SUP : Fld := ⟨0x81044, 0, 16⟩
/-- EVL_LEVEL: address. -/
abbrev EVL_LEVEL : Nat := 0x81048
abbrev EVL_LEVEL_LEVEL : Fld := ⟨0x81048, 0, 16⟩
/-- EVL_OVR: address. -/
abbrev EVL_OVR : Nat := 0x8104C
abbrev EVL_OVR_OVR : Fld := ⟨0x8104C, 0, 16⟩
/-- EV_COUNT: address. -/
abbrev EV_COUNT (i : Nat) : Nat := 0x81050 + 4 * i
abbrev EV_COUNT_CNT (i : Nat) : Fld := ⟨0x81050 + 4 * i, 0, 32⟩
/-- EV_LAST_LO: address. -/
abbrev EV_LAST_LO (i : Nat) : Nat := 0x81100 + 8 * i
abbrev EV_LAST_LO_MAST (i : Nat) : Fld := ⟨0x81100 + 8 * i, 0, 32⟩
/-- EV_LAST_HI: address. -/
abbrev EV_LAST_HI (i : Nat) : Nat := 0x81104 + 8 * i
abbrev EV_LAST_HI_MAST (i : Nat) : Fld := ⟨0x81104 + 8 * i, 0, 32⟩
/-- XNG_OVR_PEND: address. -/
abbrev XNG_OVR_PEND (i : Nat) : Nat := 0x90000 + 4 * i
abbrev XNG_OVR_PEND_PEND (i : Nat) : Fld := ⟨0x90000 + 4 * i, 0, 32⟩
/-- XNG_STALL_PEND: address. -/
abbrev XNG_STALL_PEND (i : Nat) : Nat := 0x90010 + 4 * i
abbrev XNG_STALL_PEND_PEND (i : Nat) : Fld := ⟨0x90010 + 4 * i, 0, 32⟩
/-- XNG_SKEW_PEND: address. -/
abbrev XNG_SKEW_PEND (i : Nat) : Nat := 0x90020 + 4 * i
abbrev XNG_SKEW_PEND_PEND (i : Nat) : Fld := ⟨0x90020 + 4 * i, 0, 32⟩
/-- XNG_IRQ_EN: address. -/
abbrev XNG_IRQ_EN : Nat := 0x90030
abbrev XNG_IRQ_EN_SKEW : Fld := ⟨0x90030, 2, 1⟩
abbrev XNG_IRQ_EN_STALL : Fld := ⟨0x90030, 1, 1⟩
abbrev XNG_IRQ_EN_OVR : Fld := ⟨0x90030, 0, 1⟩
/-- XNG_CFG: address. -/
abbrev XNG_CFG (i : Nat) : Nat := 0x91000 + 32 * i
abbrev XNG_CFG_PACE (i : Nat) : Fld := ⟨0x91000 + 32 * i, 25, 1⟩
abbrev XNG_CFG_CIDX (i : Nat) : Fld := ⟨0x91000 + 32 * i, 19, 6⟩
abbrev XNG_CFG_CLIENT (i : Nat) : Fld := ⟨0x91000 + 32 * i, 16, 3⟩
abbrev XNG_CFG_REQ (i : Nat) : Fld := ⟨0x91000 + 32 * i, 14, 1⟩
abbrev XNG_CFG_RMODE (i : Nat) : Fld := ⟨0x91000 + 32 * i, 13, 1⟩
abbrev XNG_CFG_VBIT (i : Nat) : Fld := ⟨0x91000 + 32 * i, 12, 1⟩
abbrev XNG_CFG_WIDTH_M1 (i : Nat) : Fld := ⟨0x91000 + 32 * i, 6, 6⟩
abbrev XNG_CFG_DIR (i : Nat) : Fld := ⟨0x91000 + 32 * i, 4, 1⟩
abbrev XNG_CFG_KIND (i : Nat) : Fld := ⟨0x91000 + 32 * i, 0, 2⟩
/-- XNG_WDOG: address. -/
abbrev XNG_WDOG (i : Nat) : Nat := 0x91004 + 32 * i
abbrev XNG_WDOG_US (i : Nat) : Fld := ⟨0x91004 + 32 * i, 0, 14⟩
/-- XNG_STATUS: address. -/
abbrev XNG_STATUS (i : Nat) : Nat := 0x91008 + 32 * i
abbrev XNG_STATUS_HWM (i : Nat) : Fld := ⟨0x91008 + 32 * i, 19, 5⟩
abbrev XNG_STATUS_FILL (i : Nat) : Fld := ⟨0x91008 + 32 * i, 14, 5⟩
abbrev XNG_STATUS_MBOX_V (i : Nat) : Fld := ⟨0x91008 + 32 * i, 13, 1⟩
abbrev XNG_STATUS_MBOX_BUSY (i : Nat) : Fld := ⟨0x91008 + 32 * i, 12, 1⟩
abbrev XNG_STATUS_FSIDE_RST (i : Nat) : Fld := ⟨0x91008 + 32 * i, 11, 1⟩
abbrev XNG_STATUS_CSIDE_RST (i : Nat) : Fld := ⟨0x91008 + 32 * i, 10, 1⟩
abbrev XNG_STATUS_RESYNC (i : Nat) : Fld := ⟨0x91008 + 32 * i, 9, 1⟩
abbrev XNG_STATUS_UNDR (i : Nat) : Fld := ⟨0x91008 + 32 * i, 8, 1⟩
abbrev XNG_STATUS_PARKED (i : Nat) : Fld := ⟨0x91008 + 32 * i, 7, 1⟩
abbrev XNG_STATUS_STALL (i : Nat) : Fld := ⟨0x91008 + 32 * i, 6, 1⟩
abbrev XNG_STATUS_RESET_SKEW (i : Nat) : Fld := ⟨0x91008 + 32 * i, 5, 1⟩
abbrev XNG_STATUS_OVR (i : Nat) : Fld := ⟨0x91008 + 32 * i, 4, 1⟩
abbrev XNG_STATUS_FULL (i : Nat) : Fld := ⟨0x91008 + 32 * i, 3, 1⟩
abbrev XNG_STATUS_EMPTY (i : Nat) : Fld := ⟨0x91008 + 32 * i, 2, 1⟩
abbrev XNG_STATUS_ACTIVE (i : Nat) : Fld := ⟨0x91008 + 32 * i, 0, 1⟩
/-- XNG_CMD: address. -/
abbrev XNG_CMD (i : Nat) : Nat := 0x9100C + 32 * i
abbrev XNG_CMD_CLR_HWM (i : Nat) : Fld := ⟨0x9100C + 32 * i, 3, 1⟩
abbrev XNG_CMD_POP (i : Nat) : Fld := ⟨0x9100C + 32 * i, 2, 1⟩
abbrev XNG_CMD_UNPARK (i : Nat) : Fld := ⟨0x9100C + 32 * i, 1, 1⟩
abbrev XNG_CMD_RST_C (i : Nat) : Fld := ⟨0x9100C + 32 * i, 0, 1⟩
/-- XNG_OVR_CNT: address. -/
abbrev XNG_OVR_CNT (i : Nat) : Nat := 0x91010 + 32 * i
abbrev XNG_OVR_CNT_CNT (i : Nat) : Fld := ⟨0x91010 + 32 * i, 0, 32⟩
/-- XNG_DISC: address. -/
abbrev XNG_DISC (i : Nat) : Nat := 0x91014 + 32 * i
abbrev XNG_DISC_CNT (i : Nat) : Fld := ⟨0x91014 + 32 * i, 0, 32⟩
/-- XNG_MBOX_LO: address. -/
abbrev XNG_MBOX_LO (i : Nat) : Nat := 0x91018 + 32 * i
abbrev XNG_MBOX_LO_WORD (i : Nat) : Fld := ⟨0x91018 + 32 * i, 0, 32⟩
/-- XNG_MBOX_HI: address. -/
abbrev XNG_MBOX_HI (i : Nat) : Nat := 0x9101C + 32 * i
abbrev XNG_MBOX_HI_WORD (i : Nat) : Fld := ⟨0x9101C + 32 * i, 0, 32⟩
/-- FIFO_SCRUB_CFG: address. -/
abbrev FIFO_SCRUB_CFG : Nat := 0xA0000
abbrev FIFO_SCRUB_CFG_RATE : Fld := ⟨0xA0000, 1, 7⟩
abbrev FIFO_SCRUB_CFG_EN : Fld := ⟨0xA0000, 0, 1⟩
/-- FIFO_SCRUB_STATUS: address. -/
abbrev FIFO_SCRUB_STATUS : Nat := 0xA0004
abbrev FIFO_SCRUB_STATUS_PASSES : Fld := ⟨0xA0004, 19, 13⟩
abbrev FIFO_SCRUB_STATUS_ADDR : Fld := ⟨0xA0004, 0, 19⟩
/-- FIFO_SCRUB_CE: address. -/
abbrev FIFO_SCRUB_CE : Nat := 0xA0008
abbrev FIFO_SCRUB_CE_CNT : Fld := ⟨0xA0008, 0, 32⟩
/-- FIFO_SCRUB_UE: address. -/
abbrev FIFO_SCRUB_UE : Nat := 0xA000C
abbrev FIFO_SCRUB_UE_CNT : Fld := ⟨0xA000C, 0, 32⟩
/-- FIFO_LEVEL_PEND: address. -/
abbrev FIFO_LEVEL_PEND (i : Nat) : Nat := 0xA0010 + 4 * i
abbrev FIFO_LEVEL_PEND_PEND (i : Nat) : Fld := ⟨0xA0010 + 4 * i, 0, 32⟩
/-- FIFO_ERR_PEND: address. -/
abbrev FIFO_ERR_PEND (i : Nat) : Nat := 0xA0018 + 4 * i
abbrev FIFO_ERR_PEND_PEND (i : Nat) : Fld := ⟨0xA0018 + 4 * i, 0, 32⟩
/-- FIFO_IRQ_EN: address. -/
abbrev FIFO_IRQ_EN : Nat := 0xA0020
abbrev FIFO_IRQ_EN_ERR : Fld := ⟨0xA0020, 1, 1⟩
abbrev FIFO_IRQ_EN_LEVEL : Fld := ⟨0xA0020, 0, 1⟩
/-- FIFO_FREE_BLOCKS: address. -/
abbrev FIFO_FREE_BLOCKS : Nat := 0xA0024
abbrev FIFO_FREE_BLOCKS_N : Fld := ⟨0xA0024, 0, 10⟩
/-- FIFO_CFG: address. -/
abbrev FIFO_CFG (i : Nat) : Nat := 0xA1000 + 128 * i
abbrev FIFO_CFG_CIDX (i : Nat) : Fld := ⟨0xA1000 + 128 * i, 20, 6⟩
abbrev FIFO_CFG_CONS (i : Nat) : Fld := ⟨0xA1000 + 128 * i, 17, 3⟩
abbrev FIFO_CFG_PIDX (i : Nat) : Fld := ⟨0xA1000 + 128 * i, 11, 6⟩
abbrev FIFO_CFG_PROD (i : Nat) : Fld := ⟨0xA1000 + 128 * i, 8, 3⟩
abbrev FIFO_CFG_CONS_FLUSH (i : Nat) : Fld := ⟨0xA1000 + 128 * i, 6, 1⟩
abbrev FIFO_CFG_PACE (i : Nat) : Fld := ⟨0xA1000 + 128 * i, 5, 1⟩
abbrev FIFO_CFG_PAR_CHK (i : Nat) : Fld := ⟨0xA1000 + 128 * i, 4, 1⟩
abbrev FIFO_CFG_POP_WAIT (i : Nat) : Fld := ⟨0xA1000 + 128 * i, 3, 1⟩
abbrev FIFO_CFG_EN (i : Nat) : Fld := ⟨0xA1000 + 128 * i, 2, 1⟩
abbrev FIFO_CFG_MODE (i : Nat) : Fld := ⟨0xA1000 + 128 * i, 0, 2⟩
/-- FIFO_REGION: address. -/
abbrev FIFO_REGION (i : Nat) : Nat := 0xA1004 + 128 * i
abbrev FIFO_REGION_SIZE (i : Nat) : Fld := ⟨0xA1004 + 128 * i, 16, 10⟩
abbrev FIFO_REGION_BASE (i : Nat) : Fld := ⟨0xA1004 + 128 * i, 0, 9⟩
/-- FIFO_CT_THR: address. -/
abbrev FIFO_CT_THR (i : Nat) : Nat := 0xA1008 + 128 * i
abbrev FIFO_CT_THR_THR (i : Nat) : Fld := ⟨0xA1008 + 128 * i, 0, 20⟩
/-- FIFO_AF_THR: address. -/
abbrev FIFO_AF_THR (i : Nat) : Nat := 0xA100C + 128 * i
abbrev FIFO_AF_THR_THR (i : Nat) : Fld := ⟨0xA100C + 128 * i, 0, 20⟩
/-- FIFO_FILL: address. -/
abbrev FIFO_FILL (i : Nat) : Nat := 0xA1010 + 128 * i
abbrev FIFO_FILL_WORDS (i : Nat) : Fld := ⟨0xA1010 + 128 * i, 0, 20⟩
/-- FIFO_HWM: address. -/
abbrev FIFO_HWM (i : Nat) : Nat := 0xA1014 + 128 * i
abbrev FIFO_HWM_WORDS (i : Nat) : Fld := ⟨0xA1014 + 128 * i, 0, 20⟩
/-- FIFO_STATUS: address. -/
abbrev FIFO_STATUS (i : Nat) : Nat := 0xA1018 + 128 * i
abbrev FIFO_STATUS_ABORT_WHY (i : Nat) : Fld := ⟨0xA1018 + 128 * i, 12, 4⟩
abbrev FIFO_STATUS_GAP (i : Nat) : Fld := ⟨0xA1018 + 128 * i, 11, 1⟩
abbrev FIFO_STATUS_PARERR (i : Nat) : Fld := ⟨0xA1018 + 128 * i, 10, 1⟩
abbrev FIFO_STATUS_CE (i : Nat) : Fld := ⟨0xA1018 + 128 * i, 9, 1⟩
abbrev FIFO_STATUS_UE (i : Nat) : Fld := ⟨0xA1018 + 128 * i, 8, 1⟩
abbrev FIFO_STATUS_FRAMING (i : Nat) : Fld := ⟨0xA1018 + 128 * i, 7, 1⟩
abbrev FIFO_STATUS_ABORT (i : Nat) : Fld := ⟨0xA1018 + 128 * i, 6, 1⟩
abbrev FIFO_STATUS_OVR (i : Nat) : Fld := ⟨0xA1018 + 128 * i, 5, 1⟩
abbrev FIFO_STATUS_OPEN (i : Nat) : Fld := ⟨0xA1018 + 128 * i, 4, 1⟩
abbrev FIFO_STATUS_AF (i : Nat) : Fld := ⟨0xA1018 + 128 * i, 3, 1⟩
abbrev FIFO_STATUS_FULL (i : Nat) : Fld := ⟨0xA1018 + 128 * i, 2, 1⟩
abbrev FIFO_STATUS_VISIBLE (i : Nat) : Fld := ⟨0xA1018 + 128 * i, 1, 1⟩
abbrev FIFO_STATUS_EMPTY (i : Nat) : Fld := ⟨0xA1018 + 128 * i, 0, 1⟩
/-- FIFO_CMD: address. -/
abbrev FIFO_CMD (i : Nat) : Nat := 0xA101C + 128 * i
abbrev FIFO_CMD_CLR_HWM (i : Nat) : Fld := ⟨0xA101C + 128 * i, 1, 1⟩
abbrev FIFO_CMD_FLUSH (i : Nat) : Fld := ⟨0xA101C + 128 * i, 0, 1⟩
/-- FIFO_CE_CNT: address. -/
abbrev FIFO_CE_CNT (i : Nat) : Nat := 0xA1020 + 128 * i
abbrev FIFO_CE_CNT_CNT (i : Nat) : Fld := ⟨0xA1020 + 128 * i, 0, 32⟩
/-- FIFO_UE_CNT: address. -/
abbrev FIFO_UE_CNT (i : Nat) : Nat := 0xA1024 + 128 * i
abbrev FIFO_UE_CNT_CNT (i : Nat) : Fld := ⟨0xA1024 + 128 * i, 0, 32⟩
/-- FIFO_DROP_CNT: address. -/
abbrev FIFO_DROP_CNT (i : Nat) : Nat := 0xA1028 + 128 * i
abbrev FIFO_DROP_CNT_CNT (i : Nat) : Fld := ⟨0xA1028 + 128 * i, 0, 32⟩
/-- FIFO_ABORT_CNT: address. -/
abbrev FIFO_ABORT_CNT (i : Nat) : Nat := 0xA102C + 128 * i
abbrev FIFO_ABORT_CNT_CNT (i : Nat) : Fld := ⟨0xA102C + 128 * i, 0, 32⟩
/-- FIFO_FRAME_CNT: address. -/
abbrev FIFO_FRAME_CNT (i : Nat) : Nat := 0xA1030 + 128 * i
abbrev FIFO_FRAME_CNT_CNT (i : Nat) : Fld := ⟨0xA1030 + 128 * i, 0, 32⟩
/-- FIFO_PUSH_LO: address. -/
abbrev FIFO_PUSH_LO (i : Nat) : Nat := 0xA1040 + 128 * i
abbrev FIFO_PUSH_LO_DATA (i : Nat) : Fld := ⟨0xA1040 + 128 * i, 0, 32⟩
/-- FIFO_PUSH_HI: address. -/
abbrev FIFO_PUSH_HI (i : Nat) : Nat := 0xA1044 + 128 * i
abbrev FIFO_PUSH_HI_DATA (i : Nat) : Fld := ⟨0xA1044 + 128 * i, 0, 32⟩
/-- FIFO_PUSH_TAG: address. -/
abbrev FIFO_PUSH_TAG (i : Nat) : Nat := 0xA1048 + 128 * i
abbrev FIFO_PUSH_TAG_TAG (i : Nat) : Fld := ⟨0xA1048 + 128 * i, 0, 8⟩
/-- FIFO_POP_LO: address. -/
abbrev FIFO_POP_LO (i : Nat) : Nat := 0xA1050 + 128 * i
abbrev FIFO_POP_LO_DATA (i : Nat) : Fld := ⟨0xA1050 + 128 * i, 0, 32⟩
/-- FIFO_POP_HI: address. -/
abbrev FIFO_POP_HI (i : Nat) : Nat := 0xA1054 + 128 * i
abbrev FIFO_POP_HI_DATA (i : Nat) : Fld := ⟨0xA1054 + 128 * i, 0, 32⟩
/-- FIFO_POP_TAG: address. -/
abbrev FIFO_POP_TAG (i : Nat) : Nat := 0xA1058 + 128 * i
abbrev FIFO_POP_TAG_TAG (i : Nat) : Fld := ⟨0xA1058 + 128 * i, 0, 8⟩
/-- LAN_RCLK_CFG: address. -/
abbrev LAN_RCLK_CFG : Nat := 0xB0000
abbrev LAN_RCLK_CFG_EN1 : Fld := ⟨0xB0000, 31, 1⟩
abbrev LAN_RCLK_CFG_SQ1 : Fld := ⟨0xB0000, 30, 1⟩
abbrev LAN_RCLK_CFG_LANE1 : Fld := ⟨0xB0000, 27, 3⟩
abbrev LAN_RCLK_CFG_DIV1 : Fld := ⟨0xB0000, 16, 8⟩
abbrev LAN_RCLK_CFG_EN0 : Fld := ⟨0xB0000, 15, 1⟩
abbrev LAN_RCLK_CFG_SQ0 : Fld := ⟨0xB0000, 14, 1⟩
abbrev LAN_RCLK_CFG_LANE0 : Fld := ⟨0xB0000, 11, 3⟩
abbrev LAN_RCLK_CFG_DIV0 : Fld := ⟨0xB0000, 0, 8⟩
/-- LAN_EVENT_PEND: address. -/
abbrev LAN_EVENT_PEND : Nat := 0xB0004
abbrev LAN_EVENT_PEND_LANE : Fld := ⟨0xB0004, 0, 8⟩
/-- LN_CFG: address. -/
abbrev LN_CFG (i : Nat) : Nat := 0xB1000 + 256 * i
abbrev LN_CFG_TX_RF (i : Nat) : Fld := ⟨0xB1000 + 256 * i, 15, 1⟩
abbrev LN_CFG_STBY_TX (i : Nat) : Fld := ⟨0xB1000 + 256 * i, 14, 1⟩
abbrev LN_CFG_RX_INV (i : Nat) : Fld := ⟨0xB1000 + 256 * i, 13, 1⟩
abbrev LN_CFG_TX_INV (i : Nat) : Fld := ⟨0xB1000 + 256 * i, 12, 1⟩
abbrev LN_CFG_RAW_RATE (i : Nat) : Fld := ⟨0xB1000 + 256 * i, 8, 4⟩
abbrev LN_CFG_FEC (i : Nat) : Fld := ⟨0xB1000 + 256 * i, 4, 2⟩
abbrev LN_CFG_MODE (i : Nat) : Fld := ⟨0xB1000 + 256 * i, 0, 3⟩
/-- LN_XNG: address. -/
abbrev LN_XNG (i : Nat) : Nat := 0xB1004 + 256 * i
abbrev LN_XNG_TXS3 (i : Nat) : Fld := ⟨0xB1004 + 256 * i, 24, 8⟩
abbrev LN_XNG_TXS2 (i : Nat) : Fld := ⟨0xB1004 + 256 * i, 16, 8⟩
abbrev LN_XNG_TXS1 (i : Nat) : Fld := ⟨0xB1004 + 256 * i, 8, 8⟩
abbrev LN_XNG_TXS0 (i : Nat) : Fld := ⟨0xB1004 + 256 * i, 0, 8⟩
/-- LN_XNG_RX: address. -/
abbrev LN_XNG_RX (i : Nat) : Nat := 0xB1008 + 256 * i
abbrev LN_XNG_RX_RXD (i : Nat) : Fld := ⟨0xB1008 + 256 * i, 8, 8⟩
abbrev LN_XNG_RX_RX (i : Nat) : Fld := ⟨0xB1008 + 256 * i, 0, 8⟩
/-- LN_RX_CFG: address. -/
abbrev LN_RX_CFG (i : Nat) : Nat := 0xB100C + 256 * i
abbrev LN_RX_CFG_DEST (i : Nat) : Fld := ⟨0xB100C + 256 * i, 14, 1⟩
abbrev LN_RX_CFG_MAX_LEN (i : Nat) : Fld := ⟨0xB100C + 256 * i, 0, 14⟩
/-- LN_TX_CFG: address. -/
abbrev LN_TX_CFG (i : Nat) : Nat := 0xB1010 + 256 * i
abbrev LN_TX_CFG_REP_CF (i : Nat) : Fld := ⟨0xB1010 + 256 * i, 7, 1⟩
abbrev LN_TX_CFG_REP (i : Nat) : Fld := ⟨0xB1010 + 256 * i, 5, 2⟩
abbrev LN_TX_CFG_TX_THR (i : Nat) : Fld := ⟨0xB1010 + 256 * i, 0, 5⟩
/-- LN_STATUS: address. -/
abbrev LN_STATUS (i : Nat) : Nat := 0xB1014 + 256 * i
abbrev LN_STATUS_STATE (i : Nat) : Fld := ⟨0xB1014 + 256 * i, 9, 3⟩
abbrev LN_STATUS_TX_IDLE_E (i : Nat) : Fld := ⟨0xB1014 + 256 * i, 8, 1⟩
abbrev LN_STATUS_RX_RF (i : Nat) : Fld := ⟨0xB1014 + 256 * i, 7, 1⟩
abbrev LN_STATUS_RX_LF (i : Nat) : Fld := ⟨0xB1014 + 256 * i, 6, 1⟩
abbrev LN_STATUS_TXTS_V (i : Nat) : Fld := ⟨0xB1014 + 256 * i, 5, 1⟩
abbrev LN_STATUS_TX_SLIP (i : Nat) : Fld := ⟨0xB1014 + 256 * i, 4, 1⟩
abbrev LN_STATUS_FEC_LOCK (i : Nat) : Fld := ⟨0xB1014 + 256 * i, 3, 1⟩
abbrev LN_STATUS_PCS_LOCK (i : Nat) : Fld := ⟨0xB1014 + 256 * i, 2, 1⟩
abbrev LN_STATUS_CDR_LOCK (i : Nat) : Fld := ⟨0xB1014 + 256 * i, 1, 1⟩
abbrev LN_STATUS_PLL_LOCK (i : Nat) : Fld := ⟨0xB1014 + 256 * i, 0, 1⟩
/-- LN_CMD: address. -/
abbrev LN_CMD (i : Nat) : Nat := 0xB1018 + 256 * i
abbrev LN_CMD_TXTS_POP (i : Nat) : Fld := ⟨0xB1018 + 256 * i, 2, 1⟩
abbrev LN_CMD_UP (i : Nat) : Fld := ⟨0xB1018 + 256 * i, 1, 1⟩
abbrev LN_CMD_DOWN (i : Nat) : Fld := ⟨0xB1018 + 256 * i, 0, 1⟩
/-- LN_RX_ASYM: address. -/
abbrev LN_RX_ASYM (i : Nat) : Nat := 0xB101C + 256 * i
abbrev LN_RX_ASYM_QN (i : Nat) : Fld := ⟨0xB101C + 256 * i, 0, 32⟩
/-- LN_TX_ASYM: address. -/
abbrev LN_TX_ASYM (i : Nat) : Nat := 0xB1020 + 256 * i
abbrev LN_TX_ASYM_QN (i : Nat) : Fld := ⟨0xB1020 + 256 * i, 0, 32⟩
/-- LN_RAW_IDLE_LO: address. -/
abbrev LN_RAW_IDLE_LO (i : Nat) : Nat := 0xB1024 + 256 * i
abbrev LN_RAW_IDLE_LO_WORD (i : Nat) : Fld := ⟨0xB1024 + 256 * i, 0, 32⟩
/-- LN_RAW_IDLE_HI: address. -/
abbrev LN_RAW_IDLE_HI (i : Nat) : Nat := 0xB1028 + 256 * i
abbrev LN_RAW_IDLE_HI_WORD (i : Nat) : Fld := ⟨0xB1028 + 256 * i, 0, 32⟩
/-- LN_RAW_MARK: address. -/
abbrev LN_RAW_MARK (i : Nat) : Nat := 0xB102C + 256 * i
abbrev LN_RAW_MARK_PAT (i : Nat) : Fld := ⟨0xB102C + 256 * i, 0, 32⟩
/-- LN_RAW_MASK: address. -/
abbrev LN_RAW_MASK (i : Nat) : Nat := 0xB1030 + 256 * i
abbrev LN_RAW_MASK_PAT (i : Nat) : Fld := ⟨0xB1030 + 256 * i, 0, 32⟩
/-- LN_TXTS_LO: address. -/
abbrev LN_TXTS_LO (i : Nat) : Nat := 0xB1034 + 256 * i
abbrev LN_TXTS_LO_STAMP (i : Nat) : Fld := ⟨0xB1034 + 256 * i, 0, 32⟩
/-- LN_TXTS_HI: address. -/
abbrev LN_TXTS_HI (i : Nat) : Nat := 0xB1038 + 256 * i
abbrev LN_TXTS_HI_STAMP (i : Nat) : Fld := ⟨0xB1038 + 256 * i, 0, 32⟩
/-- LN_TXTS_INFO: address. -/
abbrev LN_TXTS_INFO (i : Nat) : Nat := 0xB103C + 256 * i
abbrev LN_TXTS_INFO_ONE_STEP (i : Nat) : Fld := ⟨0xB103C + 256 * i, 10, 1⟩
abbrev LN_TXTS_INFO_SRC (i : Nat) : Fld := ⟨0xB103C + 256 * i, 8, 2⟩
abbrev LN_TXTS_INFO_SEQ (i : Nat) : Fld := ⟨0xB103C + 256 * i, 0, 8⟩
/-- LN_RX_FRAMES: address. -/
abbrev LN_RX_FRAMES (i : Nat) : Nat := 0xB1040 + 256 * i
abbrev LN_RX_FRAMES_CNT (i : Nat) : Fld := ⟨0xB1040 + 256 * i, 0, 32⟩
/-- LN_RX_PERR: address. -/
abbrev LN_RX_PERR (i : Nat) : Nat := 0xB1044 + 256 * i
abbrev LN_RX_PERR_CNT (i : Nat) : Fld := ⟨0xB1044 + 256 * i, 0, 32⟩
/-- LN_RX_TRUNC: address. -/
abbrev LN_RX_TRUNC (i : Nat) : Nat := 0xB1048 + 256 * i
abbrev LN_RX_TRUNC_CNT (i : Nat) : Fld := ⟨0xB1048 + 256 * i, 0, 32⟩
/-- LN_RX_DLOST: address. -/
abbrev LN_RX_DLOST (i : Nat) : Nat := 0xB104C + 256 * i
abbrev LN_RX_DLOST_CNT (i : Nat) : Fld := ⟨0xB104C + 256 * i, 0, 32⟩
/-- LN_TX_FRAMES: address. -/
abbrev LN_TX_FRAMES (i : Nat) : Nat := 0xB1050 + 256 * i
abbrev LN_TX_FRAMES_CNT (i : Nat) : Fld := ⟨0xB1050 + 256 * i, 0, 32⟩
/-- LN_TX_UNDR: address. -/
abbrev LN_TX_UNDR (i : Nat) : Nat := 0xB1054 + 256 * i
abbrev LN_TX_UNDR_CNT (i : Nat) : Fld := ⟨0xB1054 + 256 * i, 0, 32⟩
/-- LN_TX_SLIP: address. -/
abbrev LN_TX_SLIP (i : Nat) : Nat := 0xB1058 + 256 * i
abbrev LN_TX_SLIP_CNT (i : Nat) : Fld := ⟨0xB1058 + 256 * i, 0, 32⟩
/-- LN_TX_BAD: address. -/
abbrev LN_TX_BAD (i : Nat) : Nat := 0xB105C + 256 * i
abbrev LN_TX_BAD_CNT (i : Nat) : Fld := ⟨0xB105C + 256 * i, 0, 32⟩
/-- LN_FEC_CORR: address. -/
abbrev LN_FEC_CORR (i : Nat) : Nat := 0xB1060 + 256 * i
abbrev LN_FEC_CORR_CNT (i : Nat) : Fld := ⟨0xB1060 + 256 * i, 0, 32⟩
/-- LN_FEC_UNCORR: address. -/
abbrev LN_FEC_UNCORR (i : Nat) : Nat := 0xB1064 + 256 * i
abbrev LN_FEC_UNCORR_CNT (i : Nat) : Fld := ⟨0xB1064 + 256 * i, 0, 32⟩
/-- LN_EVENT: address. -/
abbrev LN_EVENT (i : Nat) : Nat := 0xB1068 + 256 * i
abbrev LN_EVENT_ERR (i : Nat) : Fld := ⟨0xB1068 + 256 * i, 2, 1⟩
abbrev LN_EVENT_TXTS (i : Nat) : Fld := ⟨0xB1068 + 256 * i, 1, 1⟩
abbrev LN_EVENT_UP_CHG (i : Nat) : Fld := ⟨0xB1068 + 256 * i, 0, 1⟩
/-- LN_IRQ_EN: address. -/
abbrev LN_IRQ_EN (i : Nat) : Nat := 0xB106C + 256 * i
abbrev LN_IRQ_EN_ERR (i : Nat) : Fld := ⟨0xB106C + 256 * i, 2, 1⟩
abbrev LN_IRQ_EN_TXTS (i : Nat) : Fld := ⟨0xB106C + 256 * i, 1, 1⟩
abbrev LN_IRQ_EN_UP_CHG (i : Nat) : Fld := ⟨0xB106C + 256 * i, 0, 1⟩
/-- SHR_CFG: address. -/
abbrev SHR_CFG : Nat := 0xC0000
abbrev SHR_CFG_EXPECT : Fld := ⟨0xC0000, 8, 7⟩
abbrev SHR_CFG_HOIST_STEP : Fld := ⟨0xC0000, 5, 1⟩
abbrev SHR_CFG_ADDR_STRAP : Fld := ⟨0xC0000, 4, 1⟩
abbrev SHR_CFG_PORTS : Fld := ⟨0xC0000, 0, 4⟩
/-- SHR_TIMING: address. -/
abbrev SHR_TIMING : Nat := 0xC0004
abbrev SHR_TIMING_FORM_QUIET_US : Fld := ⟨0xC0004, 16, 16⟩
abbrev SHR_TIMING_SYNC_US : Fld := ⟨0xC0004, 0, 16⟩
/-- SHR_STATUS: address. -/
abbrev SHR_STATUS : Nat := 0xC0008
abbrev SHR_STATUS_COORD_SET : Fld := ⟨0xC0008, 27, 1⟩
abbrev SHR_STATUS_MEMBERS : Fld := ⟨0xC0008, 20, 7⟩
abbrev SHR_STATUS_EPOCH : Fld := ⟨0xC0008, 12, 8⟩
abbrev SHR_STATUS_ADDR : Fld := ⟨0xC0008, 6, 6⟩
abbrev SHR_STATUS_ADDR_VALID : Fld := ⟨0xC0008, 5, 1⟩
abbrev SHR_STATUS_FAB_ALIGNED : Fld := ⟨0xC0008, 4, 1⟩
abbrev SHR_STATUS_ALIGNED : Fld := ⟨0xC0008, 3, 1⟩
abbrev SHR_STATUS_IS_COORD : Fld := ⟨0xC0008, 2, 1⟩
abbrev SHR_STATUS_FSTATE : Fld := ⟨0xC0008, 0, 2⟩
/-- SHR_FABRIC: address. -/
abbrev SHR_FABRIC : Nat := 0xC000C
abbrev SHR_FABRIC_PARENT : Fld := ⟨0xC000C, 16, 3⟩
abbrev SHR_FABRIC_LEVEL : Fld := ⟨0xC000C, 8, 5⟩
abbrev SHR_FABRIC_COORD_ADDR : Fld := ⟨0xC000C, 0, 6⟩
/-- SHR_COORD_UID: address. -/
abbrev SHR_COORD_UID (i : Nat) : Nat := 0xC0010 + 4 * i
abbrev SHR_COORD_UID_VALUE (i : Nat) : Fld := ⟨0xC0010 + 4 * i, 0, 32⟩
/-- SHR_MEMBERS: address. -/
abbrev SHR_MEMBERS (i : Nat) : Nat := 0xC0020 + 4 * i
abbrev SHR_MEMBERS_VALUE (i : Nat) : Fld := ⟨0xC0020 + 4 * i, 0, 32⟩
/-- SHR_ALIGN_THR: address. -/
abbrev SHR_ALIGN_THR : Nat := 0xC0028
abbrev SHR_ALIGN_THR_THR : Fld := ⟨0xC0028, 0, 16⟩
/-- SHR_LAST_ERR: address. -/
abbrev SHR_LAST_ERR : Nat := 0xC002C
abbrev SHR_LAST_ERR_E : Fld := ⟨0xC002C, 0, 32⟩
/-- SHR_CMD: address. -/
abbrev SHR_CMD : Nat := 0xC0030
abbrev SHR_CMD_REFORM : Fld := ⟨0xC0030, 0, 1⟩
/-- SHR_EVENT: address. -/
abbrev SHR_EVENT : Nat := 0xC0034
abbrev SHR_EVENT_ERR : Fld := ⟨0xC0034, 5, 1⟩
abbrev SHR_EVENT_ALIGN_CHG : Fld := ⟨0xC0034, 4, 1⟩
abbrev SHR_EVENT_LOST : Fld := ⟨0xC0034, 3, 1⟩
abbrev SHR_EVENT_COORD_LOST : Fld := ⟨0xC0034, 2, 1⟩
abbrev SHR_EVENT_PORT : Fld := ⟨0xC0034, 1, 1⟩
abbrev SHR_EVENT_EPOCH : Fld := ⟨0xC0034, 0, 1⟩
/-- SHR_IRQ_EN: address. -/
abbrev SHR_IRQ_EN : Nat := 0xC0038
abbrev SHR_IRQ_EN_ERR : Fld := ⟨0xC0038, 5, 1⟩
abbrev SHR_IRQ_EN_ALIGN_CHG : Fld := ⟨0xC0038, 4, 1⟩
abbrev SHR_IRQ_EN_LOST : Fld := ⟨0xC0038, 3, 1⟩
abbrev SHR_IRQ_EN_COORD_LOST : Fld := ⟨0xC0038, 2, 1⟩
abbrev SHR_IRQ_EN_PORT : Fld := ⟨0xC0038, 1, 1⟩
abbrev SHR_IRQ_EN_EPOCH : Fld := ⟨0xC0038, 0, 1⟩
/-- SHR_DISC: address. -/
abbrev SHR_DISC : Nat := 0xC003C
abbrev SHR_DISC_CNT : Fld := ⟨0xC003C, 0, 32⟩
/-- SHR_ROUTE: address. -/
abbrev SHR_ROUTE (i : Nat) : Nat := 0xC0040 + 4 * i
abbrev SHR_ROUTE_TABLE (i : Nat) : Fld := ⟨0xC0040 + 4 * i, 0, 32⟩
/-- SHR_P_STATUS: address. -/
abbrev SHR_P_STATUS (i : Nat) : Nat := 0xC0100 + 64 * i
abbrev SHR_P_STATUS_NBR_PORT (i : Nat) : Fld := ⟨0xC0100 + 64 * i, 13, 2⟩
abbrev SHR_P_STATUS_NBR_VALID (i : Nat) : Fld := ⟨0xC0100 + 64 * i, 12, 1⟩
abbrev SHR_P_STATUS_NBR_ADDR (i : Nat) : Fld := ⟨0xC0100 + 64 * i, 6, 6⟩
abbrev SHR_P_STATUS_UP_END (i : Nat) : Fld := ⟨0xC0100 + 64 * i, 5, 1⟩
abbrev SHR_P_STATUS_TREE (i : Nat) : Fld := ⟨0xC0100 + 64 * i, 4, 1⟩
abbrev SHR_P_STATUS_STATE (i : Nat) : Fld := ⟨0xC0100 + 64 * i, 0, 3⟩
/-- SHR_P_ASYM: address. -/
abbrev SHR_P_ASYM (i : Nat) : Nat := 0xC0104 + 64 * i
abbrev SHR_P_ASYM_QN (i : Nat) : Fld := ⟨0xC0104 + 64 * i, 0, 32⟩
/-- SHR_P_DELAY: address. -/
abbrev SHR_P_DELAY (i : Nat) : Nat := 0xC0108 + 64 * i
abbrev SHR_P_DELAY_QN (i : Nat) : Fld := ⟨0xC0108 + 64 * i, 0, 32⟩
/-- SHR_P_NBR_UID0: address. -/
abbrev SHR_P_NBR_UID0 (i : Nat) : Nat := 0xC010C + 64 * i
abbrev SHR_P_NBR_UID0_UID (i : Nat) : Fld := ⟨0xC010C + 64 * i, 0, 32⟩
/-- SHR_P_NBR_UID1: address. -/
abbrev SHR_P_NBR_UID1 (i : Nat) : Nat := 0xC0110 + 64 * i
abbrev SHR_P_NBR_UID1_UID (i : Nat) : Fld := ⟨0xC0110 + 64 * i, 0, 32⟩
/-- SHR_P_NBR_UID2: address. -/
abbrev SHR_P_NBR_UID2 (i : Nat) : Nat := 0xC0114 + 64 * i
abbrev SHR_P_NBR_UID2_UID (i : Nat) : Fld := ⟨0xC0114 + 64 * i, 0, 32⟩
/-- SHR_P_CRC_ERR: address. -/
abbrev SHR_P_CRC_ERR (i : Nat) : Nat := 0xC0118 + 64 * i
abbrev SHR_P_CRC_ERR_CNT (i : Nat) : Fld := ⟨0xC0118 + 64 * i, 0, 32⟩
/-- SHR_P_REPLAY: address. -/
abbrev SHR_P_REPLAY (i : Nat) : Nat := 0xC011C + 64 * i
abbrev SHR_P_REPLAY_CNT (i : Nat) : Fld := ⟨0xC011C + 64 * i, 0, 32⟩
/-- SHR_P_DOWN_CNT: address. -/
abbrev SHR_P_DOWN_CNT (i : Nat) : Nat := 0xC0120 + 64 * i
abbrev SHR_P_DOWN_CNT_CNT (i : Nat) : Fld := ⟨0xC0120 + 64 * i, 0, 32⟩
/-- SHR_P_LOST_FR: address. -/
abbrev SHR_P_LOST_FR (i : Nat) : Nat := 0xC0124 + 64 * i
abbrev SHR_P_LOST_FR_CNT (i : Nat) : Fld := ⟨0xC0124 + 64 * i, 0, 32⟩
/-- SHR_EP_CFG: address. -/
abbrev SHR_EP_CFG (i : Nat) : Nat := 0xC1000 + 64 * i
abbrev SHR_EP_CFG_RX_WIDTH_M1 (i : Nat) : Fld := ⟨0xC1000 + 64 * i, 10, 6⟩
abbrev SHR_EP_CFG_RX_FIFO (i : Nat) : Fld := ⟨0xC1000 + 64 * i, 9, 1⟩
abbrev SHR_EP_CFG_RX_EN (i : Nat) : Fld := ⟨0xC1000 + 64 * i, 8, 1⟩
abbrev SHR_EP_CFG_TX_WIDTH_M1 (i : Nat) : Fld := ⟨0xC1000 + 64 * i, 2, 6⟩
abbrev SHR_EP_CFG_TX_FIFO (i : Nat) : Fld := ⟨0xC1000 + 64 * i, 1, 1⟩
abbrev SHR_EP_CFG_TX_EN (i : Nat) : Fld := ⟨0xC1000 + 64 * i, 0, 1⟩
/-- SHR_EP_TX_PEER: address. -/
abbrev SHR_EP_TX_PEER (i : Nat) : Nat := 0xC1004 + 64 * i
abbrev SHR_EP_TX_PEER_ADDR (i : Nat) : Fld := ⟨0xC1004 + 64 * i, 0, 12⟩
/-- SHR_EP_RX_PEER: address. -/
abbrev SHR_EP_RX_PEER (i : Nat) : Nat := 0xC1008 + 64 * i
abbrev SHR_EP_RX_PEER_ADDR (i : Nat) : Fld := ⟨0xC1008 + 64 * i, 0, 12⟩
/-- SHR_EP_TX_STATUS: address. -/
abbrev SHR_EP_TX_STATUS (i : Nat) : Nat := 0xC100C + 64 * i
abbrev SHR_EP_TX_STATUS_PROBING (i : Nat) : Fld := ⟨0xC100C + 64 * i, 8, 1⟩
abbrev SHR_EP_TX_STATUS_PEER_ABSENT (i : Nat) : Fld := ⟨0xC100C + 64 * i, 7, 1⟩
abbrev SHR_EP_TX_STATUS_NO_ROUTE (i : Nat) : Fld := ⟨0xC100C + 64 * i, 6, 1⟩
abbrev SHR_EP_TX_STATUS_CREDIT (i : Nat) : Fld := ⟨0xC100C + 64 * i, 0, 6⟩
/-- SHR_EP_TX_SENT: address. -/
abbrev SHR_EP_TX_SENT (i : Nat) : Nat := 0xC1010 + 64 * i
abbrev SHR_EP_TX_SENT_CNT (i : Nat) : Fld := ⟨0xC1010 + 64 * i, 0, 32⟩
/-- SHR_EP_TX_LOST: address. -/
abbrev SHR_EP_TX_LOST (i : Nat) : Nat := 0xC1014 + 64 * i
abbrev SHR_EP_TX_LOST_CNT (i : Nat) : Fld := ⟨0xC1014 + 64 * i, 0, 32⟩
/-- SHR_EP_RX_STATUS: address. -/
abbrev SHR_EP_RX_STATUS (i : Nat) : Nat := 0xC1018 + 64 * i
abbrev SHR_EP_RX_STATUS_HELD (i : Nat) : Fld := ⟨0xC1018 + 64 * i, 0, 6⟩
/-- SHR_EP_RX_RECV: address. -/
abbrev SHR_EP_RX_RECV (i : Nat) : Nat := 0xC101C + 64 * i
abbrev SHR_EP_RX_RECV_CNT (i : Nat) : Fld := ⟨0xC101C + 64 * i, 0, 32⟩
/-- SHR_EP_RX_TAKEN: address. -/
abbrev SHR_EP_RX_TAKEN (i : Nat) : Nat := 0xC1020 + 64 * i
abbrev SHR_EP_RX_TAKEN_CNT (i : Nat) : Fld := ⟨0xC1020 + 64 * i, 0, 32⟩
/-- SHR_EP_RX_DISC: address. -/
abbrev SHR_EP_RX_DISC (i : Nat) : Nat := 0xC1024 + 64 * i
abbrev SHR_EP_RX_DISC_CNT (i : Nat) : Fld := ⟨0xC1024 + 64 * i, 0, 32⟩
/-- SHR_EP_DROPS: address. -/
abbrev SHR_EP_DROPS (i : Nat) : Nat := 0xC1028 + 64 * i
abbrev SHR_EP_DROPS_CNT (i : Nat) : Fld := ⟨0xC1028 + 64 * i, 0, 32⟩
/-- STY_CFG: address. -/
abbrev STY_CFG : Nat := 0xD0000
abbrev STY_CFG_REFRESH_MS : Fld := ⟨0xD0000, 16, 16⟩
abbrev STY_CFG_N : Fld := ⟨0xD0000, 4, 10⟩
abbrev STY_CFG_HOIST_STEP : Fld := ⟨0xD0000, 3, 1⟩
abbrev STY_CFG_DSC_MIRROR : Fld := ⟨0xD0000, 2, 1⟩
abbrev STY_CFG_EN : Fld := ⟨0xD0000, 0, 1⟩
/-- STY_TIMING: address. -/
abbrev STY_TIMING : Nat := 0xD0004
abbrev STY_TIMING_CLAIM_US : Fld := ⟨0xD0004, 16, 16⟩
abbrev STY_TIMING_SYNC_US : Fld := ⟨0xD0004, 0, 16⟩
/-- STY_STATUS: address. -/
abbrev STY_STATUS : Nat := 0xD0008
abbrev STY_STATUS_LINK : Fld := ⟨0xD0008, 21, 3⟩
abbrev STY_STATUS_PARTNER_REEFING : Fld := ⟨0xD0008, 20, 1⟩
abbrev STY_STATUS_PARTNER_ROLE : Fld := ⟨0xD0008, 18, 2⟩
abbrev STY_STATUS_PARTNER_PRESENT : Fld := ⟨0xD0008, 17, 1⟩
abbrev STY_STATUS_CONTEND : Fld := ⟨0xD0008, 16, 1⟩
abbrev STY_STATUS_SIG_MATCH : Fld := ⟨0xD0008, 15, 1⟩
abbrev STY_STATUS_PAIRED : Fld := ⟨0xD0008, 14, 1⟩
abbrev STY_STATUS_WARM : Fld := ⟨0xD0008, 13, 1⟩
abbrev STY_STATUS_ALIGNED : Fld := ⟨0xD0008, 12, 1⟩
abbrev STY_STATUS_PRIMARY : Fld := ⟨0xD0008, 11, 1⟩
abbrev STY_STATUS_PARTNER_PRIMARY : Fld := ⟨0xD0008, 10, 1⟩
abbrev STY_STATUS_ROLE : Fld := ⟨0xD0008, 0, 2⟩
/-- STY_CMD: address. -/
abbrev STY_CMD : Nat := 0xD000C
abbrev STY_CMD_KEY : Fld := ⟨0xD000C, 16, 16⟩
abbrev STY_CMD_REFRESH : Fld := ⟨0xD000C, 1, 1⟩
abbrev STY_CMD_SWITCHOVER : Fld := ⟨0xD000C, 0, 1⟩
/-- STY_ASYM: address. -/
abbrev STY_ASYM : Nat := 0xD0010
abbrev STY_ASYM_QN : Fld := ⟨0xD0010, 0, 32⟩
/-- STY_DELAY: address. -/
abbrev STY_DELAY : Nat := 0xD0014
abbrev STY_DELAY_QN : Fld := ⟨0xD0014, 0, 32⟩
/-- STY_LAST_ERR: address. -/
abbrev STY_LAST_ERR : Nat := 0xD0018
abbrev STY_LAST_ERR_QN : Fld := ⟨0xD0018, 0, 32⟩
/-- STY_ALIGN_THR: address. -/
abbrev STY_ALIGN_THR : Nat := 0xD001C
abbrev STY_ALIGN_THR_THR : Fld := ⟨0xD001C, 0, 16⟩
/-- STY_PUSH_COST: address. -/
abbrev STY_PUSH_COST : Nat := 0xD0020
abbrev STY_PUSH_COST_UJ : Fld := ⟨0xD0020, 0, 32⟩
/-- STY_SIG: address. -/
abbrev STY_SIG : Nat := 0xD0024
abbrev STY_SIG_VALUE : Fld := ⟨0xD0024, 0, 32⟩
/-- STY_PARTNER_SIG: address. -/
abbrev STY_PARTNER_SIG : Nat := 0xD0028
abbrev STY_PARTNER_SIG_VALUE : Fld := ⟨0xD0028, 0, 32⟩
/-- STY_PARTNER_UID: address. -/
abbrev STY_PARTNER_UID (i : Nat) : Nat := 0xD002C + 4 * i
abbrev STY_PARTNER_UID_VALUE (i : Nat) : Fld := ⟨0xD002C + 4 * i, 0, 32⟩
/-- STY_PARTNER_DSC: address. -/
abbrev STY_PARTNER_DSC : Nat := 0xD0038
abbrev STY_PARTNER_DSC_MODEL_USABLE : Fld := ⟨0xD0038, 7, 1⟩
abbrev STY_PARTNER_DSC_SET : Fld := ⟨0xD0038, 6, 1⟩
abbrev STY_PARTNER_DSC_SRC : Fld := ⟨0xD0038, 3, 3⟩
abbrev STY_PARTNER_DSC_STATE : Fld := ⟨0xD0038, 0, 3⟩
/-- STY_SLOT_RX: address. -/
abbrev STY_SLOT_RX : Nat := 0xD003C
abbrev STY_SLOT_RX_SLOT : Fld := ⟨0xD003C, 0, 32⟩
/-- STY_LAST_TO_LO: address. -/
abbrev STY_LAST_TO_LO : Nat := 0xD0040
abbrev STY_LAST_TO_LO_MAST : Fld := ⟨0xD0040, 0, 32⟩
/-- STY_LAST_TO_HI: address. -/
abbrev STY_LAST_TO_HI : Nat := 0xD0044
abbrev STY_LAST_TO_HI_MAST : Fld := ⟨0xD0044, 0, 32⟩
/-- STY_TAKEOVERS: address. -/
abbrev STY_TAKEOVERS : Nat := 0xD0048
abbrev STY_TAKEOVERS_CNT : Fld := ⟨0xD0048, 0, 32⟩
/-- STY_HB_MISS: address. -/
abbrev STY_HB_MISS : Nat := 0xD004C
abbrev STY_HB_MISS_CNT : Fld := ⟨0xD004C, 0, 32⟩
/-- STY_SLOT_SKIP: address. -/
abbrev STY_SLOT_SKIP : Nat := 0xD0050
abbrev STY_SLOT_SKIP_CNT : Fld := ⟨0xD0050, 0, 32⟩
/-- STY_MIRROR_RX: address. -/
abbrev STY_MIRROR_RX : Nat := 0xD0054
abbrev STY_MIRROR_RX_CNT : Fld := ⟨0xD0054, 0, 32⟩
/-- STY_CRC_ERR: address. -/
abbrev STY_CRC_ERR : Nat := 0xD0058
abbrev STY_CRC_ERR_CNT : Fld := ⟨0xD0058, 0, 32⟩
/-- STY_REPLAY: address. -/
abbrev STY_REPLAY : Nat := 0xD005C
abbrev STY_REPLAY_CNT : Fld := ⟨0xD005C, 0, 32⟩
/-- STY_DOWN_CNT: address. -/
abbrev STY_DOWN_CNT : Nat := 0xD0060
abbrev STY_DOWN_CNT_CNT : Fld := ⟨0xD0060, 0, 32⟩
/-- STY_LOST_FR: address. -/
abbrev STY_LOST_FR : Nat := 0xD0064
abbrev STY_LOST_FR_CNT : Fld := ⟨0xD0064, 0, 32⟩
/-- STY_EVENT: address. -/
abbrev STY_EVENT : Nat := 0xD0068
abbrev STY_EVENT_ERR : Fld := ⟨0xD0068, 6, 1⟩
abbrev STY_EVENT_LINK : Fld := ⟨0xD0068, 5, 1⟩
abbrev STY_EVENT_ALIGN_CHG : Fld := ⟨0xD0068, 4, 1⟩
abbrev STY_EVENT_WARM : Fld := ⟨0xD0068, 3, 1⟩
abbrev STY_EVENT_PARTNER_CHG : Fld := ⟨0xD0068, 2, 1⟩
abbrev STY_EVENT_TAKEOVER : Fld := ⟨0xD0068, 1, 1⟩
abbrev STY_EVENT_ROLE_CHG : Fld := ⟨0xD0068, 0, 1⟩
/-- STY_IRQ_EN: address. -/
abbrev STY_IRQ_EN : Nat := 0xD006C
abbrev STY_IRQ_EN_ERR : Fld := ⟨0xD006C, 6, 1⟩
abbrev STY_IRQ_EN_LINK : Fld := ⟨0xD006C, 5, 1⟩
abbrev STY_IRQ_EN_ALIGN_CHG : Fld := ⟨0xD006C, 4, 1⟩
abbrev STY_IRQ_EN_WARM : Fld := ⟨0xD006C, 3, 1⟩
abbrev STY_IRQ_EN_PARTNER_CHG : Fld := ⟨0xD006C, 2, 1⟩
abbrev STY_IRQ_EN_TAKEOVER : Fld := ⟨0xD006C, 1, 1⟩
abbrev STY_IRQ_EN_ROLE_CHG : Fld := ⟨0xD006C, 0, 1⟩
/-- STY_SLOTS: address. -/
abbrev STY_SLOTS : Nat := 0xD0070
abbrev STY_SLOTS_SLOTS : Fld := ⟨0xD0070, 0, 32⟩
/-- PWR_CMD: address. -/
abbrev PWR_CMD : Nat := 0xE0000
abbrev PWR_CMD_KEY : Fld := ⟨0xE0000, 16, 16⟩
abbrev PWR_CMD_REEF : Fld := ⟨0xE0000, 0, 1⟩
/-- PWR_STATUS: address. -/
abbrev PWR_STATUS : Nat := 0xE0004
abbrev PWR_STATUS_VBAT_LOW : Fld := ⟨0xE0004, 9, 1⟩
abbrev PWR_STATUS_RSV_OVER : Fld := ⟨0xE0004, 8, 1⟩
abbrev PWR_STATUS_LEDGER_BLIND : Fld := ⟨0xE0004, 7, 1⟩
abbrev PWR_STATUS_PFI : Fld := ⟨0xE0004, 6, 1⟩
abbrev PWR_STATUS_RSV_OK : Fld := ⟨0xE0004, 5, 1⟩
abbrev PWR_STATUS_CHARGING : Fld := ⟨0xE0004, 4, 1⟩
abbrev PWR_STATUS_AVS_FAULT : Fld := ⟨0xE0004, 3, 1⟩
abbrev PWR_STATUS_CAP_LIMIT : Fld := ⟨0xE0004, 2, 1⟩
abbrev PWR_STATUS_CEILING_PRESSURE : Fld := ⟨0xE0004, 1, 1⟩
abbrev PWR_STATUS_LOOP_RUN : Fld := ⟨0xE0004, 0, 1⟩
/-- PWR_VDDF_FLOOR: address. -/
abbrev PWR_VDDF_FLOOR : Nat := 0xE0008
abbrev PWR_VDDF_FLOOR_MV : Fld := ⟨0xE0008, 0, 10⟩
/-- PWR_VDDF_CEIL: address. -/
abbrev PWR_VDDF_CEIL : Nat := 0xE000C
abbrev PWR_VDDF_CEIL_MV : Fld := ⟨0xE000C, 0, 10⟩
/-- PWR_POWER_CAP: address. -/
abbrev PWR_POWER_CAP : Nat := 0xE0010
abbrev PWR_POWER_CAP_MW : Fld := ⟨0xE0010, 0, 32⟩
/-- PWR_VDDF_TARGET: address. -/
abbrev PWR_VDDF_TARGET : Nat := 0xE0014
abbrev PWR_VDDF_TARGET_REQ : Fld := ⟨0xE0014, 16, 16⟩
abbrev PWR_VDDF_TARGET_T : Fld := ⟨0xE0014, 0, 16⟩
/-- PWR_VDDF_MEAS: address. -/
abbrev PWR_VDDF_MEAS : Nat := 0xE0018
abbrev PWR_VDDF_MEAS_MA : Fld := ⟨0xE0018, 16, 16⟩
abbrev PWR_VDDF_MEAS_MV : Fld := ⟨0xE0018, 0, 16⟩
/-- PWR_PACE_CFG: address. -/
abbrev PWR_PACE_CFG : Nat := 0xE001C
abbrev PWR_PACE_CFG_HI : Fld := ⟨0xE001C, 24, 8⟩
abbrev PWR_PACE_CFG_LO : Fld := ⟨0xE001C, 16, 8⟩
abbrev PWR_PACE_CFG_STEP_UP : Fld := ⟨0xE001C, 8, 8⟩
abbrev PWR_PACE_CFG_STEP_DN : Fld := ⟨0xE001C, 0, 8⟩
/-- PWR_PACE_TIME: address. -/
abbrev PWR_PACE_TIME : Nat := 0xE0020
abbrev PWR_PACE_TIME_LOW_MS : Fld := ⟨0xE0020, 16, 16⟩
abbrev PWR_PACE_TIME_PACE_US : Fld := ⟨0xE0020, 0, 16⟩
/-- PWR_PACE_STATUS: address. -/
abbrev PWR_PACE_STATUS : Nat := 0xE0024
abbrev PWR_PACE_STATUS_P : Fld := ⟨0xE0024, 24, 8⟩
abbrev PWR_PACE_STATUS_KIND : Fld := ⟨0xE0024, 23, 1⟩
abbrev PWR_PACE_STATUS_INDEX : Fld := ⟨0xE0024, 16, 7⟩
abbrev PWR_PACE_STATUS_N : Fld := ⟨0xE0024, 0, 7⟩
/-- PWR_PRESS_MS: address. -/
abbrev PWR_PRESS_MS : Nat := 0xE0028
abbrev PWR_PRESS_MS_CNT : Fld := ⟨0xE0028, 0, 32⟩
/-- PWR_RSV_C: address. -/
abbrev PWR_RSV_C : Nat := 0xE0030
abbrev PWR_RSV_C_VALUE : Fld := ⟨0xE0030, 0, 32⟩
/-- PWR_RSV_VRANGE: address. -/
abbrev PWR_RSV_VRANGE : Nat := 0xE0034
abbrev PWR_RSV_VRANGE_VMAX : Fld := ⟨0xE0034, 16, 16⟩
abbrev PWR_RSV_VRANGE_VMIN : Fld := ⟨0xE0034, 0, 16⟩
/-- PWR_RSV_ECAP: address. -/
abbrev PWR_RSV_ECAP : Nat := 0xE0038
abbrev PWR_RSV_ECAP_VALUE : Fld := ⟨0xE0038, 0, 32⟩
/-- PWR_RSV_VTGT: address. -/
abbrev PWR_RSV_VTGT : Nat := 0xE003C
abbrev PWR_RSV_VTGT_MV : Fld := ⟨0xE003C, 0, 16⟩
/-- PWR_RSV_VSTOP: address. -/
abbrev PWR_RSV_VSTOP : Nat := 0xE0040
abbrev PWR_RSV_VSTOP_MV : Fld := ⟨0xE0040, 0, 16⟩
/-- PWR_RSV_V: address. -/
abbrev PWR_RSV_V : Nat := 0xE0044
abbrev PWR_RSV_V_MV : Fld := ⟨0xE0044, 0, 16⟩
/-- PWR_RSV_E: address. -/
abbrev PWR_RSV_E : Nat := 0xE0048
abbrev PWR_RSV_E_UJ : Fld := ⟨0xE0048, 0, 32⟩
/-- PWR_RSV_CTRL: address. -/
abbrev PWR_RSV_CTRL : Nat := 0xE004C
abbrev PWR_RSV_CTRL_CHG_TO : Fld := ⟨0xE004C, 16, 16⟩
abbrev PWR_RSV_CTRL_HYST : Fld := ⟨0xE004C, 0, 16⟩
/-- PWR_LEDGER_MARGIN: address. -/
abbrev PWR_LEDGER_MARGIN : Nat := 0xE0050
abbrev PWR_LEDGER_MARGIN_UJ : Fld := ⟨0xE0050, 0, 32⟩
/-- PWR_LEDGER_COMMIT: address. -/
abbrev PWR_LEDGER_COMMIT : Nat := 0xE0054
abbrev PWR_LEDGER_COMMIT_UJ : Fld := ⟨0xE0054, 0, 32⟩
/-- PWR_LEDGER_LAST: address. -/
abbrev PWR_LEDGER_LAST : Nat := 0xE0058
abbrev PWR_LEDGER_LAST_CODE : Fld := ⟨0xE0058, 24, 8⟩
abbrev PWR_LEDGER_LAST_UJ : Fld := ⟨0xE0058, 0, 24⟩
/-- PWR_LEDGER_REFUSED: address. -/
abbrev PWR_LEDGER_REFUSED : Nat := 0xE005C
abbrev PWR_LEDGER_REFUSED_CNT : Fld := ⟨0xE005C, 0, 32⟩
/-- PWR_EXPOSED: address. -/
abbrev PWR_EXPOSED : Nat := 0xE0060
abbrev PWR_EXPOSED_BANKS : Fld := ⟨0xE0060, 0, 16⟩
/-- PWR_WAKE_CFG: address. -/
abbrev PWR_WAKE_CFG : Nat := 0xE0064
abbrev PWR_WAKE_CFG_DEEP : Fld := ⟨0xE0064, 8, 1⟩
abbrev PWR_WAKE_CFG_WAKE1 : Fld := ⟨0xE0064, 4, 4⟩
abbrev PWR_WAKE_CFG_WAKE0 : Fld := ⟨0xE0064, 0, 4⟩
/-- PWR_REEF_STATUS: address. -/
abbrev PWR_REEF_STATUS : Nat := 0xE0068
abbrev PWR_REEF_STATUS_DROPOUT : Fld := ⟨0xE0068, 3, 1⟩
abbrev PWR_REEF_STATUS_DEEP_HELD : Fld := ⟨0xE0068, 2, 1⟩
abbrev PWR_REEF_STATUS_ENTRY : Fld := ⟨0xE0068, 0, 2⟩
/-- PWR_VBAT: address. -/
abbrev PWR_VBAT : Nat := 0xE006C
abbrev PWR_VBAT_MV : Fld := ⟨0xE006C, 0, 16⟩
/-- PWR_EVENT: address. -/
abbrev PWR_EVENT : Nat := 0xE0070
abbrev PWR_EVENT_VBAT : Fld := ⟨0xE0070, 5, 1⟩
abbrev PWR_EVENT_AVS : Fld := ⟨0xE0070, 4, 1⟩
abbrev PWR_EVENT_RSV : Fld := ⟨0xE0070, 3, 1⟩
abbrev PWR_EVENT_LEDGER : Fld := ⟨0xE0070, 2, 1⟩
abbrev PWR_EVENT_PRESSURE : Fld := ⟨0xE0070, 1, 1⟩
abbrev PWR_EVENT_REEF : Fld := ⟨0xE0070, 0, 1⟩
/-- PWR_IRQ_EN: address. -/
abbrev PWR_IRQ_EN : Nat := 0xE0074
abbrev PWR_IRQ_EN_VBAT : Fld := ⟨0xE0074, 5, 1⟩
abbrev PWR_IRQ_EN_AVS : Fld := ⟨0xE0074, 4, 1⟩
abbrev PWR_IRQ_EN_RSV : Fld := ⟨0xE0074, 3, 1⟩
abbrev PWR_IRQ_EN_LEDGER : Fld := ⟨0xE0074, 2, 1⟩
abbrev PWR_IRQ_EN_PRESSURE : Fld := ⟨0xE0074, 1, 1⟩
abbrev PWR_IRQ_EN_REEF : Fld := ⟨0xE0074, 0, 1⟩
/-- PNL_CTRL: address. -/
abbrev PNL_CTRL : Nat := 0xF0000
abbrev PNL_CTRL_AUTO_FB : Fld := ⟨0xF0000, 0, 1⟩
/-- PNL_CMD: address. -/
abbrev PNL_CMD : Nat := 0xF0004
abbrev PNL_CMD_ABORT : Fld := ⟨0xF0004, 3, 1⟩
abbrev PNL_CMD_LOAD : Fld := ⟨0xF0004, 2, 1⟩
abbrev PNL_CMD_RESUME : Fld := ⟨0xF0004, 1, 1⟩
abbrev PNL_CMD_QUIESCE : Fld := ⟨0xF0004, 0, 1⟩
/-- PNL_SEL: address. -/
abbrev PNL_SEL : Nat := 0xF0008
abbrev PNL_SEL_PNL : Fld := ⟨0xF0008, 0, 24⟩
/-- PNL_LOAD_SRC: address. -/
abbrev PNL_LOAD_SRC : Nat := 0xF000C
abbrev PNL_LOAD_SRC_ATOMIC : Fld := ⟨0xF000C, 4, 1⟩
abbrev PNL_LOAD_SRC_SRC : Fld := ⟨0xF000C, 0, 2⟩
/-- PNL_LOAD_ADDR: address. -/
abbrev PNL_LOAD_ADDR : Nat := 0xF0010
abbrev PNL_LOAD_ADDR_ADDR : Fld := ⟨0xF0010, 0, 32⟩
/-- PNL_QTIMEOUT: address. -/
abbrev PNL_QTIMEOUT : Nat := 0xF0014
abbrev PNL_QTIMEOUT_US : Fld := ⟨0xF0014, 0, 20⟩
/-- PNL_LOAD_TIMEOUT: address. -/
abbrev PNL_LOAD_TIMEOUT : Nat := 0xF0018
abbrev PNL_LOAD_TIMEOUT_MS : Fld := ⟨0xF0018, 0, 16⟩
/-- PNL_FB_SRC: address. -/
abbrev PNL_FB_SRC : Nat := 0xF001C
abbrev PNL_FB_SRC_SRC : Fld := ⟨0xF001C, 0, 2⟩
/-- PNL_FB_ADDR: address. -/
abbrev PNL_FB_ADDR : Nat := 0xF0020
abbrev PNL_FB_ADDR_ADDR : Fld := ⟨0xF0020, 0, 32⟩
/-- PNL_LOAD_STATUS: address. -/
abbrev PNL_LOAD_STATUS : Nat := 0xF0024
abbrev PNL_LOAD_STATUS_RECS : Fld := ⟨0xF0024, 16, 8⟩
abbrev PNL_LOAD_STATUS_HBUF_FREE : Fld := ⟨0xF0024, 8, 8⟩
abbrev PNL_LOAD_STATUS_RESULT : Fld := ⟨0xF0024, 5, 3⟩
abbrev PNL_LOAD_STATUS_SRC : Fld := ⟨0xF0024, 2, 3⟩
abbrev PNL_LOAD_STATUS_ATOMIC : Fld := ⟨0xF0024, 1, 1⟩
abbrev PNL_LOAD_STATUS_BUSY : Fld := ⟨0xF0024, 0, 1⟩
/-- PNL_LOAD_MASK: address. -/
abbrev PNL_LOAD_MASK : Nat := 0xF0028
abbrev PNL_LOAD_MASK_MASK : Fld := ⟨0xF0028, 0, 24⟩
/-- PNL_LOAD_ERR: address. -/
abbrev PNL_LOAD_ERR : Nat := 0xF002C
abbrev PNL_LOAD_ERR_CODE : Fld := ⟨0xF002C, 0, 16⟩
/-- PNL_HOST_DATA: address. -/
abbrev PNL_HOST_DATA : Nat := 0xF0030
abbrev PNL_HOST_DATA_DATA : Fld := ⟨0xF0030, 0, 32⟩
/-- PNL_TORN: address. -/
abbrev PNL_TORN : Nat := 0xF0034
abbrev PNL_TORN_PNL : Fld := ⟨0xF0034, 0, 24⟩
/-- PNL_EVENT: address. -/
abbrev PNL_EVENT : Nat := 0xF0038
abbrev PNL_EVENT_FALLBACK : Fld := ⟨0xF0038, 6, 1⟩
abbrev PNL_EVENT_REFUSED : Fld := ⟨0xF0038, 5, 1⟩
abbrev PNL_EVENT_HBUF_OVR : Fld := ⟨0xF0038, 4, 1⟩
abbrev PNL_EVENT_LOAD_FAIL : Fld := ⟨0xF0038, 3, 1⟩
abbrev PNL_EVENT_LOAD_DONE : Fld := ⟨0xF0038, 2, 1⟩
abbrev PNL_EVENT_TORN : Fld := ⟨0xF0038, 1, 1⟩
abbrev PNL_EVENT_QUIESCED : Fld := ⟨0xF0038, 0, 1⟩
/-- PNL_IRQ_EN: address. -/
abbrev PNL_IRQ_EN : Nat := 0xF003C
abbrev PNL_IRQ_EN_FALLBACK : Fld := ⟨0xF003C, 6, 1⟩
abbrev PNL_IRQ_EN_REFUSED : Fld := ⟨0xF003C, 5, 1⟩
abbrev PNL_IRQ_EN_HBUF_OVR : Fld := ⟨0xF003C, 4, 1⟩
abbrev PNL_IRQ_EN_LOAD_FAIL : Fld := ⟨0xF003C, 3, 1⟩
abbrev PNL_IRQ_EN_LOAD_DONE : Fld := ⟨0xF003C, 2, 1⟩
abbrev PNL_IRQ_EN_TORN : Fld := ⟨0xF003C, 1, 1⟩
abbrev PNL_IRQ_EN_QUIESCED : Fld := ⟨0xF003C, 0, 1⟩
/-- PNL_ICP_CFG: address. -/
abbrev PNL_ICP_CFG : Nat := 0xF0040
abbrev PNL_ICP_CFG_ATOMIC : Fld := ⟨0xF0040, 1, 1⟩
abbrev PNL_ICP_CFG_EN : Fld := ⟨0xF0040, 0, 1⟩
/-- PNL_FENCE_SIG: address. -/
abbrev PNL_FENCE_SIG : Nat := 0xF0044
abbrev PNL_FENCE_SIG_SIG : Fld := ⟨0xF0044, 0, 32⟩
/-- PNL_FCH_COUNT: address. -/
abbrev PNL_FCH_COUNT : Nat := 0xF0048
abbrev PNL_FCH_COUNT_N : Fld := ⟨0xF0048, 0, 12⟩
/-- PNL_FCH_SEL: address. -/
abbrev PNL_FCH_SEL : Nat := 0xF004C
abbrev PNL_FCH_SEL_IDX : Fld := ⟨0xF004C, 0, 11⟩
/-- PNL_FCH_INFO: address. -/
abbrev PNL_FCH_INFO : Nat := 0xF0050
abbrev PNL_FCH_INFO_BORDER : Fld := ⟨0xF0050, 26, 6⟩
abbrev PNL_FCH_INFO_DIR : Fld := ⟨0xF0050, 25, 1⟩
abbrev PNL_FCH_INFO_FIRST : Fld := ⟨0xF0050, 15, 10⟩
abbrev PNL_FCH_INFO_WIDTH_M1 : Fld := ⟨0xF0050, 9, 6⟩
abbrev PNL_FCH_INFO_MODES : Fld := ⟨0xF0050, 0, 2⟩
/-- PNL_FCH_SI_LO: address. -/
abbrev PNL_FCH_SI_LO : Nat := 0xF0054
abbrev PNL_FCH_SI_LO_STANDIN : Fld := ⟨0xF0054, 0, 32⟩
/-- PNL_FCH_SI_HI: address. -/
abbrev PNL_FCH_SI_HI : Nat := 0xF0058
abbrev PNL_FCH_SI_HI_STANDIN : Fld := ⟨0xF0058, 0, 32⟩
/-- PNL_STATE: address. -/
abbrev PNL_STATE (i : Nat) : Nat := 0xF0100 + 32 * i
abbrev PNL_STATE_LAST_SRC (i : Nat) : Fld := ⟨0xF0100 + 32 * i, 13, 3⟩
abbrev PNL_STATE_ORDER (i : Nat) : Fld := ⟨0xF0100 + 32 * i, 8, 3⟩
abbrev PNL_STATE_TORN (i : Nat) : Fld := ⟨0xF0100 + 32 * i, 4, 1⟩
abbrev PNL_STATE_STATE (i : Nat) : Fld := ⟨0xF0100 + 32 * i, 0, 4⟩
/-- PNL_REL: address. -/
abbrev PNL_REL (i : Nat) : Nat := 0xF0104 + 32 * i
abbrev PNL_REL_GAP2 (i : Nat) : Fld := ⟨0xF0104 + 32 * i, 16, 16⟩
abbrev PNL_REL_GAP1 (i : Nat) : Fld := ⟨0xF0104 + 32 * i, 0, 16⟩
/-- PNL_SINK_CNT: address. -/
abbrev PNL_SINK_CNT (i : Nat) : Nat := 0xF0108 + 32 * i
abbrev PNL_SINK_CNT_CNT (i : Nat) : Fld := ⟨0xF0108 + 32 * i, 0, 32⟩
/-- PNL_STANDIN_CNT: address. -/
abbrev PNL_STANDIN_CNT (i : Nat) : Nat := 0xF010C + 32 * i
abbrev PNL_STANDIN_CNT_CNT (i : Nat) : Fld := ⟨0xF010C + 32 * i, 0, 32⟩
/-- PNL_LOAD_CNT: address. -/
abbrev PNL_LOAD_CNT (i : Nat) : Nat := 0xF0110 + 32 * i
abbrev PNL_LOAD_CNT_CNT (i : Nat) : Fld := ⟨0xF0110 + 32 * i, 0, 32⟩
/-- PNL_QTIME: address. -/
abbrev PNL_QTIME (i : Nat) : Nat := 0xF0114 + 32 * i
abbrev PNL_QTIME_US (i : Nat) : Fld := ⟨0xF0114 + 32 * i, 0, 32⟩
/-- PNL_RUN_LO: address. -/
abbrev PNL_RUN_LO (i : Nat) : Nat := 0xF0118 + 32 * i
abbrev PNL_RUN_LO_MAST (i : Nat) : Fld := ⟨0xF0118 + 32 * i, 0, 32⟩
/-- PNL_RUN_HI: address. -/
abbrev PNL_RUN_HI (i : Nat) : Nat := 0xF011C + 32 * i
abbrev PNL_RUN_HI_MAST (i : Nat) : Fld := ⟨0xF011C + 32 * i, 0, 32⟩
/-- FAB_STATUS: address. -/
abbrev FAB_STATUS : Nat := 0xF8000
abbrev FAB_STATUS_BIND_LOADED : Fld := ⟨0xF8000, 5, 1⟩
abbrev FAB_STATUS_EP_STALL_ANY : Fld := ⟨0xF8000, 4, 1⟩
abbrev FAB_STATUS_ILLEGAL_ANY : Fld := ⟨0xF8000, 3, 1⟩
abbrev FAB_STATUS_STUCK_ANY : Fld := ⟨0xF8000, 2, 1⟩
abbrev FAB_STATUS_WE_HELD : Fld := ⟨0xF8000, 1, 1⟩
abbrev FAB_STATUS_GSR : Fld := ⟨0xF8000, 0, 1⟩
/-- FAB_CTRL: address. -/
abbrev FAB_CTRL : Nat := 0xF8004
abbrev FAB_CTRL_STUCK_EN : Fld := ⟨0xF8004, 0, 1⟩
/-- FAB_STUCK_TIME: address. -/
abbrev FAB_STUCK_TIME : Nat := 0xF8008
abbrev FAB_STUCK_TIME_US : Fld := ⟨0xF8008, 0, 24⟩
/-- FAB_STUCK: address. -/
abbrev FAB_STUCK : Nat := 0xF800C
abbrev FAB_STUCK_PNL : Fld := ⟨0xF800C, 0, 24⟩
/-- FAB_ILLEGAL_CNT: address. -/
abbrev FAB_ILLEGAL_CNT : Nat := 0xF8010
abbrev FAB_ILLEGAL_CNT_CNT : Fld := ⟨0xF8010, 0, 32⟩
/-- FAB_ILLEGAL_LOC: address. -/
abbrev FAB_ILLEGAL_LOC : Nat := 0xF8014
abbrev FAB_ILLEGAL_LOC_SITE : Fld := ⟨0xF8014, 30, 2⟩
abbrev FAB_ILLEGAL_LOC_PANEL : Fld := ⟨0xF8014, 25, 5⟩
abbrev FAB_ILLEGAL_LOC_COL : Fld := ⟨0xF8014, 18, 7⟩
abbrev FAB_ILLEGAL_LOC_ROW : Fld := ⟨0xF8014, 11, 7⟩
abbrev FAB_ILLEGAL_LOC_CELL : Fld := ⟨0xF8014, 6, 5⟩
/-- FAB_EP_STALL_TIME: address. -/
abbrev FAB_EP_STALL_TIME : Nat := 0xF8018
abbrev FAB_EP_STALL_TIME_US : Fld := ⟨0xF8018, 0, 24⟩
/-- FAB_EP_STALL: address. -/
abbrev FAB_EP_STALL (i : Nat) : Nat := 0xF8020 + 4 * i
abbrev FAB_EP_STALL_EP (i : Nat) : Fld := ⟨0xF8020 + 4 * i, 0, 32⟩
/-- EP_BIND: address. -/
abbrev EP_BIND (i : Nat) : Nat := 0xF9000 + 4 * i
abbrev EP_BIND_PANEL (i : Nat) : Fld := ⟨0xF9000 + 4 * i, 27, 5⟩
abbrev EP_BIND_WIDTH_M1 (i : Nat) : Fld := ⟨0xF9000 + 4 * i, 21, 6⟩
abbrev EP_BIND_DIR (i : Nat) : Fld := ⟨0xF9000 + 4 * i, 20, 1⟩
abbrev EP_BIND_INDEX (i : Nat) : Fld := ⟨0xF9000 + 4 * i, 8, 8⟩
abbrev EP_BIND_CLASS (i : Nat) : Fld := ⟨0xF9000 + 4 * i, 0, 4⟩
/-- EP_COUNT: address. -/
abbrev EP_COUNT (i : Nat) : Nat := 0xFA000 + 4 * i
abbrev EP_COUNT_CNT (i : Nat) : Fld := ⟨0xFA000 + 4 * i, 0, 32⟩
/-- MON_DIE_TEMP: address. -/
abbrev MON_DIE_TEMP : Nat := 0x100000
abbrev MON_DIE_TEMP_VALID : Fld := ⟨0x100000, 16, 1⟩
abbrev MON_DIE_TEMP_T : Fld := ⟨0x100000, 0, 16⟩
/-- MON_OSC_TEMP: address. -/
abbrev MON_OSC_TEMP : Nat := 0x100004
abbrev MON_OSC_TEMP_VALID : Fld := ⟨0x100004, 16, 1⟩
abbrev MON_OSC_TEMP_T : Fld := ⟨0x100004, 0, 16⟩
/-- MON_OSC_RAW: address. -/
abbrev MON_OSC_RAW : Nat := 0x100008
abbrev MON_OSC_RAW_CODE : Fld := ⟨0x100008, 0, 12⟩
/-- MON_OSC_RPULL: address. -/
abbrev MON_OSC_RPULL : Nat := 0x10000C
abbrev MON_OSC_RPULL_VALUE : Fld := ⟨0x10000C, 0, 32⟩
/-- MON_OSC_R25: address. -/
abbrev MON_OSC_R25 : Nat := 0x100010
abbrev MON_OSC_R25_VALUE : Fld := ⟨0x100010, 0, 32⟩
/-- MON_OSC_BETA: address. -/
abbrev MON_OSC_BETA : Nat := 0x100014
abbrev MON_OSC_BETA_VALUE : Fld := ⟨0x100014, 0, 32⟩
/-- MON_TEMP_LIM: address. -/
abbrev MON_TEMP_LIM : Nat := 0x100018
abbrev MON_TEMP_LIM_CRIT : Fld := ⟨0x100018, 16, 16⟩
abbrev MON_TEMP_LIM_WARN : Fld := ⟨0x100018, 0, 16⟩
/-- MON_TEMP_PEAK: address. -/
abbrev MON_TEMP_PEAK : Nat := 0x10001C
abbrev MON_TEMP_PEAK_T : Fld := ⟨0x10001C, 0, 16⟩
/-- MON_V0: address. -/
abbrev MON_V0 : Nat := 0x100020
abbrev MON_V0_VDDA : Fld := ⟨0x100020, 16, 16⟩
abbrev MON_V0_VDDS : Fld := ⟨0x100020, 0, 16⟩
/-- MON_V1: address. -/
abbrev MON_V1 : Nat := 0x100024
abbrev MON_V1_VDDAUX : Fld := ⟨0x100024, 16, 16⟩
abbrev MON_V1_VDDH : Fld := ⟨0x100024, 0, 16⟩
/-- ERR_STATUS: address. -/
abbrev ERR_STATUS : Nat := 0x100030
abbrev ERR_STATUS_FULL : Fld := ⟨0x100030, 7, 1⟩
abbrev ERR_STATUS_COUNT : Fld := ⟨0x100030, 0, 7⟩
/-- ERR_DROPPED: address. -/
abbrev ERR_DROPPED : Nat := 0x100034
abbrev ERR_DROPPED_CNT : Fld := ⟨0x100034, 0, 32⟩
/-- ERR_HEAD_TIME_LO: address. -/
abbrev ERR_HEAD_TIME_LO : Nat := 0x100038
abbrev ERR_HEAD_TIME_LO_MAST : Fld := ⟨0x100038, 0, 32⟩
/-- ERR_HEAD_TIME_HI: address. -/
abbrev ERR_HEAD_TIME_HI : Nat := 0x10003C
abbrev ERR_HEAD_TIME_HI_MAST : Fld := ⟨0x10003C, 0, 32⟩
/-- ERR_HEAD_CODE: address. -/
abbrev ERR_HEAD_CODE : Nat := 0x100040
abbrev ERR_HEAD_CODE_SEQ : Fld := ⟨0x100040, 16, 16⟩
abbrev ERR_HEAD_CODE_CODE : Fld := ⟨0x100040, 0, 16⟩
/-- ERR_HEAD_DETAIL: address. -/
abbrev ERR_HEAD_DETAIL : Nat := 0x100044
abbrev ERR_HEAD_DETAIL_DETAIL : Fld := ⟨0x100044, 0, 32⟩
/-- ERR_CMD: address. -/
abbrev ERR_CMD : Nat := 0x100048
abbrev ERR_CMD_SEQ : Fld := ⟨0x100048, 16, 16⟩
abbrev ERR_CMD_POP : Fld := ⟨0x100048, 0, 1⟩
/-- ERR_NEXT_SEQ: address. -/
abbrev ERR_NEXT_SEQ : Nat := 0x10004C
abbrev ERR_NEXT_SEQ_SEQ : Fld := ⟨0x10004C, 0, 16⟩
/-- MON_EVENT: address. -/
abbrev MON_EVENT : Nat := 0x100050
abbrev MON_EVENT_ERR_FULL : Fld := ⟨0x100050, 5, 1⟩
abbrev MON_EVENT_ERR_LOGGED : Fld := ⟨0x100050, 4, 1⟩
abbrev MON_EVENT_OSC_FAULT : Fld := ⟨0x100050, 3, 1⟩
abbrev MON_EVENT_SUPPLY : Fld := ⟨0x100050, 2, 1⟩
abbrev MON_EVENT_CRIT : Fld := ⟨0x100050, 1, 1⟩
abbrev MON_EVENT_WARN : Fld := ⟨0x100050, 0, 1⟩
/-- MON_IRQ_EN: address. -/
abbrev MON_IRQ_EN : Nat := 0x100054
abbrev MON_IRQ_EN_ERR_FULL : Fld := ⟨0x100054, 5, 1⟩
abbrev MON_IRQ_EN_ERR_LOGGED : Fld := ⟨0x100054, 4, 1⟩
abbrev MON_IRQ_EN_OSC_FAULT : Fld := ⟨0x100054, 3, 1⟩
abbrev MON_IRQ_EN_SUPPLY : Fld := ⟨0x100054, 2, 1⟩
abbrev MON_IRQ_EN_CRIT : Fld := ⟨0x100054, 1, 1⟩
abbrev MON_IRQ_EN_WARN : Fld := ⟨0x100054, 0, 1⟩

end F

end Sys2Proof.Machine
end

