-- ==== Sys2Proof/Machine/State.lean ====
section
/-! DEFINITION. The state of the block: its register file, the state that is no register, and the queue of commands. -/

namespace Sys2Proof.Machine

open Sys2Proof

/-- A machine fault: the block's behaviour stops and the spec names no effect. -/
inductive Fault where
  /-- Kept for a stop the spec itself would name; no meaning raises it. Safe: nothing can be proved past it. -/
  | none
  deriving DecidableEq, Repr

/-- Why a command has no next state. -/
inductive Refusal where
  /-- Raised by the dispatcher for a command that has no meaning yet. Safe. -/
  | notModelled (mnemonic : String)
  deriving DecidableEq, Repr

/-- What one access path holds of its own (spec/02_mast.md R92-R98, spec/09_fifo_engines.md R447): the cleat latch with
the address of the register that loaded it and the words of its set (a pop of a FIFO engine latches its data words and its tag), the latched
MAST_FRAC, and the staging word with its register. -/
structure PathState where
  cleatTag : Option Nat := none
  cleat : List Word := []
  frac : Option Nat := none
  stage : Option (Nat × Word) := none
  deriving DecidableEq, Repr

/-- The Mast engine (spec/02_mast.md). Amounts are in units of 2^-38 qn; `acc` is below 2^102. -/
structure MastUnit where
  acc : Nat := 0
  rem : Int := 0
  /-- A committed step in qn that has not acted yet (R66). -/
  step : Option Int := none
  /-- Slew requests committed since the last beat, in qn: a step that acts at the next beat discards what they added to REM and then adds
  their sum (R100). -/
  afterStep : Int := 0
  /-- REM before the first of them (R100, R101). -/
  remWas : Option Int := none
  /-- The Mast that the beat before the present one showed (spec/05_sheets.md R253). -/
  prev : Nat := 0
  /-- XT_OK was reset without a POR and without a stop of XT32: the first edge adds its tick (R78, R1072). -/
  xtTicks : Bool := false
  /-- floor(Mast / 4,000,000) at the previous beat (R60). -/
  rampIdx : Nat := 0
  /-- Slew applied since reset, for the windows of R87 and the samples of R114. -/
  slewSum : Int := 0
  /-- Start of the calibration window: accumulator and slew applied at it (R87). -/
  window : Option (Nat × Int) := none
  /-- The advance of the Mast (`ran`) at which a window starts after a stop of XT32: one XT32 period after its first edge (R89, R1072). -/
  windowAt : Option Nat := none
  /-- How many steps have been applied, and the Mast before and after the last when it was forward (R222, R240, R282). -/
  steps : Nat := 0
  lastStep : Option (Nat × Nat) := none
  /-- The Mast that the last applied step gave (R115). -/
  stepAt : Option Nat := none
  /-- Slew applied in the last 2 s, oldest first: the Mast of each beat and what it added (R114). -/
  slewHist : List (Nat × Int) := []
  /-- Mast advance since the last complete window (RCAL_AGE). -/
  age : Nat := 0
  /-- Mast advance on beats and ticks since POR, in units of 2^-38 qn: steps do not count (spec/13_field_update.md R681). -/
  ran : Nat := 0
  deriving DecidableEq, Repr

/-- A flash program or erase in progress (spec/12_flash_store.md): its bytes or sectors, what is done, who called, and whether
the call waits for it and holds interrupts and halts until then (R641). `taken` are the source bytes of the units begun (R1077); `entry` is the journal entry of the sector. -/
structure FlashOp where
  erase : Bool
  ofs : Nat
  total : Nat
  done : Nat
  src : Nat
  taken : List Byte
  entry : Option Nat
  caller : Nat
  waits : Bool
  stalls : Bool := false
  deriving DecidableEq, Repr

/-- The on-chip flash beside its registers: the array; sectors whose bytes are open, with the first free value of each (R627);
chunks left uncorrectable (R654); the operation in progress; a call that has not returned; each caller's last result; where
the patrol's warnings of this pass stand, and when it read its last chunk or started (R655, R663); and the chunk of the last mapped warning (R622). -/
structure FlashUnit where
  mem : Memory := []
  openAt : Table (Option Nat) := []
  bad : Table Bool := []
  op : Option FlashOp := none
  inCall : Bool := false
  results : Table (List Word) := []
  patrolLogged : Nat := 0
  patrolFrom : Nat := 0
  mappedWarned : Option Nat := none
  deriving DecidableEq, Repr

/-- One entry of the error collector (spec/19_supervisor_and_host.md R974). -/
structure ErrEntry where
  code : Nat
  seq : Nat
  mast : Nat
  detail : Word
  deriving DecidableEq, Repr

/-- The marks of the present arbiter window (spec/21_collisions_and_books.md R1047, log entry 9): what meets in it and would not show in the
registers.  A beat, a tick or an applied step closes the window. -/
structure WindowUnit where
  /-- SET as it stood before the first MARK_SET or UNSET of the window, and the path that wrote it (spec/02_mast.md R102). -/
  setWas : Option (Option Path × Bool) := none
  /-- Slews that access paths requested in the window, in qn (spec/02_mast.md R101). -/
  slews : List (Path × Int) := []
  /-- A tick of time evaluated the timers and compare channels at this beat (spec/04_timers_compares_captures.md R174). -/
  evaluated : Bool := false
  /-- A step was applied at this beat (spec/04_timers_compares_captures.md R182, R240). -/
  stepped : Bool := false
  /-- Timers that overflowed at this beat by a command of their own (R196). -/
  overflowed : List Nat := []
  /-- Timers that are next evaluated at the following beat: their match was evaluated, or an action or a command changed them (R174, R199,
  R234, R235). -/
  acted : List Nat := []
  /-- Timers whose target an action or a freeze moved in this window, and in the one before (R182). -/
  moved : List Nat := []
  movedWas : List Nat := []
  /-- Timers that a STOP action reached at this beat (R192, R233). -/
  stops : List Nat := []
  /-- Capture windows that actions of this beat closed and opened (R238). -/
  capClosed : List Nat := []
  capOpened : List Nat := []
  /-- Capture events that entered a queue at this beat: queue, unit and word (R226). -/
  capEvents : List (Nat × Nat × Dword) := []
  /-- Compare channels that software committed in this window, and those whose EV_DROP a trigger of it set (R232). -/
  committed : List Nat := []
  dropped : List Nat := []
  /-- Panels that a QUIESCE of this window took, by path (spec/07_panels.md R367). -/
  quiesced : List (Path × Nat) := []
  /-- The path whose write of HST_CMD, and of IMG_CMD, acted in this window (spec/10_hoist.md R542, spec/11_images_and_keys.md R608). -/
  hstCmd : Option Path := none
  imgCmd : Option Path := none
  /-- A battery-backed key zeroised in this window, by a path or at the pin; a BBK_LOAD of this window, with IMG_BBK_DATA and IMG_EVENT.DONE
  as they stood before it (spec/11_images_and_keys.md R607). -/
  zeroised : Option (Option Path) := none
  bbkLoad : Option (Path × List Word × Bool) := none
  /-- Registers whose writes take effect from the next window, as this window found them: the policy of the voltage loop
  (spec/17_power_and_reef.md R890), FEAT_ACCEPT0, IRQ_HOST_DIS and IRQ_SUP_DIS (spec/19_supervisor_and_host.md R970, R999). -/
  found : List (Nat × Word) := []
  /-- Codes logged in this window, in the order in which they enter the collector, and the entries that they pushed out of it
  (spec/19_supervisor_and_host.md R975, R994). -/
  logged : List ErrEntry := []
  pushed : List ErrEntry := []
  /-- The path that locked FEAT_ACCEPT in this window (R993). -/
  featLock : Option Path := none
  /-- The on-chip flash and its active SYS sector as a routine call of this window found them (spec/12_flash_store.md R660). -/
  flashCall : Option (FlashUnit × Nat) := none
  /-- The Reef entry sequence that began in this window: by PFI or by command (spec/01_architecture.md R44). -/
  reef : Option Bool := none
  deriving DecidableEq, Repr

/-- What the device as a whole is doing (spec/01_architecture.md R29); `off` is the unpowered condition. -/
inductive Mode where
  | off | hoist | sail | reef
  deriving DecidableEq, Repr

/-- State of the device as a whole that is no register (spec/01_architecture.md, spec/17_power_and_reef.md). -/
structure DeviceUnit where
  mode : Mode := .hoist
  /-- Cause that ROM boot will store in HOIST_CAUSE (R29). -/
  cause : Nat := 1
  /-- The battery-backed domain lost its contents before this Hoist. -/
  vbatLost : Bool := true
  /-- PORST_N as held. -/
  porst : Bool := false
  /-- VDDAUX and VDDS good. -/
  supplies : Bool := true
  /-- Core supplies have been seen not good in this Reef (R49). -/
  seenNotGood : Bool := false
  /-- The OUT stage of the staged release is applied (spec/10_hoist.md). -/
  outOn : Bool := false
  /-- Wakes that started this Hoist, as HOIST_CAUSE[7:4] will show them (R40). -/
  wakes : Nat := 0
  deriving DecidableEq, Repr

/-- What the discipline unit and the model engine hold beside their registers (spec/03_discipline_and_holdover.md). -/
structure DscUnit where
  /-- The last PPS_IN edge of the present run, and the counts of R117 and R118. -/
  ppsPrev : Option Nat := none
  ppsRun : Nat := 0
  ppsOuts : Nat := 0
  /-- A PPS_IN edge was stamped since the last ToD commit, and the latest edge has its ToD (R109, R125). -/
  edgeSinceTod : Bool := false
  todDone : Bool := false
  /-- An edge that waits for its ToD: its interval in qn and the count of steps at it. -/
  ppsWait : Option (Nat × Nat) := none
  /-- The last committed DSC_PTP_AT with the count of steps at its commit. -/
  ptpAt : Nat × Nat := (0, 0)
  ptpRun : Nat := 0
  ptpLast : Option Nat := none
  synceRun : Nat := 0
  coordRun : Nat := 0
  partnerRun : Nat := 0
  /-- The Mast of the last sample of each source. -/
  lastAt : Table (Option Nat) := []
  /-- FREQ: the previous sample's source and e', and the last frequency estimate. -/
  prevErr : Option (Nat × Int) := none
  freqEst : Option Int := none
  trackRun : Nat := 0
  unlockRun : Nat := 0
  freqRun : Nat := 0
  /-- The active source as the state machine last saw it, the last active one, and the last e'. -/
  sel : Nat := 0
  lastSel : Nat := 0
  lastErr : Int := 0
  /-- The Mast at entry into holdover. -/
  hoStart : Nat := 0
  /-- A0, A1, B1, B2 and the covariance's upper triangle, SQ32.32. -/
  coef : List Int := [0, 0, 0, 0]
  cov : List Int := [0, 0, 0, 0, 0, 0, 0, 0, 0, 0]
  /-- An epoch was applied since the last snapshot (R148). -/
  dirty : Bool := false
  /-- The present epoch: spoiled, the count of steps at its start, its temperatures, the second of the last one (R139, R140). -/
  epochBad : Bool := true
  epochSteps : Nat := 0
  epochTemps : List Int := []
  /-- I at each second of the present epoch (R139). -/
  epochInteg : List Int := []
  tempSec : Option Nat := none
  /-- A run of invalid temperatures (R143). -/
  tempBad : Bool := false
  /-- The snapshot's MAST - T0, in qn (R146). -/
  vbatAge : Int := 0
  /-- SEQ of the last record; none before the journal held one. -/
  seq : Option Nat := none
  /-- When COORD and PARTNER last delivered a sample (spec/15_shrouds.md R787, spec/16_stay.md R836). -/
  coordAt : Nat := 0
  partnerAt : Nat := 0
  /-- REASONs of snapshots that wait for the ROM flash routine (R166). -/
  snapWait : List Nat := []
  /-- REASON and SEQ of the record being programmed. -/
  snapBusy : Option (Nat × Nat) := none
  /-- The Mast of the last periodic snapshot instant, or of entry into Sail (R148). -/
  snapAt : Nat := 0
  /-- The erase of the journal's other sector has completed for the present active one (R150). -/
  eraseDone : Bool := false
  deriving DecidableEq, Repr

/-- What a compare channel holds beside its registers (spec/04_timers_compares_captures.md): the Mast of its commit, and
whether Hoist loaded its value and it waits for Sail (R175). -/
structure CmpUnit where
  commitAt : Nat := 0
  loaded : Bool := false
  /-- ARM_SEQ, and the one last applied from the partner (spec/16_stay.md R829). -/
  armSeq : Nat := 0
  applied : Option Nat := none
  deriving DecidableEq, Repr

/-- What a capture unit holds beside its registers: the last leading edge that counts, in fine steps, with the count of applied steps at it,
and the one before it; whether the last edge was a leading one; whether its pulse is being captured; the fields as they were before the last
edge, the event word it sent and, for a trailing edge, its stamp and whether its pulse was captured (R220); and an overrun of the last
leading edge that is logged once the edge has proved no glitch (R229). -/
structure CapUnit where
  lead : Option (Nat × Nat) := none
  before : Option (Nat × Nat) := none
  high : Bool := false
  taken : Bool := false
  undo : List (Fld × Nat) := []
  sent : Option Dword := none
  trail : Option (Nat × Bool) := none
  owed : Bool := false
  deriving DecidableEq, Repr

/-- A token a sheet holds: its release instant, its VALUE, and the Mast from which it has been the head (R244-R246). -/
structure SheetToken where
  due : Nat
  value : Nat
  headSince : Option Nat
  deriving DecidableEq, Repr

/-- What a sheet holds beside its registers (spec/05_sheets.md): its queue, the instant of the last accepted token, the last pin edge with
the instant asked for it and the count of applied steps at it, the ends of pulses in order, late values to apply at the next beat, edges that
R252 put ahead of the present beat and whose codes come with the beat that launches them, a measured code that waits for a gap, and
releases of a lane gate that wait for their frame. -/
structure SheetUnit where
  queue : List SheetToken := []
  lastDue : Option Nat := none
  lastEdge : Option (Nat × Nat × Nat) := none
  pulseEnds : List Nat := []
  emit : List Nat := []
  placing : List Nat := []
  newCal : Option Nat := none
  gates : Nat := 0
  deriving DecidableEq, Repr

/-- What a stamp channel holds: its buffered tokens, and its last edge in fine steps with what became of it. -/
structure StampUnit where
  buf : List Dword := []
  lastEdge : Option Nat := none
  lastKept : Bool := false
  deriving DecidableEq, Repr

/-- What a panel holds beside its registers (spec/07_panels.md): whether OUT, WE and its local GSR are held, its next release
stage with its instant, the Mast at which its quiesce started with the panels that the same QUIESCE command named, and a RESUME
that waits for FROZEN (R367) or for the next beat (R346). -/
structure PanelUnit where
  outHeld : Bool := false
  weHeld : Bool := false
  gsrHeld : Bool := false
  stage : Nat := 0
  due : Nat := 0
  quiesceAt : Nat := 0
  quiesceMask : Nat := 0
  resumeNext : Bool := false
  resumes : Bool := false
  deriving DecidableEq, Repr

/-- One entry of the fence table (R331); `info` holds BORDER, DIR, FIRST, WIDTH - 1 and MODES as PNL_FCH_INFO shows them. -/
structure Fence where
  border : Nat
  dir : Bool
  first : Nat
  width : Nat
  standIn : Bool
  sink : Bool
  token : Nat
  deriving DecidableEq, Repr

/-- What one site of the fabric holds (spec/06_fabric.md): a stage at a cell's output or at a segment's end, a LUT-RAM port or a fence channel.
`tok` is its token once a handshake has changed it (`moved`), else it holds its initial state (R302); `back` is a token that has been
acknowledged and whose acknowledges have not all fallen.  As a receiver it has raised its acknowledge (`ack`), which has reached the sites
`taken` (R287, R289); `jam`: it found an illegal state on its input (R292). -/
structure FabSite where
  moved : Bool := false
  tok : Option Nat := none
  back : Option Nat := none
  ack : Bool := false
  taken : List Nat := []
  jam : Bool := false
  deriving DecidableEq, Repr

/-- The inside of the fabric beside its configuration: its sites; the LUT-RAM words written since they were loaded, by RAM and address
(R301); and the LUT-RAM ports whose tokens are complete, in that order (R296). -/
structure FabUnit where
  sites : Table FabSite := []
  ram : Table (Option Nat) := []
  waits : List Nat := []
  deriving DecidableEq, Repr

/-- What one crossing holds (spec/08_crossings.md): the words between its sides, oldest first; whether a PULSE event is in
transit; the level that its synchroniser gave last and the level at its input then, of which several changed bits may take two samples
(R384), and a level from the fabric that the client has not settled on yet; the last token given to the fabric or the last word given to the clocked client; which sides have been in reset since the other's
reset was asserted (R410); free slots that the clocked side does not see yet (R392, R421); by how many words RESET_SKEW has changed their
number (R411); and the advance of the Mast (`ran`) at the last clock edge seen, and at the last before this beat (R405, R420). -/
structure Crossing where
  held : List Dword := []
  transit : Bool := false
  sampled : Nat := 0
  settling : Nat := 0
  level : Option Nat := none
  out : Option Dword := none
  unseen : Nat := 0
  skewed : Nat := 0
  edgeAt : Nat := 0
  edgeWas : Nat := 0
  clockedSaw : Bool := false
  fabricSaw : Bool := false
  /-- The side that reset alone, while RESET_SKEW is 1: true for the fabric side. -/
  skewFabric : Bool := false
  deriving DecidableEq, Repr

/-- Who made a stored word (spec/09_fifo_engines.md R438, R439). -/
inductive FifoKind where
  | producer | slot | close
  deriving DecidableEq, Repr

/-- A stored word: 64 data bits, the 8-bit tag, who made it. -/
structure FifoWord where
  data : Dword
  tag : Byte
  kind : FifoKind
  deriving DecidableEq, Repr

/-- What one FIFO engine holds: words oldest first, how many of them are visible, the open frame's producer words and whether
one was stored with ERR, whether the producer's words are discarded until SOP (R442), and the region offset of the head; and how many words at the tail were pushed in the present arbiter
window (R464). -/
structure FifoEngine where
  words : List FifoWord := []
  visible : Nat := 0
  opened : Bool := false
  openWords : Nat := 0
  openErr : Bool := false
  openShown : Bool := false
  skip : Bool := false
  pos : Nat := 0
  young : Nat := 0
  deriving DecidableEq, Repr

/-- How the external flash is read (spec/10_hoist.md R489-R494): the slow and the fast one-line read, and the fast reads of the
BFPT by lines of instruction, address and data. -/
inductive FlashRead where
  | slow03 | fast0B | dual112 | dual122 | quad114 | quad144
  deriving DecidableEq, Repr

/-- A candidate of Hoist (spec/10_hoist.md R498-R501): 0 SLOT_A, 1 SLOT_B, 2 golden, 3 host SPI, 4 JTAG, and where its image
header lies. -/
structure Candidate where
  code : Nat
  base : Nat
  deriving DecidableEq, Repr

/-- What Hoist holds beside its registers (spec/10_hoist.md): whether ROM boot has begun; its source (0 external flash, 1 in safe mode,
2 the golden image, 3 host SPI, 4 JTAG) and the path that a full-device load names; how the flash is read and whether it was put into
4-byte mode; the present candidate with those that follow, its attempts, those of this Hoist, and the
clock code; the advance of
the Mast (MastUnit.ran) at which its step began and what each step took of it; the next release stage with the Mast from which it applies. -/
structure HoistUnit where
  booted : Bool := false
  src : Nat := 0
  path : Option Nat := none
  readBy : FlashRead := .slow03
  enter4 : Bool := false
  cands : List Candidate := []
  tries : Nat := 0
  attempts : Nat := 0
  clk : Nat := 0
  stepAt : Nat := 0
  stepQn : Table Nat := []
  stage : Nat := 0
  stageAt : Nat := 0
  preSram : Memory := []
  /-- The CFG_IN word that started a full-device load from Sail: the image's first word (spec/11_images_and_keys.md R605). -/
  first : Option Word := none
  /-- The Mast PLL has been asked to lock (R520). -/
  refinLoaded : Bool := false
  /-- This Hoist was restarted after a PFI pause (PFI_RESTART). -/
  restart : Bool := false
  /-- An external program or erase is still running at the start of ROM boot (spec/13_field_update.md R701). -/
  waitsFlash : Bool := false
  deriving DecidableEq, Repr

/-- Where image words come from (spec/07_panels.md, spec/10_hoist.md). -/
inductive ImageSource where
  | xflash | chip | spi | jtag | host | icp
  deriving DecidableEq, Repr

/-- A verified image header (spec/11_images_and_keys.md R550). -/
structure ImageHeader where
  kind : Nat
  enc : Bool
  keysrc : Nat
  slot : Nat
  len : Nat
  nrec : Nat
  segmax : Nat
  mask : Nat
  svn : Nat
  build : Nat
  nonce : List Byte
  deriving DecidableEq, Repr

/-- The image engine's load (spec/11_images_and_keys.md): its source and the image's byte address there; bytes received from a
stream and not yet used, and words received; the offset of what comes next; the header; the position, the KEYROLLs and the
segment bytes so far; the key in force (ENC 1) or the digest of the next record (ENC 0); the record types and panels seen; the
supervisor's entry, a held seed with FORCE and the image's accept set. -/
structure LoadUnit where
  active : Bool := false
  src : ImageSource := .xflash
  base : Nat := 0
  got : List Byte := []
  words : Nat := 0
  pos : Nat := 0
  hdr : Option ImageHeader := none
  index : Nat := 0
  rolls : Nat := 0
  seg : Nat := 0
  key : List Byte := []
  digest : List Byte := []
  types : List Nat := []
  panels : List Nat := []
  entry : Nat := 0
  seed : Option (List Byte × Bool) := none
  accept : Option (List Nat) := none
  ended : Bool := false
  /-- The panels of a partial load have entered LOADING (R350). -/
  began : Bool := false
  deriving DecidableEq, Repr

/-- Fuses and keys (spec/11_images_and_keys.md): the fuse words, the battery-backed key and whether it was zeroised, the debug
challenge in force, the token words, a fuse program in progress (word, bits), and a mass erase in progress. -/
structure KeyUnit where
  fuse : Table Nat := []
  bbk : List Byte := []
  bbkZeroised : Bool := false
  challenge : Option (List Byte) := none
  token : List Word := []
  fuseOp : Option (Nat × Nat) := none
  /-- The image command in progress, by its bit, while BUSY. -/
  busyCmd : Option Nat := none
  /-- A mass erase of PL_LOWER: the SYS sector that stays, its journal entry there, and how many sectors are erased. -/
  massErase : Option (Nat × Nat × Nat) := none
  /-- TAMPER zeroised the key while nothing could be logged (R586). -/
  tamperUnlogged : Bool := false
  deriving DecidableEq, Repr

/-- The JTAG TAP (spec/11_images_and_keys.md R601): the instruction in its register, IDCODE after Test-Logic-Reset, and the bits of the
boundary register as last shifted in. -/
structure JtagUnit where
  ir : Nat := 0x001
  boundary : List Bool := []
  deriving DecidableEq, Repr

/-- A directory entry (spec/13_field_update.md, the entry table). -/
structure DirEntry where
  slot : Nat
  state : Nat
  seq : Nat
  addr : Nat
  len : Nat
  svn : Nat := 0
  attempt : Nat := 0
  reason : Nat := 0
  build : Nat := 0
  nonce : Nat := 0
  trialId : Nat := 0
  deriving DecidableEq, Repr

/-- One step of an update operation.  `prog`, `erase`, `verify`, `goldenVerify` and the three steps that write the golden image take
time; the others act at once: an entry to append (its SEQ, and for a new trial its TRIAL_ID, come from the directory when it acts), what
an entry good in copy 0 changes, the directory's upkeep, and what the service or the routine does at the end. -/
inductive UpdStep where
  | prog (addr : Nat) (bs : List Byte)
  | erase (addr : Nat)
  | verify (slot : Nat)
  | goldenErase (sectors : Nat)
  | goldenProg (slot pos : Nat)
  | goldenVerify (slot : Nat)
  | goldenFirst (slot : Nat)
  | snap (force : Bool)
  | append (e : DirEntry)
  | repairs
  | compact
  | goldenCheck
  | goldenOk
  | say (code detail : Nat)
  | dropTrial
  | openWindow
  | closeWindow
  | rehoist
  | answer (vs : List Nat)
  deriving DecidableEq, Repr

/-- What field update holds beside its registers (spec/13_field_update.md): the battery-backed trial record; whether this Hoist read
the directory, the TRIAL slots it found there with their counts A, and the one it counted; whether the service has acted; the advance of
the Mast at the opening of a confirmation window; the slot most recently begun; the operation in progress as its remaining steps, whether
the first has started, whether the service began it on its own, the slot it is for, its caller, whether the call waits, whether the
ledger refused its next step and the advance of the Mast when it did, and the bytes programmed so far, the routine's index; and each caller's last upd_verify or upd_golden. -/
structure UpdateUnit where
  trial : Option (Nat × Nat) := none
  readDir : Bool := false
  trials : List (Nat × Nat) := []
  counted : Option Nat := none
  served : Bool := false
  window : Option Nat := none
  begun : Option Nat := none
  steps : List UpdStep := []
  going : Bool := false
  own : Bool := false
  slot : Nat := 0
  caller : Nat := 0
  kind : Nat := 0
  waits : Bool := false
  refused : Bool := false
  retryFrom : Nat := 0
  done : Nat := 0
  results : Table (List Word) := []
  deriving DecidableEq, Repr

/-- What a transmit source holds (spec/14_network_lanes.md R717, R721): the words it has taken with their tags, and how many of
an abandoned frame it still discards; from a FIFO engine it discards up to the frame's EOP. -/
structure TxSource where
  held : List (Dword × Byte) := []
  skip : Nat := 0
  skipToEop : Bool := false
  deriving DecidableEq, Repr

/-- A frame being sent: its source, whether a sheet gated it, its descriptor, the Mast reference of a second descriptor word,
its data words so far and its egress stamp. -/
structure TxFrame where
  src : Nat
  gated : Bool
  desc : Dword
  ref : Option Dword
  got : List Dword
  stamp : Nat
  deriving DecidableEq, Repr

/-- What a lane holds beside its registers: the frame being sent, the report queue (stamp and details), the reports lost
(R729: the spec gives LNk_TXTS_LOST no offset), and the octets of the last frame sent; `until_` is the advance of the Mast at the start of the
last frame, its line time in 1/100 qn and whether it was gated. -/
structure LaneUnit where
  tx : Option TxFrame := none
  until_ : Option (Nat × Nat × Bool) := none
  reports : List (Nat × Word) := []
  txtsLost : Nat := 0
  line : List Byte := []
  deriving DecidableEq, Repr

/-- A frame that waits to be sent on a port: its rank (spec/21_collisions_and_books.md R1064; 0 on a shroud port), its virtual
channel, its header and data without SEQ and CRC, the shroud port whose buffer still holds it, and since when it waits. -/
structure WaitFrame where
  rank : Nat
  vc : Nat
  bytes : List Byte
  ingress : Option Nat
  since : Nat := 0
  deriving DecidableEq, Repr

/-- What a shroud port (0-3) or the stay port (4) holds (spec/15_shrouds.md R749-R754): the run of good TRAIN flits with PEER_SEEN
and whether it sends PEER_SEEN itself; the SEQ it sends next and the one it expects; whether a NAK is out since the last good frame;
the last ACK sent (NAK, SEQ); replays without progress; when an ACK last made progress or a replay began (R752); frames sent and not acknowledged, with their SEQ; frames that wait; and, for
VC0 and VC1, the totals of flits sent, shown as freed by the peer, and freed here. -/
structure LinkUnit where
  trains : Nat := 0
  peerSeen : Bool := false
  txSeq : Nat := 0
  rxSeq : Nat := 0
  nakOut : Bool := false
  ack : Option (Bool × Nat) := none
  stalls : Nat := 0
  ackAt : Nat := 0
  unacked : List (Nat × List Byte) := []
  waiting : List WaitFrame := []
  sent : Nat × Nat := (0, 0)
  shown : Nat × Nat := (0, 0)
  freed : Nat × Nat := (0, 0)
  deriving DecidableEq, Repr

/-- What a HELLO says (spec/15_shrouds.md, HELLO data flits); `key` is the best key it advertises. -/
structure Hello where
  uid : Nat
  addrValid : Bool
  addr : Nat
  port : Nat
  key : Nat
  set : Bool
  aligned : Bool
  formed : Bool
  dist : Nat
  seq : Nat
  deriving DecidableEq, Repr

/-- A routing table of an epoch: SWITCH, its eight words of nibbles, the device's own address and the coordinator's. -/
structure RouteTable where
  epoch : Nat
  switch : Nat
  nibbles : List Nat
  addr : Nat
  coord : Nat
  deriving DecidableEq, Repr

/-- What the coordinator holds of a member's TOPO: UID, its address request, the neighbours' UIDs and ports, the reverse route, and
the port it arrived on. -/
structure Topo where
  uid : Nat
  strapped : Bool
  valid : Bool
  addr : Nat
  nbrs : List Nat
  ports : List Nat
  route : List Nat
  ingress : Nat
  deriving DecidableEq, Repr

/-- What the shroud holds beside its registers (spec/15_shrouds.md): the last HELLO of each port; the best key and its DIST; whether
a HELLO has shown FORMED; COORD_SEQ; a lost coordinator's UID with the Mast of its loss; whether a table is installed and one that
waits for SWITCH; on the coordinator the TOPOs, the addresses it gave, a formation that is due and the last epoch it issued; the
LINKDOWNs seen; the exchange in progress (port, t1, the count of applied steps); whether HOIST_STEP has stepped; the addresses reported
ALIGNED; when the best key, COORD_SEQ, the formation, its TOPOs and the installed epoch last changed (R761, R763, R776, R782); a REFORM in
progress; and whether this device was refused an address (R765). -/
structure ShroudUnit where
  hello : Table (Option Hello) := []
  best : Option Nat := none
  dist : Nat := 0
  heardFormed : Bool := false
  seq : Nat := 0
  lost : Option (Nat × Nat) := none
  hasTable : Bool := false
  table : Option RouteTable := none
  topos : List Topo := []
  given : List (Nat × Nat) := []
  due : Bool := false
  issued : Nat := 0
  seenDown : List (Nat × Nat × Nat) := []
  sync : Option (Nat × Nat × Nat) := none
  stepped : Bool := false
  alignedAt : List Nat := []
  bestAt : Nat := 0
  seqAt : Nat := 0
  formAt : Nat := 0
  topoAt : Nat := 0
  reform : Bool := false
  epochAt : Nat := 0
  noAddr : Bool := false
  deriving DecidableEq, Repr

/-- What an endpoint holds beside its registers (spec/15_shrouds.md R772-R777): the RX_RECV and RX_TAKEN last reported to its
transmit side, the TX_SENT of the PROBE that awaits its reply, the tokens its receive side holds, the RX_TAKEN of its last CREDIT
frame and when RX_TAKEN first moved past it; and when the transmit side last had a CREDIT frame and sent a PROBE. -/
structure EndpointUnit where
  recv : Nat := 0
  taken : Nat := 0
  probe : Option Nat := none
  held : List (Dword × Byte) := []
  credited : Nat := 0
  advAt : Nat := 0
  creditAt : Nat := 0
  probedAt : Nat := 0
  deriving DecidableEq, Repr

/-- The deliveries of one mirror slot on a STANDBY (spec/16_stay.md R833): a snapshot none of whose tokens has been taken, and what
is left of one whose first token has. -/
structure SlotIn where
  offered : Option (List Dword) := none
  rest : List Dword := []
  deriving DecidableEq, Repr

/-- What the stay holds beside its registers (spec/16_stay.md): ACT_IN as taken; the claim wait; a takeover in progress, with T and
its detail word; a HANDOVER received; a HANDOVER sent, or the END of a stay push, that awaits its ACK; HB_SEQ; the partner's ALIGNED
and WARM; consecutive heartbeat misses; a contention that has been logged; the exchange in progress (t1, the count of applied steps); whether HOIST_STEP has
stepped; an epoch applied since the last MODEL pair; the tokens of the snapshot each out port is forming and the latest of each
slot with its instant; slot deliveries; the change frame last sent of each declared entry; the first half of a MODEL pair; when the claim
wait, the heartbeat in force, a contention and the last refresh began; the STATE of the last DSC frame; and the slots whose latest snapshot has
not been sent. -/
structure StayUnit where
  actIn : Bool := false
  claim : Bool := false
  takeover : Option (Nat × Nat) := none
  handed : Bool := false
  handing : Bool := false
  pushing : Bool := false
  hbSeq : Nat := 0
  partnerAligned : Bool := false
  partnerWarm : Bool := false
  misses : Nat := 0
  contended : Bool := false
  sync : Option (Nat × Nat) := none
  stepped : Bool := false
  slotOut : Table (List Dword) := []
  slotLast : Table (Option (List Dword × Nat)) := []
  slotIn : Table SlotIn := []
  sentEntry : Table (List Byte) := []
  model : List Byte := []
  claimAt : Nat := 0
  hbAt : Nat := 0
  contendAt : Nat := 0
  refreshAt : Nat := 0
  dscSent : Nat := 0
  slotUnsent : List Nat := []
  deriving DecidableEq, Repr

/-- Power state that is no register (spec/17_power_and_reef.md). Fills are in 1/256 of an input (R860). -/
structure PowerUnit where
  /-- The frame that failed, while AVS_FAULT is set (R858). -/
  avsFailed : Option Nat := none
  /-- Last target written successfully, mV. -/
  avsTarget : Nat := 0
  /-- 0x0E02 has been logged in this ROM boot (R859). -/
  avsLate : Bool := false
  capLim : Nat := 950
  /-- When the present sample period, and the present charge, began (R860, R870). -/
  paceAt : Nat := 0
  chargeAt : Nat := 0
  /-- Microseconds for which P has been at or below LO (R861). -/
  lowSpan : Nat := 0
  /-- Present and largest fill of each pace input; crossings 0-95, engine n at 128 + n (R860). -/
  paceNow : Table Nat := []
  pacePeak : Table Nat := []
  /-- A pace input overran or discarded a word in this period (R861). -/
  paceLoss : Bool := false
  rsvEn : Bool := false
  /-- RSV_DIV, UQ8.8. -/
  rsvDiv : Nat := 0
  /-- V is in an excursion above VLIM (R869). -/
  rsvExcursion : Bool := false
  /-- 0x0E07 has been logged for this charge (R870). -/
  chargeLogged : Bool := false
  /-- Costs of granted operations that have not ended (R872). -/
  grants : List (Nat × Nat) := []
  wake0 : Bool := false
  wake1 : Bool := false
  wakeTmr : Bool := false
  /-- The present or last Reef was entered on PFI (R44, R48). -/
  byPfi : Bool := false
  /-- The Reef entry has not been logged by a ROM boot yet (R889). -/
  entryUnlogged : Bool := false
  /-- Steps 4 and 5 of the Reef entry sequence are done (R879). -/
  reefSnapDone : Bool := false
  reefPushDone : Bool := false
  /-- 0x0E0C has been logged in this Hoist (R887). -/
  vbatLogged : Bool := false
  deriving DecidableEq, Repr

/-- A compare channel as an event line's trigger found it and as it left it: its unit, VAL, ARMED and EV_DROP. -/
structure ArmMark where
  channel : Nat
  before : CmpUnit × Nat × Bool × Bool
  after : CmpUnit × Nat × Bool × Bool
  deriving DecidableEq, Repr

/-- What an event line holds beside its registers (spec/18_pins_and_event_lines.md): its last edge in fine steps, whether a
level-triggered line is active, the token that it offers under an edge TRIG, what its last trigger changed, in case its edge turns out half of a
pair (R914), and a discard of that trigger that is logged once the edge has proved to be none (R918). -/
structure EventLine where
  lastEdge : Option Nat := none
  active : Bool := false
  token : Option Bool := none
  undo : List (Fld × Nat) := []
  undoArms : List ArmMark := []
  undoToken : Option (Option Bool) := none
  owed : Bool := false
  deriving DecidableEq, Repr

/-- The supervisor core (spec/19_supervisor_and_host.md R933-R938): x1-x31 by number, pc, and the CSRs that hold state by CSR number; a halt
request that waits for Sail (R1071) or for the end of a service episode (R951); the ROM default handler's address, which the spec leaves
open; the beats counted by mcycle and the instructions counted by minstret; whether user firmware stands in a ROM routine that it called. -/
structure SupUnit where
  x : Table Word := []
  pc : Word := 0
  csr : Table Word := []
  haltReq : Bool := false
  handler : Word := 0
  cycles : Nat := 0
  instret : Nat := 0
  calling : Bool := false
  deriving DecidableEq, Repr

/-- The debug module and its JTAG transport (spec/19_supervisor_and_host.md R947-R949): dmactive, the resume and reset acknowledgements,
cmderr, data0, the program buffer, the system bus access settings with its error, address and data, and the result that the next DMI
scan captures. -/
structure DebugUnit where
  active : Bool := false
  resumeAck : Bool := false
  haveReset : Bool := true
  cmderr : Nat := 0
  data0 : Word := 0
  progbuf : Table Word := []
  sbReadOnAddr : Bool := false
  sbAutoInc : Bool := false
  sbReadOnData : Bool := false
  sbError : Nat := 0
  sbAddr : Word := 0
  sbData : Word := 0
  address : Nat := 0
  result : Word := 0
  deriving DecidableEq, Repr

/-- The host SPI and I2C targets (R953-R968): each path's posted writes, oldest first, as address and word; CRCERR and WOVF; the I2C
pointer with FIXED, whether a transfer is open, whether it is ignored until STOP, whether I2C_TIMEOUT was in force as it began, and the
bytes of its unfinished word. -/
structure HostUnit where
  spiPosted : List (Nat × Word) := []
  crcErr : Bool := false
  wovf : Bool := false
  i2cPosted : List (Nat × Word) := []
  i2cPtr : Nat := 0
  i2cFixed : Bool := false
  i2cOpen : Bool := false
  i2cIgnores : Bool := false
  i2cTimed : Bool := false
  i2cPart : List Byte := []
  deriving DecidableEq, Repr

/-- The ROM service mailbox (R988-R990): the routine requested, as FAMILY, INDEX and arguments, until its call has returned; the FAMILY
whose result the service still collects. -/
structure MboxUnit where
  call : Option (Nat × Nat × RoutineCall) := none
  running : Option Nat := none
  deriving DecidableEq, Repr

/-- The monitors (R983-R986): WARN and CRIT passed and not rearmed, a run of invalid OSC_TEMP samples, and the supplies that stand outside
their range. -/
structure MonUnit where
  warned : Bool := false
  crit : Bool := false
  oscBad : Bool := false
  supplyOut : List Nat := []
  deriving DecidableEq, Repr


/-- The state of the device. -/
structure State where
  /-- Every register of the shell register space, by absolute address; unlisted ones hold their Reset column. -/
  regs : Table Word := []
  paths : Table PathState := []
  mast : MastUnit := {}
  /-- The model's own: the marks of the present arbiter window. -/
  win : WindowUnit := {}
  errs : List ErrEntry := []
  /-- Codes not kept since the last 0x100F (R979). -/
  unkept : Nat := 0
  /-- The word that the last register read returned to its reader. -/
  readData : Word := 0
  /-- The bytes that the last host frame, shift or transfer returned to its reader. -/
  reply : List Byte := []
  dev : DeviceUnit := {}
  dsc : DscUnit := {}
  cmp : Table CmpUnit := []
  /-- The Mast from which a frozen timer's FROZEN grows (R187). -/
  frozenSince : Table (Option Nat) := []
  cap : Table CapUnit := []
  /-- Staging buffers of the event queues (R227). -/
  teq : Table (List Dword) := []
  /-- Pin sheets 0-255, lane sheets 256-287, PPS_OUT at 288. -/
  sheet : Table SheetUnit := []
  stamp : Table StampUnit := []
  panel : Table PanelUnit := []
  fences : List Fence := []
  /-- The token a fence channel's stage holds (R338-R340). -/
  fenceHeld : Table (Option Dword) := []
  /-- While the port discards a refused or failed image, the Mast of the last token (R365); its status tokens, oldest first. -/
  icpLast : Option Nat := none
  icpStatus : List Dword := []
  xng : Table Crossing := []
  fifo : Table FifoEngine := []
  hoist : HoistUnit := {}
  load : LoadUnit := {}
  /-- Words of a host image stream that the engine has not taken (HBUF_FREE counts the free places of 64). -/
  hbuf : List Word := []
  /-- Panel configuration, PANEL payload p at 491,536 x p (R1079). -/
  pcfg : Memory := []
  /-- The tokens, handshakes and LUT-RAM words of the fabric's bays (spec/06_fabric.md). -/
  fab : FabUnit := {}
  keys : KeyUnit := {}
  /-- The most recent 0x01xx or 0x02xx code logged, kept or not (CFG_STATUS, spec/11_images_and_keys.md R601). -/
  bootCode : Nat := 0
  jtag : JtagUnit := {}
  /-- Mirror entries of the STAY section: KIND, UNIT, ADDR, MASK (spec/16_stay.md). -/
  stayEntries : List (Nat × Nat × Nat × Nat) := []
  flash : FlashUnit := {}
  /-- The supervisor's SRAM, by offset from 0x2000_0000. -/
  sram : Memory := []
  /-- What the last ROM routine call returned in a0, a1, ... -/
  returned : List Word := []
  /-- The external serial flash; its 64 KiB blocks whose bytes are open, with the first free value of each. -/
  xflash : Memory := []
  xopen : Table (Option Nat) := []
  upd : UpdateUnit := {}
  txsrc : Table TxSource := []
  lane : Table LaneUnit := []
  /-- Shroud ports 0-3, the stay port at 4. -/
  link : Table LinkUnit := []
  shroud : ShroudUnit := {}
  endpoint : Table EndpointUnit := []
  stay : StayUnit := {}
  pwr : PowerUnit := {}
  /-- Counters whose first event since their last read has been logged, by register address. -/
  quiet : Table Bool := []
  evline : Table EventLine := []
  /-- Banks found outside their declaration and logged (R899), bit b for bank b. -/
  vioBad : Nat := 0
  sup : SupUnit := {}
  dbg : DebugUnit := {}
  host : HostUnit := {}
  mbox : MboxUnit := {}
  mon : MonUnit := {}
  /-- The model's own: how many free values have been used (log entry 1). -/
  fresh : Nat := 0
  /-- The model's own: commands that wait, first in, first out. -/
  pending : List Instr := []
  deriving DecidableEq, Repr

/-- The machine right after power-on reset: in a Hoist of CAUSE 0x1 whose ROM boot has not begun, every register at its Reset column. -/
def State.reset : State := {}

end Sys2Proof.Machine
end

