-- ==== Sys2Proof/Machine/Ops.lean ====
section
/-! DEFINITION. The named operations over registers, fields, counters, the error collector and the access paths. -/

namespace Sys2Proof.Machine

open Sys2Proof

/-- A step's outcome. -/
abbrev Out := Host.Outcome State Fault Refusal

/-- The register at an absolute address. -/
def State.reg (s : State) (a : Nat) : Word := Table.get resetWord s.regs a

/-- Store a register. -/
def State.setReg (s : State) (a : Nat) (v : Word) : State := { s with regs := Table.put resetWord s.regs a v }

/-- A field's value. -/
def State.fld (s : State) (f : Fld) : Nat := (s.reg f.addr).toNat / 2 ^ f.lo % 2 ^ f.width

/-- A word with a field replaced by the low bits of a value. -/
def putField (w : Word) (f : Fld) (v : Nat) : Word :=
  BitVec.ofNat 32 (w.toNat - w.toNat / 2 ^ f.lo % 2 ^ f.width * 2 ^ f.lo + v % 2 ^ f.width * 2 ^ f.lo)

/-- Store a field. -/
def State.setFld (s : State) (f : Fld) (v : Nat) : State := s.setReg f.addr (putField (s.reg f.addr) f v)

/-- A one-bit field. -/
def State.bit (s : State) (f : Fld) : Bool := s.fld f != 0

/-- Store a one-bit field. -/
def State.setBit (s : State) (f : Fld) (b : Bool) : State := s.setFld f b.toNat

/-- Set a one-bit field. -/
def State.raise (s : State) (f : Fld) : State := s.setFld f 1

/-- Clear a field. -/
def State.clear (s : State) (f : Fld) : State := s.setFld f 0

/-- Set bit i of a register of flags, such as a pending word. -/
def State.raiseBit (s : State) (a i : Nat) : State := s.setFld ⟨a, i, 1⟩ 1

/-- The bit of unit i in an array of 32-bit pending words that starts at an address. -/
def State.pendBit (s : State) (a i : Nat) : State := s.raiseBit (a + 4 * (i / 32)) (i % 32)

/-- A field read as two's complement. -/
def State.sfld (s : State) (f : Fld) : Int := signed f.width (s.fld f)

/-- A wide register: _LO at an address, _HI at the next (R20). -/
def State.wide (s : State) (a : Nat) : Nat := (s.reg a).toNat + 2 ^ 32 * (s.reg (a + 4)).toNat

/-- Store a wide register. -/
def State.setWide (s : State) (a : Nat) (v : Nat) : State :=
  (s.setReg a (BitVec.ofNat 32 v)).setReg (a + 4) (BitVec.ofNat 32 (v / 2 ^ 32))

/-- Add to a counter that saturates. -/
def State.addSat (s : State) (f : Fld) (n : Nat) : State := s.setFld f (min (s.fld f + n) (2 ^ f.width - 1))

/-- Add to a counter that wraps. -/
def State.addWrap (s : State) (f : Fld) (n : Nat) : State := s.setFld f (s.fld f + n)

/-- Add to a whole-register counter that saturates. -/
def State.countSat (s : State) (a n : Nat) : State := s.addSat ⟨a, 0, 32⟩ n

/-- Add to a whole-register counter that wraps. -/
def State.countWrap (s : State) (a n : Nat) : State := s.addWrap ⟨a, 0, 32⟩ n

/-- The next value that the spec leaves open, and the state that has used it (log entry 1). -/
def State.open_ (s : State) : Nat × State := (Config.freeValue s.fresh, { s with fresh := s.fresh + 1 })

/-- A quotient whose rounding the spec does not state: either neighbour, exact when it is exact (log entry 1). -/
def State.roundOpen (s : State) (num : Int) (den : Nat) : Int × State :=
  if num % (den : Int) = 0 then (num / (den : Int), s)
  else
    let (v, t) := s.open_
    (num / (den : Int) + ((v % 2 : Nat) : Int), t)

/-- The path order of an arbiter window (spec/09_fifo_engines.md R471, spec/21_collisions_and_books.md R1051). -/
def pathRank : Path → Nat
  | .spi => 0 | .i2c => 1 | .jtag => 2 | .sup => 3 | .dbg => 4

/-- A command of path p comes after the one of another path that acted in this window. -/
def comesAfter (acted : Option Path) (p : Path) : Bool :=
  match acted with
  | some q => decide (pathRank q < pathRank p)
  | none => false

/-- The visible Mast in qn (R57). -/
def State.now (s : State) : Nat := s.mast.acc / 2 ^ 38 % 2 ^ 64

/-- The device is in Sail (R29). -/
def State.inSail (s : State) : Bool := s.dev.mode == .sail

/-- The device is in Hoist (R29). -/
def State.inHoist (s : State) : Bool := s.dev.mode == .hoist

/-- The shell is powered: Hoist or Sail. -/
def State.powered (s : State) : Bool := s.inSail || s.inHoist

/-- ROM boot of a Hoist of CAUSE 0x1 to 0x3, during which the host targets are closed (spec/01_architecture.md R34,
spec/10_hoist.md R483, R484); no user firmware runs in Hoist (R507). -/
def State.romCloses (s : State) : Bool := s.inHoist && s.fld F.MODE_STATUS_HOIST_STEP == 2 && decide (s.dev.cause ≤ 3)

/-- A command that reaches the register space acts only while the space is open (spec/01_architecture.md R34). -/
def whenOpen (s t : State) : Out := .next (if s.powered && !s.romCloses then t else s)

/-- A feature is in force while its accept bit is 1 (spec/19_supervisor_and_host.md R969, R970). -/
def State.feature (s : State) (i : Nat) : Bool := s.bit ⟨F.FEAT_ACCEPT 0, i, 1⟩

/-! ### Arbiter windows (spec/21_collisions_and_books.md R1047, R1048) -/

/-- The Mast holds: the Mast PLL is not locked and no XT32 edge arrives (R86). -/
def State.mastHolds (s : State) : Bool := !s.bit F.MAST_STATUS_PLL_LOCK && !s.bit F.MAST_STATUS_XT_OK

/-- The beat runs.  While it does not, each command has an arbiter window of its own. -/
def State.beatRuns (s : State) : Bool := !s.bit F.MAST_STATUS_DOMAIN && !s.mastHolds

/-- Registers whose writes take effect from the next window (spec/17_power_and_reef.md R890, spec/19_supervisor_and_host.md R970, R999). -/
def nextWindowRegs : List Nat :=
  [F.PWR_VDDF_FLOOR, F.PWR_VDDF_CEIL, F.PWR_POWER_CAP, F.PWR_PACE_CFG, F.FEAT_ACCEPT 0, F.IRQ_HOST_DIS, F.IRQ_SUP_DIS]

/-- A write of such a register marks what its window found. -/
def State.markFound (s : State) (a : Nat) : State :=
  if s.beatRuns && nextWindowRegs.contains a then { s with win := { s.win with found := s.win.found ++ [(a, s.reg a)] } } else s

/-- A register as the present window found it. -/
def State.foundReg (s : State) (a : Nat) : Word :=
  match s.win.found.find? (fun e => e.1 == a) with | some e => e.2 | none => s.reg a

/-! ### The error collector (spec/19_supervisor_and_host.md R974-R979) -/

/-- ERR_OVERWRITE is in force (R969); a change takes effect from the next window (R970). -/
def State.overwrites (s : State) : Bool := (s.foundReg (F.FEAT_ACCEPT 0)).getLsbD 1

/-- Give the collector's registers their present view (R974-R977). -/
def State.showErrs (s : State) : State :=
  (s.setFld F.ERR_STATUS_COUNT s.errs.length).setBit F.ERR_STATUS_FULL (s.errs.length == 64)

/-- The codes of one window enter in ascending order of code, and the SEQs with them (R975). -/
def insertErr (ws : List ErrEntry) (e : ErrEntry) : List ErrEntry :=
  List.zipWith (fun q (x : ErrEntry) => { x with seq := q }) (ws.map (·.seq) ++ [e.seq])
    (ws.filter (fun x => decide (x.code ≤ e.code)) ++ e :: ws.filter (fun x => decide (e.code < x.code)))

/-- What the collector held before the codes of this window. -/
def State.errsBefore (s : State) : List ErrEntry := s.win.pushed ++ s.errs.filter fun x => !s.win.logged.contains x

/-- What a collector of 64 entries keeps (R976): the oldest, or with ERR_OVERWRITE the youngest. -/
def keptErrs (newest : Bool) (all : List ErrEntry) : List ErrEntry := if newest then all.drop (all.length - 64) else all.take 64

/-- The collector holds what came before this window and the codes of this window. -/
def State.holdErrs (s : State) (before codes : List ErrEntry) : State :=
  let errs := keptErrs s.overwrites (before ++ codes)
  { s with errs := errs,
           win := if s.beatRuns then { s.win with logged := codes, pushed := before.filter fun x => !errs.contains x } else s.win }

/-- The collector's registers and events follow (R974-R976). -/
def State.fillErrs (s : State) (before codes : List ErrEntry) : State :=
  let t := s.holdErrs before codes
  let u := if t.errs = s.errs then t else t.showErrs.raise F.MON_EVENT_ERR_LOGGED
  if s.errs.length < 64 ∧ t.errs.length = 64 then u.raise F.MON_EVENT_ERR_FULL else u

/-- A code met a full collector (R976): ERR_DROPPED counts it, and under the baseline R979 will. -/
def State.errLost (s : State) : State :=
  ({ s with unkept := if s.overwrites then s.unkept else s.unkept + 1 }).addSat F.ERR_DROPPED_CNT 1

/-- SEQ advances for every code (R976); CFG_STATUS remembers Hoist and image codes (spec/11_images_and_keys.md R601). -/
def State.seqNext (s : State) (code : Nat) : State :=
  { s.addWrap F.ERR_NEXT_SEQ_SEQ 1 with bootCode := if code / 256 = 1 ∨ code / 256 = 2 then code else s.bootCode }

/-- The entry that logging a code makes (R974). -/
def State.entryFor (s : State) (code detail : Nat) : ErrEntry :=
  { code := code, seq := s.fld F.ERR_NEXT_SEQ_SEQ, mast := s.now, detail := BitVec.ofNat 32 detail }

/-- Log an error code (spec/19_supervisor_and_host.md R974-R976): SEQ advances for every code; a full collector keeps its
oldest entries, or its newest with ERR_OVERWRITE in force. -/
def State.log (s : State) (code : Nat) (detail : Nat) : State :=
  let before := s.errsBefore
  let codes := insertErr s.win.logged (s.entryFor code detail)
  let t := (s.seqNext code).fillErrs before codes
  if 64 < (before ++ codes).length then t.errLost else t

/-- The registers that logging a code writes: ERR_NEXT_SEQ, ERR_STATUS, ERR_DROPPED and MON_EVENT. -/
def collectorRegs : List Nat := [F.ERR_NEXT_SEQ, F.ERR_STATUS, F.ERR_DROPPED, F.MON_EVENT]

/-- The index of an access path. -/
def Path.index : Path → Nat
  | .spi => 0 | .i2c => 1 | .jtag => 2 | .sup => 3 | .dbg => 4

/-- What a path holds before it is used. -/
def noPath : Nat → PathState := fun _ => {}

/-- What a path holds. -/
def State.path (s : State) (p : Path) : PathState := Table.get noPath s.paths (Path.index p)

/-- Store what a path holds. -/
def State.setPath (s : State) (p : Path) (x : PathState) : State :=
  { s with paths := Table.put noPath s.paths (Path.index p) x }

/-- Commit the _LO word of a wide register (spec/02_mast.md R97): the staged high word when its tag names the register,
the present high word otherwise; the tag clears. -/
def State.commitWide (s : State) (p : Path) (a : Nat) (lo : Word) : Nat × State :=
  let x := s.path p
  let hi := match x.stage with
    | some (t, h) => if t = a then h else s.reg (a + 4)
    | none => s.reg (a + 4)
  (lo.toNat + 2 ^ 32 * hi.toNat, s.setPath p { x with stage := none })

/-! ### Writes on a STANDBY (spec/16_stay.md R827) -/

/-- The device is a STANDBY. -/
def State.standby (s : State) : Bool := s.fld F.STY_STATUS_ROLE == 1

/-- The bits of a register that REG entries cover on a STANDBY. -/
def State.mirrorMask (s : State) (a : Nat) : Nat :=
  if s.standby then match s.stayEntries.find? (fun e => e.1 == 1 && e.2.2.1 == a) with | some e => e.2.2.2 | none => 0 else 0

/-- Timer (2) or compare (3) n is declared, on a STANDBY. -/
def State.mirrorUnit (s : State) (kind n : Nat) : Bool := s.standby && s.stayEntries.any fun e => e.1 == kind && e.2.1 == n

/-- A refused write of a mirrored field. -/
def State.mirrorRefused (s : State) (a : Nat) : State := (s.log 0x0D0A a).raise F.STY_EVENT_ERR

/-- A write that a declared unit, or a REG entry that covers part of a wide register or a field, refuses. -/
def State.mirrorGuard (s : State) (refused : Bool) (a : Nat) (t : State) : State := if refused then s.mirrorRefused a else t

/-- A REG entry covers part of a wide register. -/
def State.wideMirrored (s : State) (a : Nat) : Bool := s.mirrorMask a != 0 || s.mirrorMask (a + 4) != 0

/-- What a write of a narrow register writes once the bits that a REG entry covers are kept, and the state that has logged it. -/
def State.mirrorMerge (s : State) (a : Nat) (v : Word) : Word × State :=
  let m : Word := BitVec.ofNat 32 (s.mirrorMask a)
  if m = 0 then (v, s) else ((v &&& ~~~m) ||| (s.reg a &&& m), s.mirrorRefused a)

/-- A wrap-around comparison: a Mast value at or after another (distance below 2^63). -/
def atOrAfter (a b : Nat) : Bool := (a + 2 ^ 64 - b % 2 ^ 64) % 2 ^ 64 / 2 ^ 63 == 0

/-- Apply a function to one per-unit record of a table. -/
def Table.modify {α : Type} [DecidableEq α] (d : Nat → α) (t : Table α) (k : Nat) (g : α → α) : Table α :=
  Table.put d t k (g (Table.get d t k))

end Sys2Proof.Machine
end

