-- ==== Sys2Proof/Machine/Mast.lean ====
section
/-! DEFINITION. The Mast engine and its commands (spec/02_mast.md): the beat, frequency and phase steering, the Mast PLL and
REFIN, the 32 kHz domain and its calibration. -/

namespace Sys2Proof.Machine

open Sys2Proof

/-- S_MAX = floor(LIMIT_NS x 1,099,511 / 1,000), in units of 2^-40 of nominal (2^-38 qn on a beat). -/
def State.slewMax (s : State) : Int := ((s.fld F.MAST_SLEW_LIMIT_LIMIT_NS * 1099511 / 1000 : Nat) : Int)

/-- RAMP = floor(LIMIT_NS x 1,099,511 / 1,000,000) (R60). -/
def State.rampMax (s : State) : Int := ((s.fld F.MAST_SLEW_LIMIT_LIMIT_NS * 1099511 / 1000000 : Nat) : Int)

/-- The slew term of the next beat (R62, R63): the limit toward REM, or exactly the remainder. -/
def State.slewTerm (s : State) : Int := clampInt (-s.slewMax) s.slewMax s.mast.rem

/-- REM in qn, truncated toward zero. -/
def State.remQn (s : State) : Int := s.mast.rem.tdiv (2 ^ 38)

/-- The bound of REM, 2^40 qn, in accumulator units (R65). -/
def remBound : Int := 2 ^ 78

/-- Advance the Mast by a beat or a tick: RCAL_AGE and the confirmation window count it too. -/
def State.advanceMast (s : State) (d : Nat) : State :=
  { s with mast := { s.mast with acc := (s.mast.acc + d) % 2 ^ 102, age := s.mast.age + d, ran := s.mast.ran + d } }

/-- The Mast's advance in qn on beats and ticks, without applied steps: spans that the spec states in seconds are counted by it (DESIGN
CHOICE, log entry 48). -/
def State.clock (s : State) : Nat := s.mast.ran / 2 ^ 38

/-- A span of qn has gone by since an instant of that clock. -/
def State.gone (s : State) (from_ qn : Nat) : Bool := decide (from_ + qn ≤ s.clock)

/-- Start the next calibration window at this instant: at entry into Sail, at lock and at an applied step the spec names no XT32 edge, and
the window starts with the event (R87, R89; DESIGN CHOICE, log entry 49).  A window that waits for the first tick after a stop of XT32
still waits. -/
def State.startWindow (s : State) : State :=
  let w := if s.inSail && s.bit F.MAST_STATUS_PLL_LOCK && s.bit F.MAST_STATUS_XT_OK && s.mast.windowAt.isNone then
    some (s.mast.acc, s.mast.slewSum) else none
  { s with mast := { s.mast with window := w } }

/-- Cut the calibration window short (R89). -/
def State.cutWindow (s : State) : State := { s with mast := { s.mast with window := none, windowAt := none } }

/-- The window that waited for the first tick after a stop of XT32 starts (R89). -/
def State.dueWindow (s : State) : State :=
  match s.mast.windowAt with
  | some r => if r ≤ s.mast.ran then ({ s with mast := { s.mast with windowAt := none } }).startWindow else s
  | none => s

/-! ### Arbiter windows (spec/21_collisions_and_books.md R1047, R1048) -/

/-- The next beat, tick or applied step: a window closes, and with it what it marked (log entry 9). -/
def State.newWindow (s : State) : State := { s with win := { movedWas := s.win.moved } }

/-- SET as it stood before this window, for a request of a path or of the loop (R102).  A path's accesses fall into one window each (R1050),
so its own earlier MARK_SET lies before the window. -/
def State.setBefore (s : State) (p : Option Path) : Bool :=
  match s.win.setWas with
  | some (q, was) => if q.isSome && q == p then s.bit F.MAST_STATUS_SET else was
  | none => s.bit F.MAST_STATUS_SET

/-- A write of this window changes SET (R102). -/
def State.markSetWas (s : State) (p : Option Path) : State :=
  if s.beatRuns then { s with win := { s.win with setWas := some (p, s.bit F.MAST_STATUS_SET) } } else s

/-- Add a slew request to REM (R64), within the bound of R65. -/
def State.addSlew (s : State) (qn : Int) : State :=
  let want := s.mast.rem + qn * 2 ^ 38
  let got := clampInt (-remBound) remBound want
  let t := { s with mast := { s.mast with rem := got } }
  if got = want then t
  else (t.log 0x0405 (unsigned 32 ((want - got).tdiv (2 ^ 38)))).raise F.MAST_EVENT_REM_CLAMP

/-- A path's slew request of this window (R101). -/
def State.markSlew (s : State) (p : Option Path) (qn : Int) : State :=
  match p with
  | some q => if s.beatRuns then { s with win := { s.win with slews := s.win.slews ++ [(q, qn)] } } else s
  | none => s

/-- A slew request (R64): the requests of one beat are one sum, added to REM as it stood before the first of them (R100); a part beyond the
bound of R65 is logged with the sum.  While a step waits for an XT32 tick the sum waits with it. -/
def State.requestSlew (s : State) (qn : Int) : State :=
  let sum := s.mast.afterStep + qn
  if s.beatRuns then
    let before := s.mast.remWas.getD s.mast.rem
    { s with mast := { s.mast with afterStep := sum, remWas := some before, rem := clampInt (-remBound) remBound (before + sum * 2 ^ 38) } }
  else if s.mast.step.isSome then { s with mast := { s.mast with afterStep := sum } }
  else s.addSlew qn

/-- The slew requests of a window reach REM as one slew at its beat (R65, R100). -/
def State.sumSlews (s : State) : State :=
  match s.mast.remWas with
  | some r => ({ s with mast := { s.mast with rem := r, remWas := none, afterStep := 0 } }).addSlew s.mast.afterStep
  | none => s

/-- SET becomes 1 (R67).  A model whose t0 the lost battery-backed domain left without meaning continues t - t0 from what it was
(spec/03_discipline_and_holdover.md R146). -/
def State.becomeSet (s : State) : State :=
  let t := s.raise F.MAST_STATUS_SET
  if !s.bit F.MAST_STATUS_SET && s.bit F.HOIST_CAUSE_VBAT_LOST then
    t.setWide F.DSC_MODEL_T0_LO (unsigned 64 (s.now - s.dsc.vbatAge))
  else t

/-- Apply a step (R66, R67): the Mast changes by its amount, REM becomes 0, SET becomes 1, the calibration window is cut;
slews committed with it then reach REM (R100).  A model's t0 moves with it (spec/03_discipline_and_holdover.md R145). -/
def State.applyStep (s : State) (qn : Int) : State :=
  let after := s.mast.afterStep
  let acc := (((s.mast.acc : Int) + qn * 2 ^ 38) % (2 ^ 102 : Int)).toNat
  let t := { s with win := { s.win with stepped := true },
                    mast := { s.mast with acc := acc, rem := 0, remWas := none, step := none, afterStep := 0, steps := s.mast.steps + 1,
                                          lastStep := if 0 < qn then some (s.now, acc / 2 ^ 38 % 2 ^ 64) else none,
                                          stepAt := some (acc / 2 ^ 38 % 2 ^ 64) } }
  let t := t.setWide F.DSC_MODEL_T0_LO (unsigned 64 ((s.wide F.DSC_MODEL_T0_LO : Int) + qn))
  (t.becomeSet.startWindow).addSlew after

/-- Apply the pending step, if one waits. -/
def State.applyPending (s : State) : State :=
  match s.mast.step with
  | some q => s.applyStep q
  | none => s

/-- A phase request, from a path or the loop (R64, R66, R70, R71, R100, R102). -/
def State.phaseRequest (s : State) (p : Option Path) (qn : Int) (asStep : Bool) : State :=
  if asStep && !(s.inSail && s.setBefore p) then
    let t := { s with mast := { s.mast with step := some (s.mast.step.getD 0 + qn) } }
    if s.mastHolds then t.applyPending else t
  else
    let t := if asStep then (s.log 0x0403 (unsigned 32 qn)).raise F.MAST_EVENT_STEP_CONV else s
    (t.requestSlew qn).markSlew p qn

/-- The authority in force: 0 HW, 1 SHARED, 2 SW; SW while the discipline unit is disabled
(spec/03_discipline_and_holdover.md R156, R157). -/
def State.authority (s : State) : Nat :=
  if s.bit F.DSC_CTRL_EN then s.fld F.DSC_CTRL_STEER_AUTH else 2

/-- A software steering write that the authority ignores (R156). -/
def State.refuseSteer (s : State) (a : Nat) : State := (s.log 0x0501 a).raise F.DSC_EVENT_AUTH_REFUSED

/-- MAST_PHASE_LO commits a phase request (R70, R97, R156). -/
def execPhaseCommit (p : Path) (lo : Word) (s : State) : Out :=
  if s.authority = 0 then whenOpen s (s.refuseSteer F.MAST_PHASE_LO)
  else if s.wideMirrored F.MAST_PHASE_LO then whenOpen s (s.mirrorRefused F.MAST_PHASE_LO)
  else
    let (v, t) := s.commitWide p F.MAST_PHASE_LO lo
    let q := signed 64 v
    let t := t.setWide F.MAST_PHASE_LO v
    let t := if s.authority = 1 then
        t.setWide F.DSC_INJ_LO (unsigned 64 (signed 64 (t.wide F.DSC_INJ_LO) + q)) else t
    whenOpen s (t.phaseRequest (some p) q (s.bit F.MAST_CTRL_PH_MODE))

/-- A committed step acts (R66), at the first of a new beat or tick. -/
def execStepApply (s : State) : Out := .next (if s.mast.step.isSome then s.newWindow.applyPending else s)

/-- Move MAST_FREQ_EFF toward MAST_FREQ by at most RAMP (R60). -/
def State.rampOnce (s : State) : State :=
  let eff := s.sfld F.MAST_FREQ_EFF_FREQ
  let d := clampInt (-s.rampMax) s.rampMax (s.sfld F.MAST_FREQ_FREQ - eff)
  s.setFld F.MAST_FREQ_EFF_FREQ (unsigned 32 (eff + d))

/-- The 4,000,000 qn update at a beat where floor(Mast / 4,000,000) exceeds its value at the previous beat (R60); while SET is
0 the target is taken at once (R61). -/
def State.rampBeat (s : State) (set : Bool) : State :=
  let k := s.now / 4000000
  let t := if set then (if s.mast.rampIdx < k then s.rampOnce else s)
    else s.setFld F.MAST_FREQ_EFF_FREQ (s.fld F.MAST_FREQ_FREQ)
  { t with mast := { t.mast with rampIdx := k } }

/-- The frequency update falls due at a beat (R60). -/
def execFreqRampUpdate (s : State) : Out :=
  .next (if s.beatRuns && decide (s.mast.rampIdx < s.now / 4000000) then
    s.rampBeat (s.bit F.MAST_STATUS_SET) else s)

/-- The slew of one beat (R62, R63): REM gives up what S adds, and its last remainder sets SLEW_DONE. -/
def State.slewBeat (s : State) : State :=
  let q := s.slewTerm
  let hist : List (Nat × Int) := if q = 0 then s.mast.slewHist else
    s.mast.slewHist.dropWhile (fun p => !atOrAfter p.1 (s.now + 2 ^ 64 - 8000000100)) ++ [(s.now, q)]
  let t : State := { s with mast := { s.mast with rem := s.mast.rem - q, slewSum := s.mast.slewSum + q, slewHist := hist } }
  if s.mast.rem ≠ 0 ∧ t.mast.rem = 0 then t.raise F.MAST_EVENT_SLEW_DONE else t

/-- INC = 2^40 + F + S in units of 2^-38 qn (R57). -/
def State.inc (s : State) : Nat := ((2 ^ 40 : Int) + s.sfld F.MAST_FREQ_EFF_FREQ + s.slewTerm).toNat

/-- How far a Mast value lies past another. -/
def ahead (a b : Nat) : Nat := (a + 2 ^ 64 - b % 2 ^ 64) % 2 ^ 64

/-- The Mast advance since an instant, steps included; 0 while the instant lies ahead of the Mast (DESIGN CHOICE, log entry 52). -/
def State.since (s : State) (m : Nat) : Nat := (signed 64 (ahead s.now m)).toNat

/-- The Mast that the next beat will show. -/
def State.nextNow (s : State) : Nat := (s.mast.acc + s.inc) / 2 ^ 38 % 2 ^ 64

/-- A Mast value that the last applied forward step passed over (R240, R282). -/
def State.steppedOver (s : State) (v : Nat) : Bool :=
  match s.mast.lastStep with
  | some (a, b) => let d := (v + 2 ^ 64 - a) % 2 ^ 64
                   decide (0 < d ∧ d ≤ (b + 2 ^ 64 - a) % 2 ^ 64)
  | none => false

/-- A new beat or tick begins: the window closes, and the Mast shown so far is the beat's before (spec/05_sheets.md R253). -/
def State.beginBeat (s : State) : State := { s.newWindow with mast := { s.mast with prev := s.now } }

/-- The slew requests of a window as its beat finds them: they wait behind a pending step (R100), else they are one slew. -/
def State.windowSlews (s : State) : State :=
  if s.mast.step.isSome then { s with mast := { s.mast with rem := s.mast.remWas.getD s.mast.rem } } else s.sumSlews

/-- One beat (R57): INC = 2^40 + F + S in units of 2^-38 qn, then a pending step, which what the unit does at the same beat comes before
(spec/21_collisions_and_books.md R1068), and the slews requested with it (R100); mcycle counts the beat unless the core is halted
(spec/19_supervisor_and_host.md R933). -/
def State.beat (s : State) : State :=
  let t := s.beginBeat.windowSlews
  let t := if t.bit F.SUP_STATUS_HALTED then t else { t with sup := { t.sup with cycles := t.sup.cycles + 1 } }
  let t := (t.advanceMast t.inc).slewBeat
  ((t.applyPending).rampBeat (t.bit F.MAST_STATUS_SET)).dueWindow

/-- The tick length of MAST_RCAL, UQ18.24 qn, in accumulator units. -/
def State.tickSpan (s : State) : Nat := s.wide F.MAST_RCAL_LO % 2 ^ 42 * 2 ^ 14

/-- One XT32 tick while the 32 kHz domain advances the Mast (R78): the tick length and a pending step. -/
def State.tick (s : State) : State := (s.beginBeat.advanceMast s.tickSpan).applyPending

/-- Time passes for the Mast: nothing while it holds, a beat, or a tick in the 32 kHz domain (R57, R78, R86). -/
def State.passTime (s : State) : State :=
  if s.mastHolds then s
  else if !s.bit F.MAST_STATUS_DOMAIN then s.beat
  else if s.bit F.MAST_STATUS_XT_OK && !s.bit F.PWR_REEF_STATUS_DEEP_HELD then s.tick
  else s

/-- MAST_FREQ takes a new target, which MAST_FREQ_EFF follows from the next beat on (R60, R61, R104); the authority may ignore the write
(R156). -/
def execMastFreqWrite (_p : Path) (v : Word) (s : State) : Out :=
  if s.authority = 2 then
    let (v, s) := s.mirrorMerge F.MAST_FREQ v
    whenOpen s (s.setReg F.MAST_FREQ v)
  else whenOpen s (s.refuseSteer F.MAST_FREQ)

/-- What a path requested in this window before its own write. -/
def State.slewsOf (s : State) (p : Option Path) : Int := ((s.win.slews.filter fun e => some e.1 == p).map (·.2)).sum

/-- SLEW_CANCEL: REM becomes 0 and the phase already applied stays; SLEW_DONE is not set.  A slew requested in the same window follows the
cancel, so REM ends equal to it (R101); the writing path's own earlier requests lie before the window (R1050). -/
def State.cancelSlew (s : State) (p : Option Path) : State :=
  if s.mast.remWas.isSome && s.beatRuns then
    let sum := s.mast.afterStep - s.slewsOf p
    { s with win := { s.win with slews := s.win.slews.filter fun e => some e.1 != p },
             mast := { s.mast with rem := clampInt (-remBound) remBound (sum * 2 ^ 38), remWas := some 0, afterStep := sum } }
  else { s with mast := { s.mast with rem := 0, remWas := none, afterStep := 0 } }

/-- SLEW_CANCEL (R101). -/
def execSlewCancel (s : State) : Out := whenOpen s (s.cancelSlew none)

/-- MARK_SET: SET becomes 1 (R67). -/
def State.markSet (s : State) (p : Option Path) : State := (s.markSetWas p).becomeSet

/-- MARK_SET (R67). -/
def execMarkSet (s : State) : Out := whenOpen s (s.markSet none)

/-- UNSET: SET becomes 0 in Hoist; in Sail nothing changes and 0x0404 is logged (R68, R69). -/
def State.unset (s : State) (p : Option Path) : State :=
  if s.inHoist then (s.markSetWas p).clear F.MAST_STATUS_SET else (s.log 0x0404 0).raise F.MAST_EVENT_UNSET_REFUSED

/-- UNSET (R68, R69). -/
def execUnset (s : State) : Out := whenOpen s (s.unset none)

/-- No REFIN edge for 1 us: REF_OK clears, the beat continues (R75, R76). -/
def State.refinLoses (s : State) : State :=
  if s.bit F.MAST_STATUS_REF_OK then
    ((s.clear F.MAST_STATUS_REF_OK).log 0x0402 0).raise F.MAST_EVENT_REF_LOST else s

/-- REFIN returns: REF_OK sets and the PLL relocks without a step (R77); lock at the first load waits for MAST_PLL_LOCK. -/
def State.refinComes (s : State) : State := if s.powered then s.raise F.MAST_STATUS_REF_OK else s

/-- The Mast PLL locks: the beat engine takes the battery-backed value and continues from it (R79). -/
def execMastPllLock (s : State) : Out :=
  .next (if s.powered && !s.bit F.MAST_STATUS_PLL_LOCK && (s.inSail || s.hoist.refinLoaded) then
      let t := ((s.raise F.MAST_STATUS_PLL_LOCK).raise F.MAST_STATUS_REF_OK).clear F.MAST_STATUS_DOMAIN
      let t := t.setFld ⟨F.HST_PLL_STATUS, 0, 1⟩ 1
      ({ t with mast := { t.mast with rampIdx := t.now / 4000000 } }).startWindow
    else s)

/-- No XT32 edge for 1 ms while the beat runs: XT_OK clears and the window is cut (R85, R89). -/
def execXt32Stop (s : State) : Out :=
  .next (if s.bit F.MAST_STATUS_XT_OK && !s.bit F.MAST_STATUS_DOMAIN then
    (((s.clear F.MAST_STATUS_XT_OK).cutWindow).log 0x0407 0).raise F.MAST_EVENT_XT_STOP else s)

/-- The first XT32 edge after POR or a stop: XT_OK sets and no tick is added (R1072); while the beat runs a new window starts one XT32 period
later, whose length on the beat is open (R89).  After another reset of XT_OK, with no stop, the edge adds its tick (R78, log entry 50). -/
def execXt32Resume (s : State) : Out :=
  if s.bit F.MAST_STATUS_XT_OK then .next s
  else
    let t := (s.raise F.MAST_STATUS_XT_OK)
    let t := { t with mast := { t.mast with xtTicks := false } }
    .next (if s.bit F.MAST_STATUS_DOMAIN then (if s.mast.xtTicks then t.tick else t)
      else
        let (v, t) := t.open_
        { t with mast := { t.mast with windowAt := some (t.mast.ran + v % (2 * t.tickSpan)) } })

/-- The nominal tick, 1/32,768 s, in UQ18.24 qn. -/
def nominalTick : Nat := 0x1DCD6500000

/-- A window of 2,097,152 XT32 periods completes (R87, R88): the Mast's advance less the slew gives the tick length, stored
unless it lies more than 500 ppm from nominal.  The rounding to 24 fraction bits and to ppb is open (log entry 1). -/
def execRcalWindowComplete (s : State) : Out :=
  match s.mast.window with
  | none => .next s
  | some (start, slew) =>
    let adv : Int := (((s.mast.acc + 2 ^ 102 - start) % 2 ^ 102 : Nat) : Int) - (s.mast.slewSum - slew)
    let (tick, t) := s.roundOpen adv (2 ^ 14 * 2097152)
    let (ppb, t) := t.roundOpen (((nominalTick : Int) - tick) * 1000000000) (max 1 tick.toNat)
    let t := t.startWindow
    if (tick - nominalTick).natAbs * 2000 ≤ nominalTick then
      let t := (t.setWide F.MAST_RCAL_LO tick.toNat).setReg F.MAST_RCAL_PPB (BitVec.ofNat 32 (unsigned 32 ppb))
      .next (({ t with mast := { t.mast with age := 0 } }).raise F.MAST_STATUS_RCAL_VALID)
    else
      .next ((t.log 0x0406 (unsigned 32 (clampInt (-2 ^ 31) (2 ^ 31 - 1) ppb))).raise F.MAST_EVENT_RCAL_BAD)

/-- Hand the Mast to the 32 kHz domain: the fraction is cut to 24 bits and REM is discarded (R80, R84); a step that has not
acted stays pending for the next tick. -/
def State.toReefDomain (s : State) : State :=
  let t := { s with mast := { s.mast with acc := s.mast.acc / 2 ^ 14 * 2 ^ 14, rem := 0, remWas := none, afterStep := 0,
                                          window := none, windowAt := none } }
  (t.raise F.MAST_STATUS_DOMAIN).clear F.MAST_STATUS_PLL_LOCK

/-- A SHELL record names a different REFIN_SEL (R84, R520). -/
def State.loadRefinSel (s : State) (sel : Nat) : State :=
  let t := s.setFld F.MAST_PLL_CFG_REFIN_SEL sel
  if sel = s.fld F.MAST_PLL_CFG_REFIN_SEL then t
  else
    let t := if s.bit F.MAST_STATUS_DOMAIN then t else t.toReefDomain
    ((t.setReg F.MAST_FREQ 0).setReg F.MAST_FREQ_EFF 0).setFld ⟨F.HST_PLL_STATUS, 0, 1⟩ 0

end Sys2Proof.Machine
end

