-- ==== Sys2Proof/Machine/Power.lean ====
section
/-! DEFINITION. The power controller (spec/17_power_and_reef.md): AVSBus, the pace monitors and the voltage loop, the reserve,
the ledger and VBAT. -/

namespace Sys2Proof.Machine

open Sys2Proof

/-- Whether the counter at an address has logged since its last read. -/
def State.isQuiet (s : State) (a : Nat) : Bool := Table.get (fun _ => false) s.quiet a

/-- Set or clear that mark. -/
def State.setQuiet (s : State) (a : Nat) (b : Bool) : State := { s with quiet := Table.put (fun _ => false) s.quiet a b }

/-- Log a code for the first event after each read of a counter. -/
def State.logOnce (s : State) (counter code detail : Nat) : State :=
  if s.isQuiet counter then s else (s.log code detail).setQuiet counter true

/-- The integer square root, by bits from a power of two down. -/
def isqrtFrom : Nat → Nat → Nat → Nat
  | 0, _, r => r
  | k + 1, x, r => let c := r + 2 ^ k; isqrtFrom k x (if c * c ≤ x then c else r)

/-- The integer square root of a number below 2^80. -/
def isqrt (x : Nat) : Nat := isqrtFrom 40 x 0

/-! ### The ledger -/

/-- Whether the ledger grants a request (R872, R873, R1081); in the window of step 1 of the Reef entry sequence as in Sail (R892). -/
def State.ledgerGrants (s : State) (cost : Nat) (reefOp : Bool) : Bool :=
  if s.bit F.MODE_STATUS_REEFING && s.win.reef.isNone && !reefOp then false
  else if !s.pwr.rsvEn then true
  else decide (s.fld F.PWR_LEDGER_COMMIT_UJ + cost + (if reefOp then 0 else s.fld F.PWR_LEDGER_MARGIN_UJ)
    ≤ s.fld F.PWR_RSV_E_UJ)

/-- A grant adds its cost to COMMIT until the operation ends (R872). -/
def State.ledgerTake (s : State) (code cost : Nat) : State :=
  let t := { s with pwr := { s.pwr with grants := s.pwr.grants ++ [(code, cost)] } }
  (t.addSat F.PWR_LEDGER_COMMIT_UJ cost).setBit F.PWR_STATUS_LEDGER_BLIND (!s.pwr.rsvEn)

/-- A refusal is counted, shown and logged once per read of its counter (R874). -/
def State.ledgerRefuse (s : State) (code cost : Nat) : State :=
  let d := code * 2 ^ 24 + min cost (2 ^ 24 - 1)
  let t := (s.countSat F.PWR_LEDGER_REFUSED 1).setReg F.PWR_LEDGER_LAST (BitVec.ofNat 32 d)
  if t.isQuiet F.PWR_LEDGER_REFUSED then t
  else (t.logOnce F.PWR_LEDGER_REFUSED 0x0E05 d).raise F.PWR_EVENT_LEDGER

/-- Ask the ledger: the answer, and the state that has it. -/
def State.ledgerAsk (s : State) (code cost : Nat) (reefOp : Bool) : Bool × State :=
  if s.ledgerGrants cost reefOp then (true, s.ledgerTake code cost) else (false, s.ledgerRefuse code cost)

/-- The end of a granted operation removes its cost (R872). -/
def State.ledgerEnd (s : State) (code : Nat) : State :=
  match s.pwr.grants.find? (·.1 == code) with
  | none => s
  | some g =>
    let t := { s with pwr := { s.pwr with grants := s.pwr.grants.erase g } }
    t.setFld F.PWR_LEDGER_COMMIT_UJ (s.fld F.PWR_LEDGER_COMMIT_UJ - g.2)

/-- A gated operation asks the ledger (R872-R875). -/
def execLedgerRequest (code : Fin 7) (cost : Nat) (reefOp : Bool) (s : State) : Out :=
  .next (if s.powered then (s.ledgerAsk code.val cost reefOp).2 else s)

/-! ### The voltage loop -/

/-- T = max(550, min(VDDF_CEIL, CAPLIM, max(VDDF_FLOOR, REQ))) (R863). -/
def State.vddfTarget (s : State) : Nat :=
  max 550 (min (min (s.fld F.PWR_VDDF_CEIL_MV) s.pwr.capLim) (max (s.fld F.PWR_VDDF_FLOOR_MV) (s.fld F.PWR_VDDF_TARGET_REQ)))

/-- CEILING_PRESSURE and CAP_LIMIT (R865): each rise is logged. -/
def State.pressure (s : State) : State :=
  let want := max (s.fld F.PWR_VDDF_FLOOR_MV) (s.fld F.PWR_VDDF_TARGET_REQ)
  let press := decide (min (s.fld F.PWR_VDDF_CEIL_MV) s.pwr.capLim < want)
  let cap := decide (s.pwr.capLim < s.fld F.PWR_VDDF_CEIL_MV)
  let t := (s.setBit F.PWR_STATUS_CEILING_PRESSURE press).setBit F.PWR_STATUS_CAP_LIMIT cap
  if press && !s.bit F.PWR_STATUS_CEILING_PRESSURE then
    (t.log 0x0E03 (s.fld F.PWR_VDDF_TARGET_REQ + cap.toNat * 2 ^ 16)).raise F.PWR_EVENT_PRESSURE
  else t

/-- The fill of a pace input moved: remember it and the period's largest (R860). -/
def State.noteFill (s : State) (input fill : Nat) : State :=
  let z : Nat → Nat := fun _ => 0
  { s with pwr := { s.pwr with paceNow := Table.put z s.pwr.paceNow input fill,
                               pacePeak := Table.put z s.pwr.pacePeak input (max fill (Table.get z s.pwr.pacePeak input)) } }

/-- A pace input lost a word in this period (R861). -/
def State.noteLoss (s : State) : State := { s with pwr := { s.pwr with paceLoss := true } }

/-- The largest entry of a table, with its key; the lowest key wins a tie (DESIGN CHOICE, log entry 20). -/
def largest : Table Nat → Nat × Nat → Nat × Nat
  | [], b => b
  | (k, v) :: t, b => largest t (if b.2 < v then (k, v) else b)

/-- How many pace inputs are declared (R397, R459). -/
def State.paceInputs (s : State) : Nat :=
  ((List.range 96).filter fun n => s.bit (F.XNG_CFG_PACE n)).length +
  ((List.range 64).filter fun n => s.bit (F.FIFO_CFG_PACE n)).length

/-- The request after a sample period with pace P (R861, R862), and the low span. -/
def State.paceRequest (s : State) (inputs pace : Nat) : Nat × Nat :=
  let req := s.fld F.PWR_VDDF_TARGET_REQ
  let up := s.fld F.PWR_PACE_CFG_STEP_UP
  let low := if pace ≤ s.fld F.PWR_PACE_CFG_LO then s.pwr.lowSpan + s.fld F.PWR_PACE_TIME_PACE_US else 0
  if inputs = 0 then (800, 0)
  else if s.pwr.paceLoss then (min 950 (req + 4 * up), low)
  else if s.fld F.PWR_PACE_CFG_HI ≤ pace then (min 950 (req + up), low)
  else if s.fld F.PWR_PACE_TIME_LOW_MS * 1000 ≤ low then (max 550 (req - s.fld F.PWR_PACE_CFG_STEP_DN), 0)
  else (req, low)

/-- The end of a sample period: the loop moves REQ and recomputes T. -/
def State.paceSample (s : State) : State :=
    let b := largest s.pwr.pacePeak (0, 0)
    let p := min 255 b.2
    let inputs := s.paceInputs
    let (req, low) := s.paceRequest inputs p
    let t := { s with pwr := { s.pwr with lowSpan := low, pacePeak := s.pwr.paceNow, paceLoss := false, paceAt := s.clock } }
    let t := ((t.setFld F.PWR_PACE_STATUS_P p).setFld F.PWR_PACE_STATUS_N (min 127 inputs)).setFld F.PWR_PACE_STATUS_INDEX (b.1 % 128)
    let t := (t.setFld F.PWR_PACE_STATUS_KIND (b.1 / 128)).setFld F.PWR_VDDF_TARGET_REQ req
    (t.setFld F.PWR_VDDF_TARGET_T t.vddfTarget).pressure

/-- The end of a sample period of PACE_US (R860-R863), with the policy that its window found (R890). -/
def execPaceSample (s : State) : Out :=
  .next (if s.bit F.PWR_STATUS_LOOP_RUN && s.gone s.pwr.paceAt (s.fld F.PWR_PACE_TIME_PACE_US * 4000) then
    let policy := [F.PWR_VDDF_FLOOR, F.PWR_VDDF_CEIL, F.PWR_POWER_CAP, F.PWR_PACE_CFG]
    let found := policy.foldl (fun (t : State) a => t.setReg a (s.foundReg a)) s
    policy.foldl (fun (t : State) a => t.setReg a (s.reg a)) found.paceSample
  else s)

/-- At a 1 ms read, CAPLIM moves against POWER_CAP (R864). -/
def execPowerCapCheck (s : State) : Out :=
  if s.bit F.PWR_STATUS_LOOP_RUN then
    let cap := s.fld F.PWR_POWER_CAP_MW
    let uw := s.fld F.PWR_VDDF_MEAS_MV * s.fld F.PWR_VDDF_MEAS_MA
    let dn := s.fld F.PWR_PACE_CFG_STEP_DN
    let c := if cap = 0 then 950
      else if cap * 1000 < uw then max 550 (s.pwr.capLim - dn)
      else if uw * 10 < cap * 9000 then min 950 (s.pwr.capLim + dn)
      else s.pwr.capLim
    .next ({ s with pwr := { s.pwr with capLim := c } }).pressure
  else .next s

/-- A write of the target to the regulator succeeds. -/
def State.avsWritten (s : State) : State := { s with pwr := { s.pwr with avsTarget := s.fld F.PWR_VDDF_TARGET_T } }

/-- The once-per-ms read of Voltage, Current and Status (R857): a success ends a fault, and a target that differs from the last
one written goes out at once (R858); the ms is counted while pressure holds (R865). -/
def execAvsbusPoll (mV mA : Nat) (s : State) : Out :=
  if s.powered then
    let t := (s.setFld F.PWR_VDDF_MEAS_MV mV).setFld F.PWR_VDDF_MEAS_MA mA
    let t := if s.bit F.PWR_STATUS_CEILING_PRESSURE then t.countSat F.PWR_PRESS_MS 1 else t
    if s.bit F.PWR_STATUS_AVS_FAULT then
      .next (({ (t.clear F.PWR_STATUS_AVS_FAULT) with pwr := { s.pwr with avsFailed := none } }).avsWritten)
    else .next t
  else .next s

/-- The Voltage command at a change of the target (R857); none is written while AVS_FAULT is 1 (R858). -/
def execAvsbusVoltageWrite (s : State) : Out :=
  .next (if s.powered && !s.bit F.PWR_STATUS_AVS_FAULT then s.avsWritten else s)

/-- A frame fails after 3 retries (R858): AVS_FAULT, 0x0E01 with the CmdCode, the target is held. -/
def execAvsbusFault (cmd : Fin 16) (s : State) : Out :=
  if s.powered && !s.bit F.PWR_STATUS_AVS_FAULT then
    let t := (s.raise F.PWR_STATUS_AVS_FAULT).log 0x0E01 cmd.val
    .next ({ (t.raise F.PWR_EVENT_AVS) with pwr := { s.pwr with avsFailed := some cmd.val } })
  else .next s

/-! ### The reserve -/

/-- 2 x ECAP in units of uF x mV^2: VLIM^2 x C (R867). -/
def State.twiceEcap (s : State) : Nat := 2 * s.fld F.PWR_RSV_ECAP_VALUE * 1000000000

/-- VSTOP = min(RSV_VTGT, VMAX, floor(0.99 x VLIM)) in mV (R867). -/
def State.vstop (s : State) : Nat :=
  let c := max 1 (s.fld F.PWR_RSV_C_VALUE)
  min (min (s.fld F.PWR_RSV_VTGT_MV) (s.fld F.PWR_RSV_VRANGE_VMAX)) (isqrt (9801 * s.twiceEcap / (c * 10000)))

/-- Usable energy in uJ (the ledger): C(V^2 - VMIN^2)/2, truncated, 0 at or below VMIN. -/
def State.energy (s : State) (v : Nat) : Nat :=
  let vmin := s.fld F.PWR_RSV_VRANGE_VMIN
  if v ≤ vmin then 0 else min (2 ^ 32 - 1) (s.fld F.PWR_RSV_C_VALUE * (v * v - vmin * vmin) / 2000000)

/-- A sample above VLIM (R869). -/
def State.reserveOver (s : State) (v : Nat) : State :=
  let t := (s.clear F.PWR_STATUS_CHARGING).raise F.PWR_STATUS_RSV_OVER
  let t := if s.pwr.rsvExcursion then t else (t.log 0x0E06 v).raise F.PWR_EVENT_RSV
  { t with pwr := { t.pwr with rsvExcursion := true } }

/-- RSV_CHG at a sample not above VLIM (R868): on below VSTOP - HYST, off from VSTOP, held between. -/
def State.reserveCharge (s : State) (v : Nat) : State :=
  let t := { s with pwr := { s.pwr with rsvExcursion := false } }
  let vstop := s.fld F.PWR_RSV_VSTOP_MV
  if s.bit F.MODE_STATUS_REEFING || s.bit F.MODE_STATUS_PFI_PAUSED || vstop ≤ v then t.clear F.PWR_STATUS_CHARGING
  else if v + s.fld F.PWR_RSV_CTRL_HYST < vstop then
    if s.bit F.PWR_STATUS_CHARGING then t
    else { (t.raise F.PWR_STATUS_CHARGING) with pwr := { t.pwr with chargeLogged := false, chargeAt := t.clock } }
  else t

/-- Every 100 us V is sampled, E recomputed and RSV_CHG controlled (R868, R869, R891).  V = code x 1.5 V / 4,096 x DIV; its
rounding to mV is open (log entry 1). -/
def execReserveSample (code : Fin 4096) (s : State) : Out :=
  if s.powered && s.pwr.rsvEn then
    let (v, t) := s.roundOpen ((code.val * 1500 * s.pwr.rsvDiv : Nat) : Int) (4096 * 256)
    let v := min 65535 v.toNat
    let t := (t.setFld F.PWR_RSV_V_MV v).setFld F.PWR_RSV_E_UJ (s.energy v)
    let t := t.setBit F.PWR_STATUS_RSV_OK (decide (s.fld F.PWR_RSV_VRANGE_VMIN < v))
    .next (if s.twiceEcap < v * v * s.fld F.PWR_RSV_C_VALUE then t.reserveOver v else t.reserveCharge v)
  else .next s

/-- RSV_CHG has been asserted for CHG_TO s without V reaching VSTOP (R870): logged once, charging continues. -/
def execChargeTimeout (s : State) : Out :=
  if s.powered && s.bit F.PWR_STATUS_CHARGING && !s.pwr.chargeLogged && s.gone s.pwr.chargeAt (s.fld F.PWR_RSV_CTRL_CHG_TO * 4000000000) then
    .next (({ s with pwr := { s.pwr with chargeLogged := true } }).log 0x0E07 (s.fld F.PWR_RSV_V_MV) |>.raise F.PWR_EVENT_RSV)
  else .next s

/-- A write of RSV_VTGT recomputes VSTOP (R867). -/
def execRsvVtgtWrite (_p : Path) (v : Word) (s : State) : Out :=
  let t := s.setFld F.PWR_RSV_VTGT_MV v.toNat
  whenOpen s (if s.pwr.rsvEn then t.setFld F.PWR_RSV_VSTOP_MV t.vstop else t)

/-- VBAT is measured once per second in Sail (R887): below 2.0 V sets VBAT_LOW and logs once per Hoist. -/
def execVbatMeasure (mV : Nat) (s : State) : Out :=
  if s.inSail then
    let t := s.setFld F.PWR_VBAT_MV (min mV 65535)
    if mV < 2000 then
      let t := t.raise F.PWR_STATUS_VBAT_LOW
      .next (if s.pwr.vbatLogged then t
        else ({ (t.log 0x0E0C mV) with pwr := { t.pwr with vbatLogged := true } }).raise F.PWR_EVENT_VBAT)
    else .next t
  else .next s

end Sys2Proof.Machine
end

