-- ==== Sys2Proof/Machine/Crossing.lean ====
section
/-! DEFINITION. The 96 crossings between clocked domains and the fabric (spec/08_crossings.md).  Synchroniser latencies are
timing and are not modelled: each side sees the other's pointer as it stands (log entry 21). -/

namespace Sys2Proof.Machine

open Sys2Proof

/-- The edge port bound to a resource of a class (spec/06_fabric.md R303, R304), from the loaded EPn_BIND registers. -/
def State.portOf (s : State) (cls idx : Nat) : Option Nat :=
  (s.regs.find? fun e => 0xF9000 ≤ e.1 && e.1 < 0xF9600 && e.2.toNat % 16 == cls && e.2.toNat / 256 % 256 == idx).map
    fun e => (e.1 - 0xF9000) / 4

/-- A completed handshake on the port of a resource counts in EPn_COUNT. -/
def State.portCount (s : State) (cls idx : Nat) : State :=
  match s.portOf cls idx with
  | some n => s.countWrap (F.EP_COUNT n) 1
  | none => s

def noPanel : Nat → PanelUnit := fun _ => {}

/-- What panel k holds. -/
def State.panelOf (s : State) (k : Nat) : PanelUnit := Table.get noPanel s.panel k

/-- Whether handshakes complete in panel k (spec/06_fabric.md R300, spec/07_panels.md R342-R343, R350): not under GSR, and not
FROZEN, LOADING, FAILED or RELEASING before its GSR stage. -/
def State.panelMoves (s : State) (k : Nat) : Bool :=
  let st := s.fld (F.PNL_STATE_STATE k)
  s.powered && !s.bit F.FAB_STATUS_GSR && (decide (st < 3) || (st == 5 && !(s.panelOf k).gsrHeld))

/-- Whether tokens move at the edge port of a resource: it is bound (spec/06_fabric.md R309) and its panel moves. -/
def State.fabricAlive (s : State) (cls idx : Nat) : Bool :=
  match s.portOf cls idx with
  | some n => s.panelMoves (s.fld (F.EP_BIND_PANEL n))
  | none => false

/-- A shell-to-fabric edge port offers its token: not while its panel is QUIESCING (spec/07_panels.md R342, spec/08_crossings.md R422). -/
def State.fabricOffers (s : State) (cls idx : Nat) : Bool :=
  match s.portOf cls idx with
  | some n => s.panelMoves (s.fld (F.EP_BIND_PANEL n)) && s.fld (F.PNL_STATE_STATE (s.fld (F.EP_BIND_PANEL n))) != 2
  | none => false

def noCrossing : Nat → Crossing := fun _ => {}

/-- What crossing n holds. -/
def State.crossing (s : State) (n : Nat) : Crossing := Table.get noCrossing s.xng n

/-- The largest number of words the crossing holds: 16 in a STREAM, 1 otherwise. -/
def State.xngDepth (s : State) (n : Nat) : Nat := if s.fld (F.XNG_CFG_KIND n) = 3 then 16 else 1

/-- Store what crossing n holds, and its FILL, HWM, EMPTY and FULL (R392, R396, R397, R407). -/
def State.setCrossing (s : State) (n : Nat) (x : Crossing) : State :=
  let fill := x.held.length
  let t := { s with xng := Table.put noCrossing s.xng n x }
  let t := (t.setFld (F.XNG_STATUS_FILL n) fill).setFld (F.XNG_STATUS_HWM n) (max fill (s.fld (F.XNG_STATUS_HWM n)))
  let t := (t.setBit (F.XNG_STATUS_EMPTY n) (fill == 0)).setBit (F.XNG_STATUS_FULL n)
    (decide (s.xngDepth n ≤ fill + x.unseen) || s.bit (F.XNG_STATUS_FSIDE_RST n))
  if s.bit (F.XNG_CFG_PACE n) then t.noteFill n (fill * 16) else t

/-- OVR (R381, R385, R387, R393, R418). -/
def State.xngOverrun (s : State) (n : Nat) : State :=
  let t := s.countSat (F.XNG_OVR_CNT n) 1
  let t := if s.bit (F.XNG_CFG_PACE n) then t.noteLoss else t
  if s.bit (F.XNG_STATUS_OVR n) then t
  else ((t.raise (F.XNG_STATUS_OVR n)).pendBit (F.XNG_OVR_PEND 0) n).log 0x0901 (n * 2 ^ 16 + s.fld (F.XNG_CFG_KIND n))

/-- UNDR (R394, R418). -/
def State.xngUnderrun (s : State) (n : Nat) : State :=
  if s.bit (F.XNG_STATUS_UNDR n) then s else (s.raise (F.XNG_STATUS_UNDR n)).log 0x0904 n

/-- A word discarded into XNGn_DISC. -/
def State.xngDiscard (s : State) (n k : Nat) : State := s.countSat (F.XNG_DISC n) k

/-- The word as the port carries it: its width, with V = 1 on top under VBIT (R398). -/
def State.xngToken (s : State) (n : Nat) (w : Dword) : Dword :=
  let width := s.fld (F.XNG_CFG_WIDTH_M1 n) + 1
  if s.bit (F.XNG_CFG_VBIT n) then BitVec.ofNat 64 (w.toNat % 2 ^ (width - 1) + 2 ^ (width - 1))
  else BitVec.ofNat 64 (w.toNat % 2 ^ width)

/-- The value a side receives: the word as sent, or under RESET_SKEW an undefined one (R411). -/
def State.xngDelivered (s : State) (n : Nat) (w : Dword) : Dword × State :=
  if s.bit (F.XNG_STATUS_RESET_SKEW n) then
    let (v, t) := s.open_
    (BitVec.ofNat 64 (v % 2 ^ (s.fld (F.XNG_CFG_WIDTH_M1 n) + 1)), t)
  else (w, s)

/-- ACTIVE: the crossing has a client. -/
def State.xngActive (s : State) (n : Nat) : Bool := s.fld (F.XNG_CFG_CLIENT n) != 0

/-- DIR: shell to fabric. -/
def State.toFabric (s : State) (n : Nat) : Bool := s.bit (F.XNG_CFG_DIR n)

/-- A mailbox crossing (CLIENT 0x1). -/
def State.isMailbox (s : State) (n : Nat) : Bool := s.fld (F.XNG_CFG_CLIENT n) == 1

/-- Move the next received word into the mailbox registers when MBOX_V is 0 (R414). -/
def State.mailboxLoad (s : State) (n : Nat) : State :=
  let x := s.crossing n
  match x.held with
  | w :: ws =>
    if s.isMailbox n && !s.toFabric n && !s.bit (F.XNG_STATUS_MBOX_V n) then
      let (v, t) := s.xngDelivered n w
      ((t.setWide (F.XNG_MBOX_LO n) v.toNat).raise (F.XNG_STATUS_MBOX_V n)).setCrossing n { x with held := ws }
    else s
  | [] => s

/-- The crossing has seen an edge of its clocked side's clock (R399, R405). -/
def Crossing.edge (x : Crossing) (ran : Nat) : Crossing :=
  if x.edgeAt = ran then x else { x with edgeAt := ran, edgeWas := x.edgeAt }

/-- A word joins those held.  While RESET_SKEW is 1 a word may be lost or come twice, by at most 16 in all (R411). -/
def State.xngStore (s : State) (n : Nat) (w : Dword) : State :=
  let x := s.crossing n
  if s.bit (F.XNG_STATUS_RESET_SKEW n) && decide (x.skewed < 16) then
    let (v, t) := s.open_
    if v % 3 = 1 then t.setCrossing n { x with skewed := x.skewed + 1 }
    else if v % 3 = 2 ∧ x.held.length + 2 ≤ s.xngDepth n then
      t.setCrossing n { x with held := x.held ++ [s.xngToken n w, s.xngToken n w], skewed := x.skewed + 1 }
    else t.setCrossing n { x with held := x.held ++ [s.xngToken n w] }
  else s.setCrossing n { x with held := x.held ++ [s.xngToken n w] }

/-- The clocked-side client writes a word toward the fabric (R387, R393, R407): while the fabric side is in reset, or the sides
resynchronise (R409 and the example), it goes to XNGn_DISC; a slot that the fabric freed since the last edge is not seen yet (R392, R421). -/
def State.xngWrite (s : State) (n : Nat) (w : Dword) : State :=
  let x := (s.crossing n).edge s.mast.ran
  if s.bit (F.XNG_STATUS_FSIDE_RST n) || s.bit (F.XNG_STATUS_RESYNC n) then s.xngDiscard n 1
  else if s.xngDepth n ≤ x.held.length + x.unseen then s.xngOverrun n
  else (s.setCrossing n x).xngStore n w

/-- Free slots that the clocked side of a STREAM crossing does not see until its next edge, given as the next beat (R391, R421). -/
def State.xngFreed (s : State) (n : Nat) (x : Crossing) : Nat :=
  if s.fld (F.XNG_CFG_KIND n) = 3 ∧ s.beatRuns = true then x.unseen + 1 else 0

/-- The fabric takes the word at the head, or under PARKED and VBIT a not-valid token of zeros (R391, R400). -/
def State.xngTake (s : State) (n : Nat) : State :=
  let x := s.crossing n
  if !s.fabricOffers 4 n || s.bit (F.XNG_STATUS_CSIDE_RST n) || s.bit (F.XNG_STATUS_FSIDE_RST n) || s.bit (F.XNG_STATUS_RESYNC n)
  then s
  else if s.bit (F.XNG_STATUS_PARKED n) then
    if s.bit (F.XNG_CFG_VBIT n) then (s.setCrossing n { x with out := some 0 }).portCount 4 n else s
  else match x.held with
    | [] => s
    | w :: ws =>
      let (v, t) := s.xngDelivered n w
      let t := (t.setCrossing n { x with held := ws, out := some v, unseen := s.xngFreed n x }).portCount 4 n
      if ws.isEmpty then t.clear (F.XNG_STATUS_MBOX_BUSY n) else t

/-- The fabric gives a word toward the shell (R391, R401, R408): a full crossing leaves it waiting. -/
def State.xngPush (s : State) (n : Nat) (w : Dword) : State :=
  let x := s.crossing n
  if !s.fabricAlive 4 n || s.bit (F.XNG_STATUS_FSIDE_RST n) then s
  else if s.bit (F.XNG_STATUS_PARKED n) || s.bit (F.XNG_STATUS_CSIDE_RST n) then (s.xngDiscard n 1).portCount 4 n
  else if s.xngDepth n ≤ x.held.length || s.bit (F.XNG_STATUS_RESYNC n) then s
  else ((s.xngStore n w).portCount 4 n).mailboxLoad n

/-- The clocked-side client pulls a word (R394, R402): the word, none for not-valid. -/
def State.xngPull (s : State) (n : Nat) : Option Dword × State :=
  let x := (s.crossing n).edge s.mast.ran
  if s.bit (F.XNG_STATUS_PARKED n) then (none, s)
  else match x.held with
    | [] => (none, s.xngUnderrun n)
    | w :: ws =>
      let (v, t) := s.xngDelivered n w
      (some v, t.setCrossing n { x with held := ws, out := some v })

/-- A side enters reset (R406, R410): the held words are discarded. -/
def State.xngEnterReset (s : State) (n : Nat) (fabric : Bool) : State :=
  let x := s.crossing n
  let t := s.xngDiscard n x.held.length
  let t := if fabric then t.raise (F.XNG_STATUS_FSIDE_RST n) else t.raise (F.XNG_STATUS_CSIDE_RST n)
  let x := if fabric then { x with fabricSaw := s.bit (F.XNG_STATUS_CSIDE_RST n), clockedSaw := true }
    else { x with clockedSaw := s.bit (F.XNG_STATUS_FSIDE_RST n), fabricSaw := true }
  (t.setCrossing n { x with held := [], transit := false, unseen := 0 }).clear (F.XNG_STATUS_MBOX_BUSY n)

/-- A side leaves reset (R409, R410, R412); REJOIN resynchronises once the later of two overlapping resets ends (R419). -/
def State.xngLeaveReset (s : State) (n : Nat) (fabric : Bool) : State :=
  let x := s.crossing n
  let t := if fabric then s.clear (F.XNG_STATUS_FSIDE_RST n) else s.clear (F.XNG_STATUS_CSIDE_RST n)
  let t := t.setCrossing n { x with held := [], unseen := 0 }
  let other := if fabric then s.bit (F.XNG_STATUS_CSIDE_RST n) else s.bit (F.XNG_STATUS_FSIDE_RST n)
  if !s.bit (F.XNG_CFG_RMODE n) then (if other then t else t.raise (F.XNG_STATUS_RESYNC n))
  else if s.bit (F.XNG_STATUS_RESET_SKEW n) && x.skewFabric != fabric then t.clear (F.XNG_STATUS_RESET_SKEW n)
  else if (if fabric then x.fabricSaw else x.clockedSaw) then t
  else
    let t := t.setCrossing n { x with held := [], unseen := 0, skewFabric := fabric, skewed := 0 }
    ((t.raise (F.XNG_STATUS_RESET_SKEW n)).pendBit (F.XNG_SKEW_PEND 0) n).log 0x0903 (n * 2 ^ 16 + fabric.toNat)

/-- One clocked-side reset under the reset mode. -/
def State.xngResetClocked (s : State) (n : Nat) : State := (s.xngEnterReset n false).xngLeaveReset n false

/-- A PULSE crossing's sending side sees an event (R380, R381), or the receiving side's acknowledge returns.  A client toward the fabric
whose clock has stopped, or whose side is in reset, sends none. -/
def execCrossingPulseEvent (n : Fin 96) (acknowledge : Bool) (s : State) : Out :=
  let x := s.crossing n
  if !s.powered || s.fld (F.XNG_CFG_KIND n) != 0 || !s.xngActive n
    || (s.toFabric n && acknowledge && !s.fabricOffers 4 n) || (!s.toFabric n && !acknowledge && !s.fabricAlive 4 n) then .next s
  else if acknowledge then .next (s.setCrossing n { x with transit := false })
  else
    let t := if s.toFabric n then s else s.portCount 4 n
    if s.bit (F.XNG_STATUS_PARKED n) || s.bit (F.XNG_STATUS_CSIDE_RST n) then .next (if s.toFabric n then s else t.xngDiscard n 1)
    else if s.bit (F.XNG_STATUS_FSIDE_RST n) then .next (if s.toFabric n then s.xngDiscard n 1 else s)
    else if x.transit then .next (t.xngOverrun n)
    else .next (t.setCrossing n { x with transit := true })

/-- Bit i of a number. -/
def natBit (v i : Nat) : Nat := v / 2 ^ i % 2

/-- What the synchroniser of a LEVEL crossing gives for the level at its input (R384): when several bits changed since it last sampled, each
of them may still be what it was, in this sample alone. -/
def State.xngSample (s : State) (n level : Nat) : Nat × State :=
  let x := s.crossing n
  let changed := (List.range 16).filter fun i => natBit level i != natBit x.settling i
  if changed.length ≤ 1 then (level, s)
  else
    let (v, t) := s.open_
    ((List.range 16).foldl (fun m i => m + 2 ^ i * (if changed.contains i && v / 2 ^ i % 2 == 1 then natBit x.sampled i else natBit level i)) 0, t)

/-- The synchronised level reaches the clocked client of a LEVEL crossing (R383, R384). -/
def State.xngLevelSeen (s : State) (n level : Nat) : State :=
  let (v, t) := s.xngSample n level
  (t.setCrossing n { t.crossing n with sampled := v, settling := level }).setReg (F.XNG_MBOX_LO n) (BitVec.ofNat 32 v)

/-- A LEVEL crossing passes a level on a handshake (R382, R383): the level in force toward the fabric, or the fabric's token,
given as the operand, toward the shell.  A token whose value returns to the one before it within a beat was not sampled (R385). -/
def execCrossingLevelTransfer (n : Fin 96) (level : Dword) (s : State) : Out :=
  if !s.powered || s.fld (F.XNG_CFG_KIND n) != 1 || !s.xngActive n || s.bit (F.XNG_STATUS_FSIDE_RST n)
    || !(if s.toFabric n then s.fabricOffers 4 n else s.fabricAlive 4 n)
  then .next s
  else if s.toFabric n then
    if s.bit (F.XNG_STATUS_CSIDE_RST n) then .next s
    else if s.bit (F.XNG_STATUS_PARKED n) then
      .next (if s.bit (F.XNG_CFG_VBIT n) then (s.setCrossing n { s.crossing n with out := some 0 }).portCount 4 n else s)
    else
      let l := (s.reg (F.XNG_MBOX_LO n)).toNat % 2 ^ 16
      let (v, t) := s.xngSample n l
      .next ((t.setCrossing n { t.crossing n with sampled := v, settling := l, out := some (BitVec.ofNat 64 v) }).portCount 4 n)
  else if s.bit (F.XNG_STATUS_PARKED n) || s.bit (F.XNG_STATUS_CSIDE_RST n) then .next ((s.xngDiscard n 1).portCount 4 n)
  else
    let v := level.toNat % 2 ^ (s.fld (F.XNG_CFG_WIDTH_M1 n) + 1) % 2 ^ 16
    let x := s.crossing n
    let t := if x.level.isSome && x.level != some v && v == x.settling then s.xngOverrun n else s
    .next ((t.setCrossing n { t.crossing n with level := some v }).portCount 4 n)

/-- A beat at the clocked side of a crossing: it sees the slots that are free and the level that the fabric last gave. -/
def State.crossingBeat (s : State) (n : Nat) : State :=
  let x := s.crossing n
  let t := if x.unseen = 0 then s else s.setCrossing n { x with unseen := 0 }
  match x.level with
  | some v => if v = x.settling ∧ v = x.sampled then t.setCrossing n { t.crossing n with level := none } else t.xngLevelSeen n v
  | none => t

/-- A beat at the clocked sides of the crossings. -/
def State.crossingsBeat (s : State) : State :=
  (s.xng.filter fun e => e.2.unseen != 0 || e.2.level.isSome).foldl (fun t e => t.crossingBeat e.1) s

/-- A WORD crossing (R386, R387): a word is presented by its sender, or (none) the round trip of the held word completes.  One with REQ
at 1 takes no words of its client's own accord (R388). -/
def execCrossingWordTransfer (n : Fin 96) (w : Option Dword) (s : State) : Out :=
  if !s.powered || s.fld (F.XNG_CFG_KIND n) != 2 || !s.xngActive n then .next s
  else match w with
    | some w => .next (if !s.toFabric n then s.xngPush n w else if s.bit (F.XNG_CFG_REQ n) then s else s.xngWrite n w)
    | none => .next (if s.toFabric n then s.xngTake n else if s.isMailbox n then s.mailboxLoad n else (s.xngPull n).2)

/-- The field of the Mast that a tap answers with (spec/02_mast.md R90). -/
def State.tapValue (s : State) (m : Nat) : Dword :=
  BitVec.ofNat 64 (s.now / 2 ^ s.fld (F.MTAP_CFG_SHIFT m) % 2 ^ (s.fld (F.MTAP_CFG_WIDTH_M1 m) + 1))

/-- The companion of a WORD crossing with REQ at 1: XNG(n XOR 1). -/
def companion (n : Nat) : Nat := if n % 2 = 0 then n + 1 else n - 1

/-- A Mast tap answers through crossing n: it is enabled and names it (R90; XNG 96-127 disable it). -/
def State.tapAnswers (s : State) (n tap : Nat) : Bool := s.bit (F.MTAP_CFG_EN tap) && s.fld (F.MTAP_CFG_XNG tap) == n

/-- A request, a token at the companion's edge port, reaches a WORD crossing with REQ at 1 (R388-R390, and spec/01_architecture.md R25):
it samples its client, a Mast tap or the mailbox, and starts one transfer; a request before the last reply is acknowledged is discarded at
the companion, as is one that finds the companion parked or its clocked side in reset (R401, R408). -/
def execCrossingRequest (n : Fin 96) (s : State) : Out :=
  let c := companion n
  let tap := s.fld (F.XNG_CFG_CIDX n)
  if !s.powered || !s.bit (F.XNG_CFG_REQ n) || !s.xngActive n || !s.fabricAlive 4 c || s.bit (F.XNG_STATUS_FSIDE_RST c) then .next s
  else
    let t := s.portCount 4 c
    if s.bit (F.XNG_STATUS_PARKED c) || s.bit (F.XNG_STATUS_CSIDE_RST c) then .next (t.xngDiscard c 1)
    else if !(s.crossing n).held.isEmpty then .next (t.xngOverrun c)
    else if s.fld (F.XNG_CFG_CLIENT n) = 2 then .next (if s.tapAnswers n tap then t.xngWrite n (s.tapValue tap) else t)
    else .next (t.xngWrite n (BitVec.ofNat 64 (s.wide (F.XNG_MBOX_LO n))))

/-- A clocked-side client writes a word into a STREAM crossing (R391, R393). -/
def execCrossingStreamWrite (n : Fin 96) (w : Dword) (s : State) : Out :=
  .next (if s.powered && s.fld (F.XNG_CFG_KIND n) == 3 && s.toFabric n && s.xngActive n
    && !s.bit (F.XNG_STATUS_PARKED n) then s.xngWrite n w else s)

/-- The fabric takes a word from a STREAM crossing (R391, R400). -/
def execCrossingStreamTake (n : Fin 96) (s : State) : Out :=
  .next (if s.powered && s.fld (F.XNG_CFG_KIND n) == 3 && s.toFabric n && s.xngActive n then s.xngTake n else s)

/-- The fabric offers a word to a fabric-to-shell STREAM crossing (R391, R401, R408). -/
def execCrossingStreamPush (n : Fin 96) (w : Dword) (s : State) : Out :=
  .next (if s.powered && s.fld (F.XNG_CFG_KIND n) == 3 && !s.toFabric n && s.xngActive n then s.xngPush n w else s)

/-- The clocked side runs on the Mast beat: the mailbox, a Mast tap, an event queue, a companion, or the descriptors of a lane (R378). -/
def State.onMastBeat (s : State) (n : Nat) : Bool :=
  let c := s.fld (F.XNG_CFG_CLIENT n)
  !(c == 5 || (c == 4 && decide (s.fld (F.XNG_CFG_CIDX n) < 8)))

/-- The watchdog has counted XNGn_WDOG.US of the Mast's beats and ticks, without applied steps, since the last edge that the crossing saw
(R399, R405); an edge of the same beat does not save it (R420).  A client on the Mast beat has an edge at every beat. -/
def State.wdogDue (s : State) (n : Nat) : Bool :=
  let x := s.crossing n
  let last := if x.edgeAt = s.mast.ran then x.edgeWas else x.edgeAt
  !(s.onMastBeat n && s.beatRuns) && decide (last + s.fld (F.XNG_WDOG_US n) * 4000 * 2 ^ 38 ≤ s.mast.ran)

/-- No clock edge for XNGn_WDOG.US (R399). -/
def execCrossingWatchdogExpiry (n : Fin 96) (s : State) : Out :=
  if s.powered && s.xngActive n && !s.bit (F.XNG_STATUS_PARKED n) && s.wdogDue n then
    let t := ((s.raise (F.XNG_STATUS_STALL n)).raise (F.XNG_STATUS_PARKED n)).pendBit (F.XNG_STALL_PEND 0) n
    .next (t.log 0x0902 n)
  else .next s

/-- Leave the parked state: the held words go to XNGn_DISC and the clocked side is reset (R403). -/
def State.xngUnpark (s : State) (n : Nat) : State := (s.clear (F.XNG_STATUS_PARKED n)).xngResetClocked n

/-- UNPARK (R403, R404); the operand says whether clock edges are arriving again. -/
def execUnpark (n : Fin 96) (edges : Bool) (s : State) : Out :=
  whenOpen s (if !s.bit (F.XNG_STATUS_PARKED n) then s else if edges then s.xngUnpark n else s.log 0x0906 n)

/-- RST_C: one clocked-side reset under the reset mode. -/
def execRstC (n : Fin 96) (s : State) : Out := whenOpen s (s.xngResetClocked n)

/-- A side held in reset leaves it (R409, R410, R412). -/
def execCrossingResetExit (n : Fin 96) (clocked : Bool) (s : State) : Out :=
  let held := if clocked then s.bit (F.XNG_STATUS_CSIDE_RST n) else s.bit (F.XNG_STATUS_FSIDE_RST n)
  .next (if s.powered && held then s.xngLeaveReset n (!clocked) else s)

/-- The REJOIN handshake completes: both pointers 0, RESYNC clears (R409). -/
def execCrossingResyncDone (n : Fin 96) (s : State) : Out :=
  .next (if s.powered && s.bit (F.XNG_STATUS_RESYNC n) then s.clear (F.XNG_STATUS_RESYNC n) else s)

/-- CLR_HWM: HWM takes FILL (R396). -/
def execCrossingClrHwm (n : Fin 96) (s : State) : Out :=
  whenOpen s (s.setFld (F.XNG_STATUS_HWM n) (s.fld (F.XNG_STATUS_FILL n)))

/-- POP: MBOX_V clears and the next received word loads; no effect while MBOX_V is 0 (R414). -/
def execMailboxPop (n : Fin 96) (s : State) : Out :=
  whenOpen s (if s.isMailbox n && !s.toFabric n && s.bit (F.XNG_STATUS_MBOX_V n)
    then (s.clear (F.XNG_STATUS_MBOX_V n)).mailboxLoad n else s)

/-- A level written to a LEVEL mailbox; a change that returns unseen sets OVR (R385). -/
def State.mailboxLevel (s : State) (n : Nat) (v : Nat) : State :=
  let was := (s.reg (F.XNG_MBOX_LO n)).toNat
  let x := s.crossing n
  let t := s.setReg (F.XNG_MBOX_LO n) (BitVec.ofNat 32 (v % 2 ^ 16))
  if was ≠ x.settling ∧ v % 2 ^ 16 = x.settling then t.xngOverrun n else t

/-- MBOX_LO commits one word to the fabric, or is refused while busy (R413); a mailbox from the fabric ignores it. -/
def execMailboxCommit (p : Path) (n : Fin 96) (lo : Word) (s : State) : Out :=
  if !(s.isMailbox n && s.toFabric n) then .next s
  else
    let (v, t) := s.commitWide p (F.XNG_MBOX_LO n) lo
    if s.wideMirrored (F.XNG_MBOX_LO n) then whenOpen s (s.mirrorRefused (F.XNG_MBOX_LO n))
    else if s.fld (F.XNG_CFG_KIND n) = 1 then whenOpen s (t.mailboxLevel n lo.toNat)
    else if s.bit (F.XNG_STATUS_MBOX_BUSY n) then whenOpen s (t.log 0x0905 n)
    else
      let t := t.setWide (F.XNG_MBOX_LO n) v
      let u := t.xngWrite n (BitVec.ofNat 64 v)
      whenOpen s (if (u.crossing n).held.isEmpty then u else u.raise (F.XNG_STATUS_MBOX_BUSY n))

end Sys2Proof.Machine
end

