-- ==== Sys2Proof/Machine/Fifo.lean ====
section
/-! DEFINITION. The 64 FIFO engines and their scrubber (spec/09_fifo_engines.md).  A push counts and stores in one step, so the
few ns in which a word is counted and not yet stored are not seen (log entry 21). -/

namespace Sys2Proof.Machine

open Sys2Proof

def noEngine : Nat → FifoEngine := fun _ => {}

/-- What engine n holds. -/
def State.engine (s : State) (n : Nat) : FifoEngine := Table.get noEngine s.fifo n

/-- CAP = SIZE x 1,024 words. -/
def State.fifoCap (s : State) (n : Nat) : Nat := s.fld (F.FIFO_REGION_SIZE n) * 1024

/-- The engine's mode: 0 STREAM, 1 FRAME-CT, 2 FRAME-LP. -/
def State.fifoMode (s : State) (n : Nat) : Nat := s.fld (F.FIFO_CFG_MODE n)

/-- RESV: 1 while a FRAME-CT frame is open (R436). -/
def State.fifoResv (s : State) (n : Nat) : Nat := if s.fifoMode n = 1 ∧ (s.engine n).opened then 1 else 0

/-- Tag bits: VALID 7, SOP 6, EOP 5, ERR 4, BYTES 3-1, PAR 0. -/
def tagBit (t : Byte) (i : Nat) : Bool := t.toNat / 2 ^ i % 2 == 1

/-- A tag with a bit set or cleared. -/
def setTag (t : Byte) (i : Nat) (b : Bool) : Byte :=
  BitVec.ofNat 8 (t.toNat - t.toNat / 2 ^ i % 2 * 2 ^ i + b.toNat * 2 ^ i)

/-- Even parity of the low k bits. -/
def parityBits : Nat → Nat → Nat
  | 0, _ => 0
  | k + 1, v => (v % 2 + parityBits k (v / 2)) % 2

/-- The PAR bit of 64 data bits. -/
def parity64 (d : Dword) : Bool := parityBits 64 d.toNat == 1

/-- Store what engine n holds, and the registers that show it (R436, R457-R459). -/
def State.setEngine (s : State) (n : Nat) (e : FifoEngine) : State :=
  let fill := e.words.length
  let old := s.fld (F.FIFO_FILL_WORDS n)
  let af := s.fld (F.FIFO_AF_THR_THR n)
  let cap := s.fifoCap n
  let t := { s with fifo := Table.put noEngine s.fifo n e }
  let t := (t.setFld (F.FIFO_FILL_WORDS n) fill).setFld (F.FIFO_HWM_WORDS n) (max fill (s.fld (F.FIFO_HWM_WORDS n)))
  let t := (t.setBit (F.FIFO_STATUS_EMPTY n) (fill == 0)).setBit (F.FIFO_STATUS_VISIBLE n) (e.visible != 0)
  let t := (t.setBit (F.FIFO_STATUS_OPEN n) e.opened).setBit (F.FIFO_STATUS_FULL n) (decide (cap ≤ fill + t.fifoResv n))
  let t := t.setBit (F.FIFO_STATUS_AF n) (af != 0 && decide (af ≤ fill))
  let t := if af ≠ 0 ∧ old < af ∧ af ≤ fill then t.pendBit (F.FIFO_LEVEL_PEND 0) n else t
  if s.bit (F.FIFO_CFG_PACE n) then t.noteFill (128 + n) (fill * 256 / max 1 cap) else t

/-- A flag of R452 is set: its pending bit, and its code when it goes from 0 to 1. -/
def State.fifoFlag (s : State) (n : Nat) (f : Fld) (code detail : Nat) : State :=
  if s.bit f then s else ((s.raise f).pendBit (F.FIFO_ERR_PEND 0) n).log code detail

/-- Words dropped into DROP_CNT. -/
def State.fifoDrop (s : State) (n k : Nat) : State := s.countSat (F.FIFO_DROP_CNT n) k

/-- An abort or discard is counted and its cause recorded (R443). -/
def State.fifoAborted (s : State) (n why : Nat) : State :=
  let t := (s.countSat (F.FIFO_ABORT_CNT n) 1).setFld (F.FIFO_STATUS_ABORT_WHY n) why
  t.fifoFlag n (F.FIFO_STATUS_ABORT n) 0x0A03 (n * 2 ^ 16 + why)

/-- The close word: data 0, tag 0xB0. -/
def closeWord : FifoWord := { data := 0, tag := 0xB0, kind := .close }

/-- Whether the producer's following words are discarded after this cause (R442, R463). -/
def skipsAfter (why : Nat) : Bool := 3 ≤ why

/-- End the open frame: FRAME-CT closes it with a close word (R438), FRAME-LP gives its words back (R441). -/
def State.fifoEndFrame (s : State) (n why : Nat) : State :=
  let e := s.engine n
  if !e.opened then s
  else if s.fifoMode n = 1 then
    let w := e.words ++ [closeWord]
    ((s.setEngine n { e with words := w, visible := w.length, opened := false, openWords := 0, openErr := false,
                             openShown := false, skip := skipsAfter why }).fifoAborted n why)
  else
    let w := e.words.take (e.words.length - e.openWords - 1)
    ((s.setEngine n { e with words := w, opened := false, openWords := 0, openErr := false, skip := skipsAfter why,
                             young := e.young - (e.openWords + 1) }).fifoDrop
      n e.openWords).fifoAborted n why

/-- The word as stored: PAR checked under PAR_CHK (R434). -/
def State.fifoStored (s : State) (n : Nat) (data : Dword) (tag : Byte) : FifoWord × State :=
  if s.bit (F.FIFO_CFG_PAR_CHK n) && tagBit tag 0 != parity64 data then
    ({ data := data, tag := setTag tag 4 true, kind := .producer },
      s.fifoFlag n (F.FIFO_STATUS_PARERR n) 0x0A07 (n * 2 ^ 16))
  else ({ data := data, tag := tag, kind := .producer }, s)

/-- How many more words a push stores or reserves (R436, R439): a FRAME-CT frame keeps room for its close word, a FRAME-LP frame
takes a slot word at its SOP. -/
def State.fifoNeeds (s : State) (n : Nat) (tag : Byte) : Nat :=
  match s.fifoMode n with
  | 1 => if tagBit tag 5 then (if tagBit tag 6 then 1 else 2 - 1) else 2
  | 2 => if tagBit tag 6 then 2 else 1
  | _ => 1

/-- Room for the pushed word. -/
def State.fifoRoom (s : State) (n : Nat) (tag : Byte) : Bool :=
  decide ((s.engine n).words.length + s.fifoNeeds n tag ≤ s.fifoCap n)

/-- The slot word of a finished FRAME-LP frame (R439, R440). -/
def slotWord (words bytes : Nat) (err : Bool) : FifoWord :=
  let d : Dword := BitVec.ofNat 64 (bytes % 2 ^ 32 + words % 2 ^ 20 * 2 ^ 32)
  { data := d, tag := BitVec.ofNat 8 (0xCE + err.toNat * 16 + (parity64 d).toNat), kind := .slot }

/-- Store a word of a FRAME-CT frame (R437, R438). -/
def State.fifoStoreCt (s : State) (n : Nat) (w : FifoWord) : State :=
  let e := s.engine n
  let ws := e.words ++ [w]
  let k := e.openWords + 1
  let shown := e.openShown || decide (max 1 (s.fld (F.FIFO_CT_THR_THR n)) ≤ k)
  if tagBit w.tag 5 then
    let t := (s.setEngine n { e with words := ws, visible := ws.length, opened := false, openWords := 0, openErr := false,
                                     openShown := false }).countWrap (F.FIFO_FRAME_CNT n) 1
    if tagBit w.tag 4 then t.fifoAborted n 1 else t
  else s.setEngine n { e with words := ws, visible := if shown then ws.length else e.visible, opened := true, openWords := k,
                              openShown := shown }

/-- Store a word of a FRAME-LP frame (R439-R441). -/
def State.fifoStoreLp (s : State) (n : Nat) (w : FifoWord) : State :=
  let e := s.engine n
  let sop := tagBit w.tag 6
  let k := if sop then 1 else e.openWords + 1
  let base := if sop then e.words ++ [slotWord 0 0 false] else e.words
  let ws := base ++ [{ w with tag := setTag w.tag 6 false }]
  let err := (!sop && e.openErr) || tagBit w.tag 4
  let t := s.setEngine n { e with words := ws, opened := true, openWords := k, openErr := err }
  if !tagBit w.tag 5 then t
  else if tagBit w.tag 4 then t.fifoEndFrame n 1
  else
    let front := ws.take (ws.length - k - 1)
    let body := ws.drop (ws.length - k)
    let sw := slotWord k (8 * (k - 1) + w.tag.toNat / 2 % 8 + 1) err
    let all := front ++ [sw] ++ body
    (t.setEngine n { e with words := all, visible := all.length, opened := false, openWords := 0, openErr := false }).countWrap
      (F.FIFO_FRAME_CNT n) 1

/-- How many words at the tail a FLUSH of this window keeps once this word is stored (R464): those pushed in the window; a word of a frame
that a FLUSH before it ends is not among them. -/
def State.fifoYoung (s : State) (n : Nat) (tag : Byte) (holds : Nat) : Nat :=
  let e := s.engine n
  if !s.beatRuns || (s.fifoMode n != 0 && !tagBit tag 6 && e.young == 0) then 0 else e.young + holds - e.words.length

/-- Store a word that has room. -/
def State.fifoStore (s : State) (n : Nat) (data : Dword) (tag : Byte) : State :=
  let (w, t) := s.fifoStored n data tag
  let u := match s.fifoMode n with
    | 1 => t.fifoStoreCt n w
    | 2 => t.fifoStoreLp n w
    | _ =>
      let e := t.engine n
      t.setEngine n { e with words := e.words ++ [w], visible := e.words.length + 1 }
  let e := u.engine n
  u.setEngine n { e with young := s.fifoYoung n tag e.words.length }

/-- A word for which there is no room, from a producer that cannot wait (R445): discarded, and a frame ends. -/
def State.fifoNoRoom (s : State) (n : Nat) : State :=
  let t := (s.fifoDrop n 1).fifoFlag n (F.FIFO_STATUS_OVR n) 0x0A02 (n * 2 ^ 16 + s.fld (F.FIFO_CFG_PROD n))
  let t := if s.bit (F.FIFO_CFG_PACE n) then t.noteLoss else t
  if s.fifoMode n = 0 then t
  else if (t.engine n).opened then t.fifoEndFrame n 4
  else t.setEngine n { t.engine n with skip := true }

/-- Whether a FRAME-LP push would make the frame, with its slot word, exceed CAP (R441). -/
def State.fifoOversize (s : State) (n : Nat) : Bool :=
  s.fifoMode n == 2 && (s.engine n).opened && decide (s.fifoCap n < (s.engine n).openWords + 2)

/-- Push one word with VALID 1 into an enabled engine (R429-R445): the answer is whether it was acknowledged. -/
def State.fifoPushWord (s : State) (n : Nat) (data : Dword) (tag : Byte) (canWait : Bool) : Bool × State :=
  let e := s.engine n
  let sop := tagBit tag 6
  if s.fifoMode n = 0 then
    if s.fifoRoom n tag then (true, s.fifoStore n data tag)
    else if canWait then (false, s) else (true, s.fifoNoRoom n)
  else if !sop && !e.opened then
    (true, if e.skip then s.fifoDrop n 1
      else (s.fifoDrop n 1).fifoFlag n (F.FIFO_STATUS_FRAMING n) 0x0A04 (n * 2 ^ 16))
  else
    let s := if sop && e.opened then s.fifoEndFrame n 2 else s
    let s := if sop then s.setEngine n { s.engine n with skip := false } else s
    if s.fifoOversize n then (true, (s.fifoEndFrame n 5).fifoDrop n 1)
    else if s.fifoRoom n tag then (true, s.fifoStore n data tag)
    else if canWait then (false, s) else (true, s.fifoNoRoom n)

/-- Push a word: one with VALID 0 is acknowledged and discarded (R430); before Sail every word is discarded uncounted (R460). -/
def State.fifoPush (s : State) (n : Nat) (data : Dword) (tag : Byte) (canWait : Bool) : Bool × State :=
  if !s.inSail || !s.bit (F.FIFO_CFG_EN n) then (false, s)
  else if !tagBit tag 7 then (true, s)
  else s.fifoPushWord n data tag canWait

/-- The SRAM word address of the head of engine n. -/
def State.fifoHeadAddr (s : State) (n : Nat) : Nat :=
  s.fld (F.FIFO_REGION_BASE n) * 1024 + (s.engine n).pos % max 1 (s.fifoCap n)

/-- A word as a pop delivers it (R450, R451). -/
def State.fifoRead (s : State) (n : Nat) (w : FifoWord) (ecc : Ecc) : (Dword × Byte) × State :=
  match ecc with
  | .clean => ((w.data, w.tag), s)
  | .single => ((w.data, w.tag),
      (s.countSat (F.FIFO_CE_CNT n) 1).fifoFlag n (F.FIFO_STATUS_CE n) 0x0A06 (n * 2 ^ 24 + s.fifoHeadAddr n))
  | .double d t => ((d, setTag (setTag t 7 true) 4 true),
      (s.countSat (F.FIFO_UE_CNT n) 1).fifoFlag n (F.FIFO_STATUS_UE n) 0x0A05 (n * 2 ^ 24 + s.fifoHeadAddr n))

/-- Take the next visible word at once; a word of zeros when none is visible (R431, R433, R444). -/
def State.fifoPop (s : State) (n : Nat) (ecc : Ecc) : (Dword × Byte) × State :=
  let e := s.engine n
  match e.visible, e.words with
  | v + 1, w :: ws =>
    let (r, t) := s.fifoRead n w ecc
    (r, t.setEngine n { e with words := ws, visible := v, pos := (e.pos + 1) % max 1 (s.fifoCap n) })
  | _, _ =>
    ((0, 0), if s.fifoMode n = 1 ∧ e.opened ∧ e.openShown then s.raise (F.FIFO_STATUS_GAP n) else s)

/-- FLUSH (R463): every word is discarded but those pushed in the same arbiter window (R464); an open frame ends with ABORT_WHY 6. -/
def State.fifoFlush (s : State) (n : Nat) : State :=
  let e := s.engine n
  let gone := e.words.length - e.young
  let ends := e.opened && e.young == 0
  let k := ((e.words.take gone).filter fun w => w.kind == .producer).length
  let kept : FifoEngine := { e with words := e.words.drop gone, visible := e.visible - gone, pos := (e.pos + gone) % max 1 (s.fifoCap n) }
  let t := (s.setEngine n (if ends then { kept with opened := false, openWords := 0, openErr := false, openShown := false, skip := true }
    else kept)).fifoDrop n k
  if ends then t.fifoAborted n 6 else t

/-- A window closes (R464). -/
def State.fifosBeat (s : State) : State :=
  { s with fifo := (s.fifo.map fun e => (e.1, { e.2 with young := 0 })).filter fun e => e.2 != {} }

/-- The data bits a fabric port of a class carries (R429): its width. -/
def State.portWidth (s : State) (cls idx : Nat) : Nat :=
  match s.portOf cls idx with
  | some p => s.fld (F.EP_BIND_WIDTH_M1 p) + 1
  | none => 64

/-- PUSH_LO commits one word through the register port (R446), or is refused (R449). -/
def execFifoRegisterPush (p : Path) (n : Fin 64) (lo : Word) (s : State) : Out :=
  if s.fld (F.FIFO_CFG_PROD n) = 4 then
    let (v, t) := s.commitWide p (F.FIFO_PUSH_LO n) lo
    whenOpen s (t.fifoPush n (BitVec.ofNat 64 v) (setTag (BitVec.ofNat 8 (s.fld (F.FIFO_PUSH_TAG_TAG n))) 7 true) false).2
  else whenOpen s ((s.commitWide p (F.FIFO_PUSH_LO n) lo).2.log 0x0A08 (n.val * 2 ^ 16))

/-- A pop on a path loads its cleat latch with the word's halves and its tag (R447; spec/02_mast.md R92). -/
def State.popLatch (s : State) (p : Path) (n : Nat) (r : Dword × Byte) : State :=
  let lo : Word := BitVec.ofNat 32 r.1.toNat
  { s.setPath p { s.path p with cleatTag := some (F.FIFO_POP_LO n), cleat := [lo, BitVec.ofNat 32 (r.1.toNat / 2 ^ 32), r.2.setWidth 32] } with
    readData := lo }

/-- A read of POP_LO pops one word and latches its high word and tag for the path (R447), or is refused (R449). -/
def execFifoRegisterPop (p : Path) (n : Fin 64) (ecc : Ecc) (s : State) : Out :=
  if s.fld (F.FIFO_CFG_CONS n) = 4 then
    let (r, t) := if s.bit (F.FIFO_CFG_EN n) then s.fifoPop n ecc else ((0, 0), s)
    whenOpen s (t.popLatch p n r)
  else whenOpen s ((s.log 0x0A08 (n.val * 2 ^ 16 + 1)).popLatch p n (0, 0))

/-- FLUSH (R463). -/
def execFifoFlush (n : Fin 64) (s : State) : Out := whenOpen s (s.fifoFlush n)

/-- CLR_HWM: HWM takes FILL (R457). -/
def execFifoClrHwm (n : Fin 64) (s : State) : Out :=
  whenOpen s (s.setFld (F.FIFO_HWM_WORDS n) (s.fld (F.FIFO_FILL_WORDS n)))

/-- The engine that holds a word at an SRAM address, and the word's place in its queue. -/
def State.fifoOwner (s : State) (a : Nat) : Option (Nat × Nat) :=
  let has := fun e : Nat × FifoEngine =>
    let base := s.fld (F.FIFO_REGION_BASE e.1) * 1024
    let cap := s.fifoCap e.1
    base ≤ a && a < base + cap && (a - base + cap - e.2.pos % max 1 cap) % max 1 cap < e.2.words.length
  (s.fifo.find? has).map fun e =>
    let base := s.fld (F.FIFO_REGION_BASE e.1) * 1024
    let cap := s.fifoCap e.1
    (e.1, (a - base + cap - e.2.pos % max 1 cap) % max 1 cap)

/-- Replace one word of a list. -/
def replaceAt {α : Type} : List α → Nat → (α → α) → List α
  | [], _, _ => []
  | x :: xs, 0, g => g x :: xs
  | x :: xs, k + 1, g => x :: replaceAt xs k g

/-- What the scrubber does with the word at an address (R454, R455); `touched`: a foreground access has reached it since. -/
def State.scrubWord (s : State) (n i a : Nat) (ecc : Ecc) (touched : Bool) : State :=
  let d := n * 2 ^ 24 + 2 ^ 23 + a
  match ecc with
  | .clean => s
  | .single => ((s.countSat (F.FIFO_CE_CNT n) 1).addSat F.FIFO_SCRUB_CE_CNT 1).fifoFlag n (F.FIFO_STATUS_CE n) 0x0A06 d
  | .double w t =>
    let u := ((s.countSat (F.FIFO_UE_CNT n) 1).addSat F.FIFO_SCRUB_UE_CNT 1).fifoFlag n (F.FIFO_STATUS_UE n) 0x0A05 d
    let e := u.engine n
    if touched then u
    else u.setEngine n { e with words := replaceAt e.words i fun x => { x with data := w, tag := setTag t 4 true } }

/-- The scrubber visits the next SRAM address (R453-R455); the pass ends at the last of 524,288 words. -/
def execScrubVisit (ecc : Ecc) (touched : Bool) (s : State) : Out :=
  if !s.powered || !s.bit F.FIFO_SCRUB_CFG_EN then .next s
  else
    let a := s.fld F.FIFO_SCRUB_STATUS_ADDR
    let t := match s.fifoOwner a with
      | some (n, i) => s.scrubWord n i a ecc touched
      | none => s
    let t := t.setFld F.FIFO_SCRUB_STATUS_ADDR (a + 1)
    .next (if a + 1 = 524288 then t.addWrap F.FIFO_SCRUB_STATUS_PASSES 1 else t)

end Sys2Proof.Machine
end

