-- ==== Sys2Proof/Machine/Sources.lean ====
section
/-! DEFINITION. The transmit sources of the network lanes and what waits in them (spec/14_network_lanes.md R717-R722), which lane sheets release
(spec/05_sheets.md R264, R265). -/

namespace Sys2Proof.Machine

open Sys2Proof

def noLane : Nat → LaneUnit := fun _ => {}
def noSource : Nat → TxSource := fun _ => {}

/-- What lane k holds. -/
def State.laneOf (s : State) (k : Nat) : LaneUnit := Table.get noLane s.lane k

/-- What transmit source x = 4k + j holds. -/
def State.source (s : State) (x : Nat) : TxSource := Table.get noSource s.txsrc x

/-- Store what source x holds. -/
def State.setSource (s : State) (x : Nat) (u : TxSource) : State := { s with txsrc := Table.put noSource s.txsrc x u }

/-! ### Descriptors and waiting words -/

def txLen (d : Dword) : Nat := d.toNat % 2 ^ 14
def txOp (d : Dword) : Nat := d.toNat / 2 ^ 14 % 4
def txHdr (d : Dword) : Nat := d.toNat / 2 ^ 16 % 2 ^ 14
def txFcsFix (d : Dword) : Bool := d.toNat / 2 ^ 30 % 2 == 1
def txSeq (d : Dword) : Nat := d.toNat / 2 ^ 40 % 256

/-- Words in front of the data: the descriptor, and the Mast reference of TS_OP 0b11. -/
def txHead (d : Dword) : Nat := if txOp d = 3 then 2 else 1

/-- Data words of a frame. -/
def txWords (d : Dword) : Nat := (txLen d + 7) / 8

/-- The crossing that feeds source x. -/
def State.srcCrossing (s : State) (x : Nat) : Option Nat :=
  let n := s.fld ⟨F.LN_XNG (x / 4), 8 * (x % 4), 8⟩
  if n < 96 then some n else none

/-- The FIFO engine that feeds source x. -/
def State.srcEngine (s : State) (x : Nat) : Option Nat :=
  (s.fifo.find? fun e => s.bit (F.FIFO_CFG_EN e.1) && s.fld (F.FIFO_CFG_CONS e.1) == 2 && s.fld (F.FIFO_CFG_CIDX e.1) == x).map
    (·.1)

/-- A FRAME-LP slot word, which a lane passes over (DEDUCED, log entry 24). -/
def State.isSlot (s : State) (n : Nat) (tag : Byte) : Bool := s.fifoMode n == 2 && tagBit tag 6

/-- The words source x could take now, with its own first. -/
def State.srcAvailable (s : State) (x : Nat) : List (Dword × Byte) :=
  let more := match s.srcCrossing x, s.srcEngine x with
    | some n, _ => if s.bit (F.XNG_STATUS_FSIDE_RST n) || s.bit (F.XNG_STATUS_PARKED n) then []
        else (s.crossing n).held.map fun w => (w, (0x80 : Byte))
    | none, some n => (((s.engine n).words.take (s.engine n).visible).map fun w => (w.data, w.tag)).filter
        fun w => !s.isSlot n w.2
    | none, none => []
  (s.source x).held ++ more

/-- The frame's words up to EOP, where its EOP is there. -/
def toEop : List (Dword × Byte) → Option (List (Dword × Byte))
  | [] => none
  | w :: ws => if tagBit w.2 5 then some [w] else (toEop ws).map (w :: ·)

/-- Words of the frame at the head of a source: up to its EOP from a FIFO engine, else what its descriptor says; in RAW every word is one
(R730). -/
def State.frameLen (s : State) (x : Nat) (ws : List (Dword × Byte)) : Nat :=
  if s.fld (F.LN_CFG_MODE (x / 4)) = 4 then 1
  else match ws with
    | [] => 0
    | (d, _) :: _ =>
      if (s.srcEngine x).isSome && (s.srcCrossing x).isNone then
        match toEop ws with | some f => f.length | none => ws.length
      else txHead d + txWords d

/-- First words of frames among the words of a source. -/
def State.framesIn (s : State) (x : Nat) : Nat → List (Dword × Byte) → Nat
  | 0, _ => 0
  | _, [] => 0
  | fuel + 1, ws => 1 + s.framesIn x fuel (ws.drop (max 1 (s.frameLen x ws)))

/-- Words of source x that belong to the frame being sent, which still lacks them. -/
def State.frameRest (s : State) (x : Nat) : Nat :=
  match (s.laneOf (x / 4)).tx with
  | some f => if f.src = x % 4 then txWords f.desc - f.got.length else 0
  | none => 0

/-- The words of source x from the first word of its next frame on: what follows the rest of the frame being sent and of an abandoned one. -/
def State.waitingWords (s : State) (x : Nat) : List (Dword × Byte) :=
  let u := s.source x
  let ws := (s.srcAvailable x).drop (s.frameRest x)
  if u.skipToEop && u.skip != 0 then match toEop ws with | some f => ws.drop f.length | none => []
  else ws.drop u.skip

/-- Frames whose first word waits in source x (R265). -/
def State.waitingFrames (s : State) (x : Nat) : Nat :=
  let ws := s.waitingWords x
  s.framesIn x ws.length ws

/-- Octet time in 1/100 qn of a PCS mode. -/
def octetTime (mode : Nat) : Nat := if mode = 1 then 3200 else if mode = 2 then 320 else 128

/-- The line time of a frame with preamble, SFD and gap in 1/100 qn: 8 and 12 octets (DEDUCED from the chapter's example, log entry 24). -/
def State.frameSpan (s : State) (k : Nat) (d : Dword) : Nat := (txLen d + 20) * octetTime (s.fld (F.LN_CFG_MODE k))

/-- Lane k is still sending a frame or its gap: one that lacks words, or one whose line time has not passed.  A step of the Mast does not move
it (R738). -/
def State.laneSends (s : State) (k : Nat) : Bool :=
  (s.laneOf k).tx.isSome || (match (s.laneOf k).until_ with | some (start, span, _) => decide ((s.mast.ran - start) * 100 < span * 2 ^ 38) | none => false)

/-- The frame that lane k is sending is gated. -/
def State.laneSendsGated (s : State) (k : Nat) : Bool :=
  s.laneSends k && (match (s.laneOf k).tx, (s.laneOf k).until_ with | some f, _ => f.gated | none, some (_, _, g) => g | none, none => false)

/-- Source x is gated (R718). -/
def State.srcGated (s : State) (x : Nat) : Bool := s.bit (F.LSH_CFG_EN x)

end Sys2Proof.Machine
end

