-- ==== Sys2Proof/Machine/Sheets.lean ====
section
/-! DEFINITION. The pin sheets, the lane sheets and the stamp channels (spec/05_sheets.md).  Sheet i is pin sheet i below 256
and lane sheet i - 256 from there on, as the error codes number them; 288 is PPS_OUT. -/

namespace Sys2Proof.Machine

open Sys2Proof

def noSheet : Nat → SheetUnit := fun _ => {}

/-- What sheet i holds. -/
def State.sheetOf (s : State) (i : Nat) : SheetUnit := Table.get noSheet s.sheet i

/-- A register field of sheet i at the same place in both register sets. -/
def sheetFld (i ofs lo width : Nat) : Fld := ⟨0x61000 + 0x20 * i + ofs, lo, width⟩

/-- Lane sheets follow pin sheets in the address space: LSHk at 0x3000 is 0x1000 + 0x20 x (256 + k). -/
theorem sheetFld_lane (k : Nat) : (sheetFld (256 + k) 0x08 0 1).addr = (F.LSH_STATUS_LATE k).addr := by
  simp only [sheetFld]; omega

def sheetLate (i : Nat) : Fld := sheetFld i 0x08 0 1
def sheetOrder (i : Nat) : Fld := sheetFld i 0x08 2 1
def sheetFlushed (i : Nat) : Fld := sheetFld i 0x08 3 1
def sheetStepped (i : Nat) : Fld := sheetFld i 0x08 4 1
def sheetEn (i : Nat) : Fld := sheetFld i 0x00 0 1
def sheetPol (i : Nat) : Fld := sheetFld i 0x00 2 1
def sheetOwner (i : Nat) : Fld := sheetFld i 0x00 19 5
def sheetLateCnt (i : Nat) : Nat := 0x6101C + 0x20 * i
def sheetRelCnt (i : Nat) : Nat := 0x61018 + 0x20 * i

/-- Store what sheet i holds, with DEPTH and NEXT. -/
def State.setSheet (s : State) (i : Nat) (u : SheetUnit) : State :=
  let t := { s with sheet := Table.put noSheet s.sheet i u }
  if i < 288 then
    (t.setFld (sheetFld i 0x08 12 4) u.queue.length).setWide (0x61010 + 0x20 * i) ((u.queue.head?.map (·.due)).getD 0)
  else t

/-- The odd pin of an LVDS pair (spec/18_pins_and_event_lines.md R904). -/
def State.lvdsOdd (s : State) (pin : Nat) : Bool := pin % 2 == 1 && s.bit (F.GPIO_PIN_CFG_LVDS (pin - 1))

/-- Whether a panel's OUT stage is held by a load (R273, R276). -/
def State.panelAway (s : State) (k : Nat) : Bool :=
  decide (k < 24) && (s.panelOf k).outHeld

/-! ### What can drive a pin -/

/-- The declared supply of a bank in mV; none for an unused bank. -/
def State.bankSupply (s : State) (b : Nat) : Option Nat :=
  match s.fld ⟨F.GPIO_VIO, 2 * b, 2⟩ with
  | 1 => some 1800 | 2 => some 2500 | 3 => some 3300 | _ => none

/-- A bank whose pins can be driven now (spec/18_pins_and_event_lines.md R900, R912, spec/17_power_and_reef.md R879;
spec/01_architecture.md R42). -/
def State.bankLive (s : State) (b : Nat) : Bool :=
  s.powered && s.dev.outOn && s.bit ⟨F.GPIO_VIO_OK, b, 1⟩ && (s.bankSupply b).isSome
    && !(s.bit F.MODE_STATUS_REEFING && s.bit ⟨F.PWR_EXPOSED, b, 1⟩) && !s.bit F.MODE_STATUS_PFI_PAUSED

/-- Whether gated outputs of this member are silent (R277, R911): any role but ACTIVE. -/
def State.gatedSilent (s : State) : Bool := s.fld F.STY_STATUS_ROLE != 2

/-- Pin sheet i puts its LEVEL on the pin (R261, R271, R277, R280). -/
def State.sheetDrives (s : State) (i : Nat) : Bool :=
  s.bit (F.SHT_CFG_EN i) && s.bankLive (i / 16) && !s.lvdsOdd i && !(s.bit (F.SHT_CFG_STBY_GATE i) && s.gatedSilent)

/-! ### Pin edges -/

/-- The level after one VALUE: 0 low, 1 high, 2 high impedance, 3 toggle.  The spec states no toggle of high impedance: that
level is open (log entry 1). -/
def State.levelAfter (s : State) (lvl v : Nat) : Nat × State :=
  if v = 3 then
    if lvl < 2 then (1 - lvl, s) else let (w, t) := s.open_; (w % 3, t)
  else (v, s)

/-- The level after the VALUEs of one instant, in order (R251). -/
def State.levelAfterAll (s : State) : Nat → List Nat → Nat × State
  | lvl, [] => (lvl, s)
  | lvl, v :: vs => let (w, t) := s.levelAfter lvl v; t.levelAfterAll w vs

/-- The beat that launched the instants since it: the beat before the present one, or the Mast that a step of this beat gave. -/
def State.launchBase (s : State) : Nat := if s.win.stepped then s.mast.stepAt.getD s.mast.prev else s.mast.prev

/-- The qn from the beat that launches an edge to its instant (R253): the present beat, or the one before it.  For an older instant, which only
a command out of the beat's own order can ask for, the offset is open (log entry 1). -/
def State.edgeOffset (s : State) (at_ : Nat) : Nat × State :=
  if ahead at_ s.now < 5 then (ahead at_ s.now, s)
  else if ahead at_ s.launchBase < 5 then (ahead at_ s.launchBase, s)
  else let (w, t) := s.open_; (w % 5, t)

/-- The delay code of an edge at an instant (R253, R257): 16 steps for each qn past the beat that launches it, FD_CAL and SKEW,
clamped to 0-255. -/
def State.placeCode (s : State) (i at_ skew cal : Nat) : State × Nat :=
  let r := s.edgeOffset at_
  let t := r.2
  let want : Int := 16 * r.1 + cal + signed 8 skew
  let code := (clampInt 0 255 want).toNat
  let t := if (code : Int) = want then t
    else (t.setFld (if i = 288 then F.SHT_PPSO_FD_CAL_ERR else sheetFld i 0x0C 7 1) 1).log 0x0709 (i * 2 ^ 16 + unsigned 16 want)
  (t, code)

/-- Pin sheet i launches an edge at an instant: FD_LAST takes its code (R253). -/
def State.launchEdge (s : State) (i at_ : Nat) : State :=
  let (t, code) := s.placeCode i at_ (s.fld (F.SHT_SKEW_SKEW i)) (s.fld (F.SHT_FD_FD_CAL i))
  t.setFld (F.SHT_FD_FD_LAST i) code

/-- The previous edge of sheet i, when an edge asked for at an instant falls less than 8 qn after it (R252).  Values of one instant make one
edge (R251), and an edge before an applied step crowds none after it (log entry 51). -/
def State.crowds (s : State) (i at_ : Nat) : Option Nat :=
  match (s.sheetOf i).lastEdge with
  | some (e, asked, k) => if k = s.mast.steps ∧ asked ≠ at_ ∧ !atOrAfter at_ (e + 8) then some e else none
  | none => none

/-- An edge on a driven pin, asked for at an instant (R252, R253): 8 qn after the sheet's previous edge at the earliest.  An edge that
this puts beyond the present beat is launched by a later one. -/
def State.placeEdge (s : State) (i at_ : Nat) : State :=
  let at' := match s.crowds i at_ with | some e => (e + 8) % 2 ^ 64 | none => at_
  let t := match s.crowds i at_ with
    | some e => (s.raise (F.SHT_STATUS_CROWD i)).log 0x0703 (i * 2 ^ 16 + (if atOrAfter at_ e then ahead at_ e else 0))
    | none => s
  let u := t.sheetOf i
  let later := (s.crowds i at_).isSome && atOrAfter at' s.nextNow
  let t := t.setSheet i { u with lastEdge := some (at', at_, s.mast.steps), placing := if later then u.placing ++ [at'] else u.placing }
  if later then t else t.launchEdge i at'

/-- LEVEL changes at an instant; on a pin that the sheet drives that is an edge (R252, R253, R271). -/
def State.pinEdge (s : State) (i lvl at_ : Nat) : State :=
  if s.fld (F.SHT_STATUS_LEVEL i) = lvl then s
  else
    let t := s.setFld (F.SHT_STATUS_LEVEL i) lvl
    if s.sheetDrives i then t.placeEdge i at_ else t

/-- Apply VALUEs to a pin at an instant; while the sheet holds its pin for a panel load they change nothing (R273, log entry 51). -/
def State.applyValues (s : State) (i : Nat) (vs : List Nat) (at_ : Nat) : State :=
  if s.bit (F.SHT_STATUS_RELOADING i) then s
  else
    let (lvl, t) := s.levelAfterAll (s.fld (F.SHT_STATUS_LEVEL i)) vs
    t.pinEdge i lvl at_

/-- Instants that have come, of those that R252 put ahead: their edges have been launched. -/
def State.launchPlaced (s : State) (i : Nat) : State :=
  let u := s.sheetOf i
  let due := u.placing.filter fun e => atOrAfter s.now e
  if due.isEmpty then s
  else due.foldl (fun t e => t.launchEdge i e) (s.setSheet i { u with placing := u.placing.filter fun e => !atOrAfter s.now e })

/-! ### Tokens -/

/-- A lane release (R264, R265, R279): it opens the gate for the next frame of its source that no earlier release has opened it for.  A
gated frame still being sent, or one whose release has come and which has not started, makes it slip (spec/14_network_lanes.md R720). -/
def State.laneRelease (s : State) (i : Nat) : State :=
  let x := i - 256
  let gates := (s.sheetOf i).gates
  if s.bit (F.LSH_CFG_STBY_GATE x) && s.fld F.STY_STATUS_ROLE != 2 then s
  else if gates < s.waitingFrames x then
    let t := s.setSheet i { s.sheetOf i with gates := gates + 1 }
    if s.laneSendsGated (x / 4) || (List.range 4).any fun j => (s.sheetOf (256 + x / 4 * 4 + j)).gates != 0 then
      (((t.raise (F.LN_STATUS_TX_SLIP (x / 4))).countSat (F.LN_TX_SLIP (x / 4)) 1).log 0x0B08 (x / 4 * 256 + x % 4)).raise
        (F.LN_EVENT_ERR (x / 4))
    else t
  else (s.raise (F.LSH_STATUS_NOFRAME x)).log 0x0706 (i * 2 ^ 16)

/-- Release tokens of one instant from sheet i (R246, R251, R264). -/
def State.releaseTokens (s : State) (i : Nat) (vs : List Nat) (at_ : Nat) : State :=
  let t := s.countWrap (sheetRelCnt i) vs.length
  if i < 256 then t.applyValues i vs at_ else vs.foldl (fun t _ => t.laneRelease i) t

/-- LATE, its pending bit and LATE_CNT (R247). -/
def State.markLate (s : State) (i k : Nat) : State :=
  let t := (s.raise (sheetLate i)).countSat (sheetLateCnt i) k
  if i < 256 then t.pendBit (F.SHT_LATE_PEND 0) i else t.raiseBit F.SHT_LLATE_PEND (i - 256)

/-- EMIT-NOW hands late values to the next beat (R247, R263). -/
def State.emitTokens (s : State) (i : Nat) (vs : List Nat) : State :=
  if s.bit (sheetPol i) then s.setSheet i { s.sheetOf i with emit := (s.sheetOf i).emit ++ vs } else s

/-- A late token of a release instant, found late at a beat (R247, R248). -/
def State.lateToken (s : State) (i : Nat) (value lateness : Nat) : State :=
  let t := (s.markLate i 1).logOnce (sheetLateCnt i) (if s.bit (sheetPol i) then 0x0702 else 0x0701) (i * 2 ^ 16 + min 65535 lateness)
  t.emitTokens i [value]

/-- Take the new head at a beat: a token whose instant that beat has reached is late (R246); the next one then becomes head. -/
def State.newHead (s : State) (i beat : Nat) : Nat → State
  | 0 => s
  | fuel + 1 =>
    let u := s.sheetOf i
    match u.queue with
    | [] => s
    | k :: ks =>
      if atOrAfter beat k.due then
        ((s.setSheet i { u with queue := ks }).lateToken i k.value (ahead beat k.due)).newHead i beat fuel
      else s.setSheet i { u with queue := { k with headSince := some beat } :: ks }

/-- Tokens that an applied forward step passed over (R282). -/
def State.steppedTokens (s : State) (i : Nat) : State :=
  let u := s.sheetOf i
  let (hit, keep) := u.queue.partition fun k => s.steppedOver k.due
  if hit.isEmpty then s
  else
    let t := ((s.setSheet i { u with queue := keep }).markLate i hit.length).raise (sheetStepped i)
    let t := ((t.log 0x070A (i * 2 ^ 16 + min 255 hit.length)).emitTokens i (hit.map (·.value))).setQuiet (sheetLateCnt i) true
    t.newHead i s.launchBase 8

/-- Whether sheet i accepts tokens (R245, R261, R270). -/
def State.sheetAccepts (s : State) (i : Nat) : Bool :=
  s.fabricAlive (if i < 256 then 1 else 2) (if i < 256 then i else i - 256) && s.bit (sheetEn i) && decide ((s.sheetOf i).queue.length < 8)
    && !(decide (i < 256) && s.lvdsOdd i)

/-- A token with a release instant joins the queue; out of order it is marked (R250). -/
def State.queueToken (s : State) (i due value : Nat) : State :=
  let u := s.sheetOf i
  let early := match u.lastDue with | some p => !atOrAfter due p | none => false
  let t := s.setSheet i { u with queue := u.queue ++ [{ due := due, value := value, headSince := if u.queue.isEmpty then some s.now else none }],
                                 lastDue := some due }
  if early then (t.raise (sheetOrder i)).log 0x0704 (i * 2 ^ 16) else t

/-- Accept a token (R244, R245, R250): while 8 are held the fabric keeps it.  A token whose d lies outside 1 to 2^39 - 1 has no release
instant: it is late at once and joins no queue. -/
def execSheetTokenAccept (i : Fin 288) (token : Dword) (s : State) : Out :=
  if s.sheetAccepts i.val then
    let d := (token.toNat % 2 ^ 40 + 2 ^ 40 - s.now % 2 ^ 40) % 2 ^ 40
    let value := if i.val < 256 then token.toNat / 2 ^ 40 % 4 else 0
    let t := s.portCount (if i.val < 256 then 1 else 2) (if i.val < 256 then i.val else i.val - 256)
    .next (if 1 ≤ d ∧ d < 2 ^ 39 then t.queueToken i ((s.now + d) % 2 ^ 64) value
      else t.lateToken i value ((2 ^ 40 - d) % 2 ^ 40))
  else .next s

/-- The head of sheet i is released at its instant with every token of that instant behind it (R246, R251); the next token becomes head at
the beat that launched the release. -/
def State.releaseHead (s : State) (i : Nat) : State :=
  let u := s.sheetOf i
  match u.queue with
  | [] => s
  | k :: _ =>
    let same := u.queue.takeWhile fun x => x.due == k.due
    let t := (s.setSheet i { u with queue := u.queue.dropWhile fun x => x.due == k.due }).releaseTokens i (same.map (·.value)) k.due
    t.newHead i (if atOrAfter k.due s.now then s.now else s.launchBase) 8

/-! ### Pulses and actions -/

/-- The first pulse of sheet i ends: its trailing edge drives the pin low, whatever a token did meanwhile (R260); PPS_OUT is high while its
pulse lasts (spec/03_discipline_and_holdover.md R161). -/
def State.endPulse (s : State) (i : Nat) : State :=
  match (s.sheetOf i).pulseEnds with
  | e :: es =>
    let t := s.setSheet i { s.sheetOf i with pulseEnds := es }
    if i = 288 then t else t.applyValues i [0] e
  | [] => s

/-- Whether the sheet's next event up to an instant is a release (a token goes before a pulse's end at one instant, R259), a pulse's end, or
neither.  A lane sheet releases nothing while its OWNER loads (R275). -/
def State.sheetNext (s : State) (i t : Nat) : Option Bool :=
  let u := s.sheetOf i
  let token := match u.queue with
    | k :: _ => if atOrAfter t k.due && !(decide (256 ≤ i) && s.panelAway (s.fld (sheetOwner i))) then some k.due else none
    | [] => none
  let pulse := match u.pulseEnds with
    | e :: _ => if atOrAfter t e then some e else none
    | [] => none
  match token, pulse with
  | some d, some e => some (atOrAfter e d)
  | some _, none => some true
  | none, some _ => some false
  | none, none => none

/-- Releases and pulse ends of sheet i up to an instant, in the order of their instants. -/
def State.sheetRun (s : State) (i t : Nat) : Nat → State
  | 0 => s
  | fuel + 1 =>
    match s.sheetNext i t with
    | some true => (s.releaseHead i).sheetRun i t fuel
    | some false => (s.endPulse i).sheetRun i t fuel
    | none => s

/-- Sheet i up to an instant. -/
def State.sheetTo (s : State) (i t : Nat) : State := s.sheetRun i t ((s.sheetOf i).queue.length + (s.sheetOf i).pulseEnds.length)

/-- Put a pulse's end among those that wait, in order. -/
def insertEnd (e : Nat) : List Nat → List Nat
  | [] => [e]
  | x :: xs => if atOrAfter e x then x :: insertEnd e xs else e :: x :: xs

/-- A pulse (1) or toggle (2) action of a timer or compare on pin sheet i at an edge instant (R200, R201, R258, R274): tokens due by that
instant go first (R259). -/
def State.sheetAct (s : State) (i op at_ width : Nat) : State :=
  if !(s.bit (F.SHT_CFG_EN i) && s.bit (F.SHT_CFG_TC_EN i)) || s.bit (F.SHT_STATUS_RELOADING i) then s
  else if op = 1 then
    let t := (s.sheetTo i at_).applyValues i [1] at_
    t.setSheet i { t.sheetOf i with pulseEnds := insertEnd ((at_ + (width + 1) * 4) % 2 ^ 64) (t.sheetOf i).pulseEnds }
  else if op = 2 then (s.sheetTo i at_).applyValues i [3] at_
  else s

/-- The head token's release instant has come or falls within the present beat (R246): it is released, after what the sheet does by then. -/
def execSheetRelease (i : Fin 288) (s : State) : Out :=
  if !s.powered then .next s
  else
    let s := s.steppedTokens i.val
    match (s.sheetOf i).queue with
    | [] => .next s
    | k :: _ => .next (if atOrAfter s.now k.due || !atOrAfter k.due s.nextNow then s.sheetTo i k.due else s)

/-- Late values of earlier beats come out at this one (R247, R263). -/
def State.emitLate (s : State) (i : Nat) (vs : List Nat) : State :=
  if vs.isEmpty then s else if i < 256 then s.applyValues i vs s.now else vs.foldl (fun t _ => t.laneRelease i) s

/-- What a beat does to sheet i: tokens that a step passed, releases and pulse ends before the beat, late values of earlier beats, and what falls
on the beat itself. -/
def State.sheetBeat (s : State) (i : Nat) : State :=
  let u := s.sheetOf i
  let t := if u.emit.isEmpty then s else s.setSheet i { u with emit := [] }
  let t := if t.win.stepped then t.steppedTokens i else t
  let t := (t.sheetTo i ((s.now + 2 ^ 64 - 1) % 2 ^ 64)).emitLate i u.emit
  (t.sheetTo i s.now).launchPlaced i

/-! ### Panel loads -/

/-- The OWNER of a sheet begins its load: a release of that window completes first (R286), then the queue is discarded (R273, R275). -/
def State.flushSheet (s : State) (i : Nat) : State :=
  let s := s.sheetTo i s.now
  let u := s.sheetOf i
  let t := (s.setSheet i { u with queue := [], emit := [], pulseEnds := [] }).raise (sheetFlushed i)
  let t := t.log 0x0705 (i * 2 ^ 16 + u.queue.length % 16)
  if i < 256 then
    let r := s.fld (F.SHT_CFG_RELOAD i)
    let lvl := if r = 0 then s.fld (F.SHT_STATUS_LEVEL i) else if r = 1 then 2 else r - 2
    (t.raise (F.SHT_STATUS_RELOADING i)).setFld (F.SHT_STATUS_LEVEL i) lvl
  else t

/-- Sheets of a panel at the start of its load. -/
def State.flushSheetsOf (s : State) (k : Nat) : State :=
  (List.range 288).foldl (fun t i => if t.bit (sheetEn i) && t.fld (sheetOwner i) == k then t.flushSheet i else t) s

/-- Sheets of a panel at its OUT stage (R273). -/
def State.outSheetsOf (s : State) (k : Nat) : State :=
  (List.range 256).foldl (fun t i => if t.fld (sheetOwner i) == k then t.clear (F.SHT_STATUS_RELOADING i) else t) s

/-! ### Stamp channels -/

def noStamp : Nat → StampUnit := fun _ => {}

/-- What stamp channel n holds. -/
def State.stampOf (s : State) (n : Nat) : StampUnit := Table.get noStamp s.stamp n

/-- Store what stamp channel n holds, with DEPTH. -/
def State.setStamp (s : State) (n : Nat) (u : StampUnit) : State :=
  ({ s with stamp := Table.put noStamp s.stamp n u }).setFld (F.STMP_STATUS_DEPTH n) u.buf.length

/-- A stamp token (R266): the edge, less COMP fine steps. -/
def State.stampToken (s : State) (n : Nat) (level : Bool) (fine : Nat) : Dword :=
  let i : Int := (s.now * 8 + fine : Nat) - signed 8 (s.fld (F.STMP_CFG_COMP n))
  BitVec.ofNat 64 (unsigned 43 i % 8 * 2 ^ 40 + unsigned 43 i / 8 + level.toNat * 2 ^ 43)

/-- A stamp that the channel discards (R267, R276). -/
def State.stampLost (s : State) (n : Nat) (quiet : Bool) : State :=
  let t := s.countSat (F.STMP_LOST n) 1
  if quiet then t else (t.raise (F.STMP_STATUS_LOST n)).logOnce (F.STMP_LOST n) 0x0707 (n * 2 ^ 16)

/-- An edge at the ball of user pin n in Sail (R262, R266-R269, R276); two edges less than 8 qn apart are both discarded, the
first taken back from the buffer (R268). -/
def execStampChannelEdge (n : Fin 256) (level : Bool) (fine : Fin 40) (s : State) : Out :=
  let s := if s.powered then s.setBit ⟨F.GPIO_IN (n / 16), n % 16, 1⟩ level else s
  if !(s.inSail && s.bit (F.STMP_CFG_EN n)) || s.lvdsOdd n then .next s
  else
    let u := s.stampOf n
    let at_ := s.now * 8 + fine.val
    let near := match u.lastEdge with | some e => decide (e ≤ at_ ∧ at_ < e + 64) | none => false
    let sel := s.fld (F.STMP_CFG_EDGES n)
    if near then
      let t := s.setStamp n { buf := if u.lastKept then u.buf.dropLast else u.buf, lastEdge := some at_, lastKept := false }
      .next ((t.raise (F.STMP_STATUS_GLITCH n)).log 0x0708 (n.val * 2 ^ 16))
    else if !(sel == 3 || sel == (if level then 1 else 2)) then
      .next (s.setStamp n { u with lastEdge := some at_, lastKept := false })
    else if s.panelAway (s.fld (F.STMP_CFG_OWNER n)) then
      .next ((s.setStamp n { u with lastEdge := some at_, lastKept := false }).stampLost n true)
    else if 4 ≤ u.buf.length then
      .next ((s.setStamp n { u with lastEdge := some at_, lastKept := false }).stampLost n false)
    else .next (s.setStamp n { buf := u.buf ++ [s.stampToken n level fine], lastEdge := some at_, lastKept := true })

end Sys2Proof.Machine
end

