-- ==== Sys2Proof/Machine/Timers.lean ====
section
/-! DEFINITION. Compare channels, timers, capture units and the event queues (spec/04_timers_compares_captures.md). -/

namespace Sys2Proof.Machine

open Sys2Proof

/-! ### Event queues -/

/-- Words staged in front of queue q's crossing. -/
def State.teqStaged (s : State) (q : Nat) : List Dword := Table.get (fun _ => []) s.teq q

/-- Store queue q's staging buffer. -/
def State.setTeq (s : State) (q : Nat) (ws : List Dword) : State := { s with teq := Table.put (fun _ => []) s.teq q ws }

/-- The crossing that queue q writes, while the queue is enabled and names one. -/
def State.teqCrossing (s : State) (q : Nat) : Option Nat :=
  let n := s.fld (F.TEQ_CFG_XNG q)
  if s.bit (F.TEQ_CFG_EN q) && decide (n < 96) then some n else none

/-- Room in a STREAM crossing for its clocked producer. -/
def State.xngHasRoom (s : State) (n : Nat) : Bool :=
  s.xngActive n && !s.bit (F.XNG_STATUS_PARKED n) && !s.bit (F.XNG_STATUS_FULL n)
    && decide ((s.crossing n).held.length < s.xngDepth n)

/-- Move staged words into the crossing while it has room. -/
def State.teqDrain (s : State) (q : Nat) : Nat → State
  | 0 => s
  | fuel + 1 =>
    match s.teqStaged q, s.teqCrossing q with
    | w :: ws, some n => if s.xngHasRoom n then ((s.xngWrite n w).setTeq q ws).teqDrain q fuel else s
    | _, _ => s

/-- Enter an event into queue q (R227): the crossing, or the 4-word staging buffer, or it is lost. -/
def State.teqSend (s : State) (q : Nat) (w : Dword) : State :=
  match s.teqCrossing q with
  | none => s
  | some n =>
    let t := s.teqDrain q 4
    let staged := t.teqStaged q
    if staged.isEmpty && t.xngHasRoom n then t.xngWrite n w
    else if staged.length < 4 then t.setTeq q (staged ++ [w])
    else (t.countSat (F.TEQ_LOST q) 1).logOnce (F.TEQ_LOST q) 0x0604
      (q * 2 ^ 16 + w.toNat / 2 ^ 60 * 2 ^ 12 + w.toNat / 2 ^ 50 % 256)

/-- Take back the last event of queue q, while it is still there and is this word. -/
def State.teqTake (s : State) (q : Nat) (w : Dword) : Option State :=
  let staged := s.teqStaged q
  if staged.getLast? == some w then some (s.setTeq q staged.dropLast)
  else match s.teqCrossing q with
    | some n =>
      let x := s.crossing n
      if staged.isEmpty && x.held.getLast? == some w then some (s.setCrossing n { x with held := x.held.dropLast }) else none
    | none => none

/-- Take back an event whose edge turned out a glitch (R220). -/
def State.teqRetract (s : State) (q : Nat) (w : Dword) : State :=
  match s.teqTake q w with
  | some t => { t with win := { t.win with capEvents := t.win.capEvents.filter fun e => e.2.2 != w || e.1 != q } }
  | none => s

/-- Enter a capture event behind the events of this beat that the list does not hold, and before those that it holds, last first
(R226): units of a higher index. -/
def State.teqBefore (s : State) (q : Nat) (w : Dword) : List Dword → State
  | [] => s.teqSend q w
  | x :: xs =>
    match s.teqTake q x with
    | some t => (t.teqBefore q w xs).teqSend q x
    | none => s.teqSend q w

/-- Enter the event of capture unit n, in ascending index among the captures of its beat (R226). -/
def State.teqCapture (s : State) (q n : Nat) (w : Dword) : State :=
  let higher := (s.win.capEvents.filter fun e => e.1 == q && decide (n < e.2.1)).map (·.2.2)
  let t := s.teqBefore q w higher.reverse
  let (lower, upper) := s.win.capEvents.partition fun e => !(e.1 == q && decide (n < e.2.1))
  { t with win := { t.win with capEvents := lower ++ (q, n, w) :: upper } }

/-- An event word: KIND, LATE, STEPPED, INDEX and AT. -/
def eventWord (kind : Nat) (late stepped : Bool) (index at_ : Nat) : Dword :=
  BitVec.ofNat 64 (kind * 2 ^ 60 + late.toNat * 2 ^ 59 + stepped.toNat * 2 ^ 58 + index % 256 * 2 ^ 50 + at_ % 2 ^ 40)

/-! ### Timer values -/

/-- TMRn state codes. -/
def timerRuns (s : State) (n : Nat) : Bool := s.fld (F.TMR_STATUS_STATE n) == 1

/-- The timer's REEF_RUN. -/
def State.reefRun (s : State) (n : Nat) : Bool := decide (n < 8) && s.bit (F.TMR_CTRL_REEF_RUN n)

/-- Whether timer n is frozen (R187, R205). -/
def State.timerFrozen (s : State) (n : Nat) : Bool :=
  s.fld (F.TMR_STATUS_STATE n) == 2 || (timerRuns s n && s.bit F.SUP_STATUS_HALTED && s.bit (F.TMR_CTRL_FRZ_ON_HALT n))

/-- FROZEN, with its growth up to this beat (R187); an IDLE timer reads 0 (R186). -/
def State.timerFrozenQn (s : State) (n : Nat) : Nat :=
  if s.fld (F.TMR_STATUS_STATE n) = 0 then 0
  else match Table.get (fun _ => none) s.frozenSince n with
  | some m => (s.wide (F.TMR_FROZEN_LO n) + s.now + 2 ^ 64 - m) % 2 ^ 64
  | none => s.wide (F.TMR_FROZEN_LO n)

/-- Bring FROZEN up to this beat and start or stop its growth as the timer's state now asks. -/
def State.settleTimer (s : State) (n : Nat) : State :=
  let t := s.setWide (F.TMR_FROZEN_LO n) (s.timerFrozenQn n)
  let t := t.setBit (F.TMR_STATUS_HALT_FROZEN n) (t.timerFrozen n && timerRuns t n)
  { t with frozenSince := Table.put (fun _ => none) t.frozenSince n (if t.timerFrozen n then some t.now else none) }

/-- V = Mast - ORIGIN - FROZEN; an IDLE timer reads 0 (R186). -/
def State.timerValue (s : State) (n : Nat) : Nat :=
  if s.fld (F.TMR_STATUS_STATE n) = 0 then 0
  else (s.now + 2 ^ 65 - s.wide (F.TMR_ORIGIN_LO n) - s.timerFrozenQn n) % 2 ^ 64

/-- PENDING (R188). -/
def State.timerPending (s : State) (n : Nat) : Bool := decide (2 ^ 63 ≤ s.timerValue n)

/-- The timer is evaluated: in Sail, or with REEF_RUN in Reef and Hoist (R175, R208, R209). -/
def State.timerLives (s : State) (n : Nat) : Bool :=
  s.inSail || ((s.inHoist || s.dev.mode == .reef) && s.reefRun n)

/-- PERIOD of timer n. -/
def State.timerPeriod (s : State) (n : Nat) : Nat := s.wide (F.TMR_PERIOD_LO n) % 2 ^ 48

/-- Store FROZEN and start its growth afresh. -/
def State.zeroFrozen (s : State) (n : Nat) : State :=
  let t := s.setWide (F.TMR_FROZEN_LO n) 0
  { t with frozenSince := Table.put (fun _ => none) t.frozenSince n none }

/-- RESET (R189): an IDLE timer becomes STOPPED. -/
def State.timerReset (s : State) (n : Nat) : State :=
  let t := ((s.zeroFrozen n).setWide (F.TMR_ORIGIN_LO n) s.now).clear (F.TMR_STATUS_MATCHED n)
  (if s.fld (F.TMR_STATUS_STATE n) = 0 then t.setFld (F.TMR_STATUS_STATE n) 2 else t).settleTimer n

/-- START (R190): an IDLE timer is reset first. -/
def State.timerStart (s : State) (n : Nat) : State :=
  let t := if s.fld (F.TMR_STATUS_STATE n) = 0 then s.timerReset n else s.settleTimer n
  (t.setFld (F.TMR_STATUS_STATE n) 1).settleTimer n

/-- STOP (R191): a RUNNING timer becomes STOPPED. -/
def State.timerStop (s : State) (n : Nat) : State :=
  if timerRuns s n then ((s.settleTimer n).setFld (F.TMR_STATUS_STATE n) 2).settleTimer n else s

/-- Commands that reach a timer together (R192): resets first, then STOP over START. -/
def State.timerCommand (s : State) (n : Nat) (reset stop start : Bool) : State :=
  let t := if reset then s.timerReset n else s
  if stop then (if start then t.timerStart n else t).timerStop n else if start then t.timerStart n else t

/-! ### Actions -/

/-- A match, overflow or compare fire whose actions are to be performed: its action word, the timer that is its owner, the edge instant, the
pulse width and the event word. -/
structure Fire where
  word : Nat
  self : Option Nat
  edge : Nat
  width : Nat
  event : Dword
  deriving DecidableEq, Repr

/-- Timer n was changed at this beat: it is next evaluated at the following one (R199, R235). -/
def State.markActed (s : State) (n : Nat) : State := { s with win := { s.win with acted := n :: s.win.acted } }

/-- The target of timer n moved within this beat (R182). -/
def State.markMoved (s : State) (n : Nat) : State := { s with win := { s.win with moved := n :: s.win.moved } }

/-- A RESET (1), START (2) or STOP (3) that an action gives timer n (R192, R199, R210): a STOP of this beat outlasts a START.  In Hoist and in
Reef it reaches a timer with REEF_RUN only. -/
def State.linkAct (s : State) (n op : Nat) : State :=
  if op = 0 ∨ !(s.inSail || s.reefRun n) then s
  else
    let t := s.timerCommand n (op == 1) (op == 3 || s.win.stops.contains n) (op == 2)
    let t := if op = 3 then { t with win := { t.win with stops := n :: t.win.stops } } else t
    if op = 1 ∨ t.fld (F.TMR_STATUS_STATE n) ≠ s.fld (F.TMR_STATUS_STATE n) then (t.markActed n).markMoved n else t

/-- Open (1), close (2) or toggle (3) capture window u by an action: at one beat a close wins, then an open (R238). -/
def State.windowAct (s : State) (u op : Nat) : State :=
  if op = 1 then
    if s.win.capClosed.contains u then s
    else { s.raise (F.CAP_STATUS_WIN_OPEN u) with win := { s.win with capOpened := u :: s.win.capOpened } }
  else if op = 2 then { s.clear (F.CAP_STATUS_WIN_OPEN u) with win := { s.win with capClosed := u :: s.win.capClosed } }
  else if op = 3 ∧ !(s.win.capClosed.contains u || s.win.capOpened.contains u) then
    s.setBit (F.CAP_STATUS_WIN_OPEN u) (!s.bit (F.CAP_STATUS_WIN_OPEN u))
  else s

/-- The timer parts of an action: on its owner and on the linked timer. -/
def State.actTimers (s : State) (f : Fire) : State :=
  let t := match f.self with
    | some n => s.linkAct n (bits f.word 1 0)
    | none => s
  t.linkAct (bits f.word 9 4) (bits f.word 3 2)

/-- The event part. -/
def State.actEvent (s : State) (f : Fire) : State := if bits f.word 10 10 = 1 then s.teqSend (bits f.word 12 11) f.event else s

/-- The sheet part. -/
def State.actSheet (s : State) (f : Fire) : State := s.sheetAct (bits f.word 22 15) (bits f.word 14 13) f.edge f.width

/-- The capture window part. -/
def State.actWindow (s : State) (f : Fire) : State := s.windowAct (bits f.word 30 25) (bits f.word 24 23)

/-- Put an action among others by its edge instant, counted from the beat before. -/
def insertFire (base : Nat) (f : Fire) : List Fire → List Fire
  | [] => [f]
  | g :: gs => if ahead f.edge base < ahead g.edge base then f :: g :: gs else g :: insertFire base f gs

/-- Actions in the order of their edge instants. -/
def byEdge (base : Nat) (fs : List Fire) : List Fire := fs.foldr (insertFire base) []

/-- Perform the actions of one beat together (R192, R198, R200, R210, R238): the timers, the events in the order given, the pins in the order of
the edge instants, the capture windows.  Outside Sail only the timer parts are performed. -/
def State.applyFires (s : State) (fs : List Fire) : State :=
  let t := fs.foldl State.actTimers s
  if !s.inSail then t
  else
    let t := fs.foldl State.actEvent t
    let t := (byEdge t.launchBase fs).foldl State.actSheet t
    fs.foldl State.actWindow t

/-! ### Compare channels -/

def noCmp : Nat → CmpUnit := fun _ => {}

/-- What compare channel n holds. -/
def State.cmpOf (s : State) (n : Nat) : CmpUnit := Table.get noCmp s.cmp n

/-- Arm a channel with a value at the present beat (R176); in Hoist nothing is armed (R175).  The ACTIVE of a pair counts it in
ARM_SEQ (spec/16_stay.md R829). -/
def State.armCompare (s : State) (n v : Nat) : State :=
  let t := s.setWide (F.CMP_VAL_LO n) v
  let u := s.cmpOf n
  let seq := if s.fld F.STY_STATUS_ROLE = 2 then (u.armSeq + 1) % 256 else u.armSeq
  if s.inSail then
    { (t.raise (F.CMP_STATUS_ARMED n)) with cmp := Table.put noCmp t.cmp n { u with commitAt := s.now, loaded := false, armSeq := seq } }
  else t

/-- An event line's trigger arms a channel (R184); in a window in which software committed VAL it is discarded without a mark (R232). -/
def State.eventArm (s : State) (n stamp : Nat) : State :=
  if s.win.committed.contains n then s
  else if s.bit (F.CMP_STATUS_ARMED n) && !s.bit (F.CMP_CTRL_RETRIG n) then
    let t := s.raise (F.CMP_STATUS_EV_DROP n)
    if s.bit (F.CMP_STATUS_EV_DROP n) || !s.beatRuns then t else { t with win := { t.win with dropped := n :: t.win.dropped } }
  else s.armCompare n ((stamp + s.fld (F.CMP_DELAY_DELAY n)) % 2 ^ 64)

/-- Channel n reaches its value at a beat after its commit (R175-R177). -/
def State.compareDue (s : State) (n : Nat) : Bool :=
  s.inSail && s.bit (F.CMP_STATUS_ARMED n) && (s.cmpOf n).commitAt != s.now && atOrAfter s.now (s.wide (F.CMP_VAL_LO n))

/-- VAL lies after the Mast at the commit. -/
def State.compareAhead (s : State) (n : Nat) : Bool := !atOrAfter (s.cmpOf n).commitAt (s.wide (F.CMP_VAL_LO n))

/-- An applied step passed VAL (R240). -/
def State.compareStepped (s : State) (n : Nat) : Bool := s.compareAhead n && s.steppedOver (s.wide (F.CMP_VAL_LO n))

/-- The fire of VAL is LATE (R178). -/
def State.compareLate (s : State) (n : Nat) : Bool := !s.compareAhead n && s.wide (F.CMP_VAL_LO n) != (s.cmpOf n).commitAt

/-- The lag of a fire at this beat (R179). -/
def State.compareLag (s : State) (n : Nat) : Nat := min 65535 (ahead s.now (s.wide (F.CMP_VAL_LO n)))

/-- The actions of channel n's fire (R180, R181, R240). -/
def State.compareFire (s : State) (n : Nat) : Fire :=
  let v := s.wide (F.CMP_VAL_LO n)
  { word := (s.reg (F.CMP_ACT n)).toNat, self := none,
    edge := if s.compareAhead n && !s.compareStepped n then v else s.now,
    width := s.fld (F.CMP_CTRL_PULSE_W n),
    event := eventWord 1 (s.compareLate n) (s.compareStepped n) n (if s.compareLate n then s.now else v) }

/-- The fire of a channel in its registers (R177-R179, R240). -/
def State.fireCompare (s : State) (n : Nat) : State :=
  let d := n * 2 ^ 16 + s.compareLag n
  let t := ((s.clear (F.CMP_STATUS_ARMED n)).setBit (F.CMP_STATUS_LATE n) (s.compareLate n)).setBit (F.CMP_STATUS_STEPPED n) (s.compareStepped n)
  let t := (t.setFld (F.CMP_STATUS_LAG n) (s.compareLag n)).setWide (F.CMP_FIRED_LO n) s.now
  let t := t.pendBit (F.CMP_PEND 0) n
  if s.compareStepped n then t.log 0x0602 d else if s.compareLate n && s.bit (F.CMP_CTRL_LOG_LATE n) then t.log 0x0601 d else t

/-- Channel n is evaluated alone: it fires when it is due. -/
def State.evalCompare (s : State) (n : Nat) : State :=
  if s.compareDue n then (s.fireCompare n).applyFires [s.compareFire n] else s

/-- A channel reaches its value at a beat after its commit (R176, R177). -/
def execCompareFire (n : Fin 256) (s : State) : Out := .next (s.evalCompare n)

/-- Software commits VAL: a fire that is due at this beat completes first (R230), and an event arm of the same window gives way (R232). -/
def State.commitCompare (s : State) (n v : Nat) : State :=
  let t := s.evalCompare n
  let t := if t.win.dropped.contains n then t.clear (F.CMP_STATUS_EV_DROP n) else t
  let t := t.armCompare n v
  if t.beatRuns then { t with win := { t.win with committed := n :: t.win.committed } } else t

/-- CMPn_VAL_LO commits and arms (R176, R230, R232). -/
def execCmpValCommit (p : Path) (n : Fin 256) (lo : Word) (s : State) : Out :=
  let (v, t) := s.commitWide p (F.CMP_VAL_LO n) lo
  whenOpen s (s.mirrorGuard (s.mirrorUnit 3 n || s.wideMirrored (F.CMP_VAL_LO n)) (F.CMP_VAL_LO n) (t.commitCompare n v))

/-! ### Timers -/

/-- A wake of the device by timer n, in Reef or while the Reef entry sequence runs (R211, spec/01_architecture.md R47). -/
def State.timerWake (s : State) (n : Nat) : State :=
  if s.dev.mode == .reef || s.bit F.MODE_STATUS_REEFING then
    { (s.raiseBit F.TMR_REEF_WAKE n) with pwr := { s.pwr with wakeTmr := true } }
  else s

/-- The target instant ORIGIN + FROZEN + x. -/
def State.timerTarget (s : State) (n x : Nat) : Nat := (s.wide (F.TMR_ORIGIN_LO n) + s.timerFrozenQn n + x) % 2 ^ 64

/-- The pin edge of a timer's action: its target, or the present beat when a step, a freeze or an action moved the target within the beat before
(R182). -/
def State.timerEdge (s : State) (n target : Nat) : Nat :=
  if s.win.stepped || s.win.moved.contains n || s.win.movedWas.contains n then s.now else target

/-- Timer n is evaluated now: running, not frozen, not PENDING. -/
def State.timerCounts (s : State) (n : Nat) : Bool :=
  s.timerLives n && timerRuns s n && !s.timerFrozen n && !s.timerPending n

/-- A running timer reaches PERIOD (R193). -/
def State.overflowDue (s : State) (n : Nat) : Bool :=
  s.timerCounts n && decide (0 < s.timerPeriod n ∧ s.timerPeriod n ≤ s.timerValue n)

/-- The actions of an overflow (R182, R193). -/
def State.overflowFire (s : State) (n : Nat) : Fire :=
  let target := s.timerTarget n (s.timerPeriod n)
  { word := (s.reg (F.TMR_OACT n)).toNat, self := some n, edge := s.timerEdge n target, width := s.fld (F.TMR_CTRL_PULSE_W n),
    event := eventWord 3 false false n target }

/-- A timer overflows (R193, R194, R211). -/
def State.overflowTimer (s : State) (n : Nat) : State :=
  let per := s.timerPeriod n
  let k := s.timerValue n / per
  let t := (s.setWide (F.TMR_ORIGIN_LO n) ((s.wide (F.TMR_ORIGIN_LO n) + k * per) % 2 ^ 64)).clear (F.TMR_STATUS_MATCHED n)
  let t := if 1 < k then (t.countSat (F.TMR_MISSED n) (k - 1)).log 0x0603 (n * 2 ^ 16 + min 65535 (k - 1)) else t
  let t := if s.powered then t.pendBit (F.TMR_OPEND 0) n else t
  let t := { t with win := { t.win with overflowed := n :: t.win.overflowed } }
  if s.bit (F.TMR_CTRL_REEF_WAKE_O n) && decide (n < 8) then t.timerWake n else t

/-- An overflow's own actions change its timer: its match is then evaluated at the following beat (R196, R199). -/
def State.overflowHalts (s : State) (n : Nat) : Bool :=
  let w := (s.reg (F.TMR_OACT n)).toNat
  let stops := fun op => op == 1 || op == 3
  stops (bits w 1 0) || (bits w 9 4 == n && stops (bits w 3 2))

/-- A running timer reaches MATCH with MATCHED clear (R195, R196); a MATCH of 0 matches one beat after its period begins (R197). -/
def State.matchDue (s : State) (n : Nat) : Bool :=
  let m := s.wide (F.TMR_MATCH_LO n) % 2 ^ 48
  s.timerCounts n && !s.bit (F.TMR_STATUS_MATCHED n) && decide (m ≤ s.timerValue n)
    && (m != 0 || decide (ahead s.now s.launchBase ≤ s.timerValue n)) && !(s.win.overflowed.contains n && s.overflowHalts n)

/-- The actions of a match (R182, R195). -/
def State.matchFire (s : State) (n : Nat) : Fire :=
  let target := s.timerTarget n (s.wide (F.TMR_MATCH_LO n) % 2 ^ 48)
  { word := (s.reg (F.TMR_MACT n)).toNat, self := some n, edge := s.timerEdge n target, width := s.fld (F.TMR_CTRL_PULSE_W n),
    event := eventWord 2 false false n target }

/-- A timer matches (R195, R211). -/
def State.matchTimer (s : State) (n : Nat) : State :=
  let t := s.raise (F.TMR_STATUS_MATCHED n)
  let t := if s.powered then t.pendBit (F.TMR_MPEND 0) n else t
  if s.bit (F.TMR_CTRL_REEF_WAKE_M n) && decide (n < 8) then t.timerWake n else t

/-- Timer n has not been evaluated at this beat, and nothing has changed it at it (R174, R199). -/
def State.timerFresh (s : State) (n : Nat) : Bool := !s.win.evaluated && !s.win.acted.contains n

/-- Timer n alone overflows when it is due. -/
def State.evalOverflow (s : State) (n : Nat) : State :=
  if s.timerFresh n && !s.win.overflowed.contains n && s.overflowDue n then (s.overflowTimer n).applyFires [s.overflowFire n] else s

/-- Timer n is evaluated alone: its overflow and that one's actions, then its match (R196). -/
def State.evalTimer (s : State) (n : Nat) : State :=
  let t := s.evalOverflow n
  if t.timerFresh n && t.matchDue n then ((t.matchTimer n).markActed n).applyFires [t.matchFire n] else t

/-- A running timer reaches PERIOD (R193). -/
def execTimerOverflow (n : Fin 64) (s : State) : Out := .next (s.evalOverflow n)

/-- A running timer reaches MATCH with MATCHED clear (R195); an overflow due at the same beat comes first (R196). -/
def execTimerMatch (n : Fin 64) (s : State) : Out := .next (s.evalTimer n)

/-- The state after a command of software to timer n: an evaluation that is due at this beat comes first (R234, R235), and the timer is next
evaluated at the following beat.  A declared timer of a STANDBY refuses the command (spec/16_stay.md R827), and in Hoist one without
REEF_RUN ignores it and logs (R213). -/
def State.timerSoftware (s : State) (n : Nat) (f : State → State) : State :=
  if s.mirrorUnit 2 n then s.mirrorRefused (F.TMR_CMD n)
  else if s.inHoist && !s.reefRun n then s.log 0x0607 (n * 2 ^ 16) else (f (s.evalTimer n)).markActed n

/-- Bits of TMRn_CMD act together (R192), a STOP that an action gave the timer at this beat with them (R233).  A stop or a start is the begin or the end
of a freeze (R182). -/
def State.timerOrder (s : State) (n : Nat) (reset stop start : Bool) : State :=
  s.timerSoftware n fun s =>
    let t := s.timerCommand n reset (stop || s.win.stops.contains n) start
    if t.fld (F.TMR_STATUS_STATE n) = s.fld (F.TMR_STATUS_STATE n) then t else t.markMoved n

/-- Timers that a halt of the supervisor freezes or frees (R205): the freeze moves their targets (R182). -/
def State.settleHalted (s : State) : State :=
  (List.range 64).foldl (fun t n =>
    if timerRuns t n && t.bit (F.TMR_CTRL_FRZ_ON_HALT n) then (t.settleTimer n).markMoved n else t) s

/-! ### One beat -/

/-- The numbers of units whose STATUS registers, at an offset in sets of a stride from a base, have a bit set that marks the unit as live. -/
def State.liveUnits (s : State) (base stop stride ofs : Nat) (live : Nat → Bool) : List Nat :=
  s.regs.filterMap fun e =>
    if base ≤ e.1 ∧ e.1 < stop ∧ (e.1 - base) % stride = ofs ∧ live e.2.toNat then some ((e.1 - base) / stride) else none

/-- Timers that run. -/
def State.runningTimers (s : State) : List Nat := s.liveUnits 0x51000 0x52000 64 0x38 fun w => w % 4 == 1

/-- Compare channels that are armed. -/
def State.armedCompares (s : State) : List Nat := s.liveUnits 0x52000 0x54000 32 0x14 fun w => w % 2 == 1

/-- Compare channels fire, and their actions apply together (R198). -/
def State.fireCompares (s : State) (cs : List Nat) : State := (cs.foldl State.fireCompare s).applyFires (cs.map s.compareFire)

/-- The timers that match at this beat, once the overflows have taken effect: only those whose registers stood as at the start of the beat
or have overflowed (R196, R198). -/
def State.matchesNow (s : State) (ns : List Nat) : List Nat := ns.filter s.matchDue

/-- Every timer and compare channel is evaluated at this beat, on the state at its start, and all their actions apply together (R174, R198):
compares, overflows, matches, each in ascending index (R226). -/
def State.evalBeat (s : State) : State :=
  let cs := s.armedCompares.filter s.compareDue
  let os := s.runningTimers.filter s.overflowDue
  let cf := cs.map s.compareFire
  let ofs := os.map s.overflowFire
  let t := os.foldl State.overflowTimer (cs.foldl State.fireCompare s)
  let ms := t.matchesNow t.runningTimers
  let mf := ms.map t.matchFire
  let t := ms.foldl State.matchTimer t
  let t := t.applyFires (cf ++ ofs ++ mf)
  { t with win := { t.win with evaluated := true } }

/-! ### Timer commands -/

/-- TMRn_CMD.START (R190, R213). -/
def execTimerStart (n : Fin 64) (s : State) : Out := whenOpen s (s.timerOrder n false false true)

/-- TMRn_CMD.STOP (R191, R213). -/
def execTimerStop (n : Fin 64) (s : State) : Out := whenOpen s (s.timerOrder n false true false)

/-- TMRn_CMD.RESET (R189, R213). -/
def execTimerReset (n : Fin 64) (s : State) : Out := whenOpen s (s.timerOrder n true false false)

/-- TMRn_ORIGIN_LO commits the origin, after an overflow that is due at this beat (R235). -/
def execTimerOriginCommit (p : Path) (n : Fin 64) (lo : Word) (s : State) : Out :=
  let (v, t) := s.commitWide p (F.TMR_ORIGIN_LO n) lo
  whenOpen s (s.mirrorGuard (s.mirrorUnit 2 n || s.wideMirrored (F.TMR_ORIGIN_LO n)) (F.TMR_ORIGIN_LO n)
    (((t.evalTimer n).setWide (F.TMR_ORIGIN_LO n) v).markActed n))

/-- TMRn_PERIOD_LO commits the period, after an overflow that is due at this beat (R235); 1 to 39 qn become 40 (R197). -/
def execTimerPeriodWrite (p : Path) (n : Fin 64) (lo : Word) (s : State) : Out :=
  let (v, t) := s.commitWide p (F.TMR_PERIOD_LO n) lo
  let v := v % 2 ^ 48
  let t := (t.evalTimer n).markActed n
  whenOpen s (if s.mirrorUnit 2 n || s.wideMirrored (F.TMR_PERIOD_LO n) then s.mirrorRefused (F.TMR_PERIOD_LO n)
    else if 1 ≤ v ∧ v ≤ 39 then (t.setWide (F.TMR_PERIOD_LO n) 40).log 0x0608 (n.val * 2 ^ 16)
    else t.setWide (F.TMR_PERIOD_LO n) v)

/-- The timers that GSTART_MASK selects. -/
def State.gstartSet (s : State) : List Nat := (List.range 64).filter fun n => s.bit ⟨F.GSTART_MASK 0 + 4 * (n / 32), n % 32, 1⟩

/-- Release one timer with an origin (R202, R236). -/
def State.gstartOne (s : State) (origin n : Nat) : State :=
  let t := ((s.zeroFrozen n).setWide (F.TMR_ORIGIN_LO n) origin).clear (F.TMR_STATUS_MATCHED n)
  (t.setFld (F.TMR_STATUS_STATE n) 1).settleTimer n

/-- Release the selected timers with one origin (R202, R203, R213). -/
def State.gstart (s : State) (origin : Nat) : State :=
  s.gstartSet.foldl (fun t n => t.timerSoftware n fun u => u.gstartOne origin n) s

/-- GSTART_GO.NOW (R202). -/
def execGstartNow (s : State) : Out := whenOpen s (s.gstart s.now)

/-- GSTART_GO.AT (R203). -/
def execGstartAt (s : State) : Out := whenOpen s (s.gstart (s.wide F.GSTART_AT_LO))

/-! ### Capture units -/

def noCap : Nat → CapUnit := fun _ => {}

/-- What capture unit n holds. -/
def State.capOf (s : State) (n : Nat) : CapUnit := Table.get noCap s.cap n

/-- Store it. -/
def State.setCap (s : State) (n : Nat) (u : CapUnit) : State := { s with cap := Table.put noCap s.cap n u }

/-- Whether unit n's source gives edges (source table, R215, R920). -/
def State.capSees (s : State) (n : Nat) : Bool :=
  let src := s.fld (F.CAP_CTRL_SRC n)
  s.inSail && decide (src < 0x113) && !(decide (src < 256) && s.lvdsOdd src)
    && !(decide (256 ≤ src ∧ src < 272) && !s.bit (F.EV_CFG_EN (src - 256)))

/-- A stamp in fine steps, less COMP (R214). -/
def State.capStamp (s : State) (n fine : Nat) : Nat :=
  unsigned 67 ((s.now * 8 + fine : Nat) - signed 8 (s.fld (F.CAP_CTRL_COMP n)))

/-- The fields that an edge of unit n may change, as they stand. -/
def State.capFields (s : State) (fs : List Fld) : List (Fld × Nat) := fs.map fun f => (f, s.fld f)

/-- What a leading edge publishes. -/
def leadFields (n : Nat) : List Fld :=
  [⟨F.CAP_RISE_LO n, 0, 32⟩, ⟨F.CAP_RISE_HI n, 0, 32⟩, ⟨F.CAP_PERIOD_LO n, 0, 32⟩, ⟨F.CAP_PERIOD_HI n, 0, 32⟩, F.CAP_FINE_RISE_FINE n,
    F.CAP_STATUS_PERIOD_VALID n, F.CAP_STATUS_STEPPED n, F.CAP_STATUS_FALL_PEND n]

/-- What a trailing edge publishes. -/
def trailFields (n : Nat) : List Fld :=
  [⟨F.CAP_FALL_LO n, 0, 32⟩, ⟨F.CAP_FALL_HI n, 0, 32⟩, ⟨F.CAP_WIDTH_LO n, 0, 32⟩, ⟨F.CAP_WIDTH_HI n, 0, 32⟩, F.CAP_FINE_FALL_FINE n,
    F.CAP_STATUS_STEPPED n, F.CAP_STATUS_FALL_PEND n]

/-- Flags that an edge may set: taken back only if the edge set them and nothing has cleared them since. -/
def capFlags (n : Nat) : List Fld := [F.CAP_STATUS_UNREAD n, F.CAP_STATUS_OVR n, ⟨F.CAP_PEND 0 + 4 * (n / 32), n % 32, 1⟩]

/-- Take back what the last edge of unit n did (R220): the fields it published, the flags it set, and its event. -/
def State.undoEdge (s : State) (n : Nat) : State :=
  let u := s.capOf n
  let t := u.undo.foldl (fun t p => if (capFlags n).contains p.1 && p.2 != 0 then t else t.setFld p.1 p.2) s
  match u.sent with
  | some w => t.teqRetract (s.fld (F.CAP_CTRL_FABQ n)) w
  | none => t

/-- The first overrun after a read is logged once its edge has proved no glitch (R229). -/
def State.logOverrun (s : State) (n : Nat) : State :=
  if (s.capOf n).owed then
    (s.setCap n { s.capOf n with owed := false }).logOnce (F.CAP_OVR_CNT n) 0x0605 (n * 2 ^ 16 + s.fld (F.CAP_CTRL_OVR_KEEP n))
  else s

/-- GLITCH and its code (R220). -/
def State.capGlitch (s : State) (n : Nat) : State := (s.raise (F.CAP_STATUS_GLITCH n)).log 0x0606 (n * 2 ^ 16)

/-- An accepted leading edge is published (R216, R222). -/
def State.publishRise (s : State) (n at_ : Nat) (prev : Option (Nat × Nat)) : State :=
  let t := (s.setWide (F.CAP_RISE_LO n) (at_ / 8)).setFld (F.CAP_FINE_RISE_FINE n) at_
  let t := match prev with
    | some (p, _) => (t.setWide (F.CAP_PERIOD_LO n) ((at_ + 2 ^ 67 - p) % 2 ^ 67)).raise (F.CAP_STATUS_PERIOD_VALID n)
    | none => t
  let t := t.setBit (F.CAP_STATUS_STEPPED n) (match prev with | some (_, k) => k != s.mast.steps | none => false)
  ((t.raise (F.CAP_STATUS_FALL_PEND n)).raise (F.CAP_STATUS_UNREAD n)).pendBit (F.CAP_PEND 0) n

/-- A leading edge of unit n that no trailing edge closely precedes (R214-R219, R221, R222, R229). -/
def State.leadingEdge (s : State) (n at_ : Nat) : State :=
  let s := s.logOverrun n
  let u := s.capOf n
  let undo := s.capFields (leadFields n ++ capFlags n)
  let unread := s.bit (F.CAP_STATUS_UNREAD n)
  let base : CapUnit := { lead := some (at_, s.mast.steps), before := u.lead, high := true, undo := undo, owed := unread }
  let t := if unread then (s.raise (F.CAP_STATUS_OVR n)).countSat (F.CAP_OVR_CNT n) 1 else s
  if (s.bit (F.CAP_CTRL_GATED n) && !s.bit (F.CAP_STATUS_WIN_OPEN n)) || (unread && !s.bit (F.CAP_CTRL_OVR_KEEP n)) then t.setCap n base
  else
    let t := t.publishRise n at_ u.lead
    let w := eventWord 4 false (t.bit (F.CAP_STATUS_STEPPED n)) n (at_ / 8)
    if s.bit (F.CAP_CTRL_FAB n) then
      (t.teqCapture (s.fld (F.CAP_CTRL_FABQ n)) n w).setCap n { base with taken := true, sent := some w }
    else t.setCap n { base with taken := true }

/-- A leading edge at unit n; less than 8 qn after a trailing edge both are discarded (R220), and the pulse goes on. -/
def execCaptureLeadingEdge (n : Fin 64) (fine : Fin 40) (s : State) : Out :=
  if !s.capSees n then .next s
  else
    let u := s.capOf n
    let at_ := s.capStamp n fine
    match u.trail with
    | some (was, taken) =>
      if (at_ + 2 ^ 67 - was) % 2 ^ 67 < 64 then
        .next (((s.undoEdge n).setCap n { u with high := true, taken := taken, undo := [], sent := none, trail := none }).capGlitch n)
      else .next (s.leadingEdge n at_)
    | none => .next (s.leadingEdge n at_)

/-- A trailing edge of an accepted pulse is published (R217, R222). -/
def State.publishFall (s : State) (n at_ lead steps : Nat) : State :=
  let t := (s.setWide (F.CAP_FALL_LO n) (at_ / 8)).setFld (F.CAP_FINE_FALL_FINE n) at_
  let t := (t.setWide (F.CAP_WIDTH_LO n) ((at_ + 2 ^ 67 - lead) % 2 ^ 67)).clear (F.CAP_STATUS_FALL_PEND n)
  if steps = s.mast.steps then t else t.raise (F.CAP_STATUS_STEPPED n)

/-- A trailing edge of unit n that is no glitch (R217). -/
def State.trailingEdge (s : State) (n at_ lead steps : Nat) : State :=
  let s := s.logOverrun n
  let u := s.capOf n
  let base : CapUnit := { u with high := false, taken := false, undo := [], sent := none, trail := some (at_, u.taken) }
  if u.taken then
    let undo := s.capFields (trailFields n)
    let t := s.publishFall n at_ lead steps
    let w := eventWord 5 false (t.bit (F.CAP_STATUS_STEPPED n)) n (at_ / 8)
    if s.bit (F.CAP_CTRL_FAB_TRAIL n) then
      (t.teqCapture (s.fld (F.CAP_CTRL_FABQ n)) n w).setCap n { base with undo := undo, sent := some w }
    else t.setCap n { base with undo := undo }
  else s.setCap n base

/-- An overrun that a glitch counted is taken off again, unless a read has cleared the count since (R220). -/
def State.uncountOverrun (s : State) (n : Nat) : State :=
  if (s.capOf n).owed && s.fld ⟨F.CAP_OVR_CNT n, 0, 32⟩ != 0 then s.setFld ⟨F.CAP_OVR_CNT n, 0, 32⟩ (s.fld ⟨F.CAP_OVR_CNT n, 0, 32⟩ - 1) else s

/-- A trailing edge at unit n (R217); less than 8 qn after its leading edge both are discarded, and that edge does not count toward PERIOD
(R219, R220). -/
def execCaptureTrailingEdge (n : Fin 64) (fine : Fin 40) (s : State) : Out :=
  let u := s.capOf n
  match s.capSees n && u.high, u.lead with
  | true, some (lead, steps) =>
    let at_ := s.capStamp n fine
    if (at_ + 2 ^ 67 - lead) % 2 ^ 67 < 64 then
      .next ((((s.undoEdge n).uncountOverrun n).setCap n { lead := u.before }).capGlitch n)
    else .next (s.trailingEdge n at_ lead steps)
  | _, _ => .next s

/-- What a beat does to the capture units: an overrun 8 qn old is no glitch's (R220, R229). -/
def State.capturesBeat (s : State) : State :=
  s.cap.foldl (fun t e => if e.2.owed && (match e.2.lead with | some (at_, _) => decide (64 ≤ (s.now * 8 + 2 ^ 67 - at_) % 2 ^ 67) | none => true)
    then t.logOverrun e.1 else t) s

/-- The words of a unit's capture set (R223). -/
def State.capSet (s : State) (n : Nat) : List Word :=
  (List.range 10).map fun i => s.reg (F.CAP_RISE_LO n + 4 * i)

/-- A read of CAPn_RISE_LO cleats the set and clears UNREAD (R223, R224). -/
def execCaptureRiseRead (p : Path) (n : Fin 64) (s : State) : Out :=
  let t := s.setPath p { s.path p with cleatTag := some (F.CAP_RISE_LO n), cleat := s.capSet n }
  whenOpen s { t.clear (F.CAP_STATUS_UNREAD n) with readData := s.reg (F.CAP_RISE_LO n) }

/-- CAPn_CMD.WIN_OPEN; capture units hold their reset state in Hoist (R175). -/
def execCaptureWinOpen (n : Fin 64) (s : State) : Out := .next (if s.inSail then s.raise (F.CAP_STATUS_WIN_OPEN n) else s)

/-- CAPn_CMD.WIN_CLOSE. -/
def execCaptureWinClose (n : Fin 64) (s : State) : Out := .next (if s.inSail then s.clear (F.CAP_STATUS_WIN_OPEN n) else s)

end Sys2Proof.Machine
end

