-- ==== Sys2Proof/Machine/Calibration.lean ====
section
/-! DEFINITION. The fine-delay calibration of the pin sheets and of PPS_OUT, and what a beat does to the sheets (spec/05_sheets.md). -/

namespace Sys2Proof.Machine

open Sys2Proof

/-- An instant lies within 8 qn of the present beat, before or after it. -/
def State.nearNow (s : State) (v : Nat) : Bool := decide (ahead (v + 8) s.now ≤ 16)

/-- An armed compare channel has a pin action on sheet i near (R255). -/
def State.compareNear (s : State) (i : Nat) : Bool :=
  s.armedCompares.any fun n =>
    let w := (s.reg (F.CMP_ACT n)).toNat
    bits w 22 15 == i && (bits w 14 13 == 1 || bits w 14 13 == 2) && s.nearNow (s.wide (F.CMP_VAL_LO n))

/-- A running timer has a pin action on sheet i near (R255). -/
def State.timerNear (s : State) (i : Nat) : Bool :=
  let hits := fun (w : Nat) => bits w 22 15 == i && (bits w 14 13 == 1 || bits w 14 13 == 2)
  s.runningTimers.any fun n =>
    (hits (s.reg (F.TMR_OACT n)).toNat && s.timerPeriod n != 0 && s.nearNow (s.timerTarget n (s.timerPeriod n)))
      || (hits (s.reg (F.TMR_MACT n)).toNat && s.nearNow (s.timerTarget n (s.wide (F.TMR_MATCH_LO n) % 2 ^ 48)))

/-- A rise of PPS_OUT lies near (spec/03_discipline_and_holdover.md R161). -/
def State.ppsNear (s : State) : Bool :=
  decide (((signed 32 (s.reg F.DSC_PPS_OUT_OFS).toNat - (s.now : Int) + 8) % 4000000000).toNat ≤ 16)

/-- A path has an edge scheduled within 8 qn (R255, R256): of a token, a pulse's end, an edge just placed or put ahead, a late value of the next
beat, an action of a compare channel or timer, or a pulse of PPS_OUT. -/
def State.edgeNear (s : State) (i : Nat) : Bool :=
  let u := s.sheetOf i
  (u.queue.any fun k => s.nearNow k.due) || u.pulseEnds.any s.nearNow || !u.placing.isEmpty || !u.emit.isEmpty
    || (match u.lastEdge with | some (e, _, _) => s.nearNow e | none => false)
    || (if i = 288 then s.ppsNear else s.compareNear i || s.timerNear i)

/-- The FD_CAL field of a path. -/
def calFld (i : Nat) : Fld := if i = 288 then F.SHT_PPSO_FD_FD_CAL else sheetFld i 0x0C 0 7

/-- The CAL_ERR field of a path. -/
def calErrFld (i : Nat) : Fld := if i = 288 then F.SHT_PPSO_FD_CAL_ERR else sheetFld i 0x0C 7 1

/-- Adopt a measured code: CAL_ERR starts again (log entry 22). -/
def State.adoptCal (s : State) (i code : Nat) : State := (s.setFld (calFld i) (min 127 code)).clear (calErrFld i)

/-- The paths that calibration measures: every enabled pin sheet, and PPS_OUT. -/
def State.calPaths (s : State) : List Nat := ((List.range 256).filter fun i => s.bit (sheetEn i)) ++ [288]

/-- Each path of a list with its measured code, in the order of the paths; a measure that the command does not give is open (log entry 1). -/
def State.measure7 (s : State) : List Nat → List Nat → List (Nat × Nat) × State
  | [], _ => ([], s)
  | i :: is, c :: cs => let (l, t) := s.measure7 is cs; ((i, c) :: l, t)
  | i :: is, [] => let (v, t) := s.open_; let (l, t) := t.measure7 is []; ((i, v % 128) :: l, t)

/-- Every path is measured (R254-R256). -/
def State.measured (s : State) (codes : List Nat) : List (Nat × Nat) × State := s.measure7 s.calPaths codes

/-- The measures of the clock-loop wait are adopted at once (R254). -/
def State.calibrate (s : State) (codes : List Nat) : State :=
  let (ps, t) := s.measured codes
  ps.foldl (fun t p => t.adoptCal p.1 p.2) t

/-- A path adopts its waiting code at a gap (R256). -/
def State.adoptAtGap (s : State) (i : Nat) : State :=
  match (s.sheetOf i).newCal with
  | some c => if s.edgeNear i then s else (s.setSheet i { s.sheetOf i with newCal := none }).adoptCal i c
  | none => s

/-- BUSY until every path has adopted its code (R256). -/
def State.calBusy (s : State) : State := s.setBit F.SHT_CAL_STATUS_BUSY (s.sheet.any fun e => e.2.newCal.isSome)

/-- RECAL: every path is measured again and adopts its code at its first gap (R256); ignored while BUSY. -/
def execSheetRecal (codes : List Nat) (s : State) : Out :=
  if s.bit F.SHT_CAL_STATUS_BUSY then .next s
  else
    let (ps, t) := s.measured codes
    whenOpen s (ps.foldl (fun t p => (t.setSheet p.1 { t.sheetOf p.1 with newCal := some p.2 }).adoptAtGap p.1) t).calBusy

/-- Move a path's code by at most one step toward a measure (R255). -/
def State.trackPath (s : State) (i code : Nat) : State :=
  let c := s.fld (calFld i)
  if s.edgeNear i || c = min 127 code then s
  else s.setFld (calFld i) (if c < min 127 code then c + 1 else c - 1)

/-- The once-per-second track in Sail (R255). -/
def execCalibrationTrack (codes : List Nat) (s : State) : Out :=
  .next (if s.inSail && s.bit F.SHT_CAL_CTRL_TRACK_EN then
      let (ps, t) := s.measured codes
      ps.foldl (fun t p => t.trackPath p.1 p.2) t
    else s)

/-- What a beat does to the sheets: releases, pulse ends and late values, and codes that wait for a gap. -/
def State.sheetsBeat (s : State) : State :=
  (s.sheet.foldl (fun t e => (t.sheetBeat e.1).adoptAtGap e.1) s).calBusy

end Sys2Proof.Machine
end

