-- ==== Sys2Proof/Machine/Pins.lean ====
section
/-! DEFINITION. The user pins and the event lines (spec/18_pins_and_event_lines.md). -/

namespace Sys2Proof.Machine

open Sys2Proof

/-! ### Pins -/

/-- What the device asks of a pin: a driven level, or none (R261, R272, R273, R277, R907, R911). -/
def State.pinWanted (s : State) (n : Nat) : Option Bool :=
  if s.lvdsOdd n then none
  else if s.bit (F.SHT_CFG_EN n) then
    let lvl := s.fld (F.SHT_STATUS_LEVEL n)
    if (s.bit (F.SHT_CFG_STBY_GATE n) && s.gatedSilent) || lvl = 2 then none else some (lvl == 1)
  else if s.bit ⟨F.GPIO_OE (n / 16), n % 16, 1⟩ && !(s.bit (F.GPIO_PIN_CFG_STBY_GATE n) && s.gatedSilent) then
    some (s.bit ⟨F.GPIO_OUT (n / 16), n % 16, 1⟩)
  else none

/-- What a user pin is driven at: none is high impedance.  The JTAG instructions EXTEST, CLAMP and HIGHZ take the pins
(spec/11_images_and_keys.md R601). -/
def State.pinDriven (s : State) (n : Nat) : Option Bool :=
  if s.jtag.ir = 0x005 then none
  else if s.jtag.ir = 0x003 ∨ s.jtag.ir = 0x004 then Config.boundaryDrives n s.jtag.boundary
  else if s.bankLive (n / 16) then s.pinWanted n else none

/-- What a pin's input buffer senses (R903, R905, R929): the driven level, else the level at the ball. -/
def State.pinSensed (s : State) (n : Nat) : Bool :=
  s.powered && (s.bankSupply (n / 16)).isSome && !s.lvdsOdd n
    && (match s.pinDriven n with | some v => v | none => s.bit ⟨F.GPIO_IN (n / 16), n % 16, 1⟩)

/-- The ball of pin n is at a level from outside. -/
def State.pinSees (s : State) (n : Nat) (level : Bool) : State := s.setBit ⟨F.GPIO_IN (n / 16), n % 16, 1⟩ level

/-- What holds an undriven pin: nothing, a resistor, or a keeper (GPIO_PINn_CFG.PULL). -/
inductive Pull where
  | none_ | up | down | keeper
  deriving DecidableEq, Repr

/-- The bank's fuse-set pull; weak pull-down until ROM boot has read the fuses (spec/10_hoist.md R476, R477). -/
def State.fusePull (s : State) (b : Nat) : Pull :=
  match s.fld ⟨F.HST_PULL_FUSE, 2 * b, 2⟩ with | 0 => .down | 1 => .up | 2 => .keeper | _ => .none_

/-- Pin n belongs to an LVDS pair (R904). -/
def State.inPair (s : State) (n : Nat) : Bool := s.bit (F.GPIO_PIN_CFG_LVDS (n / 2 * 2))

/-- A pin's level as driven: the odd pin of an LVDS pair carries the complement of the even one (R904). -/
def State.ballDriven (s : State) (n : Nat) : Option Bool := if s.lvdsOdd n then (s.pinDriven (n - 1)).map (!·) else s.pinDriven n

/-- The pull in effect on a pin (R900-R902, R904): none while it is driven; the bank's fuse-set pull before OUT, in an unused bank and while the
bank's supply is out of range; then that of GPIO_PINn_CFG, but off on an LVDS pair. -/
def State.pinPull (s : State) (n : Nat) : Pull :=
  if (s.ballDriven n).isSome then .none_
  else if !s.dev.outOn || (s.bankSupply (n / 16)).isNone || !s.bit ⟨F.GPIO_VIO_OK, n / 16, 1⟩ then s.fusePull (n / 16)
  else if s.inPair n then .none_
  else match s.fld (F.GPIO_PIN_CFG_PULL n) with | 1 => .up | 2 => .down | 3 => .keeper | _ => .none_

/-- The current in mA and the fast edge with which a pin is driven, while it is driven (R901); an LVDS pair has no DRIVE (R904). -/
def State.pinStrength (s : State) (n : Nat) : Option (Nat × Bool) :=
  if (s.ballDriven n).isSome && !s.inPair n then some (4 + 4 * s.fld (F.GPIO_PIN_CFG_DRIVE n), s.bit (F.GPIO_PIN_CFG_SLEW n)) else none

/-- The input buffer of a pin is a Schmitt input, at every instant (R901). -/
def State.pinSchmitt (s : State) (n : Nat) : Bool := s.bit (F.GPIO_PIN_CFG_HYST n)

/-- The 100 ohm termination across a pair is on (R906): with TERM while the pair is not driven, but not on an EXPOSED bank while the Reef entry
sequence runs (spec/17_power_and_reef.md R879). -/
def State.pinTerm (s : State) (n : Nat) : Bool :=
  s.powered && s.inPair n && s.bit (F.GPIO_PIN_CFG_TERM (n / 2 * 2)) && (s.pinDriven (n / 2 * 2)).isNone
    && !(s.bit F.MODE_STATUS_REEFING && s.bit ⟨F.PWR_EXPOSED, n / 16, 1⟩)

/-- One bank's check (R899): within 10 % of its declaration or not. -/
def State.vioCheckBank (s : State) (b mV : Nat) : State :=
  match s.bankSupply b with
  | none => s
  | some nom =>
    let ok := decide (10 * ((mV : Int) - nom).natAbs ≤ nom)
    let bad := s.vioBad / 2 ^ b % 2 == 1
    let t := s.setBit ⟨F.GPIO_VIO_OK, b, 1⟩ ok
    if ok then { t with vioBad := if bad then s.vioBad - 2 ^ b else s.vioBad }
    else if bad then t
    else { t.log 0x0F02 (b + min mV 65535 * 2 ^ 16) with vioBad := s.vioBad + 2 ^ b }

/-- The check of every bank (R899): the measured mV of banks 0 to 15 in order. -/
def State.vioCheckAll (s : State) (mV : List Nat) : State :=
  ((List.range 16).zip mV).foldl (fun t p => t.vioCheckBank p.1 p.2) s

/-- The bank check at the OUT stage and once per second in Sail. -/
def execVioCheck (mV : List Nat) (s : State) : Out :=
  .next (if s.inSail || (s.inHoist && s.dev.outOn) then s.vioCheckAll mV else s)

/-- Pins of a bank that a sheet owns, as a mask. -/
def State.sheetOwned (s : State) (b : Nat) : Nat :=
  ((List.range 16).map fun i => if s.bit (F.SHT_CFG_EN (16 * b + i)) then 2 ^ i else 0).sum

/-- A write of GPIO_Bb_OE (`oe`) or GPIO_Bb_OUT (R909, R910): static bits change, changed bits of sheet-owned pins are refused. -/
def execGpioStaticWrite (_p : Path) (oe : Bool) (b : Fin 16) (v : Word) (s : State) : Out :=
  let a := if oe then F.GPIO_OE b else F.GPIO_OUT b
  let owned : Word := BitVec.ofNat 32 (s.sheetOwned b)
  let old := s.reg a
  let (v, s) := s.mirrorMerge a v
  let refused := (old ^^^ v) &&& owned
  let t := s.setReg a (((old &&& owned) ||| (v &&& ~~~owned)) &&& 0xFFFF)
  whenOpen s (if refused = 0 then t else t.log 0x0F01 (b.val * 2 ^ 16 + refused.toNat))

/-! ### Event lines -/

def noLine : Nat → EventLine := fun _ => {}

/-- What line n holds. -/
def State.line (s : State) (n : Nat) : EventLine := Table.get noLine s.evline n

/-- Store it. -/
def State.setLine (s : State) (n : Nat) (e : EventLine) : State := { s with evline := Table.put noLine s.evline n e }

/-- The pin that line n watches. -/
def State.linePin (s : State) (n : Nat) : Nat := 16 * s.fld (F.EV_CFG_BANK n) + n

/-- Line n's level (R913): 0 while EN is 0. -/
def State.lineLevel (s : State) (n : Nat) : Bool := s.bit (F.EV_CFG_EN n) && s.pinSensed (s.linePin n)

/-- The active level of a level TRIG. -/
def activeLevel (trig : Nat) : Option Bool := if trig = 4 then some true else if trig = 5 then some false else none

/-- The channels a line arms. -/
def State.armedBy (s : State) (n : Nat) : List Nat :=
  (List.range 256).filter fun m => s.bit (F.CMP_CTRL_EVARM m) && s.fld (F.CMP_CTRL_EV m) == n

/-- The first discard of a token since EVL_OVR was cleared is logged once its edge has proved no half of a pair (R914, R918). -/
def State.logLine (s : State) (n : Nat) : State :=
  if (s.line n).owed then (s.setLine n { s.line n with owed := false }).log 0x0F03 n else s

/-- The fabric path of an edge trigger (R918). -/
def State.lineToken (s : State) (n : Nat) (level : Bool) : State :=
  if (s.portOf 9 n).isNone then s
  else match (s.line n).token with
    | none => s.setLine n { s.line n with token := some level }
    | some _ =>
      let first := !s.bit ⟨F.EVL_OVR, n, 1⟩
      (s.raise ⟨F.EVL_OVR, n, 1⟩).setLine n { s.line n with owed := first }

/-- A compare channel as it stands. -/
def State.armMark (s : State) (m : Nat) : CmpUnit × Nat × Bool × Bool :=
  (s.cmpOf m, s.wide (F.CMP_VAL_LO m), s.bit (F.CMP_STATUS_ARMED m), s.bit (F.CMP_STATUS_EV_DROP m))

/-- A compare channel returns to what it was, unless something has changed it since. -/
def State.disarm (s : State) (k : ArmMark) : State :=
  if s.armMark k.channel = k.after then
    let t := { s with cmp := Table.put noCmp s.cmp k.channel k.before.1 }
    let t := (t.setWide (F.CMP_VAL_LO k.channel) k.before.2.1).setBit (F.CMP_STATUS_ARMED k.channel) k.before.2.2.1
    t.setBit (F.CMP_STATUS_EV_DROP k.channel) k.before.2.2.2
  else s

/-- One trigger, of an edge with its stamp in qn (R916, R918; spec/04_timers_compares_captures.md R184). -/
def State.lineTrigger (s : State) (n stamp : Nat) (level edgeMode : Bool) : State :=
  let arms := s.armedBy n
  let undo := ([⟨F.EV_COUNT n, 0, 32⟩, ⟨F.EV_LAST_LO n, 0, 32⟩, ⟨F.EV_LAST_HI n, 0, 32⟩, ⟨F.EVL_PEND, n, 1⟩, ⟨F.EVL_OVR, n, 1⟩] : List Fld).map
    fun f => (f, s.fld f)
  let was := (s.line n).token
  let t := ((s.setWide (F.EV_LAST_LO n) stamp).countWrap (F.EV_COUNT n) 1).raise ⟨F.EVL_PEND, n, 1⟩
  let t := if edgeMode then t.lineToken n level else t
  let t := arms.foldl (fun t m => t.eventArm m stamp) t
  let marks := arms.map fun m => { channel := m, before := s.armMark m, after := t.armMark m }
  t.setLine n { t.line n with undo := undo, undoArms := marks, undoToken := some was }

/-- Take back a trigger whose edge turned out to be half of a pair less than 8 qn apart (R914): a flag that it set only if it was clear before, and
a channel that it armed only if nothing has changed it since. -/
def State.undoTrigger (s : State) (n : Nat) : State :=
  let e := s.line n
  let t := e.undo.foldl (fun t p => if p.1.width = 1 ∧ p.2 = 1 then t else t.setFld p.1 p.2) s
  let t := e.undoArms.foldl State.disarm t
  let tok := match e.undoToken with | some k => k | none => e.token
  t.setLine n { t.line n with undo := [], undoArms := [], undoToken := none, token := tok, owed := false }

/-- An edge at the pin that line n watches (R913-R916). -/
def execEventLineTrigger (n : Fin 16) (level : Bool) (fine : Fin 40) (s : State) : Out :=
  let s := if s.powered then s.pinSees (s.linePin n) level else s
  if !(s.inSail && s.bit (F.EV_CFG_EN n)) then .next s
  else
    let e := s.line n
    let at_ := s.now * 8 + fine.val
    let trig := s.fld (F.EV_CFG_TRIG n)
    let near := match e.lastEdge with | some x => decide (x ≤ at_ ∧ at_ < x + 64) | none => false
    let act := match activeLevel trig with | some a => level == a | none => false
    let t := s.setLine n { e with lastEdge := some at_, active := act }
    if near then .next (t.undoTrigger n)
    else
      let t := t.logLine n
      let t := t.setLine n { t.line n with undo := [], undoArms := [], undoToken := none }
      let fires := match trig with
        | 1 => level | 2 => !level | 3 => true
        | 4 => level && !e.active | 5 => !level && !e.active
        | _ => false
      .next (if fires then t.lineTrigger n (at_ / 8 % 2 ^ 64) level (decide (trig < 4)) else t)

/-- A write of EVn_CFG (R925, R927): an odd pin of an LVDS pair is refused; a change of pin or mode makes no trigger. -/
def execEvCfgWrite (_p : Path) (n : Fin 16) (v : Word) (s : State) : Out :=
  let bank := bits v.toNat 11 8
  if s.lvdsOdd (16 * bank + n) then whenOpen s (s.log 0x0F04 (n.val * 2 ^ 16 + v.toNat % 2 ^ 16))
  else
    let (v, s) := s.mirrorMerge (F.EV_CFG n) v
    let bank := bits v.toNat 11 8
    let trig := if 5 < bits v.toNat 4 2 then 0 else bits v.toNat 4 2
    let t := s.setReg (F.EV_CFG n) (BitVec.ofNat 32 (bank * 2 ^ 8 + trig * 4 + v.toNat % 2))
    let act := match activeLevel trig with | some a => t.lineLevel n == a && t.bit (F.EV_CFG_EN n) | none => false
    whenOpen s ((t.logLine n).setLine n { t.line n with active := act, lastEdge := none, undo := [], undoArms := [], undoToken := none })

/-- The last edge of line n is less than 8 qn old at the present beat: a second one may still discard it (R914). -/
def State.lineYoung (s : State) (n : Nat) : Bool :=
  match (s.line n).lastEdge with | some e => decide (e ≤ s.now * 8 + 39 ∧ s.now * 8 < e + 64) | none => false

/-- The token that line n offers the fabric (R918, R919): under an edge TRIG the one that it holds, once its edge has proved no half of a pair;
under a level TRIG at every handshake whether the line is active. -/
def State.lineOffers (s : State) (n : Nat) : Option Bool :=
  if (activeLevel (s.fld (F.EV_CFG_TRIG n))).isSome then
    (if s.inSail && s.bit (F.EV_CFG_EN n) then some (s.line n).active else none)
  else if (s.line n).undoToken.isSome && s.lineYoung n && (s.line n).undoToken != some (s.line n).token then none
  else (s.line n).token

/-- What a beat does to the event lines: an active level-triggered line sets its pending bit again (R917), and a discard is logged (R918). -/
def State.linesBeat (s : State) : State :=
  if s.inSail then s.evline.foldl (fun t e =>
    let t := if e.2.active && t.bit (F.EV_CFG_EN e.1) then t.raise ⟨F.EVL_PEND, e.1, 1⟩ else t
    if t.lineYoung e.1 then t else t.logLine e.1) s
  else s

end Sys2Proof.Machine
end

