-- ==== Sys2Proof/Machine/Lanes.lean ====
section
/-! DEFINITION. The eight network lanes (spec/14_network_lanes.md): their states, the receive path, the transmit sources and the
timestamp units. -/

namespace Sys2Proof.Machine

open Sys2Proof

/-- Store what lane k holds, with the head of its report queue (R728). -/
def State.setLane (s : State) (k : Nat) (u : LaneUnit) : State :=
  let t := { s with lane := Table.put noLane s.lane k u }
  let t := t.setBit (F.LN_STATUS_TXTS_V k) (!u.reports.isEmpty)
  match u.reports with
  | (st, info) :: _ => (t.setWide (F.LN_TXTS_LO k) st).setReg (F.LN_TXTS_INFO k) info
  | [] => (t.setWide (F.LN_TXTS_LO k) 0).setReg (F.LN_TXTS_INFO k) 0

/-- Log a lane code, with the ERR event. -/
def State.laneLog (s : State) (k code detail : Nat) : State := (s.log code detail).raise (F.LN_EVENT_ERR k)

/-- Log a lane code for the first time since the counter was read, with the ERR event. -/
def State.laneLogOnce (s : State) (k counter code detail : Nat) : State :=
  if s.isQuiet counter then s else (s.logOnce counter code detail).raise (F.LN_EVENT_ERR k)

/-- STATE codes: 0 OFF, 1 LOCKING, 2 NO_SIGNAL, 3 ALIGNING, 4 UP. -/
def State.laneState (s : State) (k : Nat) : Nat := s.fld (F.LN_STATUS_STATE k)

/-- Enter a state (R709); UP_CHG marks every entry into and exit from UP. -/
def State.setLaneState (s : State) (k st : Nat) : State :=
  let t := s.setFld (F.LN_STATUS_STATE k) st
  if (s.laneState k = 4) = (st = 4) then t else t.raise (F.LN_EVENT_UP_CHG k)

/-- The lane is declared (R708). -/
def State.laneDeclared (s : State) (k : Nat) : Bool := s.fld (F.LN_CFG_MODE k) != 0

/-- LOCKING to NO_SIGNAL (R709, spec/10_hoist.md R521). -/
def execLanePllLock (k : Fin 8) (s : State) : Out :=
  .next (if s.powered && s.laneState k == 1 then
    (((s.raise (F.LN_STATUS_PLL_LOCK k)).raise ⟨F.HST_PLL_STATUS, 1 + k, 1⟩).setLaneState k 2) else s)

/-- NO_SIGNAL to ALIGNING. -/
def execLaneCdrLock (k : Fin 8) (s : State) : Out :=
  .next (if s.powered && s.laneState k == 2 then (s.raise (F.LN_STATUS_CDR_LOCK k)).setLaneState k 3 else s)

/-- ALIGNING to UP (R710); FEC_LOCK shows where FEC is on. -/
def execLanePcsLock (k : Fin 8) (s : State) : Out :=
  .next (if s.powered && s.laneState k == 3 then
    ((s.raise (F.LN_STATUS_PCS_LOCK k)).setBit (F.LN_STATUS_FEC_LOCK k) (s.fld (F.LN_CFG_FEC k) != 0)).setLaneState k 4 else s)

/-- Clear the lock bits from PCS lock (0) up to CDR (1) and PLL lock (2): a lost lock takes the ones above it along
(DEDUCED, log entry 24). -/
def State.dropLocks (s : State) (k depth : Nat) : State :=
  let t := (s.clear (F.LN_STATUS_PCS_LOCK k)).clear (F.LN_STATUS_FEC_LOCK k)
  let t := if 1 ≤ depth then t.clear (F.LN_STATUS_CDR_LOCK k) else t
  if 2 ≤ depth then (t.clear (F.LN_STATUS_PLL_LOCK k)).clear ⟨F.HST_PLL_STATUS, 1 + k, 1⟩ else t

/-- A lock is lost (R709, R711). -/
def State.laneLoses (s : State) (k : Nat) (what : LaneLock) : State :=
  let st := s.laneState k
  let depth := match what with | .pcs => 0 | .cdr => 1 | .pll => 2
  let from_ := match what with | .pcs => 4 | .cdr => 3 | .pll => 2
  let after := match what with | .pcs => 3 | .cdr => 2 | .pll => 1
  if s.powered && decide (from_ ≤ st) then
    let t := (s.dropLocks k depth).setLaneState k after
    let t := if st = 4 then t.laneLog k 0x0B01 k else t
    if what = .pll then t.laneLog k 0x0B02 k else t
  else s

/-- LNk_CMD.UP (R709): a declared lane that is OFF begins to lock. -/
def execLaneUp (k : Fin 8) (s : State) : Out :=
  whenOpen s (if s.laneDeclared k && s.laneState k == 0 then s.setLaneState k 1 else s)

/-- Turn a lane OFF (R709): the frame being sent goes with it. -/
def State.laneOff (s : State) (k : Nat) : State :=
  ((s.dropLocks k 2).setLaneState k 0).setLane k { s.laneOf k with tx := none, until_ := none }

/-- Fault sequences are received or stop (R723). -/
def execLinkFaultSequence (k : Fin 8) (remote on : Bool) (s : State) : Out :=
  .next (if s.powered && decide (3 ≤ s.laneState k) then
    s.setBit (if remote then F.LN_STATUS_RX_RF k else F.LN_STATUS_RX_LF k) on else s)

/-! ### Receive path -/

/-- Octets in words of 8, octet 0 in bits [7:0]. -/
def octetWords : Nat → List Byte → List Dword
  | 0, _ => []
  | n + 1, bs => BitVec.ofNat 64 (leNat (bs.take 8)) :: octetWords n (bs.drop 8)

/-- A FIFO tag: VALID, SOP, EOP, ERR, BYTES and the PAR of the data. -/
def fifoTag (sop eop err : Bool) (bytes : Nat) (d : Dword) : Byte :=
  BitVec.ofNat 8 (0x80 + sop.toNat * 0x40 + eop.toNat * 0x20 + err.toNat * 0x10 + bytes % 8 * 2 + (parity64 d).toNat)

/-- A signed asymmetry in qn. -/
def State.asym (s : State) (a : Nat) : Int := signed 32 (s.reg a).toNat

/-- Write data words to a crossing (R715): whether every one found room; 96 and above name no crossing. -/
def State.writeWords (s : State) (n : Nat) : List Dword → Bool × State
  | [] => (true, s)
  | w :: ws =>
    if 96 ≤ n then (true, s) else
    let ok := s.xngHasRoom n
    let (ok', t) := (s.xngWrite n w).writeWords n ws
    (ok && ok', t)

/-- Write a word to a lane's descriptor crossing (R715, R729): whether it found room. -/
def State.writeDesc (s : State) (k : Nat) (w : Dword) : Bool × State :=
  let n := s.fld (F.LN_XNG_RX_RXD k)
  if 96 ≤ n then (true, s) else (s.xngHasRoom n, s.xngWrite n w)

/-- Deliver a frame to the crossings of lane k (R712, R715). -/
def State.rxToCrossing (s : State) (k : Nat) (bs : List Byte) (trunc perr : Bool) (stamp : Nat) : State :=
  let (ok, t) := s.writeWords (s.fld (F.LN_XNG_RX_RX k)) (octetWords ((bs.length + 7) / 8) bs)
  let d := 2 ^ 60 + (!ok).toNat * 2 ^ 56 + trunc.toNat * 2 ^ 55 + perr.toNat * 2 ^ 54 + bs.length % 2 ^ 14 * 2 ^ 40 + stamp % 2 ^ 40
  let (okd, t) := t.writeDesc k (BitVec.ofNat 64 d)
  if okd then t else (t.countSat (F.LN_RX_DLOST k) 1).laneLogOnce k (F.LN_RX_DLOST k) 0x0B03 k

/-- The FIFO engine that lane k's receive path produces for (R712). -/
def State.rxEngine (s : State) (k : Nat) : Option Nat :=
  (List.range 64).find? fun n => s.bit (F.FIFO_CFG_EN n) && s.fld (F.FIFO_CFG_PROD n) == 2 && s.fld (F.FIFO_CFG_PIDX n) == k

/-- Push a frame's data words, the last with EOP (R713). -/
def State.pushWords (s : State) (n : Nat) (len : Nat) (err : Bool) : List Dword → State
  | [] => s
  | [w] => (s.fifoPush n w (fifoTag false true err (len - 1) w) false).2
  | w :: ws => ((s.fifoPush n w (fifoTag false false false 7 w) false).2).pushWords n len err ws

/-- Deliver a frame to a FIFO engine: a stamp word, then its words (R713). -/
def State.rxToFifo (s : State) (n : Nat) (bs : List Byte) (err : Bool) (stamp : Nat) : State :=
  let w : Dword := BitVec.ofNat 64 stamp
  ((s.fifoPush n w (fifoTag true false false 7 w) false).2).pushWords n bs.length err (octetWords ((bs.length + 7) / 8) bs)

/-- The FEC counters of a frame (R735). -/
def State.rxFec (s : State) (k : Nat) (f : RxFrame) : State :=
  let t := s.countSat (F.LN_FEC_CORR k) f.fecCorr
  if f.fecUncorr = 0 then t
  else (t.countSat (F.LN_FEC_UNCORR k) f.fecUncorr).laneLogOnce k (F.LN_FEC_UNCORR k) 0x0B06 k

/-- A frame of a PCS mode is received (R712-R715, R724). -/
def State.rxFrame (s : State) (k : Nat) (f : RxFrame) : State :=
  let maxLen := s.fld (F.LN_RX_CFG_MAX_LEN k)
  let trunc := decide (maxLen < f.octets.length)
  let bs := f.octets.take maxLen
  let perr := f.perr || f.fecUncorr != 0
  let stamp := unsigned 64 ((s.now : Int) - s.asym (F.LN_RX_ASYM k))
  let t := (s.rxFec k f).countWrap (F.LN_RX_FRAMES k) 1
  let t := if perr then t.countSat (F.LN_RX_PERR k) 1 else t
  let t := if trunc then (t.countSat (F.LN_RX_TRUNC k) 1).laneLogOnce k (F.LN_RX_TRUNC k) 0x0B04 k else t
  if s.fld (F.LN_RX_CFG_DEST k) = 0 then t.rxToCrossing k bs trunc perr stamp
  else match s.rxEngine k with
    | some n => t.rxToFifo n bs (perr || trunc) stamp
    | none => t

/-- A raw word matches LNk_RAW_MARK under LNk_RAW_MASK: its low 32 bits (DEDUCED, log entry 24); a mask of 0 disables. -/
def State.rawMatch (s : State) (k : Nat) (w : Dword) : Bool :=
  let m := s.reg (F.LN_RAW_MASK k)
  m != 0 && ((w.setWidth 32 ^^^ s.reg (F.LN_RAW_MARK k)) &&& m) == 0

/-- A marker stamp to the descriptor crossing (R730): KIND 0x3 received, 0x4 sent. -/
def State.rawStamp (s : State) (k kind : Nat) (w : Dword) : State :=
  if s.rawMatch k w then
    let v := if kind = 3 then unsigned 64 ((s.now : Int) - s.asym (F.LN_RX_ASYM k))
      else unsigned 64 ((s.now : Int) + s.asym (F.LN_TX_ASYM k))
    let (ok, t) := s.writeDesc k (BitVec.ofNat 64 (kind * 2 ^ 60 + v % 2 ^ 40))
    if ok then t else (t.countSat (F.LN_RX_DLOST k) 1).laneLogOnce k (F.LN_RX_DLOST k) 0x0B03 k
  else s

/-- A received raw word: the first octets of the frame, to the RX crossing (R730, R734). -/
def State.rxRaw (s : State) (k : Nat) (bs : List Byte) : State :=
  let n := s.fld (F.LN_XNG_RX_RX k)
  let w : Dword := BitVec.ofNat 64 (leNat (bs.take ((s.fld (F.XNG_CFG_WIDTH_M1 n) + 1) / 8)))
  (s.writeWords n [w]).2.rawStamp k 3 w

/-- A frame arrives, in RAW one word (R712-R716). -/
def execReceiveFrame (k : Fin 8) (f : RxFrame) (s : State) : Out :=
  if s.inSail && s.laneState k == 4 && !f.octets.isEmpty then
    .next (if s.fld (F.LN_CFG_MODE k) = 4 then s.rxRaw k f.octets else s.rxFrame k f)
  else .next s

/-! ### Transmit sources -/

/-- A descriptor that R722 refuses. -/
def txBad (d : Dword) : Bool :=
  decide (txLen d < 64) || d.toNat / 2 ^ 48 != 0 || d.toNat / 2 ^ 31 % 2 ^ 9 != 0
    || (txOp d == 2 && decide (txLen d - 4 < txHdr d + 44)) || (txOp d == 3 && decide (txLen d - 4 < txHdr d + 16))

/-- Take n more words into source x (R394: only words that are there). -/
def State.srcTake (s : State) (x : Nat) : Nat → State
  | 0 => s
  | fuel + 1 =>
    match s.srcCrossing x, s.srcEngine x with
    | some n, _ =>
      match s.xngPull n with
      | (some w, t) => (t.setSource x { t.source x with held := (t.source x).held ++ [(w, 0x80)] }).srcTake x fuel
      | (none, _) => s
    | none, some n =>
      if (s.engine n).visible = 0 then s
      else
        let (w, t) := s.fifoPop n .clean
        if s.isSlot n w.2 then t.srcTake x fuel
        else (t.setSource x { t.source x with held := (t.source x).held ++ [w] }).srcTake x fuel
    | none, none => s

/-- Source x is ready with the descriptor d (R717). -/
def State.srcReady (s : State) (x : Nat) (d : Dword) : Bool :=
  decide (txHead d + min (txWords d) (s.fld (F.LN_TX_CFG_TX_THR (x / 4))) ≤ (s.srcAvailable x).length)

/-- The EOP word of a FIFO frame does not match LEN (R722). -/
def eopWrong (d : Dword) (ws : List (Dword × Byte)) : Bool :=
  match toEop ws with
  | none => false
  | some f => f.length != txHead d + txWords d || (f.getLast?.map fun w => w.2.toNat / 2 % 8) != some ((txLen d - 1) % 8)

/-- A gate of source x is open. -/
def State.gateOpen (s : State) (x : Nat) : Bool := (s.sheetOf (256 + x)).gates != 0

/-- Source x could start a frame now. -/
def State.srcStarts (s : State) (x : Nat) : Bool :=
  match s.srcAvailable x with
  | (d, _) :: _ => s.srcReady x d && (!s.srcGated x || s.gateOpen x)
  | [] => false

/-- An ungated frame would run into the earliest release of a gated source of its lane (R719). -/
def State.runsInto (s : State) (k : Nat) (d : Dword) : Bool :=
  let span := s.frameSpan k d
  (List.range 4).any fun j => s.srcGated (4 * k + j) &&
    match (s.sheetOf (256 + 4 * k + j)).queue with
    | q :: _ => atOrAfter q.due s.now && decide ((q.due + 2 ^ 64 - s.now) % 2 ^ 64 * 100 < span)
    | [] => false

/-- Source j of lane k may start now against the lane's others (R718, R719, R741). -/
def State.srcTurn (s : State) (k j : Nat) (d : Dword) : Bool :=
  if s.srcGated (4 * k + j) then true
  else !((List.range 4).any fun i => i != j && s.srcStarts (4 * k + i) && (s.srcGated (4 * k + i) || decide (i < j)))
    && !s.runsInto k d

/-- Replace the bytes at an offset. -/
def patch (bs : List Byte) (ofs : Nat) (new : List Byte) : List Byte := bs.take ofs ++ new ++ bs.drop (ofs + new.length)

/-- Add to the correctionField at HDR_OFS + 8 (R725-R727): the octets, and whether it saturated. -/
def addCorrection (bs : List Byte) (hdr : Nat) (x : Int) : List Byte × Bool :=
  let v := signed 64 (beNat ((bs.drop (hdr + 8)).take 8)) + x
  let sat := decide (2 ^ 63 ≤ v ∨ v < -2 ^ 63)
  (patch bs (hdr + 8) (beBytes 8 (if sat then 2 ^ 63 - 1 else unsigned 64 v)), sat)

/-- A frame as sent (R725-R727): the insertions, then a new FCS under FCS_FIX when something was inserted. -/
def sentFrame (f : TxFrame) (bs : List Byte) : List Byte × Bool :=
  let h := txHdr f.desc
  let (m, sat) := match txOp f.desc with
    | 2 =>
      let b := patch bs (h + 34) (beBytes 6 (f.stamp / 4000000000) ++ beBytes 4 (f.stamp % 4000000000 / 4))
      addCorrection b h ((f.stamp % 4 * 16384 : Nat) : Int)
    | 3 => addCorrection bs h (signed 64 ((f.stamp + 2 ^ 64 - (f.ref.getD 0).toNat) % 2 ^ 64) * 16384)
    | _ => (bs, false)
  let n := m.length - 4
  (if 2 ≤ txOp f.desc && txFcsFix f.desc then m.take n ++ leBytes 4 (crc32 (m.take n)).toNat else m, sat)

/-- The frame being sent is complete: what went out on the line. -/
def State.finishFrame (s : State) (k : Nat) (f : TxFrame) : State :=
  let bs := (f.got.flatMap fun w => leBytes 8 w.toNat).take (txLen f.desc)
  let (out, sat) := sentFrame f bs
  let t := s.setLane k { s.laneOf k with tx := none, line := out }
  if sat then t.laneLog k 0x0B0C k else t

/-- A two-step report that finds no room (R729). -/
def State.reportLost (s : State) (k : Nat) : State :=
  let u := s.laneOf k
  let t := s.setLane k { u with txtsLost := min (u.txtsLost + 1) (2 ^ 32 - 1) }
  if u.txtsLost = 0 then t.laneLog k 0x0B0A k else t

/-- The two-step report of an egress stamp (R728, R729). -/
def State.twoStep (s : State) (k : Nat) (f : TxFrame) : State :=
  let op := txOp f.desc
  if !(op == 1 || op == 2 || (op == 3 && s.bit (F.LN_TX_CFG_REP_CF k))) then s
  else
    let one := decide (2 ≤ op)
    match s.fld (F.LN_TX_CFG_REP k) with
    | 1 =>
      let w := 2 * 2 ^ 60 + one.toNat * 2 ^ 50 + f.src * 2 ^ 48 + txSeq f.desc * 2 ^ 40 + f.stamp % 2 ^ 40
      let (ok, t) := s.writeDesc k (BitVec.ofNat 64 w)
      if ok then t else t.reportLost k
    | 2 =>
      let u := s.laneOf k
      if 4 ≤ u.reports.length then s.reportLost k
      else
        let info : Word := BitVec.ofNat 32 (one.toNat * 2 ^ 10 + f.src * 2 ^ 8 + txSeq f.desc)
        let t := s.setLane k { u with reports := u.reports ++ [(f.stamp, info)] }
        if u.reports.isEmpty then t.raise (F.LN_EVENT_TXTS k) else t
    | _ => s

/-- Discard the rest of a frame of source x, of which n words are still to come (R721, R722). -/
def State.dropRest (s : State) (x n : Nat) : State :=
  let u := s.source x
  s.setSource x { held := u.held.drop n, skip := n - u.held.length, skipToEop := (s.srcEngine x).isSome && n > u.held.length }

/-- A frame of source x goes: the release that was its own goes with it (spec/05_sheets.md R264). -/
def State.useGate (s : State) (x : Nat) : State :=
  if s.srcGated x then s.setSheet (256 + x) { s.sheetOf (256 + x) with gates := (s.sheetOf (256 + x)).gates - 1 } else s

/-- A descriptor that R722 refuses goes with its frame. -/
def State.txRefuse (s : State) (k x : Nat) (d : Dword) (n : Nat) : State :=
  ((((s.srcTake x n).dropRest x n).useGate x).countSat (F.LN_TX_BAD k) 1).laneLog k 0x0B09 d.toNat

/-- Start a frame (R718, R724). -/
def State.txStart (s : State) (k j : Nat) (d : Dword) (lead : Nat) : State :=
  let x := 4 * k + j
  let t := s.srcTake x (txHead d + txWords d)
  let ws := (t.source x).held
  let body := ws.drop (txHead d)
  let f : TxFrame := { src := j, gated := s.srcGated x, desc := d, ref := if txOp d = 3 then (ws.drop 1).head?.map (·.1) else none,
                       got := (body.take (txWords d)).map (·.1),
                       stamp := unsigned 64 ((s.now : Int) + lead + s.asym (F.LN_TX_ASYM k)) }
  let t := t.setSource x { t.source x with held := body.drop (txWords d) }
  let t := ((t.useGate x).countWrap (F.LN_TX_FRAMES k) 1).twoStep k f
  let t := t.setLane k { t.laneOf k with until_ := some (s.mast.ran, s.frameSpan k d, f.gated) }
  if f.got.length = txWords d then t.finishFrame k f else t.setLane k { t.laneOf k with tx := some f }

/-- A raw word goes out (R730); a gated source sends one for each release (R718, DESIGN CHOICE, log entry 24). -/
def State.txRaw (s : State) (k x : Nat) : State :=
  if s.srcGated x && !s.gateOpen x then s
  else
  let t := s.srcTake x 1
  match (t.source x).held with
  | (w, _) :: ws =>
    let n := match s.srcCrossing x with | some c => (s.fld (F.XNG_CFG_WIDTH_M1 c) + 1) / 8 | none => 8
    (((t.setSource x { t.source x with held := ws }).useGate x).setLane k { t.laneOf k with line := leBytes n w.toNat }).rawStamp k 4 w
  | [] => t

/-- A ready source starts its frame at a block boundary (R717-R719, R722); `lead` is the qn from the boundary to the message
timestamp point at the ball. -/
def execTransmitFrameStart (k : Fin 8) (j : Fin 4) (lead : Nat) (s : State) : Out :=
  let x := 4 * k.val + j.val
  if !(s.powered && decide (2 ≤ s.laneState k) && !s.laneSends k) then .next s
  else if s.fld (F.LN_CFG_MODE k) = 4 then .next (s.txRaw k x)
  else match s.srcAvailable x with
    | [] => .next s
    | (d, tag) :: ws =>
      if txBad d then
        .next (s.txRefuse k x d (match toEop ((d, tag) :: ws) with | some f => f.length | none => txHead d + txWords d))
      else if eopWrong d ((d, tag) :: ws) then
        .next (s.txRefuse k x d (((toEop ((d, tag) :: ws)).getD []).length))
      else if s.srcStarts x && s.srcTurn k j d then .next (s.txStart k j d lead)
      else .next s

/-- The frame being sent lacks a word (R721). -/
def State.laneUnderrun (s : State) (k : Nat) : State :=
  match (s.laneOf k).tx with
  | none => s
  | some f =>
    let x := 4 * k + f.src
    let bs := f.got.flatMap fun w => leBytes 8 w.toNat
    let t := (s.setLane k { s.laneOf k with tx := none, until_ := none, line := bs }).dropRest x (txWords f.desc - f.got.length)
    (t.countSat (F.LN_TX_UNDR k) 1).laneLogOnce k (F.LN_TX_UNDR k) 0x0B07 (k * 256 + f.src)

/-- A data word is missing when the lane needs it. -/
def execTransmitUnderrun (k : Fin 8) (s : State) : Out := .next (if s.powered then s.laneUnderrun k else s)

/-- A word reaches source x from its producer: discarded with an abandoned frame, or part of the frame being sent, or held. -/
def State.laneWord (s : State) (x : Nat) (w : Dword × Byte) : State :=
  let u := s.source x
  if u.skip ≠ 0 then
    let stop := u.skipToEop && tagBit w.2 5
    s.setSource x { u with skip := if stop then 0 else u.skip - 1, skipToEop := u.skipToEop && !stop }
  else
    let k := x / 4
    match (s.laneOf k).tx with
    | some f =>
      if f.src = x % 4 then
        let f := { f with got := f.got ++ [w.1] }
        if f.got.length = txWords f.desc then s.finishFrame k f else s.setLane k { s.laneOf k with tx := some f }
      else s.setSource x { u with held := u.held ++ [w] }
    | none => s.setSource x { u with held := u.held ++ [w] }

/-- LNk_CMD.TXTS_POP removes the head report (R740). -/
def execTxtsPop (k : Fin 8) (s : State) : Out :=
  whenOpen s (s.setLane k { s.laneOf k with reports := (s.laneOf k).reports.drop 1 })

/-- What a lane's transmitter puts on its line. -/
inductive LineSignal where
  | off | electricalIdle | frame | idle | remoteFault
  | rawIdle (w : Dword)
  deriving DecidableEq, Repr

/-- The transmitter is electrically idle under STBY_TX: never inside a frame (R739). -/
def State.txIdle (s : State) (k : Nat) : Bool := s.bit (F.LN_CFG_STBY_TX k) && s.standby && !s.laneSends k

/-- What lane k sends while its PLL is locked (R723, R739). -/
def State.lineSignal (s : State) (k : Nat) : LineSignal :=
  if s.laneState k < 2 then .off
  else if s.txIdle k then .electricalIdle
  else if s.laneSends k then .frame
  else if s.fld (F.LN_CFG_MODE k) = 4 then .rawIdle (BitVec.ofNat 64 (s.wide (F.LN_RAW_IDLE_LO k)))
  else if s.bit (F.LN_CFG_TX_RF k) then .remoteFault
  else .idle

/-- What RCLKn drives (R731, R732): the lane whose recovered clock it divides and the divisor, or none while it is held low. -/
def State.rclk (s : State) (n : Nat) : Option (Nat × Nat) :=
  let en := if n = 0 then F.LAN_RCLK_CFG_EN0 else F.LAN_RCLK_CFG_EN1
  let sq := if n = 0 then F.LAN_RCLK_CFG_SQ0 else F.LAN_RCLK_CFG_SQ1
  let lane := s.fld (if n = 0 then F.LAN_RCLK_CFG_LANE0 else F.LAN_RCLK_CFG_LANE1)
  let div := s.fld (if n = 0 then F.LAN_RCLK_CFG_DIV0 else F.LAN_RCLK_CFG_DIV1)
  if s.bit en && !(s.bit sq && s.laneState lane != 4) then some (lane, div + 1) else none

end Sys2Proof.Machine
end

