-- ==== Sys2Proof/Machine/Flash.lean ====
section
/-! DEFINITION. The on-chip flash (spec/12_flash_store.md): the array, the ROM routines that write it, the SYS sectors, the patrol. -/

namespace Sys2Proof.Machine

open Sys2Proof

/-! ### The array -/

/-- What an unlisted byte of the array reads as: erased, or open in a sector whose contents are undefined (R620, R627). -/
def State.flashDefault (s : State) : Nat → Byte := fun a =>
  match Table.get (fun _ => none) s.flash.openAt (a / 65536) with
  | some b => BitVec.ofNat 8 (Config.freeValue (b + a % 65536))
  | none => 0xFF

/-- n bytes of the array. -/
def State.flashBytes (s : State) (a n : Nat) : List Byte := Memory.bytes s.flashDefault s.flash.mem a n

/-- A unit reads blank (R626): 32 erased bytes and no error. -/
def State.unitBlank (s : State) (u : Nat) : Bool :=
  !Table.get (fun _ => false) s.flash.bad u && (s.flashBytes (32 * u) 32).all (· == 0xFF)

/-- Program bytes at an offset. -/
def State.flashPut (s : State) (a : Nat) (bs : List Byte) : State :=
  { s with flash := { s.flash with mem := Memory.putBytes s.flashDefault s.flash.mem a bs } }

/-- A sector reads erased. -/
def State.sectorErased (s : State) (k : Nat) : State :=
  { s with flash := { s.flash with mem := Memory.clear s.flash.mem (65536 * k) 65536,
                                   openAt := Table.put (fun _ => none) s.flash.openAt k none,
                                   bad := s.flash.bad.filter fun p => p.1 < 2048 * k || 2048 * k + 2048 ≤ p.1 } }

/-- A sector's contents become undefined (R627; an erase that stops midway, log entry 1). -/
def State.sectorOpen (s : State) (k : Nat) : State :=
  let t := s.sectorErased k
  { t with flash := { t.flash with openAt := Table.put (fun _ => none) t.flash.openAt k (some s.fresh) }, fresh := s.fresh + 65536 }

/-- A unit whose program is cut by loss of power reads blank, programmed or uncorrectable (R654). -/
def State.unitCut (s : State) (a : Nat) (bs : List Byte) : State :=
  let (v, t) := s.open_
  if v % 3 = 0 then t
  else if v % 3 = 1 then t.flashPut a bs
  else { t with flash := { t.flash with bad := Table.put (fun _ => false) t.flash.bad (a / 32) true } }

/-- Bank of an offset: false A, true B (R617). -/
def bankOf (a : Nat) : Bool := decide (0x800000 ≤ a)

/-- Banks are shown busy (FLC_STATUS). -/
def State.showBusy (s : State) (b on : Bool) : State :=
  s.setBit (if b then F.FLC_STATUS_BUSY_B else F.FLC_STATUS_BUSY_A) on

/-- A bank is busy (R638). -/
def State.bankBusy (s : State) (b : Bool) : Bool := s.bit (if b then F.FLC_STATUS_BUSY_B else F.FLC_STATUS_BUSY_A)

/-- A range touches a busy bank. -/
def State.rangeBusy (s : State) (a n : Nat) : Bool :=
  (s.bankBusy false && decide (a < 0x800000)) || (s.bankBusy true && decide (0x800000 < a + n))

/-- What a read of one chunk yields (R620, R621, R623): the corrected-bit count, 15 when uncorrectable, from the errors that the
command gives by chunk and the chunks left uncorrectable; an erased chunk has none. -/
def State.chunkCount (s : State) (errs : List (Nat × Nat)) (c : Nat) : Nat :=
  if Table.get (fun _ => false) s.flash.bad c then 15
  else if s.unitBlank c then 0
  else match errs.find? (·.1 == c) with
    | some e => if 4 < e.2 then 15 else e.2
    | none => 0

/-- A chunk is read by a source of R621: FLC_LAST_CE, the early warning or the uncorrectable error. -/
def State.readChunk (s : State) (errs : List (Nat × Nat)) (source c : Nat) (warn : Bool) : State :=
  let n := s.chunkCount errs c
  let t := (s.setFld F.FLC_LAST_CE_COUNT n).setFld F.FLC_LAST_CE_OFS (32 * c)
  let d := source * 2 ^ 28 + n * 2 ^ 24 + 32 * c
  if n = 15 then t.log 0x0304 d
  else if warn && decide (s.fld F.FLC_WARN_LEVEL ≤ n) then t.log 0x0305 d else t

/-! ### SRAM and ROM -/

/-- A byte of the ROM: the words after the routine tables read 0 (R631, spec/13_field_update.md R688). -/
def romAt (a : Nat) : Byte := if (0x120 ≤ a ∧ a < 0x140) ∨ (0x168 ≤ a ∧ a < 0x180) then 0 else Config.romByte a

/-- n bytes at a supervisor address of the SRAM or the ROM. -/
def State.supBytes (s : State) (a n : Nat) : List Byte :=
  if a < 0x20000000 then (List.range n).map fun i => romAt (a - 0x10000000 + i)
  else Memory.bytes zeroByte s.sram (a - 0x20000000) n

/-- A program in progress begins an open number of further units before its source changes (R1077). -/
def State.flashBegins (s : State) : State :=
  match s.flash.op with
  | some op =>
    if op.erase then s
    else
      let left := op.total - op.taken.length / 32
      let (v, t) := s.open_
      let begun := op.taken ++ s.supBytes (op.src + op.taken.length) (32 * (v % (left + 1)))
      { t with flash := { t.flash with op := some { op with taken := begun } } }
  | none => s

/-- Store bytes in the SRAM. -/
def State.sramPut (s : State) (a : Nat) (bs : List Byte) : State :=
  let t := s.flashBegins
  { t with sram := Memory.putBytes zeroByte t.sram (a - 0x20000000) bs }

/-! ### The external flash (spec/13_field_update.md) -/

/-- What an unlisted byte of the external flash reads as: erased, or open in a block whose erase was cut (R700). -/
def State.xflashDefault (s : State) : Nat → Byte := fun a =>
  match Table.get (fun _ => none) s.xopen (a / 65536) with
  | some b => BitVec.ofNat 8 (Config.freeValue (b + a % 65536))
  | none => 0xFF

/-- n bytes of the external flash. -/
def State.xflashBytes (s : State) (a n : Nat) : List Byte := Memory.bytes s.xflashDefault s.xflash a n

/-- Program bytes of the external flash. -/
def State.xflashPut (s : State) (a : Nat) (bs : List Byte) : State :=
  { s with xflash := Memory.putBytes s.xflashDefault s.xflash a bs }

/-- A 64 KiB block of the external flash reads erased. -/
def State.xflashErased (s : State) (k : Nat) : State :=
  { s with xflash := Memory.clear s.xflash (65536 * k) 65536, xopen := Table.put (fun _ => none) s.xopen k none }

/-- A range within one block reads blank. -/
def State.xflashBlank (s : State) (a n : Nat) : Bool :=
  if (Table.get (fun _ => none) s.xopen (a / 65536)).isSome then (s.xflashBytes a n).all (· == 0xFF)
  else !(s.xflash.any fun c => decide (a ≤ c.1 ∧ c.1 < a + n))

/-- An external program or erase is in progress (R701, R702). -/
def State.xflashBusy (s : State) : Bool :=
  s.upd.going && match s.upd.steps with
    | .prog _ _ :: _ => true
    | .erase _ :: _ => true
    | _ => false

/-! ### The SYS sectors -/

/-- A 32-byte record with its CRC-32 over the first 28 bytes. -/
def crcUnit (bs : List Byte) : List Byte := bs ++ leBytes 4 (crc32 bs).toNat

/-- A unit's CRC is correct. -/
def unitGood (bs : List Byte) : Bool := leNat (bs.drop 28) == (crc32 (bs.take 28)).toNat

/-- Unit u of SYS sector k. -/
def State.sysUnit (s : State) (k u : Nat) : List Byte := s.flashBytes (65536 * k + 32 * u) 32

/-- A SYS sector qualifies (R643). -/
def State.sysQualifies (s : State) (k : Nat) : Bool :=
  let h := s.sysUnit k 0
  leNat (h.take 4) == 0x31535953 && unitGood h && !s.unitBlank (2048 * k + 1)

/-- SEQ of a SYS sector. -/
def State.sysSeq (s : State) (k : Nat) : Nat := leNat (((s.sysUnit k 0).drop 4).take 4)

/-- The active SYS sector (R643). -/
def State.sysActive (s : State) : Option Nat :=
  match s.sysQualifies 0, s.sysQualifies 1 with
  | true, true => if s.sysSeq 0 < s.sysSeq 1 then some 1 else some 0
  | true, false => some 0
  | false, true => some 1
  | false, false => none

/-- A good protection record (the SYS table). -/
def protGood (u : List Byte) : Bool := leNat (u.take 2) == 0x5250 && unitGood u && decide (leNat ((u.drop 2).take 1) ≤ 1)

/-- The stored protection level of SYS sector k (R644): its highest good protection record. -/
def State.storedLevel (s : State) (k : Nat) : Nat :=
  match ((List.range 62).map fun i => 63 - i).find? fun u => protGood (s.sysUnit k u) with
  | some u => leNat (((s.sysUnit k u).drop 2).take 1)
  | none => 0

/-- A protection record. -/
def protRecord (level : Nat) : List Byte := crcUnit ([0x50, 0x52, BitVec.ofNat 8 level] ++ List.replicate 25 0)

/-- A SYS header. -/
def sysHeader (seq : Nat) : List Byte := crcUnit (leBytes 4 0x31535953 ++ leBytes 4 seq ++ List.replicate 20 0)

/-- A START unit: KIND 1 names a sector, KIND 2 a mass erase. -/
def startUnit (kind sector : Nat) : List Byte :=
  crcUnit ([0x45, 0x4A, BitVec.ofNat 8 kind, 0] ++ leBytes 2 sector ++ List.replicate 22 0)

/-- A DONE unit. -/
def doneUnit (ok : Bool) : List Byte := (if ok then 0x00 else 0x0F) :: List.replicate 31 0

/-- Write a fresh SYS sector: header, one protection record, VALID (R645, R648). -/
def State.sysBuild (s : State) (k seq level : Nat) : State :=
  (((s.sectorErased k).flashPut (65536 * k) (sysHeader seq)).flashPut (65536 * k + 64) (protRecord level)).flashPut
    (65536 * k + 32) (List.replicate 32 0)

/-- The next free journal entry of SYS sector k (R646). -/
def State.journalNext (s : State) (k : Nat) : Nat :=
  ((List.range 992).find? fun e => s.unitBlank (2048 * k + 64 + 2 * e)).getD 992

/-- The next free protection record of SYS sector k; 64 when none is left. -/
def State.protNext (s : State) (k : Nat) : Nat :=
  (((List.range 62).map (· + 2)).find? fun u => s.unitBlank (2048 * k + u)).getD 64

/-- Program the START unit of an erase (R646). -/
def State.journalStart (s : State) (k e kind sector : Nat) : State :=
  s.flashPut (65536 * k + 0x800 + 64 * e) (startUnit kind sector)

/-- Program the DONE unit of entry e (R646, R666). -/
def State.journalDone (s : State) (k e : Nat) (ok : Bool) : State := s.flashPut (65536 * k + 0x820 + 64 * e) (doneUnit ok)

/-- Compact (R648): the inactive sector takes over with SEQ + 1 and the protection record in force. -/
def State.sysCompact (s : State) (k : Nat) : State :=
  let o := 1 - k
  let level := s.storedLevel k
  let seq := s.sysSeq k + 1
  let e := s.journalNext k
  let t := ((s.journalStart k e 1 o).sectorErased o).journalDone k e true
  let t := (t.sysBuild o seq level).log 0x0308 seq
  t.setFld F.FLC_SYS_ACTIVE o

/-- The SYS sector and entry for the next erase, after a compaction where it is due (R648). -/
def State.journalRoom (s : State) : (Nat × Nat) × State :=
  let k := s.fld F.FLC_SYS_ACTIVE
  if 960 ≤ s.journalNext k then
    let t := s.sysCompact k
    ((1 - k, t.journalNext (1 - k)), t)
  else ((k, s.journalNext k), s)

/-- Whether the next n erases would need a compaction. -/
def State.compactsWithin (s : State) (n : Nat) : Bool := decide (960 < s.journalNext (s.fld F.FLC_SYS_ACTIVE) + n)

/-- Append a protection record (R592, R597), after a compaction where it is due. -/
def State.appendLevel (s : State) (level : Nat) : State :=
  let k := s.fld F.FLC_SYS_ACTIVE
  let (k, s) := if 64 ≤ s.protNext k then (1 - k, s.sysCompact k) else (k, s)
  (s.flashPut (65536 * k + 32 * s.protNext k) (protRecord level)).setFld F.FLC_SYS_LEVEL level

/-! ### Routine calls -/

def stOK : Nat := 0x00
def stSTARTED : Nat := 0x01
def stBUSY : Nat := 0x02
def stBADARG : Nat := 0x03
def stDENIED : Nat := 0x04
def stSELFBANK : Nat := 0x05
def stNOTERASED : Nat := 0x06
def stLEDGER : Nat := 0x07
def stPFI : Nat := 0x08
def stPROGFAIL : Nat := 0x09
def stERASEFAIL : Nat := 0x0A
def stUNCORR : Nat := 0x0B
def stTIMEOUT : Nat := 0x0C

/-- A routine returns. -/
def State.returns (s : State) (vs : List Nat) : State := { s with returned := vs.map (BitVec.ofNat 32 ·) }

/-- The caller is ROM code: ra lies in the ROM (R634). -/
def callFromRom (c : RoutineCall) : Bool := decide (0x10000000 ≤ c.ra.toNat ∧ c.ra.toNat < 0x10010000)

/-- The caller's number: 0 firmware, 1 a ROM service; 2 and 3 are the update service and the model engine. -/
def callerOf (c : RoutineCall) : Nat := if callFromRom c then 1 else 0

/-- A call can run: in a powered mode, with no other call executing (R636). -/
def State.callGate (s : State) (t : State) : Out :=
  if !s.powered then .next s else if s.flash.inCall || s.upd.waits then .next (s.returns [stBUSY]) else .next t

/-- The bank of an address in the mapping. -/
def mappedBank (a : Nat) : Option Bool :=
  if 0x40000000 ≤ a ∧ a < 0x41000000 then some (bankOf (a - 0x40000000)) else none

/-- A range lies in a bank of the caller (R640). -/
def inOwnBank (c : RoutineCall) (a n : Nat) : Bool :=
  let hits := fun b : Bool => if b then decide (0x800000 < a + n) else decide (a < 0x800000)
  (match mappedBank c.ra.toNat with | some b => hits b | none => false) ||
    (match mappedBank c.mtvec.toNat with | some b => hits b | none => false)

/-- SRAM or ROM that a call may name as a source (R634). -/
def srcOk (c : RoutineCall) (a n : Nat) : Bool :=
  decide (0x20000000 ≤ a ∧ a + n ≤ 0x2003C000) || decide (0x10000000 ≤ a ∧ a + n ≤ 0x10010000)
    || (callFromRom c && decide (0x2003C000 ≤ a ∧ a + n ≤ 0x20040000))

/-- A sector that a routine call may write (R618). -/
def mayWrite (golden : Bool) (k : Nat) : Bool :=
  if k < 2 then false else if k < 98 then golden else k != 128 && k != 129

/-- Sectors of a range. -/
def sectorsOf (a n : Nat) : List Nat := (List.range ((a + n + 65535) / 65536 - a / 65536)).map (· + a / 65536)

/-- PFI or a Reef entry sequence bars flash writes (R652). -/
def State.writesBarred (s : State) : Bool := s.bit F.PWR_STATUS_PFI || s.bit F.MODE_STATUS_REEFING

/-- WAIT, or STALL_OK in the caller's own bank (R633, R641). -/
def callWaits (c : RoutineCall) (a n : Nat) : Bool := c.a3.getLsbD 0 || (c.a3.getLsbD 1 && inOwnBank c a n)

/-- Begin an operation: its bank is busy, and the call returns STARTED or waits (R637). -/
def State.beginFlash (s : State) (op : FlashOp) : State :=
  let t := { s with flash := { s.flash with op := some op, inCall := op.waits } }
  let t := ((t.showBusy (bankOf op.ofs) true).clear F.FLC_STATUS_DONE).setFld F.FLC_ADDR_OFS op.ofs
  if op.waits then t else t.returns [stSTARTED, 0, 0xFFFFFFFF]

/-- Why flash_program refuses a call before NOT_ERASED and LEDGER (R634). -/
def State.progRefuses (s : State) (c : RoutineCall) : Option Nat :=
  let a := c.a0.toNat
  let n := c.a2.toNat
  if a % 32 ≠ 0 ∨ n % 32 ≠ 0 ∨ n < 32 ∨ 4096 < n ∨ 0x1000000 < a + n ∨ 8 ≤ c.a3.toNat ∨ !srcOk c c.a1.toNat n then some stBADARG
  else if !(sectorsOf a n).all (mayWrite (c.a3.getLsbD 2)) then some stDENIED
  else if s.flash.op.isSome then some stBUSY
  else if s.writesBarred then some stPFI
  else if inOwnBank c a n && !c.a3.getLsbD 1 then some stSELFBANK
  else none

/-- What a call of this window found before it began (R660). -/
def State.markCall (s : State) : State :=
  if s.beatRuns then { s with win := { s.win with flashCall := some (s.flash, s.fld F.FLC_SYS_ACTIVE) } } else s

/-- PFI asserts in the window of a call that began an operation: the call is refused (R660). -/
def State.callMeetsPfi (s : State) : State :=
  match s.win.flashCall, s.flash.op with
  | some (f, k), some op =>
    let t := ((s.ledgerEnd (if op.erase then 2 else 1)).showBusy false false).showBusy true false
    (({ t with flash := f, win := { t.win with flashCall := none } }).setFld F.FLC_SYS_ACTIVE k).returns [stPFI, 0, 0xFFFFFFFF]
  | _, _ => s

/-- flash_program (R625, R626, R634, R649). -/
def State.flashProgram (s : State) (c : RoutineCall) : State :=
  let a := c.a0.toNat
  let n := c.a2.toNat
  match s.progRefuses c with
  | some st => s.returns [st, 0, 0xFFFFFFFF]
  | none =>
    match ((List.range (n / 32)).map (· + a / 32)).find? fun u => !s.unitBlank u with
    | some u => s.returns [stNOTERASED, 0, 32 * u]
    | none =>
      let (ok, t) := s.ledgerAsk 1 (2 * (n / 32)) false
      if ok then
        (t.markCall.setReg F.FLC_SRC c.a1).beginFlash
          { erase := false, ofs := a, total := n / 32, done := 0, src := c.a1.toNat, taken := t.supBytes c.a1.toNat 32,
            entry := none, caller := callerOf c, waits := callWaits c a n, stalls := c.a3.getLsbD 1 && inOwnBank c a n }
      else t.returns [stLEDGER, 0, 0xFFFFFFFF]

/-- A firmware or ROM service calls flash_program. -/
def execFlashProgram (c : RoutineCall) (s : State) : Out := s.callGate (s.flashProgram c)

/-- Start the erase of the sector at op's position: its START unit (R646). -/
def State.startSector (s : State) (op : FlashOp) : State :=
  let sec := op.ofs / 65536 + op.done
  let ((k, e), t) := s.journalRoom
  let t := (t.journalStart k e 1 sec).showBusy (bankOf (65536 * sec)) true
  let t := (t.setFld F.FLC_ADDR_OFS (65536 * sec)).clear F.FLC_STATUS_DONE
  { t with flash := { t.flash with op := some { op with entry := some e } } }

/-- Why flash_erase refuses a call before LEDGER (R634). -/
def State.eraseRefuses (s : State) (c : RoutineCall) : Option Nat :=
  let a := c.a0.toNat
  let k := c.a1.toNat
  if a % 65536 ≠ 0 ∨ k < 1 ∨ 256 < k ∨ 0x1000000 < a + 65536 * k ∨ 8 ≤ c.a3.toNat then some stBADARG
  else if !(sectorsOf a (65536 * k)).all (mayWrite (c.a3.getLsbD 2)) then some stDENIED
  else if s.flash.op.isSome then some stBUSY
  else if s.writesBarred then some stPFI
  else if inOwnBank c a (65536 * k) && !c.a3.getLsbD 1 then some stSELFBANK
  else none

/-- flash_erase (R627, R634, R646, R649). -/
def State.flashErase (s : State) (c : RoutineCall) : State :=
  let k := c.a1.toNat
  match s.eraseRefuses c with
  | some st => s.returns [st, 0, 0xFFFFFFFF]
  | none =>
    let more := if s.compactsWithin k then 1 else 0
    let (ok, t) := s.ledgerAsk 2 (2004 * (k + more)) false
    if ok then
      let w := callWaits c c.a0.toNat (65536 * k)
      let op : FlashOp := { erase := true, ofs := c.a0.toNat, total := k, done := 0, src := 0, taken := [], entry := none,
                            caller := callerOf c, waits := w, stalls := c.a3.getLsbD 1 && inOwnBank c c.a0.toNat (65536 * k) }
      let t := t.markCall
      let t := { t with flash := { t.flash with inCall := w } }
      let t := if w then t else t.returns [stSTARTED, 0, 0xFFFFFFFF]
      t.startSector op
    else t.returns [stLEDGER, 0, 0xFFFFFFFF]

/-- A firmware or ROM service calls flash_erase. -/
def execFlashErase (c : RoutineCall) (s : State) : Out := s.callGate (s.flashErase c)

/-- An operation ends with a status, its count and the offset of what failed: the ledger, the bank and the caller hear of it. -/
def State.endFlash (s : State) (op : FlashOp) (st n ofs : Nat) : State :=
  let res := [st, n, ofs]
  let t := ((s.ledgerEnd (if op.erase then 2 else if op.caller = 3 then 3 else 1)).showBusy false false).showBusy true false
  let t := (t.raise F.FLC_STATUS_DONE).setFld F.FLC_STATUS_RESULT st
  let t := { t with flash := { t.flash with op := none, inCall := s.flash.inCall && !op.waits,
                                            results := Table.put (fun _ => []) t.flash.results op.caller (res.map (BitVec.ofNat 32 ·)) } }
  if op.waits then t.returns res else t

/-- The bytes of a program's units from SRAM or ROM, those begun as they were then (R1077). -/
def State.progBytes (s : State) (op : FlashOp) : List Byte :=
  op.taken ++ s.supBytes (op.src + op.taken.length) (32 * op.total - op.taken.length)

/-- A program ends (R625): every unit, or the units before one that failed after 16 pulses. -/
def State.endProgram (s : State) (op : FlashOp) (end_ : FlashEnd) : State :=
  match end_ with
  | .passed p =>
    ((s.flashPut op.ofs (s.progBytes op)).setFld F.FLC_PULSES_N (max 1 (min p 16))).endFlash op stOK (32 * op.total) 0xFFFFFFFF
  | .failed u =>
    let u := min u (op.total - 1)
    let bad := op.ofs + 32 * u
    let t := (s.flashPut op.ofs ((s.progBytes op).take (32 * u))).unitCut bad (((s.progBytes op).drop (32 * u)).take 32)
    ((t.setFld F.FLC_PULSES_N 16).log 0x0302 bad).endFlash op stPROGFAIL (32 * u) bad

/-- A sector's erase ends (R627, R646, R666): the next sector starts, or the call ends. -/
def State.endSector (s : State) (op : FlashOp) (end_ : FlashEnd) : State :=
  let sec := op.ofs / 65536 + op.done
  let done := fun (t : State) (ok : Bool) => match op.entry with
    | some e => t.journalDone (s.fld F.FLC_SYS_ACTIVE) e ok
    | none => t
  match end_ with
  | .passed p =>
    let t := ((done (s.sectorErased sec) true).setFld F.FLC_PULSES_N (max 1 (min p 48))).showBusy (bankOf (65536 * sec)) false
    let op := { op with done := op.done + 1, entry := none }
    if op.done < op.total then t.startSector op else t.endFlash op stOK op.total 0xFFFFFFFF
  | .failed _ =>
    let t := (done (s.sectorOpen sec) false).setFld F.FLC_PULSES_N 48
    (t.log 0x0303 (65536 * sec)).endFlash op stERASEFAIL op.done (65536 * sec)

/-- The operation in progress ends: a program, or one sector of an erase. -/
def State.flashCompletes (s : State) (end_ : FlashEnd) : State :=
  match s.flash.op with
  | some op => if op.erase then s.endSector op end_ else s.endProgram op end_
  | none => s

/-- PFI, a Reef command, a rehoist or a full-device load meets an operation in progress (R650, R651); how many pulses the last unit of a
program took is open. -/
def State.flashInterrupted (s : State) : State :=
  match s.flash.op with
  | some op =>
    if op.erase then
      let ofs := op.ofs + 65536 * op.done
      ((s.sectorOpen (ofs / 65536)).log 0x0307 ofs).endFlash op stPFI op.done ofs
    else let (v, t) := s.open_; t.endProgram op (.passed (1 + v % 16))
  | none => s

/-- PORST_N or a loss of power meets an operation in progress (R653, R654): the erase pulse stops at once, or the unit being
programmed is cut; nothing is reported. -/
def State.flashCut (s : State) : State :=
  match s.flash.op with
  | some op =>
    let t := if op.erase then s.sectorOpen (op.ofs / 65536 + op.done)
      else
        let bs := s.progBytes op
        let whole := op.taken.length / 32 - 1
        (s.flashPut op.ofs (bs.take (32 * whole))).unitCut (op.ofs + 32 * whole) ((bs.drop (32 * whole)).take 32)
    { t with flash := { t.flash with op := none, inCall := false } }
  | none => s

/-- flash_info. -/
def execFlashInfo (_c : RoutineCall) (s : State) : Out :=
  s.callGate (s.returns [stOK, 0x02102010, s.fld F.FLC_WARN_LEVEL, s.flash.op.isSome.toNat])

/-- SRAM that a call may name as a destination. -/
def dstOk (c : RoutineCall) (a n : Nat) : Bool :=
  decide (0x20000000 ≤ a ∧ a + n ≤ 0x2003C000) || (callFromRom c && decide (0x2003C000 ≤ a ∧ a + n ≤ 0x20040000))

/-- Copy chunks until one is uncorrectable (R623): the largest count, the first chunk at or above WARN_LEVEL. -/
def State.copyChunks (s : State) (errs : List (Nat × Nat)) (dst a n : Nat) : List Nat → Nat → Nat → State
  | [], big, first => s.returns [stOK, big, first]
  | c :: cs, big, first =>
    let k := s.chunkCount errs c
    let t := s.readChunk errs 0 c true
    if k = 15 then t.returns [stUNCORR, big, 32 * c]
    else
      let lo := max a (32 * c)
      let hi := min (a + n) (32 * c + 32)
      let t := t.sramPut (dst + (lo - a)) (s.flashBytes lo (hi - lo))
      t.copyChunks errs dst a n cs (max big k) (if first = 0xFFFFFFFF ∧ s.fld F.FLC_WARN_LEVEL ≤ k then 32 * c else first)

/-- Chunks of a range. -/
def chunksOf (a n : Nat) : List Nat := (List.range ((a + n + 31) / 32 - a / 32)).map (· + a / 32)

/-- flash_read (R623, R635): a read of a busy bank waits (R638), which leaves the state as it is. -/
def State.flashRead (s : State) (c : RoutineCall) (errs : List (Nat × Nat)) : State :=
  let a := c.a1.toNat
  let n := c.a2.toNat
  if n < 1 ∨ 262144 < n ∨ 0x1000000 < a + n ∨ !dstOk c c.a0.toNat n then s.returns [stBADARG, 0, 0xFFFFFFFF]
  else if s.rangeBusy a n then s
  else s.copyChunks errs c.a0.toNat a n (chunksOf a n) 0 0xFFFFFFFF

/-- flash_read; `errs` are the bit errors of the chunks it meets. -/
def execFlashRead (c : RoutineCall) (errs : List (Nat × Nat)) (s : State) : Out := s.callGate (s.flashRead c errs)

/-- The first byte of a range that does not read erased. -/
def State.firstUsed (s : State) (a n : Nat) : Option Nat :=
  ((List.range n).map (· + a)).find? fun b => Table.get s.flashDefault s.flash.mem b != 0xFF

/-- flash_blank: a read of a busy bank waits (R638); FLC_STATUS.BLANK shows what the last one found. -/
def execFlashBlank (c : RoutineCall) (s : State) : Out :=
  let a := c.a0.toNat
  let n := c.a1.toNat
  s.callGate (
    if 0x1000000 < a + n then s.returns [stBADARG, 0xFFFFFFFF]
    else if s.rangeBusy a n then s
    else match s.firstUsed a n with
      | some b => (s.clear F.FLC_STATUS_BLANK).returns [stNOTERASED, b]
      | none => (s.raise F.FLC_STATUS_BLANK).returns [stOK, 0xFFFFFFFF])

/-- The patrol interval changes (R663): from 0 the next chunk is read one new interval from now, else one from the last chunk read. -/
def State.patrolEvery (s : State) (ms : Nat) : State :=
  let t := s.setFld F.FLC_PATROL_CFG_MS ms
  if s.fld F.FLC_PATROL_CFG_MS = 0 then { t with flash := { t.flash with patrolFrom := s.clock } } else t

/-- flash_config (R624, R635, R663). -/
def execFlashConfig (c : RoutineCall) (s : State) : Out :=
  s.callGate (
    if c.a0.toNat < 1 ∨ 4 < c.a0.toNat ∨ 65535 < c.a1.toNat then s.returns [stBADARG]
    else if s.flash.op.isSome then s.returns [stBUSY]
    else (((s.setFld F.FLC_WARN_LEVEL c.a0.toNat).patrolEvery c.a1.toNat).returns [stOK]))

/-- flash_wait (R637, R665): STARTED to a poll of a running operation, TIMEOUT when a0 us pass first. -/
def execFlashWait (c : RoutineCall) (s : State) : Out :=
  s.callGate (
    if (match s.flash.op with | some op => op.caller == callerOf c | none => false) then
      s.returns [if c.a0 = 0 then stSTARTED else stTIMEOUT, 0, 0xFFFFFFFF]
    else
      match Table.get (fun _ => []) s.flash.results (callerOf c) with
      | [] => s.returns [stOK, 0, 0xFFFFFFFF]
      | r =>
        let seen := BitVec.ofNat 32 stOK :: r.drop 1
        { s with returned := r, flash := { s.flash with results := Table.put (fun _ => []) s.flash.results (callerOf c) seen } })

/-! ### The patrol and refused accesses -/

/-- The patrol reads the next chunk (R655-R658). -/
def State.patrol (s : State) (errs : List (Nat × Nat)) : State :=
  let ofs := s.fld F.FLC_PATROL_POS_OFS
  let n := s.chunkCount errs (ofs / 32)
  let hit := decide (s.fld F.FLC_WARN_LEVEL ≤ n) && n != 15
  let s := { s with flash := { s.flash with patrolFrom := s.clock } }
  let t := s.readChunk errs 2 (ofs / 32) (decide (s.flash.patrolLogged < 8))
  let t := if decide (s.fld F.FLC_WARN_LEVEL ≤ n) then t.addSat F.FLC_PATROL_STATUS_WARNS 1 else t
  let t := { t with flash := { t.flash with patrolLogged := s.flash.patrolLogged + hit.toNat } }
  if ofs = 0xFFFFE0 then
    let t := ((t.setFld F.FLC_PATROL_POS_OFS 0).addWrap F.FLC_PATROL_STATUS_PASSES 1).clear F.FLC_PATROL_STATUS_WARNS
    { t with flash := { t.flash with patrolLogged := 0 } }
  else t.setFld F.FLC_PATROL_POS_OFS (ofs + 32)

/-- A chunk is due: in Sail, with the interval not 0 and gone by since the last chunk read (R655, R663), and its bank free (R656). -/
def State.patrolDue (s : State) : Bool :=
  s.inSail && s.fld F.FLC_PATROL_CFG_MS != 0 && s.gone s.flash.patrolFrom (s.fld F.FLC_PATROL_CFG_MS * 4000000)
    && !s.bankBusy (bankOf (s.fld F.FLC_PATROL_POS_OFS))

/-- A patrol interval ends in Sail. -/
def execPatrolRead (errs : List (Nat × Nat)) (s : State) : Out := .next (if s.patrolDue then s.patrol errs else s)

/-! ### The controller under ROM code -/

/-- FLC_CTRL starts OP at FLC_ADDR (the FLC registers): a program of one unit from FLC_SRC, an erase of one sector, or a blank check of
one unit; nothing while an operation runs.  The journal is the routine's (R646), so an OP writes none (DEDUCED, log entry 54). -/
def State.flcGo (s : State) (v : Word) : State :=
  let ofs := s.fld F.FLC_ADDR_OFS
  if bits v.toNat 31 16 ≠ 0x464C ∨ !v.getLsbD 0 ∨ s.flash.op.isSome then s
  else match bits v.toNat 2 1 with
    | 1 =>
      let src := (s.reg F.FLC_SRC).toNat
      let op : FlashOp := { erase := false, ofs := ofs / 32 * 32, total := 1, done := 0, src := src, taken := s.supBytes src 32,
                            entry := none, caller := 1, waits := false }
      ({ s with flash := { s.flash with op := some op } }.showBusy (bankOf ofs) true).clear F.FLC_STATUS_DONE
    | 2 =>
      let op : FlashOp := { erase := true, ofs := ofs / 65536 * 65536, total := 1, done := 0, src := 0, taken := [],
                            entry := none, caller := 1, waits := false }
      ({ s with flash := { s.flash with op := some op } }.showBusy (bankOf ofs) true).clear F.FLC_STATUS_DONE
    | 3 => ((s.setBit F.FLC_STATUS_BLANK (s.unitBlank (ofs / 32))).raise F.FLC_STATUS_DONE).setFld F.FLC_STATUS_RESULT stOK
    | _ => s

end Sys2Proof.Machine
end

