-- ==== Sys2Proof/Machine/Discipline.lean ====
section
/-! DEFINITION. The discipline unit, the model engine and its journal, and PPS_OUT (spec/03_discipline_and_holdover.md). -/

namespace Sys2Proof.Machine

open Sys2Proof

/-! ### Sources -/

/-- The bit of DSC_SRC_QUAL for a source: 1 PPS, 2 PTP, 3 COORD, 4 PARTNER, 8 SyncE. -/
def srcFld (src : Nat) : Fld := ⟨F.DSC_SRC_QUAL, src, 1⟩

/-- A source is qualified and not overruled by FORCE_HO (R124). -/
def State.srcOk (s : State) (src : Nat) : Bool := s.bit (srcFld src) && !s.bit F.DSC_CTRL_FORCE_HO

/-- STEER_AUTH is SW: the state machine is frozen (R156). -/
def State.swSteers (s : State) : Bool := s.fld F.DSC_CTRL_STEER_AUTH == 2

/-- The active phase source (R123); 0 for none. -/
def State.dscSelect (s : State) : Nat :=
  let prio := [F.DSC_SRC_PRIO_PRIO0, F.DSC_SRC_PRIO_PRIO1, F.DSC_SRC_PRIO_PRIO2, F.DSC_SRC_PRIO_PRIO3].map s.fld
  (prio.find? fun c => decide (1 ≤ c ∧ c ≤ 4) && s.srcOk c).getD 0

/-- STATE. -/
def State.dscState (s : State) : Nat := s.fld F.DSC_STATUS_STATE

/-- HOLDOVER or HOLDOVER-AGED. -/
def State.inHoldover (s : State) : Bool := s.dscState == 3 || s.dscState == 4

/-- DSC_HO_ELAPSED: whole seconds since entry into holdover; outside it the value of its end. -/
def State.hoElapsed (s : State) : Nat :=
  if s.inHoldover then (s.now + 2 ^ 64 - s.dsc.hoStart) % 2 ^ 64 / 4000000000 % 2 ^ 32 else (s.reg F.DSC_HO_ELAPSED).toNat

/-- TERMS bit 0: the model is usable (R142). -/
def State.modelUsable (s : State) : Bool := s.fld F.DSC_MODEL_STATUS_TERMS % 2 == 1

/-- The states in which an epoch may train the model (R140); not on a STANDBY while the ACTIVE, as mirrored, is other than LOCKED
(spec/16_stay.md R831). -/
def State.epochTrains (s : State) : Bool :=
  s.inSail && !s.swSteers && !(s.fld F.STY_STATUS_ROLE == 1 && s.fld F.STY_PARTNER_DSC_STATE != 2) && (s.dscState == 2 || (s.dscState == 3 && s.bit F.DSC_STATUS_SYNCE_AIDED))

/-- Spoil the present epoch where the state does not train (R140). -/
def State.noteEpoch (s : State) : State :=
  if s.epochTrains then s else { s with dsc := { s.dsc with epochBad := true } }

/-- SYNCE_ACTIVE: SyncE is qualified and in use. -/
def State.showSynce (s : State) : State :=
  s.setBit F.DSC_STATUS_SYNCE_ACTIVE (s.inSail && s.srcOk 8 && !s.swSteers
    && (s.dscState == 1 || s.dscState == 2 || s.bit F.DSC_STATUS_SYNCE_AIDED))

/-! ### The state machine -/

/-- Entry into HOLDOVER (R137, R147): the bound starts at the magnitude of the last e', in ns. -/
def State.enterHoldover (s : State) : State :=
  let (ns, t) := s.roundOpen s.dsc.lastErr.natAbs 4
  let t := (t.log 0x0503 s.dsc.lastSel).raise F.DSC_EVENT_HOLDOVER
  { (t.setReg F.DSC_HO_BOUND (BitVec.ofNat 32 (min (2 ^ 32 - 1) ns.toNat))) with dsc := { s.dsc with hoStart := s.now } }

/-- A transition of R136 to a state, an acquisition phase (3 outside ACQUIRE) and the two flags (R137). -/
def State.dscGo (s : State) (st acq : Nat) (aided flock : Bool) : State :=
  let old := s.dscState
  let t := if s.inHoldover && st != 3 && st != 4 then s.setReg F.DSC_HO_ELAPSED (BitVec.ofNat 32 s.hoElapsed) else s
  let t := if st = 3 ∧ !s.inHoldover then t.enterHoldover else t
  let t := if st = 4 ∧ old ≠ 4 then (t.log 0x0504 s.hoElapsed).raise F.DSC_EVENT_AGED else t
  let t := ((t.setFld F.DSC_STATUS_STATE st).setFld F.DSC_STATUS_ACQ_PHASE acq).setBit F.DSC_STATUS_SYNCE_AIDED aided
  let t := t.setBit F.DSC_STATUS_FREQ_LOCK flock
  let t := { t with dsc := { t.dsc with trackRun := 0, unlockRun := 0, freqRun := 0, freqEst := none, prevErr := none } }
  let t := if st = old then t else t.raise F.DSC_EVENT_STATE_CHG
  let t := if st = 2 ∧ old ≠ 2 then t.raise F.DSC_EVENT_LOCKED else t
  t.noteEpoch.showSynce

/-- The rows of R136 that a sample's arithmetic does not decide, the higher row first (R164).  Its fourth row is read as not
applying to LOCKED on SyncE alone, which has no phase source to lose (DEDUCED, log entry 25); the row on SYNCE_AIDED names HOLDOVER alone, so
in HOLDOVER-AGED it keeps its value (DEDUCED, log entry 52). -/
def State.dscRows (s : State) (was : Nat) : State :=
  let st := s.dscState
  let act := s.dscSelect
  let sy := s.srcOk 8
  let flock := s.bit F.DSC_STATUS_FREQ_LOCK
  let aided := s.bit F.DSC_STATUS_SYNCE_AIDED
  if !s.bit F.MAST_STATUS_REF_OK || !s.bit F.DSC_CTRL_EN then (if st = 0 then s else s.dscGo 0 3 false false)
  else if (st = 1 ∨ st = 2) ∧ act = 0 ∧ !sy then
    if s.modelUsable && s.bit F.MAST_STATUS_SET then s.dscGo 3 3 false false else s.dscGo 0 3 false false
  else if st = 2 ∧ act = 0 ∧ !flock then s.dscGo 3 3 true false
  else if st = 2 ∧ act ≠ 0 ∧ ((was ≠ 0 ∧ act ≠ was) ∨ flock) then s.dscGo 1 1 false false
  else if (st = 3 ∨ st = 4) ∧ act ≠ 0 then s.dscGo 1 1 false false
  else if st = 3 ∧ ((s.reg F.DSC_AGED_BOUND).toNat < (s.reg F.DSC_HO_BOUND).toNat ∨ (s.reg F.DSC_AGED_TIME).toNat ≤ s.hoElapsed) then
    s.dscGo 4 3 aided false
  else if st = 3 ∧ aided ≠ sy then s.dscGo 3 3 sy false
  else if st = 0 ∧ (act ≠ 0 ∨ sy) then s.dscGo 1 (if s.modelUsable then 1 else 0) false false
  else s

/-- The unit looks at its sources and its conditions (R123, R136); in Hoist it is idle (R138), under SW its STATE is held. -/
def State.dscEval (s : State) : State :=
  if !s.inSail then s
  else
    let act := s.dscSelect
    let t := s.setFld F.DSC_STATUS_ACTIVE_SRC act
    if s.swSteers then t.showSynce
    else
      let t := { t with dsc := { t.dsc with sel := act, lastSel := if act = 0 then t.dsc.lastSel else act } }
      ((t.setBit F.DSC_STATUS_REF_HOLD (!s.bit F.MAST_STATUS_REF_OK)).dscRows s.dsc.sel).showSynce

/-- Qualify a source. -/
def State.qualify (s : State) (src : Nat) : State := (s.raise (srcFld src)).dscEval

/-- Disqualify a source: a qualified one is logged (R122). -/
def State.disqualify (s : State) (src : Nat) : State :=
  if s.bit (srcFld src) then (((s.clear (srcFld src)).log 0x0502 src).raise F.DSC_EVENT_SRC_DISQ).dscEval else s

/-- The unit starts at entry into Sail (R138): FREE-RUN, I equal to MAST_FREQ_EFF. -/
def State.dscStart (s : State) : State :=
  let t := ((s.setReg F.DSC_INTEG (s.reg F.MAST_FREQ_EFF)).setReg F.DSC_SRC_QUAL 0).setFld F.DSC_STATUS_ACTIVE_SRC 0
  let d := s.dsc
  let t := { t with dsc := { coef := d.coef, cov := d.cov, dirty := d.dirty, vbatAge := d.vbatAge, seq := d.seq, tempBad := d.tempBad,
                                eraseDone := d.eraseDone, snapAt := s.now } }
  (t.dscGo 0 3 false false).dscEval

/-! ### The loop -/

/-- pi x 10^50. -/
def piScaled : Nat := 314159265358979323846264338327950288419716939937510

/-- Bandwidth codes in mHz. -/
def bwMilli (code : Nat) : Nat := [1, 2, 5, 10, 20, 50, 100, 200, 500, 1000, 2000, 5000, 10000].getD (min code 12) 10000

/-- INJ in qn. -/
def State.inj (s : State) : Int := signed 64 (s.wide F.DSC_INJ_LO)

/-- I. -/
def State.integ (s : State) : Int := signed 32 (s.reg F.DSC_INTEG).toNat

/-- The loop or the model writes MAST_FREQ with a term, SW_OFFSET added under SHARED (R130, R144); a term beyond the register's
32 bits is open (log entry 1). -/
def State.loopFreq (s : State) (f : Int) : State :=
  let f := f + (if s.fld F.DSC_CTRL_STEER_AUTH = 1 then signed 32 (s.reg F.DSC_SW_OFFSET).toNat else 0)
  let (w, t) := if -2 ^ 31 ≤ f ∧ f < 2 ^ 31 then (BitVec.ofNat 32 (unsigned 32 f), s) else let (v, t) := s.open_; (BitVec.ofNat 32 v, t)
  t.setReg F.MAST_FREQ w

/-- Store I within FREQ_CLAMP (R129). -/
def State.setInteg (s : State) (v : Int) : State :=
  let lim : Int := ((s.fld F.DSC_FREQ_LIM_FREQ_CLAMP * 2 ^ 40 / 1000000 : Nat) : Int)
  let got := clampInt (-lim) lim v
  let t := s.setReg F.DSC_INTEG (BitVec.ofNat 32 (unsigned 32 got))
  if got = v then t.clear F.DSC_STATUS_CLAMPED
  else ((t.raise F.DSC_STATUS_CLAMPED).log 0x050D (unsigned 32 v)).raise F.DSC_EVENT_CLAMP

/-- A step of I by a fraction, at the register's resolution (R128; log entry 1). -/
def State.moveInteg (s : State) (num : Int) (den : Nat) : State :=
  let (d, t) := s.roundOpen num den
  t.setInteg (s.integ + d)

/-- R126 to R130 for one sample at a bandwidth, with the interval dt in qn.  With x = min(2 pi BW tau, 1/2), Kp = 1.414 x and
Ki = x^2; 274.877907 / tau is 274,877,907 x 4,000 / dt. -/
def State.loopUpdate (s : State) (err : Int) (dt code : Nat) : State :=
  let den := 10 ^ 50 * 4000000000000
  let c := 2 * piScaled * bwMilli code
  let capped := decide (den ≤ 2 * (c * dt))
  let p : Int := if capped then (-(707 * err)).tdiv 1000 else (-(1414 * ((c * dt : Nat) : Int) * err)).tdiv ((1000 * den : Nat) : Int)
  let t := s.phaseRequest none p false
  let t := if s.srcOk 8 then t
    else if capped then t.moveInteg (-(err * 274877907000)) dt
    else t.moveInteg (-(((c * c * dt * 274877907 * 4000 : Nat) : Int) * err)) (den * den)
  t.loopFreq t.integ

/-- Whether two frequency terms lie within FREQ_OK ppb. -/
def State.freqNear (s : State) (a b : Int) : Bool :=
  decide ((a - b).natAbs * 1000000000 ≤ s.fld F.DSC_FREQ_LIM_FREQ_OK * 2 ^ 40)

/-- Move ACQ_PHASE. -/
def State.acqTo (s : State) (ph : Nat) : State :=
  let t := s.setFld F.DSC_STATUS_ACQ_PHASE ph
  { t with dsc := { t.dsc with trackRun := 0, prevErr := none, freqEst := none } }

/-- A sample in FREQ: each pair of consecutive samples gives a frequency estimate. -/
def State.acqFreq (s : State) (src : Nat) (err : Int) (dt : Nat) : State :=
  let t := { s with dsc := { s.dsc with prevErr := some (src, err) } }
  match s.dsc.prevErr with
  | some (from_, e0) =>
    if from_ ≠ src then t
    else
      let t := if s.srcOk 8 then t.setInteg (signed 32 (s.reg F.DSC_SYNCE_MEAS).toNat)
        else if dt = 0 then let (v, t) := t.open_; t.setInteg (signed 32 v)
        else t.moveInteg (-((err - e0) * 1099511628000)) dt
      let t := t.loopFreq t.integ
      match s.dsc.freqEst with
      | some f => if t.freqNear t.integ f then t.acqTo 1 else { t with dsc := { t.dsc with freqEst := some t.integ } }
      | none => { t with dsc := { t.dsc with freqEst := some t.integ } }
  | none => t

/-- A sample in ALIGN (R135, R167). -/
def State.acqAlign (s : State) (err : Int) (full : Bool) : State :=
  if s.mast.rem ≠ 0 then s
  else if err.natAbs ≤ (s.reg F.DSC_LOCK_THR).toNat then s.acqTo 2
  else s.phaseRequest none (-err) (full && !s.bit F.MAST_STATUS_SET)

/-- A sample in TRACK. -/
def State.acqTrack (s : State) (err : Int) (dt : Nat) : State :=
  if (s.reg F.DSC_UNLOCK_THR).toNat < err.natAbs then s.acqTo 1
  else
    let t := s.loopUpdate err dt (s.fld F.DSC_BW_ACQ)
    let n := if err.natAbs ≤ (s.reg F.DSC_LOCK_THR).toNat then s.dsc.trackRun + 1 else 0
    let t := { t with dsc := { t.dsc with trackRun := n } }
    if s.fld F.DSC_COUNTS_LOCK_N ≤ n then t.dscGo 2 3 false false else t

/-- A sample in LOCKED: the loop, then UNLOCK_N. -/
def State.lockedSample (s : State) (err : Int) (dt : Nat) : State :=
  let t := s.loopUpdate err dt (s.fld F.DSC_BW_TRACK)
  let n := if (s.reg F.DSC_UNLOCK_THR).toNat < err.natAbs then s.dsc.unlockRun + 1 else 0
  let t := { t with dsc := { t.dsc with unlockRun := n } }
  if s.fld F.DSC_COUNTS_UNLOCK_N ≤ n then t.dscGo 1 1 false false else t

/-- A phase sample drives the loop when its source is the active one (R125-R135, R173): e' = e - INJ + REM. -/
def State.steer (s : State) (src : Nat) (e : Int) (dt : Nat) (full : Bool) : State :=
  if s.inSail && !s.swSteers && s.bit F.DSC_CTRL_EN && src == s.dsc.sel && (s.dscState == 1 || s.dscState == 2) then
    let err := e - s.inj + s.remQn
    let t := { s with dsc := { s.dsc with lastErr := err } }
    if s.dscState = 2 then t.lockedSample err dt
    else match s.fld F.DSC_STATUS_ACQ_PHASE with
      | 0 => t.acqFreq src err dt
      | 1 => t.acqAlign err full
      | _ => t.acqTrack err dt
  else s

/-- The measurement of a sample under any authority: DSC_LAST_ERR, DSC_SAMPLE_CNT, and the interval of R126 in qn, which the first
sample of a source leaves open up to its cap of 4 s (log entry 1).  The interval is that between the beats at which the samples are processed
(DESIGN CHOICE, log entry 52). -/
def State.measure (s : State) (src : Nat) (e : Int) : Nat × State :=
  let (dt, t) := match Table.get (fun _ => none) s.dsc.lastAt src with
    | some m => (min 16000000000 ((s.now + 2 ^ 64 - m) % 2 ^ 64), s)
    | none => let (v, t) := s.open_; (v % 16000000001, t)
  let t := (t.countWrap F.DSC_SAMPLE_CNT 1).setWide F.DSC_LAST_ERR_LO (unsigned 64 e)
  (dt, { t with dsc := { t.dsc with lastAt := Table.put (fun _ => none) t.dsc.lastAt src (some s.now) } })

/-! ### PPS and ToD -/

/-- DSC_PPS_COMP, signed. -/
def State.ppsComp (s : State) : Int := signed 32 (s.reg F.DSC_PPS_COMP).toNat

/-- PPS is lost: 1.5 s have passed since its last edge (R118); an applied step counts as time (log entry 52). -/
def State.ppsLapse (s : State) : State :=
  match s.dsc.ppsPrev with
  | some m =>
    if 6000000000 ≤ s.since m then
      ({ s with dsc := { s.dsc with ppsPrev := none, ppsRun := 0, ppsOuts := 0 } }).disqualify 1
    else s
  | none => s

/-- An interval that is off a second by the given units is judged against WIN (R117, R118). -/
def State.ppsOff (s : State) (stamp : Nat) (off : Int) : State :=
  if off.natAbs ≤ s.fld F.DSC_PPS_CFG_WIN * 128 then
    { s with dsc := { s.dsc with ppsRun := s.dsc.ppsRun + 1, ppsOuts := 0, ppsPrev := some stamp } }
  else
    let (ns, t) := s.roundOpen off 4
    let t := t.log 0x050B (unsigned 32 (clampInt (-2 ^ 31) (2 ^ 31 - 1) ns))
    { t with dsc := { t.dsc with ppsRun := 1, ppsOuts := s.dsc.ppsOuts + 1, ppsPrev := some stamp } }

/-- The interval of an edge against WIN (R117, R118); an edge outside it begins a run (DEDUCED, log entry 25). -/
def State.ppsInterval (s : State) (stamp : Nat) : State :=
  match s.dsc.ppsPrev with
  | none => { s with dsc := { s.dsc with ppsRun := 1, ppsOuts := 0, ppsPrev := some stamp } }
  | some m => s.ppsOff stamp ((((stamp + 2 ^ 64 - m) % 2 ^ 64 : Nat) : Int) - 4000000000)

/-- PPS qualifies or not by its counts (R117, R118). -/
def State.ppsJudge (s : State) : State :=
  if s.bit (srcFld 1) then (if 2 ≤ s.dsc.ppsOuts then s.disqualify 1 else s)
  else if s.fld F.DSC_COUNTS_QUAL_N ≤ s.dsc.ppsRun then s.qualify 1 else s

/-- The PPS error of an edge within the second (R107). -/
def State.ppsError (s : State) (stamp : Nat) : Int :=
  ((stamp : Int) - s.ppsComp + 2000000000) % 4000000000 - 2000000000

/-- An edge of PPS_IN (R107, R117, R118, R125): the unit stamps those of the polarity that EDGE
names, and while SET is 0 their sample waits for ToD. -/
def execPpsInEdge (edge : PpsEdge) (s : State) : Out :=
  if !s.inSail || s.bit F.DSC_PPS_CFG_EDGE == edge.level then .next s
  else
    let stamp := (s.now + edge.qn.val) % 2 ^ 64
    let t := ((s.ppsLapse.setWide F.DSC_PPS_STAMP_LO stamp).ppsInterval stamp).ppsJudge
    let e := s.ppsError stamp
    let (dt, t) := t.measure 1 e
    let t := { t with dsc := { t.dsc with edgeSinceTod := true, todDone := false, ppsWait := none } }.dscEval
    .next (if t.bit F.MAST_STATUS_SET then t.steer 1 e dt false
      else { t with dsc := { t.dsc with ppsWait := some (dt, t.mast.steps) } })

/-- No edge for 1.5 s (R118). -/
def execPpsTimeout (s : State) : Out := .next (if s.inSail then s.ppsLapse else s)

/-- A refused ToD (R109). -/
def State.todRefused (s : State) (age : Option Nat) : State :=
  let ms := match age with | some a => min (2 ^ 32 - 1) (a / 4000000) | none => 2 ^ 32 - 1
  (s.log 0x0505 ms).raise F.DSC_EVENT_TOD_BAD

/-- An accepted ToD second (R110, R111).  The sign of the mismatch in 0x0506 is open (log entry 1). -/
def State.todAccepted (s : State) (sec : Nat) : State :=
  let stamp := s.wide F.DSC_PPS_STAMP_LO
  let s := { s with dsc := { s.dsc with edgeSinceTod := false, todDone := true } }
  if s.bit F.MAST_STATUS_SET then
    let d : Int := (sec : Int) - ((stamp : Int) - s.ppsComp + 2000000000) / 4000000000
    let t := s.setBit F.DSC_STATUS_TOD_MISMATCH (d != 0)
    if d = 0 then t
    else
      let (v, t) := t.open_
      (t.log 0x0506 (unsigned 32 (clampInt (-2 ^ 31) (2 ^ 31 - 1) (if v % 2 = 0 then d else -d)))).raise F.DSC_EVENT_TOD_BAD
  else
    let t := s.clear F.DSC_STATUS_TOD_MISMATCH
    let e := signed 64 (unsigned 64 ((stamp : Int) - ((sec : Int) * 4000000000 + s.ppsComp)))
    match s.dsc.ppsWait with
    | some (dt, n) =>
      let t := { t with dsc := { t.dsc with ppsWait := none } }
      if n = s.mast.steps then ((t.setWide F.DSC_LAST_ERR_LO (unsigned 64 e)).dscEval).steer 1 e dt true else t
    | none => t

/-- DSC_TOD_SEC_LO commits a TAI second for the last edge (R108-R111); in Hoist the unit is idle (R138). -/
def execTodCommit (p : Path) (lo : Word) (s : State) : Out :=
  let (v, t) := s.commitWide p F.DSC_TOD_SEC_LO lo
  let sec := v % 2 ^ 48
  let t := t.setWide F.DSC_TOD_SEC_LO sec
  let stamp := s.wide F.DSC_PPS_STAMP_LO
  let age := s.since stamp
  let seen := s.dsc.edgeSinceTod || s.dsc.todDone
  whenOpen s (
    if s.wideMirrored F.DSC_TOD_SEC_LO then s.mirrorRefused F.DSC_TOD_SEC_LO
    else if !s.inSail then t
    else if !s.dsc.edgeSinceTod || decide (3600000000 < age) then t.todRefused (if seen then some age else none)
    else t.todAccepted sec)

/-! ### PTP, and the samples of other units -/

/-- DSC_PTP_AT_LO commits the instant of the next sample (R112). -/
def execPtpAtCommit (p : Path) (lo : Word) (s : State) : Out :=
  let (v, t) := s.commitWide p F.DSC_PTP_AT_LO lo
  let t := t.setWide F.DSC_PTP_AT_LO v
  whenOpen s (s.mirrorGuard (s.wideMirrored F.DSC_PTP_AT_LO) F.DSC_PTP_AT_LO { t with dsc := { t.dsc with ptpAt := (v, s.mast.steps) } })

/-- PTP_TIMEOUT has passed with no accepted sample (R119); an applied step counts as time (log entry 52). -/
def State.ptpLapse (s : State) : State :=
  match s.dsc.ptpLast with
  | some m =>
    if (s.reg F.DSC_PTP_TIMEOUT).toNat * 4000000 < s.since m then
      ({ s with dsc := { s.dsc with ptpRun := 0, ptpLast := none } }).disqualify 2
    else s
  | none => s

/-- A full-time sample of a source is measured and steers (R126-R135). -/
def State.fullSample (s : State) (src : Nat) (e : Int) : State :=
  let (dt, t) := s.measure src e
  t.dscEval.steer src e dt true

/-- A PTP sample was taken before an applied step (R115): a step since its AT was committed, or an AT before the last step. -/
def State.ptpBeforeStep (s : State) : Bool :=
  s.dsc.ptpAt.2 != s.mast.steps || (match s.mast.stepAt with | some m => !atOrAfter s.dsc.ptpAt.1 m | none => false)

/-- An accepted PTP sample (R114, R119, R173). -/
def State.ptpAccepted (s : State) (err : Int) : State :=
  let at_ := s.dsc.ptpAt.1
  let add := (s.mast.slewHist.filter fun p => atOrAfter p.1 at_ && p.1 != at_).foldl (fun n p => n + p.2) (0 : Int)
  let (d, t) := s.roundOpen add (2 ^ 38)
  let t := t.ptpLapse
  let t := { t with dsc := { t.dsc with ptpRun := t.dsc.ptpRun + 1, ptpLast := some s.now } }
  let t := if !t.bit (srcFld 2) && decide (s.fld F.DSC_COUNTS_QUAL_N ≤ t.dsc.ptpRun) then t.qualify 2 else t
  t.fullSample 2 (err + d)

/-- DSC_PTP_ERR_LO commits a PTP sample (R112-R115). -/
def execPtpSampleCommit (p : Path) (lo : Word) (s : State) : Out :=
  let (v, t) := s.commitWide p F.DSC_PTP_ERR_LO lo
  let t := t.setWide F.DSC_PTP_ERR_LO v
  let age := signed 64 (unsigned 64 ((s.now : Int) - s.dsc.ptpAt.1))
  whenOpen s (
    if s.wideMirrored F.DSC_PTP_ERR_LO then s.mirrorRefused F.DSC_PTP_ERR_LO
    else if !s.inSail then t
    else if age < 0 ∨ 8000000000 < age then
      let (us, t) := t.roundOpen age 4000
      (t.log 0x0507 (unsigned 32 (clampInt (-2 ^ 31) (2 ^ 31 - 1) us))).raise F.DSC_EVENT_PTP_REFUSED
    else if t.ptpBeforeStep then t
    else t.ptpAccepted (signed 64 v))

/-- PTP_TIMEOUT passes (R119). -/
def execPtpTimeout (s : State) : Out := .next (if s.inSail then s.ptpLapse else s)

/-- DSC_CTRL.PTP_DISQ (R119). -/
def execPtpDisq (s : State) : Out :=
  whenOpen s (if s.inSail then ({ s with dsc := { s.dsc with ptpRun := 0, ptpLast := none } }).disqualify 2 else s)

/-- COORD (3) delivers a sample (spec/15_shrouds.md R787). -/
def State.coordSample (s : State) (e : Int) : State :=
  let t := { s with dsc := { s.dsc with coordRun := s.dsc.coordRun + 1, coordAt := s.clock } }
  let t := if !t.bit (srcFld 3) && decide (s.fld F.DSC_COUNTS_QUAL_N ≤ t.dsc.coordRun) then t.qualify 3 else t
  t.fullSample 3 e

/-- COORD is disqualified by its unit (R120). -/
def State.coordLost (s : State) : State := ({ s with dsc := { s.dsc with coordRun := 0 } }).disqualify 3

/-- PARTNER (4) delivers a sample (spec/16_stay.md R836). -/
def State.partnerSample (s : State) (e : Int) : State :=
  let t := { s with dsc := { s.dsc with partnerRun := s.dsc.partnerRun + 1, partnerAt := s.clock } }
  let t := if !t.bit (srcFld 4) && decide (s.fld F.DSC_COUNTS_QUAL_N ≤ t.dsc.partnerRun) then t.qualify 4 else t
  t.fullSample 4 e

/-- PARTNER is disqualified by its unit (R120). -/
def State.partnerLost (s : State) : State := ({ s with dsc := { s.dsc with partnerRun := 0 } }).disqualify 4

/-- What R171 adds to R136 at a stay takeover whose active source was PARTNER, for a unit in ACQUIRE: ALIGN on another phase source, else
HOLDOVER. -/
def State.dscTakeover (s : State) : State :=
  let t := s.partnerLost
  if s.dsc.sel ≠ 4 ∨ t.swSteers ∨ t.dscState ≠ 1 then t
  else if t.dsc.sel = 0 then t.dscGo 3 3 (t.srcOk 8) false
  else t.dscGo 1 1 false false

/-! ### SyncE -/

/-- DSC_SYNCE_MEAS. -/
def State.synceMeas (s : State) : Int := signed 32 (s.reg F.DSC_SYNCE_MEAS).toNat

/-- SyncE is outside its window, or its lane's PCS is not locked (R121): 0x050C goes with the disqualification. -/
def State.synceLost (s : State) : State :=
  let s := { s with dsc := { s.dsc with synceRun := 0 } }
  if s.bit (srcFld 8) then
    let (ppb, t) := s.roundOpen (s.synceMeas * 1000000000) (2 ^ 40)
    (t.log 0x050C (unsigned 32 ppb)).disqualify 8
  else s

/-- The lane that SyncE uses lost its PCS lock (R121). -/
def State.syncePcs (s : State) (k : Nat) : State :=
  if s.inSail && s.fld F.DSC_SYNCE_CFG_LANE == k && !s.bit (F.LN_STATUS_PCS_LOCK k) then s.synceLost else s

/-- LOCK_N consecutive measurements near I lock ACQUIRE on SyncE alone; one that meets an active phase source breaks the run (R136). -/
def State.synceLocks (s : State) : State :=
  if s.dscState ≠ 1 then s
  else
    let n := if s.dsc.sel = 0 ∧ s.freqNear s.synceMeas s.integ then s.dsc.freqRun + 1 else 0
    let t := { s with dsc := { s.dsc with freqRun := n } }
    if s.dsc.sel = 0 ∧ s.fld F.DSC_COUNTS_LOCK_N ≤ n then t.dscGo 2 3 false true else t

/-- The frequency side of a measurement: FREQ_LOCK of R136, then R132 while SyncE is qualified; MAST_FREQ follows I in the states whose F
is the loop's, or I under R132. -/
def State.synceSteer (s : State) : State :=
  if !s.srcOk 8 || s.swSteers || !s.bit F.DSC_CTRL_EN then s
  else
    let t := s.synceLocks
    let den := 10 ^ 50 * 1000
    let k := min den (2 * piScaled * bwMilli (s.fld F.DSC_BW_FREQ))
    let t := t.moveInteg ((k : Int) * (s.synceMeas - t.integ)) den
    if t.dscState = 1 ∨ t.dscState = 2 ∨ (t.inHoldover ∧ t.bit F.DSC_STATUS_SYNCE_AIDED) then t.loopFreq t.integ else t

/-- The once-per-second SyncE measurement (R116, R121, R132): it is stored whether or not the lane's PCS is locked.  Clearing EN or choosing another
LANE disqualifies nothing of itself, and the run goes on (DEDUCED, log entry 52). -/
def execSynceMeasurement (meas : Word) (s : State) : Out :=
  if !s.inSail || !s.bit F.DSC_SYNCE_CFG_EN then .next s
  else
    let t := s.setReg F.DSC_SYNCE_MEAS meas
    let ok := s.bit (F.LN_STATUS_PCS_LOCK (s.fld F.DSC_SYNCE_CFG_LANE))
      && decide (t.synceMeas.natAbs * 1000000 ≤ s.fld F.DSC_SYNCE_CFG_SYNCE_WIN * 2 ^ 40)
    let t := if ok then
        let t := { t with dsc := { t.dsc with synceRun := t.dsc.synceRun + 1 } }
        if !t.bit (srcFld 8) && decide (s.fld F.DSC_COUNTS_QUAL_N ≤ t.dsc.synceRun) then t.qualify 8 else t
      else t.synceLost
    .next t.synceSteer

/-- A lock of a lane is lost; SyncE hears of its PCS (R121). -/
def execLaneLockLoss (k : Fin 8) (what : LaneLock) (s : State) : Out := .next ((s.laneLoses k what).syncePcs k)

/-- LNk_CMD.DOWN. -/
def execLaneDown (k : Fin 8) (s : State) : Out := whenOpen s ((s.laneOff k).syncePcs k)

/-- No REFIN edge for 1 us (spec/02_mast.md R75): the unit goes to FREE-RUN (R136). -/
def execRefinLoss (s : State) : Out := .next s.refinLoses.dscEval

/-- REFIN returns (spec/02_mast.md R77): source selection resumes. -/
def execRefinReturn (s : State) : Out := .next s.refinComes.dscEval

/-! ### STEER_AUTH -/

/-- A change of STEER_AUTH (R158-R160); 0b11 is refused. -/
def execSteerAuthWrite (_p : Path) (auth : Fin 4) (s : State) : Out :=
  let old := s.fld F.DSC_CTRL_STEER_AUTH
  whenOpen s (
    if s.mirrorMask F.DSC_CTRL / 2 % 4 ≠ 0 then s.mirrorRefused F.DSC_CTRL
    else if auth.val = 3 then (s.log 0x050F F.DSC_CTRL).raise F.DSC_EVENT_AUTH_REFUSED
    else if auth.val = old then s
    else
      let ofs := signed 32 (s.reg F.DSC_SW_OFFSET).toNat
      let t := s.setFld F.DSC_CTRL_STEER_AUTH auth.val
      let t := if auth.val = 2 then t
        else t.setReg F.DSC_INTEG (BitVec.ofNat 32 (unsigned 32 (s.sfld F.MAST_FREQ_EFF_FREQ - ofs)))
      let t := if old = 1 then (t.setWide F.DSC_INJ_LO 0).setReg F.DSC_SW_OFFSET 0 else t
      t.noteEpoch.dscEval)

/-- DSC_CTRL.INJ_CLEAR (R160). -/
def execInjClear (s : State) : Out := whenOpen s (s.setWide F.DSC_INJ_LO 0)

/-! ### The model engine -/

/-- Show the coefficients in their views. -/
def State.showCoef (s : State) (c : List Int) : State :=
  let v := fun (i sh : Nat) => BitVec.ofNat 32 (unsigned 32 (c.getD i 0 / 2 ^ sh))
  let t := ((s.setReg F.DSC_MODEL_A0 (v 0 32)).setReg F.DSC_MODEL_A1 (v 1 16)).setReg F.DSC_MODEL_B1 (v 2 16)
  { (t.setReg F.DSC_MODEL_B2 (v 3 16)) with dsc := { s.dsc with coef := c } }

/-- TERMS, with MODEL_USABLE (R142). -/
def State.setTerms (s : State) (v : Nat) : State :=
  (s.setFld F.DSC_MODEL_STATUS_TERMS v).setBit F.DSC_STATUS_MODEL_USABLE (v % 2 == 1)

/-- MODEL_RESET: coefficients, P, TRAIN_S, TMIN and TMAX clear, t0 is the present Mast. -/
def State.modelReset (s : State) : State :=
  let t := (s.showCoef [0, 0, 0, 0]).setTerms 0
  let t := ((t.setReg F.DSC_MODEL_TRAIN 0).setReg F.DSC_MODEL_SPAN 0).setWide F.DSC_MODEL_T0_LO s.now
  { t with dsc := { t.dsc with cov := List.replicate 10 0 } }

/-- A refused command of the unit (R169, R170). -/
def State.dscRefused (s : State) (a : Nat) : State := (s.log 0x050F a).raise F.DSC_EVENT_AUTH_REFUSED

/-- DSC_CTRL.MODEL_RESET (R169). -/
def execModelReset (s : State) : Out := whenOpen s (if s.inHoldover then s.dscRefused F.DSC_CTRL else s.modelReset)

/-- A write of DSC_MODEL_TREF (R170). -/
def execModelTrefWrite (_p : Path) (v : Word) (s : State) : Out :=
  whenOpen s (if s.inHoldover then s.dscRefused F.DSC_MODEL_TREF
    else
      let (v, t) := s.mirrorMerge F.DSC_MODEL_TREF v
      (t.setFld F.DSC_MODEL_TREF_TREF v.toNat).modelReset)

/-- I is sampled with the temperature, once per second (R139). -/
def State.sampleInteg (s : State) : State :=
  let sec := s.now / 4000000000
  if s.dsc.tempSec = some sec then s
  else { s with dsc := { s.dsc with epochInteg := s.dsc.epochInteg ++ [s.integ] } }

/-- A temperature sample of the TSRC sensor (R139, R143): DSC_TEMP_NOW keeps the last valid T. -/
def State.modelTemp (s : State) (t : Option Int) : State :=
  match t with
  | none =>
    let u := s.clear F.DSC_TEMP_NOW_VALID
    let u := if s.dsc.tempBad then u else (u.log 0x050E (s.fld F.DSC_MODEL_CFG_TSRC)).raise F.DSC_EVENT_TEMP_BAD
    { u with dsc := { u.dsc with tempBad := true, epochBad := true } }
  | some v =>
    let u := (s.sampleInteg.setFld F.DSC_TEMP_NOW_T (unsigned 16 v)).raise F.DSC_TEMP_NOW_VALID
    let sec := s.now / 4000000000
    let u := { u with dsc := { u.dsc with tempBad := false } }
    if s.dsc.tempSec = some sec then u
    else { u with dsc := { u.dsc with tempSec := some sec, epochTemps := s.dsc.epochTemps ++ [v] } }

/-- Integers below a bound that the spec leaves open (log entry 1). -/
def State.openInts (s : State) : Nat → List Int × State
  | 0 => ([], s)
  | n + 1 => let (v, t) := s.open_; let (vs, t) := t.openInts n; (signed 64 v :: vs, t)

/-- Widen TMIN and TMAX by an applied epoch's average temperature; the first epoch sets both (DEDUCED, log entry 52). -/
def State.widenSpan (s : State) (temp : Int) : State :=
  if s.fld ⟨F.DSC_MODEL_TRAIN, 0, 32⟩ = 0 then (s.setFld F.DSC_MODEL_SPAN_TMIN (unsigned 16 temp)).setFld F.DSC_MODEL_SPAN_TMAX (unsigned 16 temp)
  else
    (s.setFld F.DSC_MODEL_SPAN_TMIN (unsigned 16 (min temp (s.sfld F.DSC_MODEL_SPAN_TMIN)))).setFld F.DSC_MODEL_SPAN_TMAX
      (unsigned 16 (max temp (s.sfld F.DSC_MODEL_SPAN_TMAX)))

/-- The terms whose condition holds (R141). -/
def State.dueTerms (s : State) : Nat :=
  let train := (s.reg F.DSC_MODEL_TRAIN).toNat
  let span := s.sfld F.DSC_MODEL_SPAN_TMAX - s.sfld F.DSC_MODEL_SPAN_TMIN
  (if 608 ≤ train then 1 else 0) + (if 86400 ≤ train then 2 else 0) + (if 256 ≤ span then 4 else 0) + (if 1024 ≤ span then 8 else 0)

/-- The mean of an epoch's samples, or a value in its place when none was taken. -/
def State.epochMean (s : State) (vs : List Int) (other : Int) : Int × State :=
  match vs with
  | [] => (other, s)
  | vs => s.roundOpen (vs.foldl (· + ·) 0) vs.length

/-- t - t0 in qn (R146). -/
def State.modelAge (s : State) : Int :=
  if s.bit F.HOIST_CAUSE_VBAT_LOST && !s.bit F.MAST_STATUS_SET then s.dsc.vbatAge
  else signed 64 (unsigned 64 ((s.now : Int) - s.wide F.DSC_MODEL_T0_LO))

/-- What the fit takes (R139): LAMBDA_K, the terms, the averages of I and T - TREF, t - t0, the coefficients, P and the residual. -/
def State.fitInputs (s : State) (terms : Nat) (integ temp : Int) : List Int :=
  [(s.fld F.DSC_MODEL_CFG_LAMBDA_K : Int), (terms : Int), integ, temp - s.sfld F.DSC_MODEL_TREF_TREF, s.modelAge]
    ++ s.dsc.coef ++ s.dsc.cov ++ [((s.reg F.DSC_MODEL_RESID).toNat : Int)]

/-- Apply an epoch to the fit (R139-R142): the coefficients of terms outside it stay 0. -/
def State.applyEpoch (s : State) : State :=
  let (temp, t) := s.epochMean s.dsc.epochTemps (s.sfld F.DSC_TEMP_NOW_T)
  let (integ, t) := t.epochMean s.dsc.epochInteg s.integ
  let t := (t.widenSpan temp).addSat ⟨F.DSC_MODEL_TRAIN, 0, 32⟩ 16
  let had := t.fld F.DSC_MODEL_STATUS_TERMS
  let due := t.dueTerms
  let on := fun i => (had / 2 ^ i % 2 == 1) || (due / 2 ^ i % 2 == 1)
  let terms := (List.range 4).foldl (fun n i => n + (if on i then 2 ^ i else 0)) 0
  let out := Config.modelFit (t.fitInputs terms integ temp)
  let word := fun i => signed 64 (unsigned 64 (out.getD i 0))
  let t := (t.showCoef ((List.range 4).map fun i => if on i then word i else 0)).setTerms terms
  { (t.setReg F.DSC_MODEL_RESID (BitVec.ofInt 32 (out.getD 14 0))) with
    dsc := { t.dsc with cov := (List.range 10).map fun i => word (4 + i), dirty := true } }

/-- The epoch that ends may be applied. -/
def State.epochGood (s : State) : Bool := s.inSail && !s.dsc.epochBad && s.epochTrains && s.dsc.epochSteps == s.mast.steps

/-- A 16 s epoch ends (R139, R140). -/
def State.endEpoch (s : State) : State :=
  let t := if s.epochGood then s.applyEpoch else s
  { t with dsc := { t.dsc with epochBad := !s.epochTrains || s.dsc.tempBad, epochSteps := s.mast.steps, epochTemps := [], epochInteg := [] } }

/-- f = a0 + a1 (t - t0) + b1 dT + b2 dT^2 over 2^48 x 14,400,000,000,000 (qn per hour). -/
def State.modelNum (s : State) : Int :=
  let c := fun i => s.dsc.coef.getD i 0
  let h : Int := 14400000000000
  let dT := s.sfld F.DSC_TEMP_NOW_T - s.sfld F.DSC_MODEL_TREF_TREF
  c 0 * 2 ^ 16 * h + c 1 * 2 ^ 16 * s.modelAge + c 2 * 2 ^ 8 * dT * h + c 3 * dT * dT * h

/-- HO_BOUND (R147): the last e' in ns and an uncertainty that the spec gives no formula for (log entry 1). -/
def State.boundNow (s : State) : State :=
  let (u, t) := s.open_
  let (ns, t) := t.roundOpen s.dsc.lastErr.natAbs 4
  t.setReg F.DSC_HO_BOUND (BitVec.ofNat 32 (min (2 ^ 32 - 1) (ns.toNat + u)))

/-- The once-per-second prediction and bound (R144, R147), then the rows of R136.  With EN 0 software owns MAST_FREQ (R157) and no prediction is
written; in HOLDOVER with a model that is not usable f is written all the same (DEDUCED, log entry 52). -/
def execModelPrediction (s : State) : Out :=
  if !s.inSail || s.swSteers || !s.bit F.DSC_CTRL_EN then .next s
  else
    let t := if s.inHoldover then s.boundNow else s
    let predicts := (s.inHoldover && !s.bit F.DSC_STATUS_SYNCE_AIDED)
      || (s.dscState == 0 && s.modelUsable && s.bit F.MAST_STATUS_SET)
    let t := if predicts then
        let (f, t) := t.roundOpen s.modelNum (2 ^ 48 * 14400000000000)
        t.loopFreq f
      else t
    .next t.dscEval

/-! ### The journal -/

/-- Byte offset of record r of journal sector j (spec/12_flash_store.md, sectors 128 and 129). -/
def recordOfs (j r : Nat) : Nat := 0x800000 + 0x10000 * j + 256 * r

/-- A record whose MAGIC and CRC are good (R153). -/
def recordGood (bs : List Byte) : Bool :=
  leNat (bs.take 4) == 0x4D444C31 && leNat (bs.drop 252) == (crc32 (bs.take 252)).toNat

/-- SEQ of a record. -/
def recordSeq (bs : List Byte) : Nat := leNat ((bs.drop 4).take 4)

/-- The good record with the highest SEQ: its sector, SEQ and bytes (R153). -/
def State.bestRecord (s : State) : Option (Nat × Nat × List Byte) :=
  (List.range 512).foldl (fun best i =>
    let a := recordOfs (i / 256) (i % 256)
    if leNat (s.flashBytes a 4) = 0x4D444C31 then
      let bs := s.flashBytes a 256
      let newer := match best with | some b => decide (b.2.1 < recordSeq bs) | none => true
      if recordGood bs && newer then some (i / 256, recordSeq bs, bs) else best
    else best) none

/-- The active journal sector. -/
def State.journalSector (s : State) : Nat := match s.bestRecord with | some b => b.1 | none => 0

/-- A sector reads erased throughout. -/
def State.sectorBlank (s : State) (k : Nat) : Bool :=
  (Table.get (fun _ => none) s.flash.openAt k).isNone && !(s.flash.mem.any fun c => c.1 / 65536 == k)
    && !(s.flash.bad.any fun c => c.1 / 2048 == k)

/-- Records of journal sector j that are used. -/
def State.journalUsed (s : State) (j : Nat) : Nat :=
  if (Table.get (fun _ => none) s.flash.openAt (128 + j)).isSome then 256
  else
    let a := s.flash.mem.foldl (fun m c => if c.1 / 65536 = 128 + j then max m (c.1 % 65536 / 256 + 1) else m) 0
    s.flash.bad.foldl (fun m c => if c.1 / 2048 = 128 + j then max m (c.1 % 2048 / 8 + 1) else m) a

/-- A snapshot's record. -/
def State.snapRecord (s : State) (seq reason : Nat) : List Byte :=
  let le := fun n (v : Nat) => leBytes n v
  let body := le 4 0x4D444C31 ++ le 4 seq ++ le 8 s.now ++ le 8 (s.wide F.DSC_MODEL_T0_LO) ++ le 2 (s.fld F.DSC_MODEL_TREF_TREF)
    ++ le 1 (s.fld F.DSC_MODEL_STATUS_TERMS) ++ le 1 (s.fld F.DSC_MODEL_CFG_LAMBDA_K) ++ le 4 (s.reg F.DSC_MODEL_TRAIN).toNat
    ++ ((List.range 4).flatMap fun i => le 8 (unsigned 64 (s.dsc.coef.getD i 0)))
    ++ ((List.range 10).flatMap fun i => le 8 (unsigned 64 (s.dsc.cov.getD i 0)))
    ++ le 4 (s.reg F.DSC_MODEL_RESID).toNat ++ le 2 (s.fld F.DSC_MODEL_SPAN_TMIN) ++ le 2 (s.fld F.DSC_MODEL_SPAN_TMAX)
    ++ le 1 (s.fld F.DSC_MODEL_CFG_TSRC) ++ le 1 reason ++ List.replicate 98 0
  body ++ le 4 (crc32 body).toNat

/-- Load a record into the model (R153, R154, spec/16_stay.md R830), with LOADED. -/
def State.modelLoad (s : State) (bs : List Byte) (origin : Nat) : State :=
  let at_ := fun o n => leNat ((bs.drop o).take n)
  let t := s.showCoef ((List.range 4).map fun i => signed 64 (at_ (0x20 + 8 * i) 8))
  let t := (t.setTerms (at_ 0x1A 1 % 16)).setFld F.DSC_MODEL_STATUS_LOADED origin
  let t := ((t.setWide F.DSC_MODEL_T0_LO (at_ 0x10 8)).setFld F.DSC_MODEL_TREF_TREF (at_ 0x18 2)).setReg F.DSC_MODEL_TRAIN
    (BitVec.ofNat 32 (at_ 0x1C 4))
  let t := (t.setReg F.DSC_MODEL_RESID (BitVec.ofNat 32 (at_ 0x90 4))).setReg F.DSC_MODEL_SPAN
    (BitVec.ofNat 32 (at_ 0x94 2 + 2 ^ 16 * at_ 0x96 2))
  { t with dsc := { t.dsc with cov := (List.range 10).map fun i => signed 64 (at_ (0x40 + 8 * i) 8),
                               vbatAge := signed 64 (unsigned 64 ((at_ 8 8 : Int) - at_ 0x10 8)) } }

/-- During Hoist the engine loads its model (R153, R154): the best record, or the seed of the image. -/
def State.modelAtHoist (s : State) (seed : Option (List Byte)) (force : Bool) : State :=
  let best := s.bestRecord
  let t := match best with
    | some b => { s with dsc := { s.dsc with seq := some b.2.1 } }
    | none => { (s.log 0x050A seed.isSome.toNat) with dsc := { s.dsc with seq := none } }
  let j := s.journalSector
  let t := { t with dsc := { t.dsc with eraseDone := decide (240 ≤ s.journalUsed j) && s.sectorBlank (129 - j) } }
  match best, seed with
  | some b, none => t.modelLoad b.2.2 1
  | some b, some m => if force then t.modelLoad m 2 else t.modelLoad b.2.2 1
  | none, some m => t.modelLoad m 2
  | none, none => t

/-- RESULT and REASON of a snapshot attempt. -/
def State.snapResult (s : State) (result reason : Nat) : State :=
  (s.setFld F.DSC_SNAP_STATUS_RESULT result).setFld F.DSC_SNAP_STATUS_REASON reason

/-- A snapshot is skipped (R149, R151). -/
def State.snapSkip (s : State) (result reason : Nat) : State :=
  ((s.snapResult result reason).log 0x0508 reason).raise F.DSC_EVENT_SNAP_SKIP

/-- A program or an erase of the journal failed (R152). -/
def State.journalFailed (s : State) (status : Nat) : State := (s.log 0x0509 status).raise F.DSC_EVENT_SNAP_FAIL

/-- The erase of the other sector, when the active one has 240 records, until it has completed (R150). -/
def State.journalErase (s : State) : State :=
  let j := s.journalSector
  let o := 1 - j
  if s.journalUsed j < 240 || s.dsc.eraseDone || s.flash.op.isSome then s
  else
    let more := if s.compactsWithin 1 then 1 else 0
    let (ok, t) := s.ledgerAsk 2 (2004 * (1 + more)) false
    if !ok then t
    else if s.writesBarred then (t.ledgerEnd 2).journalFailed stPFI
    else t.startSector { erase := true, ofs := recordOfs o 0, total := 1, done := 0, src := 0, taken := [], entry := none,
                         caller := 3, waits := false }

/-- Start the program of a record (R148, R149): epochs from here on belong to the next one. -/
def State.snapProgram (s : State) (j r reason : Nat) : State :=
  let (seq, t) := match s.dsc.seq with
    | some n => ((n + 1) % 2 ^ 32, s)
    | none => let (v, t) := s.open_; (v % 2 ^ 32, t)
  let op : FlashOp := { erase := false, ofs := recordOfs j r, total := 8, done := 0, src := 0, taken := s.snapRecord seq reason,
                        entry := none, caller := 3, waits := false }
  let t := { t with flash := { t.flash with op := some op }, dsc := { t.dsc with snapBusy := some (reason, seq), dirty := false } }
  ((t.showBusy true true).clear F.FLC_STATUS_DONE).setFld F.FLC_ADDR_OFS op.ofs

/-- A snapshot instant (R148-R152, R166); `reefOp` is the Reef entry sequence.  RESULT of the skip of R151 is open (log entry 1). -/
def State.snapshot (s : State) (reason : Nat) (reefOp : Bool) : State :=
  if !s.powered || s.swSteers then s
  else if s.flash.op.isSome || s.flash.inCall || s.bit F.SUP_STATUS_HALTED then { s with dsc := { s.dsc with snapWait := s.dsc.snapWait ++ [reason] } }
  else if !s.dsc.dirty then (s.snapResult 1 reason).journalErase
  else
    let j := s.journalSector
    let o := 1 - j
    let full := decide (256 ≤ s.journalUsed j)
    if full && !s.sectorBlank (128 + o) then
      let (v, t) := s.open_
      (t.snapSkip (v % 4) reason).journalErase
    else
      let (ok, t) := s.ledgerAsk 3 16 reefOp
      if !ok then (t.snapSkip 2 reason).journalErase
      else if s.writesBarred && !reefOp then (((t.ledgerEnd 3).snapResult 3 reason).journalFailed stPFI).journalErase
      else if full then ({ t with dsc := { t.dsc with eraseDone := false } }).snapProgram o 0 reason
      else t.snapProgram j (s.journalUsed j) reason

/-- The engine sees the end of its operation (R148, R150, R152). -/
def State.engineFlash (s : State) : State :=
  match Table.get (fun _ => []) s.flash.results 3 with
  | [] => s
  | r =>
    let st := (r.getD 0 0).toNat
    let t := { s with flash := { s.flash with results := Table.put (fun _ => []) s.flash.results 3 [] } }
    match s.dsc.snapBusy with
    | some (reason, seq) =>
      let t := { t with dsc := { t.dsc with snapBusy := none } }
      if st = stOK then
        let t := { t with dsc := { t.dsc with seq := some seq } }
        ((t.snapResult 0 reason).setFld F.DSC_SNAP_STATUS_SEQ seq).journalErase
      else ((({ t with dsc := { t.dsc with dirty := true } }).snapResult 3 reason).journalFailed st).journalErase
    | none => if st = stOK then { t with dsc := { t.dsc with eraseDone := true } } else t.journalFailed st

/-- Snapshots that waited for the ROM flash routine go on, one at a time (R166). -/
def State.snapNext : Nat → State → State
  | 0, s => s
  | n + 1, s =>
    match s.dsc.snapWait with
    | [] => s
    | r :: rs =>
      if s.flash.op.isSome || s.flash.inCall || s.bit F.SUP_STATUS_HALTED then s
      else State.snapNext n (({ s with dsc := { s.dsc with snapWait := rs } }).snapshot r false)

/-- A snapshot is requested; it waits for a service episode while an update routine is called (spec/19_supervisor_and_host.md R941). -/
def State.snapRequest (s : State) (reason : Nat) : State :=
  if s.upd.waits && !s.swSteers then { s with dsc := { s.dsc with snapWait := s.dsc.snapWait ++ [reason] } } else s.snapshot reason false

/-- DSC_CTRL.SNAP_NOW (R148); the unit is idle in Hoist (R138). -/
def execSnapNow (s : State) : Out := whenOpen s (if s.inSail then s.snapRequest 3 else s)

/-- SNAP_MIN in qn. -/
def State.snapPeriod (s : State) : Nat := s.fld F.DSC_MODEL_CFG_SNAP_MIN * 240000000000

/-- The periodic instant that has come: whole periods after the last. -/
def State.nextSnapAt (s : State) : Nat := (s.dsc.snapAt + s.since s.dsc.snapAt / s.snapPeriod * s.snapPeriod) % 2 ^ 64

/-- SNAP_MIN minutes of Mast have passed since entry into Sail or the last such instant (R148); during the Reef entry sequence the snapshot merges
with that sequence's (R165). -/
def execPeriodicSnapshot (s : State) : Out :=
  .next (if s.inSail && !s.bit F.MODE_STATUS_REEFING && decide (s.snapPeriod ≤ s.since s.dsc.snapAt) then
    ({ s with dsc := { s.dsc with snapAt := s.nextSnapAt } }).snapRequest 1
  else s)

/-! ### PPS_OUT -/

/-- OUT_WIDTH in qn. -/
def ppsWidth (code : Nat) : Nat :=
  [4000, 40000, 400000, 4000000, 40000000, 400000000, 800000000, 2000000000].getD code 2000000000

/-- OUT_GATE admits the present state (R161). -/
def State.ppsGate (s : State) : Bool :=
  match s.fld F.DSC_PPS_CFG_OUT_GATE with
  | 0 => true
  | 1 => s.dscState == 2 || s.dscState == 3
  | 2 => s.dscState == 2
  | _ => false

/-- PPS_OUT may be high: SET is 1 and OUT_GATE admits the present state (R161). -/
def State.ppsAdmits (s : State) : Bool := s.inSail && s.bit F.MAST_STATUS_SET && s.ppsGate

/-- PPS_OUT is high: a pulse lasts, and its state still admits it (R161). -/
def State.ppsOut (s : State) : Bool := s.ppsAdmits && !(s.sheetOf 288).pulseEnds.isEmpty

/-- PPS_OUT rises at an instant k x 4,000,000,000 + OFS within the present beat and falls after OUT_WIDTH (R161). -/
def State.ppsPulse (s : State) : State :=
  let ofs := signed 32 (s.reg F.DSC_PPS_OUT_OFS).toNat
  let d := ((ofs - (s.now : Int)) % 4000000000).toNat
  let at_ := (s.now + d) % 2 ^ 64
  let u := s.sheetOf 288
  if s.ppsAdmits && decide (d < ahead s.nextNow s.now) && !(match u.lastEdge with | some (e, _, k) => e == at_ && k == s.mast.steps | none => false) then
    let (t, _) := s.placeCode 288 at_ (s.fld F.SHT_PPSO_FD_SKEW) (s.fld F.SHT_PPSO_FD_FD_CAL)
    t.setSheet 288 { u with pulseEnds := [(at_ + ppsWidth (s.fld F.DSC_PPS_CFG_OUT_WIDTH)) % 2 ^ 64], lastEdge := some (at_, at_, s.mast.steps) }
  else s

/-- A pulse instant of PPS_OUT within the present beat (R161). -/
def execPpsOutPulse (s : State) : Out := .next s.ppsPulse

/-- What a beat does to PPS_OUT (R161): a state that does not admit a pulse ends it, and the next may rise. -/
def State.ppsBeat (s : State) : State :=
  let t := if s.ppsAdmits || (s.sheetOf 288).pulseEnds.isEmpty then s else s.setSheet 288 { s.sheetOf 288 with pulseEnds := [] }
  t.ppsPulse

end Sys2Proof.Machine
end

