-- ==== Sys2Proof/Machine/Shell.lean ====
section
/-! DEFINITION. The SHELL record's sections: their validity and what they load (spec/11_images_and_keys.md R570-R573 and the
tables of the chapters that own them). -/

namespace Sys2Proof.Machine

open Sys2Proof

/-- How a load fails: the code with its detail word, and Hoist's REASON. -/
structure LoadFault where
  code : Nat
  detail : Nat
  reason : Nat
  deriving DecidableEq, Repr

/-- A byte, a 16-bit and a 32-bit little-endian field of a body (R3). -/
def u8 (b : List Byte) (o : Nat) : Nat := (b.getD o 0).toNat
def u16 (b : List Byte) (o : Nat) : Nat := leNat ((b.drop o).take 2)
def u32 (b : List Byte) (o : Nat) : Nat := leNat ((b.drop o).take 4)

/-- Entries of a fixed size. -/
def entriesOf (size : Nat) : Nat → List Byte → List (List Byte)
  | 0, _ => []
  | fuel + 1, b => if b.isEmpty then [] else b.take size :: entriesOf size fuel (b.drop size)

/-- The entries of a body. -/
def entries (size : Nat) (b : List Byte) : List (List Byte) := entriesOf size (b.length / size + 1) b

/-- The first position at which a check of the entries before, the entry and its position fails. -/
def firstBad (ok : List (List Byte) → List Byte → Bool) (es : List (List Byte)) : Option Nat :=
  (List.range es.length).find? fun i => !ok (es.take i) (es.getD i [])

/-- The sections of a SHELL payload (R570): ascending known types, whole words, filling it exactly. -/
def sectionsOf : Nat → Nat → List Byte → Option (List (Nat × List Byte))
  | 0, _, _ => none
  | fuel + 1, last, b =>
    if b.isEmpty then some []
    else
      let t := u16 b 0
      let n := u32 b 4
      if b.length < 8 ∨ u16 b 2 ≠ 0 ∨ t ≤ last ∨ 0x0A < t ∨ n % 4 ≠ 0 ∨ b.length < 8 + n then none
      else
        let size := [0, 8, 8, 16, 8, 16, 16, 4, 4, 4, 4].getD t 4
        if n % size ≠ 0 then none
        else (sectionsOf fuel t (b.drop (8 + n))).map fun r => (t, (b.drop 8).take n) :: r

/-- A section's body; an absent one is an empty table. -/
def bodyOf (secs : List (Nat × List Byte)) (t : Nat) : List Byte := ((secs.find? (·.1 == t)).map (·.2)).getD []

/-! ### Validity of the tables -/

/-- Whether shell-to-fabric (1) or fabric-to-shell (0), by class (R303); a crossing follows its configuration. -/
def classDir (c : Nat) : Nat := if c = 3 ∨ c = 7 ∨ c = 8 ∨ c = 9 ∨ c = 0xB ∨ c = 0xD ∨ c = 0xF then 1 else 0

/-- The crossing table's CFG of a crossing, if listed. -/
def xngCfg (xs : List (List Byte)) (n : Nat) : Option Nat := (xs.find? fun e => u16 e 0 == n).map fun e => u32 e 4

/-- CLIENT and CIDX of a CFG. -/
def cfgClient (c : Nat) : Nat := bits c 18 16
def cfgCidx (c : Nat) : Nat := bits c 24 19

/-- The width that a class wants (R303). -/
def widthOk (xs : List (List Byte)) (c idx w : Nat) : Bool :=
  match c with
  | 1 => w == 42 | 2 => w == 40 | 3 => w == 44
  | 4 => match xngCfg xs idx with | some g => w == bits g 11 6 + 1 | none => false
  | 5 | 7 | 0xA | 0xB => decide (1 ≤ w ∧ w ≤ 64)
  | 6 | 8 => w == 8 | 9 => w == 1 | 0xC | 0xD | 0xE => w == 64 | 0xF => w == 16 | _ => false

/-- How many resources a class has (R303). -/
def classCount (c : Nat) : Nat := [0, 256, 32, 256, 96, 64, 64, 64, 64, 16, 64, 64, 32, 32, 1, 1].getD c 0

/-- A binding entry (R303, R304, R305), against the whole table and the crossing table. -/
def bindOk (xs all : List (List Byte)) (before : List (List Byte)) (e : List Byte) : Bool :=
  let c := u8 e 2
  let idx := u16 e 4
  let twin := if c = 5 then 6 else if c = 6 then 5 else if c = 7 then 8 else if c = 8 then 7 else 0
  decide (u16 e 0 < 384) && decide (idx < classCount c) && widthOk xs c idx (u8 e 3) && u16 e 6 == 0
    && !(before.any fun f => u16 f 0 == u16 e 0 || (u8 f 2 == c && u16 f 4 == idx))
    && (twin == 0 || all.any fun f => u8 f 2 == twin && u16 f 4 == idx)

/-- A port bound to a class and index. -/
def boundPort (bs : List (List Byte)) (c idx : Nat) : Option Nat :=
  (bs.find? fun e => u8 e 2 == c && u16 e 4 == idx).map fun e => u16 e 0

/-- Fence bits of a border. -/
def borderBits (b : Nat) : Nat := if b < 20 then 576 else 480

/-- A fence entry (R331). -/
def fenceOk (before : List (List Byte)) (e : List Byte) : Bool :=
  let first := u16 e 2
  let w := u8 e 4
  decide (before.length < 2048) && decide (u8 e 0 < 38) && decide (u8 e 1 ≤ 1) && decide (1 ≤ w ∧ w ≤ 64)
    && decide (first + w ≤ borderBits (u8 e 0))
    && !(before.any fun f => u8 f 0 == u8 e 0 && u8 f 1 == u8 e 1 && decide (u16 f 2 < first + w ∧ first < u16 f 2 + u8 f 4))

/-- A crossing entry (R415, R398), against the table and the width that the tap with its CIDX has. -/
def xngOk (tapWidth : Nat → Nat) (all before : List (List Byte)) (e : List Byte) : Bool :=
  let n := u16 e 0
  let g := u32 e 4
  let kind := g % 4
  let dir := bits g 4 4
  let w := bits g 11 6 + 1
  let vbit := bits g 12 12
  let req := bits g 14 14
  let cl := cfgClient g
  let ci := cfgCidx g
  let mate := xngCfg all (n ^^^ 1)
  decide (n < 96) && !(before.any fun f => u16 f 0 == n) && decide (1 ≤ u16 e 2 ∧ u16 e 2 ≤ 16000)
    && (BitVec.ofNat 32 g &&& 0xFC00802C == 0)
    && (kind != 0 || w == 1) && (kind != 1 || decide (w ≤ 16))
    && (vbit == 0 || (dir == 1 && (cl == 1 || cl == 4)))
    && (req == 0 || (kind == 2 && dir == 1 && (match mate with | some m => cfgClient m == 6 | none => false)))
    && (match cl with
      | 0 => true
      | 1 => kind != 0
      | 2 => kind == 2 && req == 1 && dir == 1 && decide (ci < 8) && w == tapWidth ci
      | 3 => kind == 3 && dir == 1 && w == 64 && decide (ci < 4)
      | 4 => kind == 3 && dir == 1 && decide (ci < 16) && (decide (ci < 8) || w == 64)
      | 5 => kind == 3 && dir == 0 && decide (ci < 32)
      | 6 => kind == 0 && dir == 0 && (match mate with | some m => bits m 14 14 == 1 | none => false)
      | _ => false)

/-- A FIFO entry (R427), against the binding and crossing tables. -/
def fifoOk (bs xs all before : List (List Byte)) (e : List Byte) : Bool :=
  let n := u8 e 0
  let base := u16 e 2
  let size := u16 e 4
  let g := u32 e 8
  let prod := bits g 10 8
  let pidx := bits g 16 11
  let cons := bits g 19 17
  let cidx := bits g 25 20
  let panel := fun c => (boundPort bs c n).map panelOfPort
  let paired := fun c d => (panel c).isSome && panel c == panel d
  let free := fun c d => (panel c).isNone && (panel d).isNone
  let others := all.filter fun f => u8 f 0 != n
  decide (n < 64) && u8 e 1 == 0 && u16 e 6 == 0 && decide (1 ≤ size ∧ base + size ≤ 512)
    && !(before.any fun f => u8 f 0 == n || decide (u16 f 2 < base + size ∧ base < u16 f 2 + u16 f 4))
    && (BitVec.ofNat 32 g &&& 0xFC000080 == 0) && bits g 2 2 == 1 && g % 4 != 3
    && decide (prod ≤ 4) && decide (cons ≤ 4) && (prod != 2 || decide (pidx < 8)) && (cons != 2 || decide (cidx < 32))
    && (g % 4 != 1 || decide (u32 e 12 ≤ size * 1024 - 2))
    && (if prod = 1 then paired 5 6 else free 5 6) && (if cons = 1 then paired 7 8 else free 7 8)
    && !(others.any fun f => (prod == 2 || prod == 3) && bits (u32 f 8) 10 8 == prod && bits (u32 f 8) 16 11 == pidx)
    && !(others.any fun f => (cons == 2 || cons == 3) && bits (u32 f 8) 19 17 == cons && bits (u32 f 8) 25 20 == cidx)
    && (cons != 2 || !(xs.any fun f => cfgClient (u32 f 4) == 5 && cfgCidx (u32 f 4) == cidx))
    && (prod != 3 || (boundPort bs 0xB pidx).isNone) && (cons != 3 || (boundPort bs 0xA cidx).isNone)

/-- A crossing named by a LAN field is one of that client (R417); 0x60-0x7F names none. -/
def namesClient (xs : List (List Byte)) (n client cidx : Nat) : Bool :=
  decide (0x60 ≤ n ∧ n < 0x80) || (match xngCfg xs n with | some g => cfgClient g == client && cfgCidx g == cidx | none => false)

/-- The width of a crossing in the table. -/
def xngWidth (xs : List (List Byte)) (n : Nat) : Nat := match xngCfg xs n with | some g => bits g 11 6 + 1 | none => 0

/-- A LANE entry (R734). -/
def laneOk (xs before : List (List Byte)) (e : List Byte) : Bool :=
  let k := u8 e 0
  let g := u32 e 4
  let rx := u8 e 1
  let rxd := u8 e 2
  let mode := g % 8
  let fec := bits g 5 4
  let dest := bits (u32 e 12) 14 14
  let tx := [u8 e 8, u8 e 9, u8 e 10, u8 e 11]
  decide (k < 8) && !(before.any fun f => u8 f 0 == k) && u8 e 3 == 0
    && (BitVec.ofNat 32 g &&& 0xFFFF00C8 == 0) && (BitVec.ofNat 32 (u32 e 12) &&& 0xFFFF8000 == 0)
    && decide (mode ≤ 4) && decide (fec ≤ (if mode = 2 then 1 else if mode = 3 then 2 else 0))
    && (mode != 4 || decide (bits g 11 8 ≤ 9))
    && namesClient xs rx 4 k && namesClient xs rxd 4 (8 + k)
    && ((List.range 4).all fun j => namesClient xs (tx.getD j 0x7F) 5 (4 * k + j))
    && (mode == 0 || mode == 4 || dest == 1 || (decide (rx < 96) && decide (rxd < 96)))
    && (mode != 4 || ((xngWidth xs rx == 32 || xngWidth xs rx == 64) && tx.all fun t => decide (96 ≤ t) || xngWidth xs t == xngWidth xs rx))

/-- The SHROUD header's fields and rsvd bits (R791). -/
def shroudHdrOk (b : List Byte) : Bool :=
  decide (16 ≤ b.length ∧ (b.length - 16) % 8 = 0) && decide (u8 b 0 < 16) && decide (u8 b 1 < 4) && decide (u8 b 2 ≤ 64) && u8 b 3 == 0
    && decide (125 ≤ u16 b 4 ∧ u16 b 4 ≤ 10000) && decide (100 ≤ u16 b 6) && leNat ((b.drop 8).take 8) == 0

/-- A SHROUD entry (R791). -/
def shroudOk (bs fs before : List (List Byte)) (e : List Byte) : Bool :=
  let ep := u8 e 0
  let rx := u8 e 1
  let w := u8 e 2
  decide (ep < 64) && decide (rx ≤ 1) && decide (1 ≤ w ∧ w ≤ 64) && decide (u8 e 3 ≤ 1) && decide (u16 e 4 < 4096) && u16 e 6 == 0
    && !(before.any fun f => u8 f 0 == ep && u8 f 1 == rx)
    && (if u8 e 3 = 1 then w == 64 && (fs.any fun f => if rx = 0 then bits (u32 f 8) 19 17 == 3 && bits (u32 f 8) 25 20 == ep
          else bits (u32 f 8) 10 8 == 3 && bits (u32 f 8) 16 11 == ep)
        else bs.any fun f => u8 f 2 == 0xA + rx && u16 f 4 == ep && u8 f 3 == w)

/-- The STAY header (R841), with the bindings of its slots. -/
def stayHdrOk (bs : List (List Byte)) (b : List Byte) : Bool :=
  decide (16 ≤ b.length) && b.length == 16 + 12 * u16 b 12 && decide (u8 b 0 < 8) && u8 b 1 == 0
    && decide (10 ≤ u16 b 2 ∧ u16 b 2 ≤ 10000) && decide (125 ≤ u16 b 4 ∧ u16 b 4 ≤ 10000) && decide (1 ≤ u16 b 6 ∧ u16 b 6 ≤ 1000)
    && decide (u16 b 12 ≤ 512) && u16 b 14 == 0
    && ((List.range 32).all fun i => bits (u32 b 8) i i == 0 || ((boundPort bs 0xC i).isSome && (boundPort bs 0xD i).isSome))

/-- The timer (2) or compare (3) whose register set holds an address. -/
def unitOfAddr (a : Nat) : Option (Nat × Nat) :=
  if 0x51000 ≤ a ∧ a < 0x52000 then some (2, (a - 0x51000) / 64)
  else if 0x52000 ≤ a ∧ a < 0x54000 then some (3, (a - 0x52000) / 32) else none

/-- A STAY entry (R841). -/
def stayOk (all before : List (List Byte)) (e : List Byte) : Bool :=
  let kind := u8 e 0
  let unit := u8 e 1
  let a := u32 e 4
  let m := u32 e 8
  u16 e 2 == 0
    && (match kind with
      | 1 => unit == 0 && a % 4 == 0 && m != 0 && !([1, 2, 3, 0xD, 0xE] : List Nat).contains (a / 0x10000)
          && (match findRow a with | some r => (BitVec.ofNat 32 m &&& ~~~(BitVec.ofNat 32 r.rw) == 0) | none => false)
          && (match unitOfAddr a with
            | some (k, u) => !(all.any fun f => u8 f 0 == k && u8 f 1 == u)
            | none => true)
          && !(before.any fun f => u8 f 0 == 1 && u32 f 4 == a)
      | 2 => decide (unit < 64) && a == 0 && m == 0 && !(before.any fun f => u8 f 0 == 2 && u8 f 1 == unit)
      | 3 => a == 0 && m == 0 && !(before.any fun f => u8 f 0 == 3 && u8 f 1 == unit)
      | _ => false)

/-- The POWER section's fault (R888): the detail word of 0x0E0B. -/
def powerBad (b : List Byte) : Option Nat :=
  let en := u32 b 0 % 2 == 1
  let c := u32 b 4
  let ecap := if u32 b 12 = 0 then 1000 else u32 b 12
  let own := [(0, decide (u32 b 0 < 2)), (4, !en || decide (1 ≤ c ∧ c ≤ 10000000)), (0x0A, !en || decide (u16 b 10 ≤ 60000)),
    (0x0C, !en || decide (u32 b 12 ≤ 100000)), (0x10, !en || u16 b 16 != 0), (0x14, leNat ((b.drop 20).take 12) == 0)]
  if b.length ≠ 32 then some 0xFFFFFFFF
  else match own.find? (!·.2) with
    | some p => some p.1
    | none =>
      if en && decide (u16 b 10 ≤ u16 b 8) then some 0x0A
      else if en && decide (2 * ecap * 1000000000 ≤ c * u16 b 8 * u16 b 8) then some 0x0C
      else none

/-- The PINS section's fault (R922, R923): the byte offset of the first offending word. -/
def pinsBad (en : Nat → Bool) (b : List Byte) : Option Nat :=
  let vio := u32 b 0
  let pin := fun n => u32 b (0x10 + 4 * n)
  let bank := fun n => bits vio (2 * (n / 16) + 1) (2 * (n / 16))
  let lvds := fun n => bits (pin n) 10 10 == 1
  let term := fun n => bits (pin n) 11 11 == 1
  let pinOk := fun n =>
    let w := pin n
    (BitVec.ofNat 32 w &&& 0xFFFFF004 == 0) && bits w 7 6 != 3
      && (if n % 2 = 1 then !lvds n && !term n && (!lvds (n - 1) || w == 0) else (!lvds n || bank n == 2) && (!term n || lvds n))
      && !(bank n == 0 && (decide (w % 4 < 2) || en n))
  let evOk := fun n =>
    let w := u32 b (0x410 + 4 * n)
    let p := 16 * bits w 11 8 + n
    (BitVec.ofNat 32 w &&& 0xFFFFF0E2 == 0) && decide (bits w 4 2 < 6) && !(p % 2 == 1 && lvds (p - 1))
  if b.length ≠ 1104 then some 0xFFFFFFFF
  else
    let words := [(4, u32 b 4 == 0), (8, u32 b 8 == 0), (12, u32 b 12 == 0)] ++ ((List.range 256).map fun n => (0x10 + 4 * n, pinOk n))
      ++ ((List.range 16).map fun n => (0x410 + 4 * n, evOk n))
    (words.find? (!·.2)).map (·.1)

/-- With no PINS section every bank is unused: the PIN word of the first pin whose sheet is enabled (R924). -/
def sheetInUnused (en : Nat → Bool) : Option Nat := ((List.range 256).find? en).map fun n => 0x10 + 4 * n

/-! ### Loading -/

/-- A register loaded by a table section (R572): one with a field that Hoist loads, outside the HST and MAST blocks. -/
def tableLoaded (a : Nat) : Bool :=
  match findRow a with
  | some r => r.loads != 0 && a / 0x10000 != 1 && a / 0x10000 != 4
  | none => true

/-- The bits that a REG entry may set at an address. -/
def regMask (a : Nat) : BitVec 32 :=
  match findRow a with | some r => BitVec.ofNat 32 r.loads ||| BitVec.ofNat 32 r.param | none => 0

/-- A compare value that Hoist loads is first evaluated at the first beat of Sail (spec/04_timers_compares_captures.md R175). -/
def State.noteLoaded (s : State) (a : Nat) : State :=
  if 0x52000 ≤ a ∧ a < 0x54000 ∧ a % 32 < 8 then
    { s with cmp := Table.modify noCmp s.cmp ((a - 0x52000) / 32) fun u => { u with loaded := true } }
  else s

/-- REG entries in order (R571, R572); a REFIN_SEL starts the Mast PLL (R520). -/
def State.loadRegs (s : State) : Nat → List (List Byte) → State × Option LoadFault
  | _, [] => (s, none)
  | i, e :: es =>
    let a := u32 e 0
    let v := BitVec.ofNat 32 (u32 e 4)
    if tableLoaded a || (v &&& ~~~(regMask a)) != 0 then (s, some ⟨0x020D, i, 8⟩)
    else
      let w := (s.reg a &&& ~~~(regMask a)) ||| v
      let t := if a = F.MAST_PLL_CFG then { s.loadRefinSel (u32 e 4 % 8) with hoist := { s.hoist with refinLoaded := true } }
        else (s.setReg a w).noteLoaded a
      t.loadRegs (i + 1) es

/-- Load the binding table. -/
def State.loadBind (s : State) (xs bs : List (List Byte)) : State :=
  let t := bs.foldl (fun t e =>
    let p := u16 e 0
    let c := u8 e 2
    let dir := if c = 4 then (match xngCfg xs (u16 e 4) with | some g => bits g 4 4 | none => 0) else classDir c
    (((t.setFld (F.EP_BIND_CLASS p) c).setFld (F.EP_BIND_INDEX p) (u16 e 4)).setFld (F.EP_BIND_WIDTH_M1 p) (u8 e 3 - 1)).setFld
      (F.EP_BIND_DIR p) dir) s
  t.raise F.FAB_STATUS_BIND_LOADED

/-- Load the fence table (R334, R573). -/
def State.loadFence (s : State) (body : List Byte) : State :=
  let fs := (entries 16 body).map fun e =>
    { border := u8 e 0, dir := u8 e 1 == 1, first := u16 e 2, width := u8 e 4, standIn := u8 e 5 % 2 == 1,
      sink := u8 e 5 / 2 % 2 == 1, token := leNat ((e.drop 8).take 8) % 2 ^ u8 e 4 : Fence }
  let sig := if body.isEmpty then 0 else (crc32 body).toNat
  ({ s with fences := fs }.setReg F.PNL_FENCE_SIG (BitVec.ofNat 32 sig)).setFld F.PNL_FCH_COUNT_N fs.length

/-- Load the crossing table. -/
def State.loadXng (s : State) (xs : List (List Byte)) : State :=
  xs.foldl (fun t e => (t.setReg (F.XNG_CFG (u16 e 0)) (BitVec.ofNat 32 (u32 e 4))).setFld (F.XNG_WDOG_US (u16 e 0)) (u16 e 2)) s

/-- Load the FIFO table. -/
def State.loadFifo (s : State) (fs : List (List Byte)) : State :=
  let t := fs.foldl (fun t e =>
    let n := u8 e 0
    (((t.setReg (F.FIFO_CFG n) (BitVec.ofNat 32 (u32 e 8))).setFld (F.FIFO_REGION_BASE n) (u16 e 2)).setFld (F.FIFO_REGION_SIZE n)
      (u16 e 4)).setFld (F.FIFO_CT_THR_THR n) (u32 e 12)) s
  t.setFld F.FIFO_FREE_BLOCKS_N (512 - fs.foldl (fun n e => n + u16 e 4) 0)

/-- Load the LANE section. -/
def State.loadLane (s : State) (ls : List (List Byte)) : State :=
  ls.foldl (fun t e =>
    let k := u8 e 0
    (((t.setReg (F.LN_CFG k) (BitVec.ofNat 32 (u32 e 4))).setReg (F.LN_XNG k) (BitVec.ofNat 32 (u32 e 8))).setReg (F.LN_XNG_RX k)
      (BitVec.ofNat 32 (u8 e 1 + 256 * u8 e 2))).setReg (F.LN_RX_CFG k) (BitVec.ofNat 32 (u32 e 12))) s

/-- Load the SHROUD section. -/
def State.loadShroud (s : State) (b : List Byte) : State :=
  if b.isEmpty then s
  else
    let t := ((s.setFld F.SHR_CFG_PORTS (u8 b 0)).setFld F.SHR_CFG_ADDR_STRAP (u8 b 1 % 2)).setFld F.SHR_CFG_HOIST_STEP (u8 b 1 / 2)
    let t := ((t.setFld F.SHR_CFG_EXPECT (u8 b 2)).setFld F.SHR_TIMING_SYNC_US (u16 b 4)).setFld F.SHR_TIMING_FORM_QUIET_US (u16 b 6)
    (entries 8 (b.drop 16)).foldl (fun t e =>
      let n := u8 e 0
      if u8 e 1 = 0 then
        (((t.raise (F.SHR_EP_CFG_TX_EN n)).setFld (F.SHR_EP_CFG_TX_FIFO n) (u8 e 3)).setFld (F.SHR_EP_CFG_TX_WIDTH_M1 n)
          (u8 e 2 - 1)).setFld (F.SHR_EP_TX_PEER_ADDR n) (u16 e 4)
      else
        (((t.raise (F.SHR_EP_CFG_RX_EN n)).setFld (F.SHR_EP_CFG_RX_FIFO n) (u8 e 3)).setFld (F.SHR_EP_CFG_RX_WIDTH_M1 n)
          (u8 e 2 - 1)).setFld (F.SHR_EP_RX_PEER_ADDR n) (u16 e 4)) t

/-- Load the STAY section. -/
def State.loadStay (s : State) (b : List Byte) : State :=
  if b.isEmpty then s
  else
    let f := u8 b 0
    let t := ((s.setFld F.STY_CFG_EN (f % 2)).setFld F.STY_CFG_DSC_MIRROR (f / 2 % 2)).setFld F.STY_CFG_HOIST_STEP (f / 4 % 2)
    let t := ((t.setFld F.STY_CFG_N (u16 b 12)).setFld F.STY_CFG_REFRESH_MS (u16 b 6)).setFld F.STY_TIMING_CLAIM_US (u16 b 2)
    let t := ((t.setFld F.STY_TIMING_SYNC_US (u16 b 4)).setReg F.STY_SIG (crc32 b)).setReg F.STY_SLOTS (BitVec.ofNat 32 (u32 b 8))
    { t with stayEntries := (entries 12 (b.drop 16)).map fun e => (u8 e 0, u8 e 1, u32 e 4, u32 e 8) }

/-- Load the POWER section (spec/17_power_and_reef.md R867); without RSV_EN the ledger is blind (R873). -/
def State.loadPower (s : State) (b : List Byte) : State :=
  if b.isEmpty then s.raise F.PWR_STATUS_LEDGER_BLIND
  else
    let en := u32 b 0 % 2 == 1
    let t := ((s.setReg F.PWR_RSV_C (BitVec.ofNat 32 (u32 b 4))).setFld F.PWR_RSV_VRANGE_VMIN (u16 b 8)).setFld F.PWR_RSV_VRANGE_VMAX (u16 b 10)
    let t := (t.setReg F.PWR_RSV_ECAP (BitVec.ofNat 32 (if u32 b 12 = 0 then 1000 else u32 b 12))).setFld F.PWR_EXPOSED_BANKS (u16 b 18)
    let t := { t with pwr := { t.pwr with rsvEn := en, rsvDiv := u16 b 16 } }
    let t := t.setBit F.PWR_STATUS_LEDGER_BLIND (!en)
    if en then t.setFld F.PWR_RSV_VSTOP_MV t.vstop else t

/-- Load the PINS section. -/
def State.loadPins (s : State) (b : List Byte) : State :=
  if b.isEmpty then s
  else
    let t := (List.range 256).foldl (fun t n => t.setReg (F.GPIO_PIN_CFG n) (BitVec.ofNat 32 (u32 b (0x10 + 4 * n)))) s
    let t := (List.range 16).foldl (fun t n => t.setReg (F.EV_CFG n) (BitVec.ofNat 32 (u32 b (0x410 + 4 * n)))) t
    t.setReg F.GPIO_VIO (BitVec.ofNat 32 (u32 b 0))

/-- A tap or a queue that names a crossing of another client (R417). -/
def State.namesWrong (s : State) (xs : List (List Byte)) : Option Nat :=
  let taps := (List.range 8).map fun n => (s.bit (F.MTAP_CFG_EN n), s.fld (F.MTAP_CFG_XNG n), 2, n)
  let teqs := (List.range 4).map fun n => (s.bit (F.TEQ_CFG_EN n), s.fld (F.TEQ_CFG_XNG n), 3, n)
  ((taps ++ teqs).find? fun p => p.1 && decide (p.2.1 < 96) && !namesClient xs p.2.1 p.2.2.1 p.2.2.2).map (·.2.1)

/-- What refuses the tables, the lowest section first (R307, R332, R416, R428, R734, R791, R841, R888, R923).  A fault of the SHROUD
header has no entry position: its detail is open (log entry 1). -/
def State.tablesBad (s : State) (secs : List (Nat × List Byte)) : Option LoadFault × State :=
  let body := bodyOf secs
  let has := fun t => secs.any fun p => p.1 == t
  let bs := entries 8 (body 2)
  let xs := entries 8 (body 4)
  let fs := entries 16 (body 5)
  let ls := entries 16 (body 6)
  let sh := entries 8 ((body 7).drop 16)
  let st := entries 12 ((body 8).drop 16)
  let tap := fun n => s.fld (F.MTAP_CFG_WIDTH_M1 n) + 1
  let en := fun n => s.bit (F.SHT_CFG_EN n)
  let one := fun (code : Nat) (p : Option Nat) => p.map fun i => (⟨code, i, 8⟩ : LoadFault)
  let (v, t) := s.open_
  let hdr7 := has 7 && !shroudHdrOk (body 7)
  let hdr8 := has 8 && !stayHdrOk bs (body 8)
  let faults := [one 0x0884 (firstBad (bindOk xs bs) bs), one 0x080E (firstBad fenceOk (entries 16 (body 3))),
    one 0x0907 (firstBad (xngOk tap xs) xs), one 0x0A01 (firstBad (fifoOk bs xs fs) fs), one 0x0B0B (firstBad (laneOk xs) ls),
    if hdr7 then some ⟨0x0C02, v, 8⟩ else one 0x0C02 (firstBad (shroudOk bs fs) sh),
    if hdr8 then some ⟨0x0D02, 0xFFFFFFFF, 8⟩ else one 0x0D02 (firstBad (stayOk st) st),
    if has 9 then one 0x0E0B (powerBad (body 9)) else none, one 0x0F05 (if has 10 then pinsBad en (body 10) else sheetInUnused en)]
  let first := faults.foldl (fun a b => a.orElse fun _ => b) none
  (first, if hdr7 then t else s)

/-- A SHELL record takes effect (R503, R570-R573, R417). -/
def State.loadShell (s : State) (index : Nat) (payload : List Byte) : State × Option LoadFault :=
  match sectionsOf 11 0 payload with
  | none => (s, some ⟨0x0205, index, 5⟩)
  | some secs =>
    let body := bodyOf secs
    match s.loadRegs 0 (entries 8 (body 1)) with
    | (t, some f) => (t, some f)
    | (t, none) =>
      match t.tablesBad secs with
      | (some f, t) => (t, some f)
      | (none, t) =>
        let xs := entries 8 (body 4)
        let t := ((t.loadBind xs (entries 8 (body 2))).loadFence (body 3)).loadXng xs
        let t := ((t.loadFifo (entries 16 (body 5))).loadLane (entries 16 (body 6))).loadShroud (body 7)
        let t := ((t.loadStay (body 8)).loadPower (body 9)).loadPins (body 10)
        match t.namesWrong xs with
        | some n => (t, some ⟨0x0908, n, 8⟩)
        | none => (t, none)

end Sys2Proof.Machine
end

