-- ==== Sys2Proof/Machine/Image.lean ====
section
/-! DEFINITION. The image and key engine (spec/11_images_and_keys.md): fuses and keys, the verification of headers and records,
and what a record holds. -/

namespace Sys2Proof.Machine

open Sys2Proof

/-! ### Fuses, levels and keys -/

/-- A fuse word. -/
def State.fuseWord (s : State) (k : Nat) : Nat := Table.get (fun _ => 0) s.keys.fuse k

/-- A bit of the FLAGS fuse word. -/
def State.fuseFlag (s : State) (i : Nat) : Bool := s.fuseWord 24 / 2 ^ i % 2 == 1

/-- A public-key slot is OK (R553): LOCK set, REVOKE clear. -/
def State.slotOk (s : State) (k : Nat) : Bool := s.fuseFlag k && !s.fuseFlag (2 + k)

/-- The key hash of a slot. -/
def State.keyHash (s : State) (k : Nat) : List Byte := (List.range 12).flatMap fun i => leBytes 4 (s.fuseWord (12 * k + i))

/-- The protection level: PL2 by its fuse, else the level of the protection word. -/
def State.protLevel (s : State) : Nat := if s.fuseFlag 5 then 2 else s.fld F.FLC_SYS_LEVEL

/-- How many of the low w bits of a number are set. -/
def popCount (w n : Nat) : Nat := ((List.range w).filter fun i => n / 2 ^ i % 2 == 1).length

/-- MIN_SVN (R588). -/
def State.minSvn (s : State) : Nat := popCount 32 (s.fuseWord 33) + popCount 32 (s.fuseWord 34)

/-- The eFuse root key. -/
def State.efuseKey (s : State) : List Byte := (List.range 8).flatMap fun i => leBytes 4 (s.fuseWord (25 + i))

/-- A key check value: the first 8 bytes of AES-256 over a zero block. -/
def keyCheck (key : List Byte) : List Byte := (Config.aesBlock key (List.replicate 16 0)).take 8

/-- KDF(KI, label, i, NONCE). -/
def kdf (key label nonce : List Byte) (i : Nat) : List Byte :=
  let m := fun j => beBytes 4 j ++ label ++ [0] ++ beBytes 4 i ++ nonce ++ beBytes 4 256
  Config.aesCmac key (m 1) ++ Config.aesCmac key (m 2)

/-- The labels "base" and "roll". -/
def labelBase : List Byte := [0x62, 0x61, 0x73, 0x65]
def labelRoll : List Byte := [0x72, 0x6F, 0x6C, 0x6C]

/-! ### The header -/

/-- Header fields in order of offset, each with its format check (R550, step 1 of R551). -/
def headerFields (b : List Byte) : List (Nat × Bool) :=
  let zero := fun o n => leNat ((b.drop o).take n) == 0
  let kind := u8 b 0xD
  let enc := u8 b 0xE % 2 == 1
  let mask := u32 b 0x1C
  let seg := u32 b 0x18
  [(0x000, u32 b 0 == 0x4D494754), (0x004, u16 b 4 == 1), (0x006, u16 b 6 == 0x200), (0x00D, kind == 1 || kind == 2),
    (0x00E, decide (u8 b 0xE < 4) && (enc || u8 b 0xE == 0)), (0x00F, decide (u8 b 0xF ≤ 1)), (0x010, u32 b 0x10 % 4 == 0),
    (0x014, decide (2 ≤ u32 b 0x14 ∧ u32 b 0x14 ≤ 4096)), (0x018, (List.range 7).any fun i => seg == 65536 * 2 ^ i),
    (0x01C, if kind = 2 then decide (0 < mask ∧ mask < 2 ^ 24) else mask == 0), (0x020, decide (u16 b 0x20 ≤ 64)),
    (0x022, u16 b 0x22 == 0), (0x030, enc || zero 0x30 8), (0x038, !enc || zero 0x38 48), (0x068, zero 0x68 24), (0x0E0, zero 0xE0 192)]

/-- Step 2 of R551 (R553, R554): whether the public key is accepted, and whether as an open key. -/
def State.keyAccepted (s : State) (b : List Byte) : Bool × Bool :=
  let k := u8 b 0xF
  let known := s.slotOk k && Config.sha384 ((b.drop 0x80).take 96) == s.keyHash k
  let open_ := !s.slotOk 0 && !s.slotOk 1 && s.protLevel == 0
  (known || open_, open_)

/-- Step 4 of R551 (R555): the first cause that holds. -/
def State.policyCause (s : State) (b : List Byte) (partial_ : Bool) : Option Nat :=
  if u32 b 8 ≠ 0x74368001 then some 1
  else if 0xA1 < u8 b 0xC then some 2
  else if (u8 b 0xD == 1) == partial_ then some 3
  else if u16 b 0x20 < s.minSvn then some 4
  else if u8 b 0xE % 2 = 0 ∧ 1 ≤ s.protLevel then some 5
  else none

/-- Step 5 of R551 (R581, R582): K0, or the detail word of 0x0207. -/
def State.rootKey (s : State) (b : List Byte) : List Byte ⊕ Nat :=
  let bat := u8 b 0xE / 2 % 2
  let ok := if bat = 0 then s.fuseFlag 4 else s.bit F.IMG_STATUS_BBK_VALID
  if !ok then .inr (bat + 2 ^ 8 * (if bat = 1 ∧ s.keys.bbkZeroised then 2 else 1))
  else
    let k0 := kdf (if bat = 0 then s.efuseKey else s.keys.bbk) labelBase ((b.drop 0x28).take 8) 0
    if keyCheck k0 = (b.drop 0x30).take 8 then .inl k0 else .inr (bat + 2 ^ 8 * 3)

/-- What a verified header gives. -/
def headerOf (b : List Byte) : ImageHeader :=
  { kind := u8 b 0xD, enc := u8 b 0xE % 2 == 1, keysrc := u8 b 0xE / 2 % 2, slot := u8 b 0xF, len := u32 b 0x10, nrec := u32 b 0x14,
    segmax := u32 b 0x18, mask := u32 b 0x1C, svn := u16 b 0x20, build := u32 b 0x24, nonce := (b.drop 0x28).take 8 }

/-- Verify a header (R551): the fault, or the header with the first key and digest.  `damaged` is an uncorrectable chunk of the
on-chip flash within it (spec/12_flash_store.md R623). -/
def State.verifyHeader (s : State) (b : List Byte) (partial_ damaged : Bool) :
    (LoadFault ⊕ (ImageHeader × List Byte × List Byte)) × State :=
  if damaged then (.inl ⟨0x0203, 0, 3⟩, s)
  else match (headerFields b).find? (!·.2) with
    | some p => (.inl ⟨0x0201, p.1, 5⟩, s)
    | none =>
      let (ok, open_) := s.keyAccepted b
      if !ok then (.inl ⟨0x0202, u8 b 0xF, 3⟩, s)
      else
        let t := if open_ then s.raise F.IMG_STATUS_OPEN_KEY else s
        if !Config.ecdsaVerify ((b.drop 0x80).take 96) (Config.sha384 (b.take 0x1A0)) ((b.drop 0x1A0).take 96) then
          (.inl ⟨0x0203, 0, 3⟩, t)
        else match s.policyCause b partial_ with
          | some c => (.inl ⟨0x0208, c, 0xA⟩, t)
          | none =>
            if u8 b 0xE % 2 = 0 then (.inr (headerOf b, [], (b.drop 0x38).take 48), t)
            else match s.rootKey b with
              | .inr d => (.inl ⟨0x0207, d, 9⟩, t)
              | .inl k => (.inr (headerOf b, k, []), t)

/-! ### Records -/

/-- A record as framed: its header fields and its bytes. -/
structure Record where
  type : Nat
  flags : Nat
  target : Nat
  index : Nat
  len : Nat
  ulen : Nat
  bytes : List Byte
  deriving DecidableEq, Repr

/-- Frame the record that starts here (R557, R1080). -/
def recordOf (b : List Byte) (trailer : Nat) : Record :=
  { type := u8 b 0, flags := u8 b 1, target := u8 b 2, index := u32 b 4, len := u32 b 8, ulen := u32 b 12,
    bytes := b.take (16 + u32 b 8 + trailer) }

/-- Trailer bytes of an image (R557). -/
def ImageHeader.trailer (h : ImageHeader) : Nat := if h.enc then 16 else 48

/-- ULEN of a type (the record table). -/
def ulenOk (type n : Nat) : Bool :=
  match type with
  | 1 => decide (8 ≤ n ∧ n ≤ 131072) | 2 => n == 491536 | 3 => decide (20 ≤ n ∧ n ≤ 245776) | 4 => decide (24 ≤ n ∧ n ≤ 65536)
  | 5 => n == 256 | 6 => n == 8 | 15 => n == 16 | _ => false

/-- The order of a full image's records (R559): what was seen before allows this one. -/
def orderOk (l : LoadUnit) (r : Record) : Bool :=
  match r.type with
  | 1 => !l.types.contains 1 && !(l.types.any fun t => t == 2 || t == 3 || t == 4 || t == 5)
  | 2 => l.types.contains 1 && !l.panels.contains r.target
  | 3 | 4 | 5 => l.types.contains 1 && !l.types.contains r.type
  | 15 => l.types.contains 1
  | _ => true

/-- R558 and R1080 at a record header. -/
def recordShape (h : ImageHeader) (l : LoadUnit) (b : List Byte) (r : Record) : Bool :=
  let deflate := r.flags % 2 == 1
  ulenOk r.type r.ulen && r.index == l.index && r.len % 4 == 0 && !(deflate && (r.type == 6 || r.type == 15))
    && decide (r.flags < 4) && (r.flags / 2 % 2 == 0 || r.type == 5)
    && (if r.type = 2 then decide (r.target < 24) else r.target == 0xFF) && u8 b 3 == 0
    && decide (l.pos + 16 + r.len + h.trailer ≤ h.len) && (h.kind == 2 || orderOk l r)

/-- The checks at a record header, in the order of R1082: form, segment, KEYROLL. -/
def recordHeaderFault (h : ImageHeader) (l : LoadUnit) (b : List Byte) (r : Record) : Option LoadFault :=
  if !recordShape h l b r then some ⟨0x0205, r.index, 5⟩
  else if h.enc && decide (h.segmax < l.seg + 16 + r.len + 16) then some ⟨0x0208, 6, 0xA⟩
  else if r.type = 6 ∧ !h.enc then some ⟨0x0208, 8, 0xA⟩
  else none

/-- Authenticate a record (R565-R567): its stored payload in the clear. -/
def authenticate (h : ImageHeader) (l : LoadUnit) (r : Record) : Option (List Byte) :=
  let hd := r.bytes.take 16
  let body := (r.bytes.drop 16).take r.len
  let tr := r.bytes.drop (16 + r.len)
  if h.enc then
    let (plain, tag) := Config.aesGcm l.key (h.nonce ++ beBytes 4 r.index) hd body
    if tag = tr then some plain else none
  else if Config.sha384 r.bytes = l.digest then some body else none

/-- The payload after decompression (R560, R561). -/
def unpack (r : Record) (stored : List Byte) : List Byte ⊕ LoadFault :=
  if r.flags % 2 = 1 then
    match Config.inflate stored with
    | some p => if p.length = r.ulen then .inl p else .inr ⟨0x0206, r.index, 5⟩
    | none => .inr ⟨0x0206, r.index, 5⟩
  else if r.ulen ≤ r.len ∧ r.len ≤ r.ulen + 3 ∧ (stored.drop r.ulen).all (· == 0) = true then .inl (stored.take r.ulen) else .inr ⟨0x0205, r.index, 5⟩

/-! ### Payloads -/

/-- Borders that a bay lies on, the row border first: north (higher row, PRESUMED, log entry 26) or south, then east or west. -/
def bayBorders (panel row col : Nat) : List Nat :=
  let pr := panel / 6
  let pc := panel % 6
  (if row = 23 ∧ pr < 3 then [0] else if row = 0 ∧ 0 < pr then [2] else [])
    ++ (if col = 19 ∧ pc < 5 then [1] else if col = 0 ∧ 0 < pc then [3] else [])

/-- A bay frame (R574, R575). -/
def frameOk (panel row col : Nat) (f : List Byte) : Bool :=
  let borders := bayBorders panel row col
  let bytes := fun o n => (f.drop o).take n
  let sel := fun hi (b : Byte) => decide (b.toNat < hi) || b == 0xFF
  ((List.range 32).all fun i => (bytes (16 * i + 2) 4).all (sel 96) && leNat (bytes (16 * i + 7) 9) == 0)
    && (bytes 0x200 48).all (sel 96)
    && ((List.range 64).all fun k =>
      let w := u16 f (0x230 + 2 * k)
      w == 0xFFFF || (if bits w 13 13 = 1 then decide (w % 256 < 24) && borders.contains (bits w 15 14) else decide (w % 256 < 28)))
    && (bytes 0x2F0 112).all (sel 48) && leNat (bytes 0x363 5) == 0
    && ((List.range 48).all fun i => let b := f.getD (0x368 + i) 0xFF; b == 0xFF || (decide (b.toNat < 48) && decide (i / 24 < borders.length)))
    && leNat (bytes 0x398 104) == 0

/-- A PANEL payload (R575). -/
def panelOk (target : Nat) (p : List Byte) : Bool :=
  u8 p 0 == target && decide (u8 p 1 ≤ 7) && u16 p 2 == 0 && u32 p 12 == 0
    && ((List.range 480).all fun i => frameOk target (i / 20) (i % 20) ((p.drop (16 + 1024 * i)).take 1024))

/-- A SUPERVISOR payload (R576): LOAD_ADDR, ENTRY and the code. -/
def supervisorOk (p : List Byte) : Bool :=
  let a := u32 p 0
  let n := p.length - 16
  decide (0x20000000 ≤ a ∧ a + n ≤ 0x2003C000) && u32 p 4 % 2 == 0 && decide (a ≤ u32 p 4 ∧ u32 p 4 < a + n) && leNat ((p.drop 8).take 8) == 0

/-- The bits marked (P) of an address. -/
def paramMask (a : Nat) : BitVec 32 := match findRow a with | some r => BitVec.ofNat 32 r.param | none => 0

/-- A PARAM payload (R577). -/
def paramOk (p : List Byte) : Bool :=
  p.length == 24 + 12 * u32 p 20
    && ((entries 12 (p.drop 24)).all fun e => u32 e 0 % 4 == 0 && (BitVec.ofNat 32 (u32 e 4) &&& ~~~(paramMask (u32 e 0))) == 0)

/-- A payload's own form (R575-R579), and the mismatch of END (R580). -/
def payloadFault (h : ImageHeader) (l : LoadUnit) (r : Record) (p : List Byte) : Option LoadFault :=
  let bad : Option LoadFault := some ⟨0x0205, r.index, 5⟩
  match r.type with
  | 2 => if panelOk r.target p then none else bad
  | 3 => if supervisorOk p then none else bad
  | 4 => if paramOk p then none else bad
  | 5 => if recordGood p then none else bad
  | 6 => if u32 p 4 ≠ 0 then bad else if u32 p 0 ≠ l.rolls then some ⟨0x0208, 7, 0xA⟩ else none
  | 15 =>
    if leNat ((p.drop 8).take 8) ≠ 0 then bad
    else if u32 p 0 = h.nrec ∧ u32 p 4 = l.rolls ∧ l.pos + 16 + r.len + h.trailer = h.len then none
    else some ⟨0x020C, r.index, 5⟩
  | _ => none

/-- The engine after a record (R563, R564, R567): position, segment, key or digest. -/
def afterRecord (h : ImageHeader) (l : LoadUnit) (r : Record) : LoadUnit :=
  let n := 16 + r.len + h.trailer
  let roll := r.type == 6
  { l with
    pos := l.pos + n, index := l.index + 1, rolls := l.rolls + roll.toNat, seg := if roll then 0 else l.seg + n,
    key := if roll then kdf l.key labelRoll h.nonce l.rolls else l.key,
    digest := if h.enc then [] else r.bytes.drop (16 + r.len),
    types := r.type :: l.types, panels := if r.type = 2 then r.target :: l.panels else l.panels, ended := r.type == 15 }

/-- Open the record that starts at the engine's position (R557-R567, R1082): its fault, or the record, its payload and the engine
after it.  `damaged` is an uncorrectable chunk within the record (spec/12_flash_store.md R623). -/
def openRecord (h : ImageHeader) (l : LoadUnit) (b : List Byte) (damaged : Bool) : LoadFault ⊕ (Record × List Byte × LoadUnit) :=
  let r := recordOf b h.trailer
  match recordHeaderFault h l b r with
  | some f => .inl f
  | none =>
    match (if damaged then none else authenticate h l r) with
    | none => .inl ⟨0x0204, r.index, 4⟩
    | some stored =>
      match unpack r stored with
      | .inr f => .inl f
      | .inl p =>
        match payloadFault h l r p with
        | some f => .inl f
        | none => .inr (r, p, afterRecord h l r)

/-- A fence signature that differs (R351): the panel record's own against PNL_FENCE_SIG. -/
def State.fenceSigBad (s : State) (p : List Byte) : Bool := u32 p 8 != (s.reg F.PNL_FENCE_SIG).toNat

/-! ### What Hoist loads, and its return (R503-R505, R577, R578) -/

/-- What an unlisted byte of the panel configuration reads as (R504): stages EMPTY, inputs unconnected. -/
def pcfgDefault (a : Nat) : Byte :=
  let k := a % 491536
  if k < 16 then 0
  else
    let o := (k - 16) % 1024
    if o < 0x200 then (if 2 ≤ o % 16 ∧ o % 16 < 6 then 0xFF else 0)
    else if o < 0x2B0 ∨ (0x2F0 ≤ o ∧ o < 0x360) ∨ (0x368 ≤ o ∧ o < 0x398) then 0xFF else 0

/-- A panel's configuration, ORDER and gaps. -/
def State.loadPanel (s : State) (k : Nat) (p : List Byte) : State :=
  let t := { s with pcfg := Memory.putBytes pcfgDefault (Memory.clear s.pcfg (491536 * k) 491536) (491536 * k) p }
  ((t.setFld (F.PNL_STATE_ORDER k) (u8 p 1)).setFld (F.PNL_REL_GAP1 k) (u16 p 4)).setFld (F.PNL_REL_GAP2 k) (u16 p 6)

/-- PARAM entries in order (R577); an image's accept set reaches FEAT_ACCEPT0-3 (R578, spec/19_supervisor_and_host.md R971, R972). -/
def State.loadParam (s : State) (p : List Byte) : State :=
  let t := if u32 p 0 % 2 = 1 then
      (List.range 4).foldl (fun t i => t.setReg (F.FEAT_ACCEPT i)
        (BitVec.ofNat 32 (u32 p (4 + 4 * i)) &&& t.reg (0x10 + 4 * i))) s
    else s
  (entries 12 (p.drop 24)).foldl (fun t e =>
    let m := BitVec.ofNat 32 (u32 e 4)
    (t.setReg (u32 e 0) ((t.reg (u32 e 0) &&& ~~~m) ||| (BitVec.ofNat 32 (u32 e 8) &&& m))).noteLoaded (u32 e 0)) t

/-- A record of a full image takes effect (R503). -/
def State.recordEffect (s : State) (r : Record) (p : List Byte) : State × Option LoadFault :=
  match r.type with
  | 1 => s.loadShell r.index p
  | 2 => if s.fenceSigBad p then (s, some ⟨0x0805, r.target, 5⟩) else (s.loadPanel r.target p, none)
  | 3 => ({ (s.sramPut (u32 p 0) (p.drop 16)) with load := { s.load with entry := u32 p 4 } }, none)
  | 4 => (s.loadParam p, none)
  | 5 => ({ s with load := { s.load with seed := some (p, r.flags / 2 % 2 == 1) } }, none)
  | _ => (s, none)

/-- The addresses of a row. -/
def RegRow.addrs (r : RegRow) : List Nat := (List.range r.count).map fun i => r.base + r.stride * i

/-- Every row of the register map. -/
def allRows : List RegRow := (List.range 17).flatMap fun b => rowsOf (0x10000 * b)

/-- Every field that Hoist loads returns to its reset value, but for REFIN_SEL (R505). -/
def State.unloadRegs (s : State) : State :=
  let undo := fun (a : Nat) (w : Word) =>
    if a = F.MAST_PLL_CFG then w else (w &&& ~~~(regMask a)) ||| (resetWord a &&& regMask a)
  { s with regs := (s.regs.map fun e => (e.1, undo e.1 e.2)).filter fun e => e.2 != resetWord e.1 }

/-- The loaded state returns to what it was before the attempt (R505). -/
def State.unload (s : State) : State :=
  let t := s.unloadRegs
  let t := (List.range 24).foldl (fun t k => ((t.setFld (F.PNL_STATE_ORDER k) 0).setReg (F.PNL_REL k) 0)) t
  let t := (List.range 4).foldl (fun t i => t.setReg (F.FEAT_ACCEPT i) 0) t
  let t := (t.clear F.FAB_STATUS_BIND_LOADED).clear F.PWR_STATUS_LEDGER_BLIND
  { t with pcfg := [], cmp := [], fences := [], stayEntries := [], sram := s.hoist.preSram,
           pwr := { t.pwr with rsvEn := false, rsvDiv := 0 }, load := { s.load with seed := none, accept := none, entry := 0 } }

/-! ### Reading an image -/

/-- The engine's source is a stream of words. -/
def ImageSource.streams : ImageSource → Bool
  | .xflash => false
  | .chip => false
  | _ => true

/-- Bytes with the misread ones of the external flash's line in place. -/
def misread (bs : List Byte) (pos : Nat) (noise : List (Nat × Byte)) : List Byte :=
  (List.range bs.length).map fun i => match noise.find? (·.1 == pos + i) with | some e => e.2 | none => bs.getD i 0

/-- n bytes of the image at the engine's position: from a flash, or the oldest of a stream, if they are there; a program or an erase of
the external flash comes first (spec/13_field_update.md R702). -/
def State.imageBytes (s : State) (noise : List (Nat × Byte)) (n : Nat) : Option (List Byte) :=
  let l := s.load
  match l.src with
  | .xflash => if s.xflashBusy then none else some (misread (s.xflashBytes (l.base + l.pos) n) l.pos noise)
  | .chip => some (s.flashBytes (l.base + l.pos) n)
  | _ => if n ≤ l.got.length then some (l.got.take n) else none

/-- An uncorrectable chunk within n bytes of an image in the on-chip flash, and what reading them logs
(spec/12_flash_store.md R621, R623). -/
def State.imageChunks (s : State) (errs : List (Nat × Nat)) (n : Nat) : Bool × State :=
  if s.load.src = .chip then
    let cs := chunksOf (s.load.base + s.load.pos) n
    (cs.any fun c => s.chunkCount errs c == 15, cs.foldl (fun t c => t.readChunk errs 3 c true) s)
  else (false, s)

/-- The engine takes n bytes. -/
def State.imageTaken (s : State) (n : Nat) : State :=
  { s with load := { s.load with pos := s.load.pos + n, got := if s.load.src.streams then s.load.got.drop n else s.load.got } }

/-- Clear the engine when a load completes, fails or is abandoned (R569): no key stays. -/
def State.endLoad (s : State) : State :=
  { s with load := { seed := s.load.seed, accept := s.load.accept, entry := s.load.entry, src := s.load.src, base := s.load.base,
                     words := s.load.words, hdr := s.load.hdr, index := s.load.index, rolls := s.load.rolls } }

/-- IMG_INFO, IMG_BUILD_ID and IMG_NONCE name the last image whose END verified; IMG_SVN the full image of this Hoist. -/
def State.showImage (s : State) (h : ImageHeader) (rolls : Nat) : State :=
  let t := (((s.setFld F.IMG_INFO_ROLLS rolls).setBit F.IMG_INFO_ENC h.enc).setFld F.IMG_INFO_KEYSRC h.keysrc).setFld F.IMG_INFO_PK_SLOT h.slot
  let t := ((t.setFld F.IMG_INFO_KIND h.kind).setReg F.IMG_BUILD_ID (BitVec.ofNat 32 h.build)).setWide F.IMG_NONCE_LO (leNat h.nonce)
  if h.kind = 1 then t.setFld F.IMG_SVN_SVN h.svn else t

/-- How many bytes the next record takes, once its 16-byte header is there. -/
def State.recordNeeds (s : State) (h : ImageHeader) (noise : List (Nat × Byte)) : Nat :=
  match s.imageBytes noise 16 with
  | some b => 16 + u32 b 8 + h.trailer
  | none => 16

end Sys2Proof.Machine
end

