-- ==== Sys2Proof/Machine/Fabric.lean ====
section
/-! DEFINITION. The inside of the fabric (spec/06_fabric.md): cells, stages, routing, wide multiplexers, carry chains, LUT-RAMs and fences,
as the loaded panels configure them (spec/11_images_and_keys.md R574), and their four-phase handshakes (R287).  A site is a place that holds
or takes tokens: 256 x bay + its crossbar number for a stage (0-31 cells, 32-95 incoming routing bits), 256 x bay + 96 + g and + 104 + g for
the read and write ports of LUT-RAM g, and fenceSite + i for fence channel i.  What the spec leaves open is in log entry 53. -/

namespace Sys2Proof.Machine

open Sys2Proof

/-! ### Panels and fences -/

/-- A panel's state code (R360). -/
def State.panelState (s : State) (k : Nat) : Nat := s.fld (F.PNL_STATE_STATE k)

/-- The panels on a border: the lower-numbered, then the higher. -/
def borderPanels (b : Nat) : Nat × Nat := if b < 20 then (6 * (b / 5) + b % 5, 6 * (b / 5) + b % 5 + 1) else (b - 20, b - 14)

/-- The source and destination panels of a fence channel. -/
def fencePanels (f : Fence) : Nat × Nat :=
  let p := borderPanels f.border
  if f.dir then (p.2, p.1) else p

/-- LOADING, FAILED or RELEASING before the GSR stage: the panel is away (R335, R336). -/
def State.panelGone (s : State) (k : Nat) : Bool :=
  let st := s.panelState k
  st == 4 || st == 6 || (st == 5 && (s.panelOf k).gsrHeld)

/-- QUIESCING or FROZEN (R337). -/
def State.panelStill (s : State) (k : Nat) : Bool := s.panelState k == 2 || s.panelState k == 3

/-- The token that the stage of fence channel i holds. -/
def State.fenceToken (s : State) (i : Nat) : Option Dword := Table.get (fun _ => none) s.fenceHeld i

/-- Store the token of a fence channel's stage. -/
def State.setFenceToken (s : State) (i : Nat) (d : Option Dword) : State :=
  { s with fenceHeld := Table.put (fun _ => none) s.fenceHeld i d }

/-! ### The configuration of a bay (R574) -/

/-- The panel of bay 120 x row + column. -/
def bayPanel (b : Nat) : Nat := 6 * (b / 120 / 24) + b % 120 / 20

/-- A byte of a bay's frame. -/
def State.bayByte (s : State) (b o : Nat) : Nat :=
  (Table.get pcfgDefault s.pcfg (491536 * bayPanel b + 16 + 1024 * (20 * (b / 120 % 24) + b % 20) + o)).toNat

/-- The bay whose frame holds a byte of the configuration. -/
def bayOfByte (a : Nat) : Nat :=
  let p := a / 491536
  let i := (a % 491536 - 16) / 1024
  120 * (24 * (p / 6) + i / 20) + 20 * (p % 6) + i % 20

/-- The bay some bays away toward an edge (0 north, 1 east, 2 south, 3 west), row 0 being the southernmost, within the panel (R299). -/
def bayToward (b e span : Nat) : Option Nat :=
  let far := match e with
    | 0 => if b / 120 + span < 96 then some (b + 120 * span) else none
    | 1 => if b % 120 + span < 120 then some (b + span) else none
    | 2 => if span ≤ b / 120 then some (b - 120 * span) else none
    | _ => if span ≤ b % 120 then some (b - span) else none
  far.bind fun n => if bayPanel n = bayPanel b then some n else none

/-- How many bays the segment of a track spans. -/
def trackSpan (t : Nat) : Nat := if t < 16 then 1 else if t < 24 then 4 else 12

/-- A selector byte: 0xFF names nothing. -/
def selected (v : Nat) : Option Nat := if v = 0xFF then none else some v

/-- Cell n of a bay: its truth table, EAGER, and whether its output has a stage. -/
def State.cellTable (s : State) (b n : Nat) : Nat := s.bayByte b (16 * n) + 256 * s.bayByte b (16 * n + 1)
def State.cellEager (s : State) (b n : Nat) : Bool := s.bayByte b (16 * n + 6) % 2 == 1
def State.bayCarries (s : State) (b : Nat) : Bool := s.bayByte b 0x360 % 2 == 1
def State.bayMux (s : State) (b : Nat) : Nat := s.bayByte b 0x361
def State.bayRam (s : State) (b g : Nat) : Bool := s.bayByte b 0x362 / 2 ^ g % 2 == 1

/-- Where an incoming routing bit comes from. -/
inductive WireEnd where
  | nothing
  | wire (bay x : Nat)
  | fence (edge bit : Nat)
  deriving DecidableEq, Repr

/-- The crossbar input that drives an outgoing routing bit (XOUT). -/
def State.routeOut (s : State) (b j : Nat) : WireEnd :=
  match selected (s.bayByte b (0x200 + j)) with
  | some x => .wire b x
  | none => .nothing

/-- What reaches incoming routing bit k of a bay: its XIN names the end of a track, which the bay at the segment's other end drives, or a fence
bit. -/
def State.routeIn (s : State) (b k : Nat) : WireEnd :=
  let v := s.bayByte b (0x230 + 2 * k) + 256 * s.bayByte b (0x231 + 2 * k)
  let e := v / 2 ^ 14
  if v = 0xFFFF then .nothing
  else if v / 2 ^ 13 % 2 = 1 then .fence e (v % 256)
  else match bayToward b e (trackSpan (v % 256)) with
    | none => .nothing
    | some n =>
      match selected (s.bayByte n (0x2F0 + 28 * ((e + 2) % 4) + v % 256)) with
      | some j => s.routeOut n j
      | none => .nothing

/-- The border at an edge of a bay, the position of the bay along it, and whether tokens that enter the bay there come from the
higher-numbered panel. -/
def borderAt (b e : Nat) : Option (Nat × Nat × Bool) :=
  let p := bayPanel b
  let c := b % 120
  let r := b / 120
  match e with
  | 0 => if r % 24 = 23 ∧ r < 95 then some (20 + p, c % 20, true) else none
  | 1 => if c % 20 = 19 ∧ c < 119 then some (5 * (p / 6) + p % 6, r % 24, true) else none
  | 2 => if r % 24 = 0 ∧ 0 < r then some (20 + p - 6, c % 20, false) else none
  | _ => if c % 20 = 0 ∧ 0 < c then some (5 * (p / 6) + p % 6 - 1, r % 24, false) else none

/-- The fence channel, and its bit, that enters a bay at an edge (R333: a bit that no entry covers carries nothing). -/
def State.fenceInto (s : State) (b e bit : Nat) : Option (Nat × Nat) :=
  match borderAt b e with
  | none => none
  | some (br, pos, fromHigh) =>
    (List.range s.fences.length).findSome? fun i =>
      match s.fences[i]? with
      | some f => if f.border = br ∧ f.dir = fromHigh ∧ f.first ≤ 24 * pos + bit ∧ 24 * pos + bit < f.first + f.width then
          some (i, 24 * pos + bit - f.first) else none
      | none => none

/-- The bay on the source side of bit j of a fence channel, the edge at which the bit leaves it and its fence bit there. -/
def fenceSource (f : Fence) (j : Nat) : Nat × Nat × Nat :=
  let p := (fencePanels f).1
  let pos := (f.first + j) / 24
  let r := 24 * (p / 6)
  let c := 20 * (p % 6)
  let bit := (f.first + j) % 24
  if f.border < 20 then
    if f.dir then (120 * (r + pos) + c, 3, bit) else (120 * (r + pos) + c + 19, 1, bit)
  else if f.dir then (120 * r + c + pos, 2, bit) else (120 * (r + 23) + c + pos, 0, bit)

/-- What drives bit j of a fence channel: the FENCE table of its source bay, whose row border comes first. -/
def State.fenceDriver (s : State) (f : Fence) (j : Nat) : WireEnd :=
  let (b, e, bit) := fenceSource f j
  let rowBorder := (borderAt b 0).isSome || (borderAt b 2).isSome
  let second := e % 2 = 1 ∧ rowBorder = true
  match selected (s.bayByte b (0x368 + bit + (if second then 24 else 0))) with
  | some o => s.routeOut b o
  | none => .nothing

/-! ### Sites -/

/-- The first fence site. -/
def fenceSite : Nat := 2949120

def noSite : Nat → FabSite := fun _ => {}

/-- What a site holds. -/
def State.site (s : State) (k : Nat) : FabSite := Table.get noSite s.fab.sites k

/-- Store what a site holds. -/
def State.setSite (s : State) (k : Nat) (u : FabSite) : State :=
  { s with fab := { s.fab with sites := Table.put noSite s.fab.sites k u } }

/-- The image has this site. -/
def State.hasSite (s : State) (k : Nat) : Bool :=
  let b := k / 256
  let x := k % 256
  if fenceSite ≤ k then decide (k - fenceSite < s.fences.length)
  else if x < 32 then s.bayByte b (16 * x + 6) / 2 % 2 == 1
  else if x < 96 then s.bayByte b (0x2B0 + x - 32) / 4 % 2 == 1
  else decide (x < 112) && s.bayRam b (x % 8)

/-- The token of a stage's initial state: code 0b10 token 0, 0b11 token 1, else none. -/
def State.firstToken (s : State) (k : Nat) : Option Nat :=
  let b := k / 256
  let x := k % 256
  let code := if x < 32 then s.bayByte b (16 * x + 6) / 4 % 4 else if x < 96 then s.bayByte b (0x2B0 + x - 32) % 4 else 0
  if code = 2 then some 0 else if code = 3 then some 1 else none

/-- The sites of the image: only bays with a configured byte can have one. -/
def State.fabSites (s : State) : List Nat :=
  let bays := (s.pcfg.map fun e => bayOfByte e.1).eraseDups
  (bays.flatMap fun b => (List.range 112).map fun x => 256 * b + x).filter s.hasSite
    ++ (List.range s.fences.length).map fun i => fenceSite + i

/-- Handshakes go on at a site (R300, R342, R344): GSR is released there and its panel is not FROZEN. -/
def State.siteLive (s : State) (k : Nat) : Bool :=
  let p := bayPanel (k / 256)
  s.powered && !s.bit F.FAB_STATUS_GSR && (decide (fenceSite ≤ k) || (!s.panelGone p && s.panelState p != 3))

/-- A site may capture a new token: its panel is not QUIESCING (R342). -/
def State.siteStarts (s : State) (k : Nat) : Bool :=
  s.siteLive k && (decide (fenceSite ≤ k) || s.panelState (bayPanel (k / 256)) != 2)

/-- The token a fence channel offers its destination: what its stage holds, or STANDIN while its source is away (R335, R338). -/
def State.fenceOffers (s : State) (i : Nat) : Option Nat :=
  match s.fences[i]? with
  | none => none
  | some f =>
    if s.panelGone (fencePanels f).2 then none
    else match s.fenceToken i with
      | some d => some d.toNat
      | none => if s.panelGone (fencePanels f).1 && f.standIn then some f.token else none

/-- The token that a site holds for its output. -/
def State.siteToken (s : State) (k : Nat) : Option Nat :=
  if fenceSite ≤ k then s.fenceOffers (k - fenceSite)
  else if (s.site k).moved then (s.site k).tok else s.firstToken k

/-! ### What a receiver sees -/

/-- A dual-rail bit as a receiver sees it: its token; the sites that the receiver's acknowledge reaches through it (R289, R290); and whether
all of it reads spacer again after the receiver captured it. -/
structure Sight where
  val : Option Bool
  from_ : List Nat
  clear : Bool
  deriving DecidableEq, Repr

/-- Spacer. -/
def Sight.spacer : Sight := ⟨none, [], false⟩

/-- A constant token. -/
def Sight.constant (b : Bool) : Sight := ⟨some b, [], true⟩

/-- Bit j of what site k offers, as receiver r sees it. -/
def State.holdSight (s : State) (r k j : Nat) : Sight :=
  match (s.site k).back with
  | some v => if (s.site r).taken.contains k then ⟨some (v / 2 ^ j % 2 == 1), [k], true⟩ else .spacer
  | none =>
    if !s.siteLive k then .spacer
    else match s.siteToken k with
      | some v => ⟨some (v / 2 ^ j % 2 == 1), [k], false⟩
      | none => .spacer

/-- A number from bits, the lowest first. -/
def bitsNat : List Bool → Nat
  | [] => 0
  | b :: l => b.toNat + 2 * bitsNat l

/-- The value of a channel: every bit holds a token (R287). -/
def sightValue (l : List Sight) : Option Nat :=
  if l.all (fun v => v.val.isSome) then some (bitsNat (l.map fun v => v.val.getD false)) else none

/-- A function of several inputs that consumes them all together. -/
def joined (l : List Sight) (f : Nat → Bool) (early : Option Bool) : Sight :=
  match sightValue l with
  | some n => ⟨some (f n), l.flatMap fun v => v.from_, l.all fun v => v.clear⟩
  | none => ⟨early, [], false⟩

/-- Bit i of a truth table. -/
def tableBit (tt i : Nat) : Bool := tt / 2 ^ i % 2 == 1

/-- The output that the inputs present fix, whatever the others will be (EAGER). -/
def eagerValue (tt : Nat) (l : List Sight) : Option Bool :=
  let fits := (List.range 16).filter fun i => (List.range 4).all fun j =>
    match (l[j]?).bind fun v => v.val with
    | some b => tableBit i j == b
    | none => true
  if fits.all (fun i => tableBit tt i) then some true else if fits.all (fun i => !tableBit tt i) then some false else none

/-- A cell's four inputs. -/
def State.cellInput (s : State) (f : Nat → Nat → Sight) (b n j : Nat) : Sight :=
  match selected (s.bayByte b (16 * n + 2 + j)) with
  | some x => f b x
  | none => .constant (Config.tiedInput b n j)

def State.cellInputs (s : State) (f : Nat → Nat → Sight) (b n : Nat) : List Sight := (List.range 4).map (s.cellInput f b n)

/-- The carry into cell n: of the cell below it, C31 of the bay below within the panel (R294), or the chain's first. -/
def State.carryInto (s : State) (f : Nat → Nat → Sight) (b n : Nat) : Sight :=
  if 0 < n then f b (128 + n - 1)
  else match bayToward b 2 1 with
    | some d => if s.bayCarries d then f d (128 + 31) else .constant (Config.carryFirst b)
    | none => .constant (Config.carryFirst b)

/-- The carry out of cell n: valid at once where its operands kill or generate. -/
def State.carryOutOf (s : State) (f : Nat → Nat → Sight) (b n : Nat) : Sight :=
  let ins := s.cellInputs f b n
  let out := fun i c => Config.carryOut (s.cellTable b n) i c
  let early := (sightValue ins).bind fun i => if out i false = out i true then some (out i false) else none
  joined (ins ++ [s.carryInto f b n]) (fun v => out (v % 16) (16 ≤ v)) early

/-- The output of a wide multiplexer (R295, R328): COMBINE takes every input, SELECT the select and the input it names. -/
def State.muxOut (s : State) (f : Nat → Nat → Sight) (b : Nat) : Sight :=
  let sel := (List.range 5).map fun i => s.cellInput f b (Config.muxPin i / 4 % 32) (Config.muxPin i % 4)
  let data := (List.range 32).map fun n => s.cellInput f b n 0
  if s.bayMux b = 1 then joined (sel ++ data) (fun v => v / 2 ^ (5 + v % 32) % 2 == 1) none
  else match (sightValue sel).bind fun n => data[n]? with
    | some d => joined (sel ++ [d]) (fun v => 32 ≤ v) none
    | none => .spacer

/-- What cell n puts out in front of its stage, as receiver r sees it. -/
def State.cellOut (s : State) (r : Nat) (f : Nat → Nat → Sight) (b n : Nat) : Sight :=
  if s.bayRam b (n / 4) then s.holdSight r (256 * b + 96 + n / 4) (n % 4)
  else if s.bayMux b ≠ 0 then (if n = 31 then s.muxOut f b else .spacer)
  else if s.bayCarries b then
    joined (s.cellInputs f b n ++ [s.carryInto f b n]) (fun v => Config.carrySum (s.cellTable b n) (v % 16) (16 ≤ v)) none
  else
    let ins := s.cellInputs f b n
    joined ins (tableBit (s.cellTable b n)) (if s.cellEager b n then eagerValue (s.cellTable b n) ins else none)

/-- What reaches the end of a segment in front of its stage. -/
def State.segmentOut (s : State) (r : Nat) (f : Nat → Nat → Sight) (b k : Nat) : Sight :=
  match s.routeIn b k with
  | .nothing => .spacer
  | .wire d x => f d x
  | .fence e bit =>
    match s.fenceInto b e bit with
    | some (i, j) => s.holdSight r (fenceSite + i) j
    | none => .spacer

/-- What receiver r sees on a wire: crossbar input x of bay b, or, from 128, the carry out of a cell.  A cycle without a stage gives no
token (R313). -/
def State.sight (s : State) (r : Nat) : Nat → Nat → Nat → Sight
  | 0, _, _ => .spacer
  | fuel + 1, b, x =>
    let f := s.sight r fuel
    if 128 ≤ x then s.carryOutOf f b (x - 128)
    else if s.hasSite (256 * b + x) then s.holdSight r (256 * b + x) 0
    else if x < 32 then s.cellOut r f b x
    else s.segmentOut r f b (x - 32)

/-- Enough for any path through the image that meets no wire twice. -/
def State.fabDepth (s : State) : Nat := s.pcfg.length + 800

/-- The bits of the channel into a site. -/
def State.siteInputs (s : State) (k : Nat) : List Sight :=
  let b := k / 256
  let x := k % 256
  let f := s.sight k s.fabDepth
  let pin := fun i => s.cellInput f b (4 * (x % 8) + Config.ramPin i / 4 % 4) (Config.ramPin i % 4)
  if fenceSite ≤ k then
    match s.fences[k - fenceSite]? with
    | none => []
    | some n => (List.range n.width).map fun j =>
      match s.fenceDriver n j with
      | .wire d y => f d y
      | _ => .spacer
  else if x < 32 then [s.cellOut k f b x]
  else if x < 96 then [s.segmentOut k f b (x - 32)]
  else if x < 104 then (List.range 4).map pin
  else (List.range 8).map fun i => pin (4 + i)

/-! ### Which receivers a site feeds -/

/-- The sites that a wire depends on, whatever its tokens are. -/
def State.sources (s : State) : Nat → Nat → Nat → List Nat
  | 0, _, _ => []
  | fuel + 1, b, x =>
    let ins := fun n => (List.range 4).flatMap fun j =>
      match selected (s.bayByte b (16 * n + 2 + j)) with
      | some y => s.sources fuel b y
      | none => []
    let carry := fun n =>
      if 0 < n then s.sources fuel b (128 + n - 1)
      else match bayToward b 2 1 with
        | some d => if s.bayCarries d then s.sources fuel d (128 + 31) else []
        | none => []
    if 128 ≤ x then ins (x - 128) ++ carry (x - 128)
    else if s.hasSite (256 * b + x) then [256 * b + x]
    else if x < 32 then
      if s.bayRam b (x / 4) then [256 * b + 96 + x / 4]
      else if s.bayMux b ≠ 0 then (if x = 31 then (List.range 32).flatMap ins else [])
      else if s.bayCarries b then ins x ++ carry x else ins x
    else match s.routeIn b (x - 32) with
      | .nothing => []
      | .wire d y => s.sources fuel d y
      | .fence e bit => match s.fenceInto b e bit with | some (i, _) => [fenceSite + i] | none => []

/-- The wires into the channel of a site. -/
def State.siteWires (s : State) (k : Nat) : List WireEnd :=
  let b := k / 256
  let x := k % 256
  let input := fun n j => match selected (s.bayByte b (16 * n + 2 + j)) with | some y => WireEnd.wire b y | none => .nothing
  let pins := fun l => l.map fun i => input (4 * (x % 8) + Config.ramPin i / 4 % 4) (Config.ramPin i % 4)
  if fenceSite ≤ k then
    match s.fences[k - fenceSite]? with
    | none => []
    | some f => (List.range f.width).map (s.fenceDriver f)
  else if x < 32 then
    let below := if x = 0 then (bayToward b 2 1).toList.map fun d => WireEnd.wire d 159 else [.wire b (127 + x)]
    if s.bayMux b ≠ 0 ∧ x = 31 then (List.range 128).map fun i => input (i / 4) (i % 4)
    else (List.range 4).map (input x) ++ (if s.bayCarries b then below else [])
  else if x < 96 then [s.routeIn b (x - 32)]
  else if x < 104 then pins (List.range 4)
  else pins ((List.range 8).map fun i => 4 + i)

/-- The sites whose tokens a site takes. -/
def State.feeders (s : State) (k : Nat) : List Nat :=
  let ram := s.bayRam (k / 256) (k % 256 / 4)
  if k < fenceSite ∧ k % 256 < 32 ∧ ram = true then [256 * (k / 256) + 96 + k % 256 / 4]
  else (s.siteWires k).flatMap fun w =>
    match w with
    | .nothing => []
    | .wire d y => s.sources s.fabDepth d y
    | .fence e bit => match s.fenceInto (k / 256) e bit with | some (i, _) => [fenceSite + i] | none => []

/-- The receivers that a site feeds: every branch of its output (R298). -/
def State.receivers (s : State) (k : Nat) : List Nat := s.fabSites.filter fun r => (s.feeders r).contains k

/-! ### Handshakes -/

/-- The five moves of a handshake at a site. -/
inductive FabMove where
  | capture | acknowledge | release | fall | ready | clearJam
  deriving DecidableEq, Repr

/-- A LUT-RAM write waits while its WE stage is held (R297). -/
def State.weHolds (s : State) (k : Nat) : Bool :=
  decide (k < fenceSite ∧ 104 ≤ k % 256) && (s.bit F.FAB_STATUS_WE_HELD || (s.panelOf (bayPanel (k / 256))).weHeld)

/-- A LUT-RAM port has its turn (R296): every port of its RAM whose tokens were complete before it is a write that WE holds. -/
def State.ramTurn (s : State) (k : Nat) : Bool :=
  decide (fenceSite ≤ k ∨ k % 256 < 96) ||
    (s.fab.waits.takeWhile (· != k)).all fun j => decide (j / 256 ≠ k / 256 ∨ j % 8 ≠ k % 8) || s.weHolds j

/-- A fence channel's stage may take a token, or its SINK acknowledges it (R336, R337, R340). -/
def State.fenceTakes (s : State) (i : Nat) : Bool :=
  match s.fences[i]? with
  | none => false
  | some f =>
    let (src, dst) := fencePanels f
    !s.panelGone src && !s.panelStill src &&
      (if s.panelGone dst then f.sink else !s.panelStill dst && (s.fenceToken i).isNone)

/-- A site may take the token its channel offers (R288, R291, R292, R296, R297). -/
def State.mayCapture (s : State) (k : Nat) : Bool :=
  let u := s.site k
  s.siteStarts k && !u.ack && !u.jam && (sightValue (s.siteInputs k)).isSome && !s.weHolds k && s.ramTurn k &&
    (if fenceSite ≤ k then s.fenceTakes (k - fenceSite) else (s.siteToken k).isNone)

/-- The sites that a receiver's acknowledge now reaches. -/
def State.nowReached (s : State) (k : Nat) : List Nat :=
  ((s.siteInputs k).flatMap fun v => v.from_).eraseDups.filter fun j => !(s.site k).taken.contains j

/-- A move is possible at a site. -/
def State.fabReady (s : State) (m : FabMove) (k : Nat) : Bool :=
  let u := s.site k
  s.siteLive k && match m with
  | .capture => s.mayCapture k
  | .acknowledge => u.ack && !(s.nowReached k).isEmpty
  | .release => u.back.isNone && (s.siteToken k).isSome && !(s.receivers k).isEmpty &&
      (s.receivers k).all fun r => (s.site r).taken.contains k
  | .fall => u.ack && !u.taken.isEmpty && (s.siteInputs k).all fun v => v.clear
  | .ready => u.back.isSome && (s.receivers k).all fun r => !(s.site r).taken.contains k
  | .clearJam => u.jam && (s.siteInputs k).all fun v => v.val.isNone

/-- The words of LUT-RAMs: a RAM is 8 x bay + g; a word that was not written is the one the truth tables of its cells give (R301). -/
def State.ramWord (s : State) (ram a : Nat) : Nat :=
  match Table.get (fun _ => none) s.fab.ram (16 * ram + a) with
  | some v => v
  | none => bitsNat ((List.range 4).map fun j => tableBit (s.cellTable (ram / 8) (4 * (ram % 8) + j)) a)

def State.setRamWord (s : State) (ram a v : Nat) : State :=
  { s with fab := { s.fab with ram := Table.put (fun _ => none) s.fab.ram (16 * ram + a) (some v) } }

/-- A fence channel takes a token: into its stage, or its SINK discards and counts it. -/
def State.fenceCapture (s : State) (i v : Nat) : State :=
  match s.fences[i]? with
  | none => s
  | some f =>
    if s.panelGone (fencePanels f).2 then s.countSat (F.PNL_SINK_CNT (fencePanels f).2) 1
    else s.setFenceToken i (some (BitVec.ofNat 64 v))

/-- A site takes token v: a stage holds it, a LUT-RAM's read port answers with the word, its write port stores it. -/
def State.takeToken (s : State) (k v : Nat) : State :=
  let u := { s.site k with ack := true }
  let x := k % 256
  let ram := 8 * (k / 256) + x % 8
  let t := { s with fab := { s.fab with waits := s.fab.waits.filter (· != k) } }
  if fenceSite ≤ k then (t.setSite k u).fenceCapture (k - fenceSite) v
  else if x < 96 then t.setSite k { u with moved := true, tok := some v }
  else if x < 104 then t.setSite k { u with moved := true, tok := some (s.ramWord ram v) }
  else (t.setSite k u).setRamWord ram (v % 16) (v / 16)

/-- Every receiver has acknowledged a site's token: it presents spacer (R287). -/
def State.giveToken (s : State) (k v : Nat) : State :=
  let t := s.setSite k { s.site k with moved := true, tok := none, back := some v }
  if fenceSite ≤ k then
    let i := k - fenceSite
    if (s.fenceToken i).isSome then t.setFenceToken i none
    else match s.fences[i]? with
      | some f => t.countSat (F.PNL_STANDIN_CNT (fencePanels f).1) 1
      | none => t
  else t

/-- One move of a handshake. -/
def State.fabMove (s : State) (m : FabMove) (k : Nat) : State :=
  let u := s.site k
  match m with
  | .capture => match sightValue (s.siteInputs k) with | some v => s.takeToken k v | none => s
  | .acknowledge => s.setSite k { u with taken := u.taken ++ s.nowReached k }
  | .release => match s.siteToken k with | some v => s.giveToken k v | none => s
  | .fall => s.setSite k { u with ack := false, taken := [] }
  | .ready => s.setSite k { u with back := none }
  | .clearJam => s.setSite k { u with jam := false }

/-- Every move that is possible. -/
def State.fabMoves (s : State) : List (FabMove × Nat) :=
  s.fabSites.flatMap fun k =>
    ([.capture, .acknowledge, .release, .fall, .ready, .clearJam].filter fun m => s.fabReady m k).map fun m => (m, k)

/-- LUT-RAM ports whose tokens have become complete join the order of R296; of two of one RAM together, either is first. -/
def State.noteRams (s : State) : State :=
  let fresh := s.fabSites.filter fun k => decide (k < fenceSite ∧ 96 ≤ k % 256) && !s.fab.waits.contains k && !(s.site k).ack &&
    s.siteLive k && (sightValue (s.siteInputs k)).isSome
  if fresh.isEmpty then s
  else
    let (v, t) := s.open_
    { t with fab := { t.fab with waits := t.fab.waits ++ (if v % 2 = 0 then fresh else fresh.reverse) } }

/-- Some moves, one after another, each any that is then possible (DESIGN CHOICE, log entry 53). -/
def State.fabRun : Nat → State → State
  | 0, s => s
  | n + 1, s =>
    let (v, t) := s.noteRams.open_
    match t.fabMoves[v % t.fabMoves.length]? with
    | some (m, k) => (t.fabMove m k).fabRun n
    | none => t

/-- What a tick of time does in the fabric: any number of moves. -/
def State.fabTick (s : State) : State :=
  if s.pcfg.isEmpty then s
  else
    let (n, t) := s.open_
    t.fabRun n

/-! ### Reset, quiesce and an illegal state -/

/-- A panel's local GSR (R300, R301, R321, R325): its stages and LUT-RAMs take their reset state, and what a site outside it had of
theirs reads spacer. -/
def State.fabReset (s : State) (p : Nat) : State :=
  let inside := fun k => decide (k < fenceSite) && bayPanel (k / 256) == p
  let outside := fun (u : FabSite) =>
    let left := u.taken.filter fun k => !inside k
    { u with taken := left, ack := u.ack && (u.taken.isEmpty || !left.isEmpty) }
  { s with fab :=
    { sites := ((s.fab.sites.filter fun e => !inside e.1).map fun e => (e.1, outside e.2)).filter fun e => e.2 != {}
      ram := s.fab.ram.filter fun e => bayPanel (e.1 / 128) != p
      waits := s.fab.waits.filter fun k => !inside k } }

/-- No handshake is in progress at a site of a panel (R343). -/
def State.panelCalm (s : State) (p : Nat) : Bool :=
  s.fab.sites.all fun e => decide (fenceSite ≤ e.1) || bayPanel (e.1 / 256) != p || (!e.2.ack && e.2.back.isNone)

/-- A forced freeze leaves a panel's tokens unknown (R323): a free value at each of its sites. -/
def State.fabTear (s : State) (p : Nat) : State :=
  ((s.fabSites.filter fun k => decide (k < fenceSite) && bayPanel (k / 256) == p).foldl (fun t k =>
    let (v, t) := t.open_
    t.setSite k { moved := true, tok := if v % 3 < 2 then some (v / 3 % 16) else none }) s)

/-- An illegal state at a cell's stage (R292): it captures nothing until its input reads spacer. -/
def State.fabJam (s : State) (loc : Nat) : State :=
  let b := 120 * (loc / 2 ^ 11 % 2 ^ 7) + loc / 2 ^ 18 % 2 ^ 7
  let k := 256 * b + loc / 2 ^ 6 % 32
  if loc / 2 ^ 30 = 0 ∧ s.hasSite k = true then s.setSite k { s.site k with jam := true } else s

end Sys2Proof.Machine
end

