-- ==== Sys2Proof/Machine/Panels.lean ====
section
/-! DEFINITION. Fabric monitors, panels, fences and partial loads (spec/06_fabric.md, spec/07_panels.md). -/

namespace Sys2Proof.Machine

open Sys2Proof

/-- Store what panel k holds. -/
def State.setPanel (s : State) (k : Nat) (u : PanelUnit) : State := { s with panel := Table.put noPanel s.panel k u }

/-- Give a panel its state code. -/
def State.setPanelState (s : State) (k st : Nat) : State := s.setFld (F.PNL_STATE_STATE k) st

/-- The panels of a mask. -/
def panelsOf (mask : Nat) : List Nat := (List.range 24).filter fun k => mask / 2 ^ k % 2 == 1

/-- The mask of the panels in a state. -/
def State.panelsIn (s : State) (st : Nat) : Nat :=
  (List.range 24).foldl (fun m k => if s.panelState k = st then m + 2 ^ k else m) 0

/-! ### Monitors -/

/-- A stage or an edge port finds an illegal state (R292, R293, R329): counted, and the first since the last read of the counter
loads its location and is logged. -/
def execIllegalDualRail (loc : Word) (s : State) : Out :=
  if s.powered then
    let t := s.countSat F.FAB_ILLEGAL_CNT 1
    let t := if s.isQuiet F.FAB_ILLEGAL_CNT then t else t.setReg F.FAB_ILLEGAL_LOC (loc &&& 0xFFFFFFC0)
    .next ((t.logOnce F.FAB_ILLEGAL_CNT 0x0881 (loc &&& 0xFFFFFFC0).toNat).fabJam loc.toNat)
  else .next s

/-- A panel that the monitors watch (R320): not quiescing, loading or held. -/
def State.panelWatched (s : State) (k : Nat) : Bool := s.powered && !s.bit F.FAB_STATUS_GSR && decide (s.panelState k ≤ 1)

/-- An edge-port handshake has waited longer than FAB_EP_STALL_TIME (R318, R320). -/
def execEdgePortStall (n : Fin 384) (s : State) : Out :=
  let b : Fld := ⟨F.FAB_EP_STALL (n / 32), n % 32, 1⟩
  .next (if s.panelWatched (s.fld (F.EP_BIND_PANEL n)) && s.fld F.FAB_EP_STALL_TIME_US != 0 && !s.bit b then
    (s.raise b).log 0x0882 n else s)

/-- A panel offers tokens and completes no handshake for FAB_STUCK_TIME (R319, R320). -/
def execPanelStuck (k : Fin 24) (s : State) : Out :=
  let b : Fld := ⟨F.FAB_STUCK, k, 1⟩
  .next (if s.panelWatched k && s.bit F.FAB_CTRL_STUCK_EN && !s.bit b then (s.raise b).log 0x0883 k else s)

/-! ### Fences -/

/-- A handshake on fence channel i.  With its source away it delivers a held token, then STANDIN (R335, R338); with its destination
away it SINKs d (R336); with both away it carries nothing (R340).  Otherwise its stage gives the token it holds to a destination that
is not QUIESCING or FROZEN, or captures d from a source that is not (R337, R341). -/
def execFenceHandshake (entry : Nat) (d : Dword) (s : State) : Out :=
  match s.fences[entry]? with
  | none => .next s
  | some f =>
    let (src, dst) := fencePanels f
    let d := BitVec.ofNat 64 (d.toNat % 2 ^ f.width)
    let held := s.fenceToken entry
    if !s.powered || s.bit F.FAB_STATUS_GSR then .next s
    else if s.panelGone src then
      if s.panelGone dst || s.panelStill dst then .next s
      else if held.isSome then .next (s.setFenceToken entry none)
      else .next (if f.standIn then s.countSat (F.PNL_STANDIN_CNT src) 1 else s)
    else if s.panelGone dst then
      .next (if f.sink && !s.panelStill src then s.countSat (F.PNL_SINK_CNT dst) 1 else s)
    else if held.isSome then .next (if s.panelStill dst then s else s.setFenceToken entry none)
    else .next (if s.panelStill src || s.panelStill dst then s else s.setFenceToken entry (some d))

/-- What the held token of a fence channel becomes as panel k enters LOADING (R338-R340). -/
def State.fenceLoading (s : State) (k i : Nat) (f : Fence) : State :=
  let (src, dst) := fencePanels f
  if (s.fenceToken i).isNone || (src != k && dst != k) then s
  else if s.panelGone src && s.panelGone dst then (s.setFenceToken i none).countSat (F.PNL_SINK_CNT dst) 1
  else if dst = k ∧ f.sink then (s.setFenceToken i none).countSat (F.PNL_SINK_CNT dst) 1
  else s

/-! ### The image stream -/

/-- Free words of the host buffer as the register of the load in progress shows them. -/
def State.showHbuf (s : State) : State :=
  if s.inHoist then s.setFld F.HST_HOST_STATUS_HBUF_FREE (64 - s.hbuf.length)
  else s.setFld F.PNL_LOAD_STATUS_HBUF_FREE (64 - s.hbuf.length)

/-- How many bytes the engine wants next. -/
def State.loadNeeds (s : State) : Nat := match s.load.hdr with | none => 512 | some h => s.recordNeeds h []

/-- The engine takes words of a stream while what it holds is short of what it wants next. -/
def State.loadHungry (s : State) : Bool := s.load.active && decide (s.load.got.length < s.loadNeeds)

/-- Bytes of a stream reach the engine. -/
def State.feedLoad (s : State) (bs : List Byte) : State :=
  { s with load := { s.load with got := s.load.got ++ bs, words := s.load.words + bs.length / 4 } }

/-- The engine takes one word of the host buffer. -/
def State.drainHbuf (s : State) : State :=
  match s.hbuf with
  | [] => s
  | w :: ws => if s.loadHungry then (({ s with hbuf := ws }).feedLoad (leBytes 4 w.toNat)).showHbuf else s

/-- The engine starts on an image. -/
def State.startImage (s : State) (src : ImageSource) (base : Nat) : State :=
  ({ s with hbuf := [], load := { entry := s.load.entry, seed := s.load.seed, accept := s.load.accept, active := true, src := src,
                                  base := base } }).showHbuf

/-! ### The end of a partial load -/

/-- A partial load is in progress. -/
def State.partialBusy (s : State) : Bool := s.bit F.PNL_LOAD_STATUS_BUSY

/-- A load from the internal configuration port. -/
def State.fromIcp (s : State) : Bool := s.fld F.PNL_LOAD_STATUS_SRC == 3

/-- The port sends a status token (R365). -/
def State.icpReport (s : State) (result code : Nat) : State :=
  if s.fromIcp then { s with icpStatus := s.icpStatus ++ [BitVec.ofNat 64 (result * 2 ^ 14 + code % 256)] } else s

/-- Panels of the mask when a load ends before it completes (R354, R360). -/
def State.dropPanels (s : State) : State :=
  (panelsOf (s.fld F.PNL_LOAD_MASK_MASK)).foldl (fun t k =>
    let st := t.panelState k
    if st = 4 then t.setPanelState k 6 else if st = 2 then t.setPanelState k 3 else t) s

/-- The load ends with a RESULT; what the port still sends of a failed or refused image is discarded (R365). -/
def State.partialEnds (s : State) (result : Nat) : State :=
  let t := (s.setFld F.PNL_LOAD_STATUS_RESULT result).clear F.PNL_LOAD_STATUS_BUSY
  let t := ({ t.endLoad with hbuf := [], icpLast := if s.fromIcp ∧ result ≠ 1 then some s.now else s.icpLast }).showHbuf
  if result = 1 then t.raise F.PNL_EVENT_LOAD_DONE else if result < 4 then t.raise F.PNL_EVENT_LOAD_FAIL else t

/-- Start a load (R347, R349): the registers of the present load. -/
def State.startPartial (s : State) (code : Nat) (src : ImageSource) (base : Nat) (atomic : Bool) : State :=
  let t := ((s.setFld F.PNL_LOAD_STATUS_SRC code).setBit F.PNL_LOAD_STATUS_ATOMIC atomic).setFld F.PNL_LOAD_STATUS_RESULT 0
  let t := ((t.setFld F.PNL_LOAD_STATUS_RECS 0).raise F.PNL_LOAD_STATUS_BUSY).setFld F.PNL_LOAD_MASK_MASK 0
  t.startImage src base

/-- The flash that a source code names. -/
def flashSource (code : Nat) : ImageSource := if code = 0 then .xflash else .chip

/-- A failed load that leaves panels FAILED starts one fallback load (R356). -/
def State.fallback (s : State) : State :=
  let left := s.panelsIn 6
  if s.bit F.PNL_CTRL_AUTO_FB && left != 0 && s.fld F.PNL_LOAD_STATUS_SRC != 4
    && (panelsOf (s.fld F.PNL_LOAD_MASK_MASK)).any (fun k => s.panelState k == 6) then
    let t := (s.log 0x080B left).raise F.PNL_EVENT_FALLBACK
    t.startPartial 4 (flashSource (t.fld F.PNL_FB_SRC_SRC)) (t.reg F.PNL_FB_ADDR).toNat false
  else s

/-- A partial load fails (R353, R354). -/
def State.partialFails (s : State) (code detail : Nat) : State :=
  let t := ((s.log code detail).setFld F.PNL_LOAD_ERR_CODE code).dropPanels
  ((t.partialEnds 2).icpReport 2 code).fallback

/-- A load is abandoned (R372, R374). -/
def State.partialAbandoned (s : State) : State :=
  if s.partialBusy then
    let t := s.dropPanels
    let left := (panelsOf (s.fld F.PNL_LOAD_MASK_MASK)).foldl (fun m k => if t.panelState k = 6 then m + 2 ^ k else m) 0
    ((t.log 0x080C left).partialEnds 3).icpReport 2 0x0C
  else s

/-- The third stage of every panel of a load whose END has verified is applied: the load is complete (R345, R373). -/
def State.partialCompletes (s : State) : State :=
  let ps := panelsOf (s.fld F.PNL_LOAD_MASK_MASK)
  if s.partialBusy && s.load.ended && ps.all (fun k => s.panelState k == 1) then
    let src := s.fld F.PNL_LOAD_STATUS_SRC
    let t := ps.foldl (fun t k => (((t.countWrap (F.PNL_LOAD_CNT k) 1).setFld (F.PNL_STATE_LAST_SRC k) src).clear
      (F.PNL_STATE_TORN k)).clear ⟨F.PNL_TORN, k, 1⟩) s
    (t.partialEnds 1).icpReport 1 0
  else s

/-! ### Loading and releasing -/

/-- The resource of a class belongs to a panel by its edge port. -/
def State.ownedBy (s : State) (cls idx k : Nat) : Bool :=
  match s.portOf cls idx with
  | some p => s.fld (F.EP_BIND_PANEL p) == k
  | none => false

/-- A crossing's fabric side enters reset with its panel; a lane source that it feeds underruns (spec/08_crossings.md R406,
spec/14_network_lanes.md R737). -/
def State.crossingLoading (s : State) (n : Nat) : State :=
  let t := s.xngEnterReset n true
  let x := s.fld (F.XNG_CFG_CIDX n)
  if s.fld (F.XNG_CFG_CLIENT n) = 5 ∧ ((s.laneOf (x / 4)).tx.map (·.src)) = some (x % 4) then t.laneUnderrun (x / 4) else t

/-- A FIFO engine of a panel that enters LOADING (spec/09_fifo_engines.md R461, R462). -/
def State.fifoLoading (s : State) (n k : Nat) : State :=
  let t := if s.ownedBy 5 n k && s.fifoMode n != 0 then s.fifoEndFrame n 3 else s
  if s.ownedBy 7 n k && s.bit (F.FIFO_CFG_CONS_FLUSH n) then t.fifoFlush n else t

/-- A panel enters LOADING (R350). -/
def State.enterLoading (s : State) (k : Nat) : State :=
  let t := (s.setPanelState k 4).setPanel k { s.panelOf k with outHeld := true, weHeld := true, gsrHeld := true, stage := 0,
                                                                resumeNext := false, resumes := false }
  let t := (List.range 384).foldl (fun t n => if t.fld (F.EP_BIND_PANEL n) = k then t.setReg (F.EP_COUNT n) 0 else t) t
  let t := (List.range 96).foldl (fun t n => if t.ownedBy 4 n k then t.crossingLoading n else t) t
  let t := (List.range 64).foldl (fun t n => t.fifoLoading n k) t
  let t := (t.flushSheetsOf k).fabReset k
  (List.range s.fences.length).foldl (fun t i => match s.fences[i]? with | some f => t.fenceLoading k i f | none => t) t

/-- Once every panel of the mask is FROZEN or FAILED, each enters LOADING (R349, R350). -/
def State.tryLoading (s : State) : State :=
  let ps := panelsOf (s.fld F.PNL_LOAD_MASK_MASK)
  if s.partialBusy && s.load.hdr.isSome && !s.load.began && ps.all (fun k => s.panelState k == 3 || s.panelState k == 6) then
    let t := ps.foldl (fun t k => t.enterLoading k) s
    { t with load := { t.load with began := true } }
  else s

/-- A panel begins to quiesce (R342). -/
def State.startQuiesce (s : State) (k mask : Nat) : State :=
  (s.setPanelState k 2).setPanel k { s.panelOf k with quiesceAt := s.now, quiesceMask := mask, resumeNext := false }

/-- A panel's LOADING ends: its first stage is due at the next beat (R357). -/
def State.enterReleasing (s : State) (k : Nat) : State :=
  (s.setPanelState k 5).setPanel k { s.panelOf k with stage := 0, due := (s.now + 1) % 2 ^ 64 }

/-- The stages in order: 0 OUT, 1 WE, 2 GSR, by ORDER. -/
def releaseOrder (code : Nat) : List Nat :=
  match code with
  | 1 => [0, 2, 1] | 2 => [1, 0, 2] | 3 => [1, 2, 0] | 4 => [2, 0, 1] | 5 => [2, 1, 0] | _ => [0, 1, 2]

/-- One stage of a panel's release applies. -/
def State.panelStage (s : State) (k stage : Nat) : State :=
  let u := s.panelOf k
  match stage with
  | 0 => (s.setPanel k { u with outHeld := false }).outSheetsOf k
  | 1 => s.setPanel k { u with weHeld := false }
  | _ => (List.range 96).foldl (fun t n => if t.ownedBy 4 n k then t.xngLeaveReset n true else t)
      (s.setPanel k { u with gsrHeld := false })

/-- A panel enters RUNNING at its third stage (R357); a load whose verified header names it quiesces it again (R349). -/
def State.panelRuns (s : State) (k : Nat) : State :=
  let t := ((s.setPanelState k 1).setWide (F.PNL_RUN_LO k) s.now).partialCompletes
  if t.partialBusy && t.load.hdr.isSome && !t.load.began && !t.load.ended && (panelsOf (t.fld F.PNL_LOAD_MASK_MASK)).contains k then
    t.startQuiesce k 0
  else t

/-- The next stage of a releasing panel applies once its gap is over (R357, R358). -/
def execPanelReleaseStage (k : Fin 24) (s : State) : Out :=
  let u := s.panelOf k
  if s.panelState k = 5 ∧ atOrAfter s.now u.due then
    let t := s.panelStage k ((releaseOrder (s.fld (F.PNL_STATE_ORDER k))).getD u.stage 2)
    if u.stage = 2 then .next (t.panelRuns k)
    else
      let gap := 256 * s.fld (if u.stage = 0 then F.PNL_REL_GAP1 k else F.PNL_REL_GAP2 k)
      .next (t.setPanel k { t.panelOf k with stage := u.stage + 1, due := (s.now + gap) % 2 ^ 64 })
  else .next s

/-! ### Quiesce and resume -/

/-- Refuse a QUIESCE (R368) or a RESUME (R369) of one panel. -/
def State.panelRefused (s : State) (code k : Nat) : State := (s.log code k).raise F.PNL_EVENT_REFUSED

/-- Panels that QUIESCE takes are marked for a RESUME of another path in the same window (R367). -/
def State.markQuiesced (s : State) (p : Path) (ps : List Nat) : State :=
  if s.beatRuns then { s with win := { s.win with quiesced := s.win.quiesced ++ ps.map fun k => (p, k) } } else s

/-- QUIESCE of the panels in PNL_SEL (R342, R368). -/
def State.quiesceSel (s : State) (p : Path) : State :=
  let sel := panelsOf (s.fld F.PNL_SEL_PNL)
  let taken := sel.filter fun k => s.panelState k == 1
  let mask := taken.foldl (fun m k => m + 2 ^ k) 0
  (sel.foldl (fun t k => if s.panelState k = 1 then t.startQuiesce k mask else t.panelRefused 0x080D k) s).markQuiesced p taken

/-- A panel is held FROZEN by a load in progress (R369, R370). -/
def State.heldByLoad (s : State) (k : Nat) : Bool :=
  s.partialBusy && s.load.hdr.isSome && (panelsOf (s.fld F.PNL_LOAD_MASK_MASK)).contains k

/-- RESUME of one panel: it runs from the next beat on (R346), or is refused (R369). -/
def State.resumePanel (s : State) (k : Nat) : State :=
  if s.panelState k = 3 ∧ !s.bit (F.PNL_STATE_TORN k) ∧ !s.heldByLoad k then s.setPanel k { s.panelOf k with resumes := true }
  else s.panelRefused 0x080A k

/-- RESUME of the panels in PNL_SEL; `with_` are panels that a QUIESCE of the same arbiter window took (R367). -/
def State.resumeSel (s : State) (with_ : List Nat) : State :=
  (panelsOf (s.fld F.PNL_SEL_PNL)).foldl (fun t k =>
    if with_.contains k && t.panelState k == 2 then t.setPanel k { t.panelOf k with resumeNext := true } else t.resumePanel k) s

/-- The beat after a RESUME: the panel is RUNNING (R346, R360). -/
def State.panelsBeat (s : State) : State :=
  (s.panel.filter fun e => e.2.resumes).foldl (fun t e =>
    (if t.panelState e.1 = 3 then t.setPanelState e.1 1 else t).setPanel e.1 { t.panelOf e.1 with resumes := false }) s

/-- QUIESCE. -/
def execQuiesce (p : Path) (s : State) : Out := whenOpen s (s.quiesceSel p)

/-- RESUME. -/
def execResume (p : Path) (s : State) : Out :=
  whenOpen s (s.resumeSel ((s.win.quiesced.filter fun e => e.1 != p).map (·.2)))

/-- A panel has become FROZEN: QUIESCED once its command's panels all are, a RESUME that waits (R367), a load that waits (R350). -/
def State.panelFroze (s : State) (k : Nat) : State :=
  let u := s.panelOf k
  let t := if u.quiesceMask ≠ 0 ∧ (panelsOf u.quiesceMask).all (fun j => s.panelState j == 3) then s.raise F.PNL_EVENT_QUIESCED else s
  let t := t.setPanel k { u with resumeNext := false }
  (if u.resumeNext then t.resumePanel k else t).tryLoading

/-- Panel k froze after a quiesce of some units: QTIME, FROZEN, and what the freeze does. -/
def State.quiesced (s : State) (k qn : Nat) : State :=
  let (us, t) := s.roundOpen (qn : Int) 4000
  ((t.setFld (F.PNL_QTIME_US k) (min us.toNat (2 ^ 32 - 1))).setPanelState k 3).panelFroze k

/-- No handshake is in progress: FROZEN, and the Mast time it took in us (R343); its rounding is open (log entry 1). -/
def execQuiesceComplete (k : Fin 24) (s : State) : Out :=
  .next (if s.panelState k = 2 ∧ s.panelCalm k = true then s.quiesced k ((s.now + 2 ^ 64 - (s.panelOf k).quiesceAt) % 2 ^ 64) else s)

/-- PNL_QTIMEOUT expires: forced frozen and TORN (R344), its tokens unknown (R323). -/
def execQuiesceTimeout (k : Fin 24) (s : State) : Out :=
  if s.panelState k = 2 ∧ s.fld F.PNL_QTIMEOUT_US * 4000 ≤ (s.now + 2 ^ 64 - (s.panelOf k).quiesceAt) % 2 ^ 64 then
    let t := ((s.setPanelState k 3).raise (F.PNL_STATE_TORN k)).raise ⟨F.PNL_TORN, k, 1⟩
    .next ((((t.log 0x0801 k).raise F.PNL_EVENT_TORN).fabTear k).panelFroze k)
  else .next s

/-! ### Partial loads -/

/-- Refuse a load (R347): RESULT shows it unless a load in progress owns the register. -/
def State.partialRefused (s : State) (code : Nat) : State :=
  let t := ((s.log 0x0802 code).raise F.PNL_EVENT_REFUSED).setFld F.PNL_LOAD_ERR_CODE 0x0802
  if s.partialBusy then t
  else (t.setFld F.PNL_LOAD_STATUS_SRC code).setFld F.PNL_LOAD_STATUS_RESULT 4

/-- LOAD (R347). -/
def execPanelLoad (_p : Path) (s : State) : Out :=
  let code := s.fld F.PNL_LOAD_SRC_SRC
  if !s.inSail || s.partialBusy then whenOpen s (s.partialRefused code)
  else
    let src := if code = 2 then ImageSource.spi else flashSource code
    .next (s.startPartial code src (s.reg F.PNL_LOAD_ADDR).toNat (s.bit F.PNL_LOAD_SRC_ATOMIC))

/-- A write of PNL_HOST_DATA (R361): the word enters the buffer; none is free, or the image has ended (spec/11_images_and_keys.md
R580): the load fails. -/
def execPanelHostData (_p : Path) (w : Word) (s : State) : Out :=
  if !(s.inSail && s.partialBusy && s.fld F.PNL_LOAD_STATUS_SRC == 2) then .next s
  else if s.load.ended then .next (s.partialFails 0x020C (s.load.index - 1))
  else if 64 ≤ s.hbuf.length then .next ((s.partialFails 0x0808 0).raise F.PNL_EVENT_HBUF_OVR)
  else .next ({ s with hbuf := s.hbuf ++ [w] }).showHbuf

/-- A data token is taken at the internal configuration port. -/
def State.icpTake (s : State) (d : Dword) : State := (s.feedLoad (leBytes 8 d.toNat)).portCount 0xE 0

/-- A data token at the internal configuration port (R362, R363, R365). -/
def execIcpDataToken (d : Dword) (s : State) : Out :=
  let wait := s.fld F.PNL_LOAD_TIMEOUT_MS * 4000000
  let discards := match s.icpLast with | some t => decide ((s.now + 2 ^ 64 - t) % 2 ^ 64 ≤ wait) | none => false
  if !s.inSail || !s.bit F.PNL_ICP_CFG_EN || !s.fabricAlive 0xE 0 then .next s
  else if s.partialBusy then .next (if s.fromIcp && s.loadHungry then s.icpTake d else s)
  else if discards then .next (({ s with icpLast := some s.now }).portCount 0xE 0)
  else .next ((({ s with icpLast := none }).startPartial 3 .icp 0 (s.bit F.PNL_ICP_CFG_ATOMIC)).icpTake d)

/-- ABORT (R372). -/
def execPanelAbort (_p : Path) (s : State) : Out := whenOpen s s.partialAbandoned

/-- No image word for PNL_LOAD_TIMEOUT (R353); the count starts once the external flash is free (spec/13_field_update.md R702). -/
def execPanelLoadWordTimeout (s : State) : Out :=
  .next (if s.inSail && s.partialBusy && s.load.active && !(s.load.src == .xflash && s.xflashBusy) then
    s.partialFails 0x0807 (if s.load.src.streams then s.load.words else s.load.pos / 4) else s)

/-- The mask of a verified header (R349, R364): refused when a load from the port names the port's own panel, else its panels
quiesce. -/
def State.partialMask (s : State) (h : ImageHeader) : State :=
  let t := s.setFld F.PNL_LOAD_MASK_MASK h.mask
  let own := match s.portOf 0xE 0 with | some p => s.fld (F.EP_BIND_PANEL p) | none => 24
  if s.fromIcp && (panelsOf h.mask).contains own then
    let t := ((t.log 0x0809 own).raise F.PNL_EVENT_REFUSED).setFld F.PNL_LOAD_ERR_CODE 0x0809
    (t.partialEnds 4).icpReport 3 0x09
  else
    ((panelsOf h.mask).foldl (fun t k => if t.panelState k = 1 then t.startQuiesce k 0 else t) t).tryLoading

/-- The header of a partial image. -/
def State.partialHeader (s : State) (noise : List (Nat × Byte)) (errs : List (Nat × Nat)) : State :=
  match s.imageBytes noise 512 with
  | none => s
  | some b =>
    let (damaged, t) := s.imageChunks errs 512
    match t.verifyHeader b true damaged with
    | (.inl f, t) => t.partialFails f.code f.detail
    | (.inr (h, key, digest), t) =>
      let t := t.imageTaken 512
      ({ t with load := { t.load with hdr := some h, key := key, digest := digest } }).partialMask h

/-- END of a partial image verifies: bytes past it fail the load (spec/11_images_and_keys.md R580), else every panel still in
LOADING is released (R352) and the keys are cleared. -/
def State.partialLast (s : State) (h : ImageHeader) : State :=
  let pad := if s.fromIcp then 4 else 0
  if pad < s.load.got.length ∨ s.hbuf ≠ [] then s.partialFails 0x020C (s.load.index - 1)
  else
    let t := s.showImage h s.load.rolls
    let t := (panelsOf h.mask).foldl (fun t k => if t.panelState k = 4 then t.enterReleasing k else t) t
    ({ t.endLoad with load := { t.endLoad.load with ended := true, began := true } }).partialCompletes

/-- A record of a partial image that has authenticated (R348, R351, R352). -/
def State.partialEffect (s : State) (h : ImageHeader) (r : Record) (p : List Byte) : State :=
  let t := s.addSat F.PNL_LOAD_STATUS_RECS 1
  match r.type with
  | 2 =>
    if !(panelsOf h.mask).contains r.target then s.partialFails 0x0804 r.target
    else if s.fenceSigBad p then s.partialFails 0x0805 r.target
    else if t.panelState r.target = 4 then
      let t := t.loadPanel r.target p
      if t.bit F.PNL_LOAD_STATUS_ATOMIC then t else t.enterReleasing r.target
    else t
  | 15 => t.partialLast h
  | _ => t

/-- The fault of a partial image's record: a trailer failure is 0x0204, then 0x0806 (R353); a forbidden type comes once the record
has authenticated (R348). -/
def State.partialOpened (s : State) (h : ImageHeader) (b : List Byte) (damaged : Bool) : State :=
  let r := recordOf b h.trailer
  let genuine := (recordHeaderFault h s.load r.bytes r).isNone && !damaged && (authenticate h s.load r).isSome
  if genuine && !(r.type == 2 || r.type == 6 || r.type == 15) then s.partialFails 0x0803 r.type
  else match openRecord h s.load b damaged with
    | .inl f => if f.code = 0x0204 then (s.log 0x0204 f.detail).partialFails 0x0806 f.detail else s.partialFails f.code f.detail
    | .inr (r, p, l) =>
      let n := 16 + r.len + h.trailer
      let t := s.imageTaken n
      ({ t with load := { l with got := t.load.got } }).partialEffect h r p

/-- The next record of a partial image: a bad record header fails the load at once (R1080), and no record but a KEYROLL is accepted
until the panels are LOADING (R349). -/
def State.partialRecord (s : State) (h : ImageHeader) (noise : List (Nat × Byte)) (errs : List (Nat × Nat)) : State :=
  match s.imageBytes noise 16 with
  | none => s
  | some hd =>
    match recordHeaderFault h s.load hd (recordOf hd h.trailer) with
    | some f => s.partialFails f.code f.detail
    | none =>
      let n := s.recordNeeds h noise
      match s.imageBytes noise n with
      | none => s
      | some b =>
        if u8 b 0 ≠ 6 ∧ !s.load.began then s
        else
          let (damaged, t) := s.imageChunks errs n
          t.partialOpened h b damaged

end Sys2Proof.Machine
end

