-- ==== Sys2Proof/Machine/Links.lean ====
section
/-! DEFINITION. The link layer that the shroud ports (0-3) and the stay port (4) share: training, retry and link credits
(spec/15_shrouds.md R742-R754, spec/16_stay.md R805, R806). -/

namespace Sys2Proof.Machine

open Sys2Proof

def noLink : Nat → LinkUnit := fun _ => {}

/-- What port q holds. -/
def State.linkOf (s : State) (q : Nat) : LinkUnit := Table.get noLink s.link q

/-- Store what port q holds. -/
def State.setLink (s : State) (q : Nat) (u : LinkUnit) : State := { s with link := Table.put noLink s.link q u }

/-- The state code of port q: 0 OFF, 1 LOCKING, 2 ALIGNING, 3 TRAINING, 4 UP. -/
def linkFld (q : Nat) : Fld := if q < 4 then F.SHR_P_STATUS_STATE q else F.STY_STATUS_LINK

def State.linkState (s : State) (q : Nat) : Nat := s.fld (linkFld q)

/-- Port q is UP. -/
def State.linkUp (s : State) (q : Nat) : Bool := s.linkState q == 4

/-- Port q is declared (R746, R806). -/
def State.linkDeclared (s : State) (q : Nat) : Bool := if q < 4 then s.bit ⟨F.SHR_CFG, q, 1⟩ else s.bit F.STY_CFG_EN

/-- The port's counters. -/
def linkCrcErr (q : Nat) : Nat := if q < 4 then F.SHR_P_CRC_ERR q else F.STY_CRC_ERR
def linkReplay (q : Nat) : Nat := if q < 4 then F.SHR_P_REPLAY q else F.STY_REPLAY
def linkDownCnt (q : Nat) : Nat := if q < 4 then F.SHR_P_DOWN_CNT q else F.STY_DOWN_CNT
def linkLostFr (q : Nat) : Nat := if q < 4 then F.SHR_P_LOST_FR q else F.STY_LOST_FR

/-- Buffer sizes in flits by virtual channel (R754, R805). -/
def linkBuffer (q vc : Nat) : Nat := if q < 4 then (if vc = 0 then 256 else 64) else (if vc = 0 then 128 else 0)

/-- One of a pair of totals, and adding to it modulo 2^16. -/
def getVc (p : Nat × Nat) (vc : Nat) : Nat := if vc = 0 then p.1 else p.2
def addVc (p : Nat × Nat) (vc n : Nat) : Nat × Nat := if vc = 0 then ((p.1 + n) % 65536, p.2) else (p.1, (p.2 + n) % 65536)

/-- Flits of a frame. -/
def flitsOf (bs : List Byte) : Nat := bs.length / 16

/-- A frame as sent: its SEQ and the CRC over header bytes 0-13 and every data byte, high byte first (R747). -/
def sealFrame (bs : List Byte) (seq : Nat) : List Byte :=
  let b := bs.take 3 ++ [BitVec.ofNat 8 seq] ++ bs.drop 4
  let c := (crc16 (b.take 14 ++ b.drop 16)).toNat
  b.take 14 ++ [BitVec.ofNat 8 (c / 256), BitVec.ofNat 8 c] ++ b.drop 16

/-- A frame's CRC is good. -/
def frameCrcGood (bs : List Byte) : Bool :=
  let c := (crc16 (bs.take 14 ++ bs.drop 16)).toNat
  (bs.getD 14 0).toNat == c / 256 && (bs.getD 15 0).toNat == c % 256

/-- Log a stay code: every one but 0x0D04 sets ERR. -/
def State.styLog (s : State) (code detail : Nat) : State :=
  let t := s.log code detail
  if code = 0x0D04 then t else t.raise F.STY_EVENT_ERR

/-- Log a shroud code, with its event. -/
def State.shrLog (s : State) (code detail : Nat) : State :=
  (s.log code detail).raise (if code = 0x0C05 then F.SHR_EVENT_COORD_LOST
    else if code = 0x0C07 ∨ code = 0x0C0D then F.SHR_EVENT_LOST else F.SHR_EVENT_ERR)

/-! ### Sending -/

/-- Frames left a receive buffer (R754). -/
def State.linkFree (s : State) (q vc n : Nat) : State :=
  let u := s.linkOf q
  s.setLink q { u with freed := addVc u.freed vc n }

/-- A waiting frame leaves the device or is dropped: the buffer that held it frees. -/
def State.freeIngress (s : State) (w : WaitFrame) : State :=
  match w.ingress with
  | some p => s.linkFree p w.vc (flitsOf w.bytes)
  | none => s

/-- Whether port q may send a frame now (R753, R754). -/
def linkSendable (q : Nat) (u : LinkUnit) (w : WaitFrame) : Bool :=
  let used := (getVc u.sent w.vc + 65536 - getVc u.shown w.vc) % 65536
  decide (used + flitsOf w.bytes ≤ linkBuffer q w.vc) && decide (u.unacked.length < 128)
    && decide ((u.unacked.foldl (fun n f => n + flitsOf f.2) 0) + flitsOf w.bytes ≤ 256)

/-- Waiting frames in order of rank, first come first within one (spec/21_collisions_and_books.md R1064). -/
def byRank (ws : List WaitFrame) : List WaitFrame := (List.range 6).flatMap fun r => ws.filter fun w => w.rank == r

/-- The first frame that can go, no frame passing another of its virtual channel (the order among channels is a DESIGN CHOICE, log
entry 30). -/
def nextFrame (q : Nat) (u : LinkUnit) : List WaitFrame → List Nat → Option WaitFrame
  | [], _ => none
  | w :: ws, blocked =>
    if blocked.contains w.vc then nextFrame q u ws blocked
    else if linkSendable q u w then some w else nextFrame q u ws (w.vc :: blocked)

/-- Send what can go on port q. -/
def State.linkPump (s : State) (q : Nat) : Nat → State
  | 0 => s
  | fuel + 1 =>
    let u := s.linkOf q
    if !s.linkUp q then s
    else match nextFrame q u (byRank u.waiting) [] with
      | none => s
      | some w =>
        let u := { u with ackAt := if u.unacked.isEmpty then s.clock else u.ackAt, waiting := u.waiting.erase w, unacked := u.unacked ++ [(u.txSeq, sealFrame w.bytes u.txSeq)],
                          txSeq := (u.txSeq + 1) % 256, sent := addVc u.sent w.vc (flitsOf w.bytes) }
        ((s.setLink q u).freeIngress w).linkPump q fuel

/-- Send every frame that can go. -/
def State.linkGo (s : State) (q : Nat) : State := s.linkPump q (s.linkOf q).waiting.length

/-- Queue a frame on port q. -/
def State.linkSend (s : State) (q : Nat) (w : WaitFrame) : State :=
  let u := s.linkOf q
  (s.setLink q { u with waiting := u.waiting ++ [{ w with since := s.clock }] }).linkGo q

/-! ### Training -/

/-- Enter a state. -/
def State.setLinkState (s : State) (q st : Nat) : State := s.setFld (linkFld q) st

/-- The HST_PLL_STATUS lock bit of port q; its request bit stands 16 higher. -/
def linkPll (q i : Nat) : Fld := ⟨F.HST_PLL_STATUS, i + 9 + q, 1⟩

/-- Entry into the clock-loop wait (R749): a declared port begins to lock. -/
def State.linkStart (s : State) (q : Nat) : State :=
  if s.linkDeclared q && s.linkState q == 0 then (s.raise (linkPll q 16)).setLinkState q 1 else s

/-- Entry into Hoist or Reef: OFF. -/
def State.linkOff (s : State) (q : Nat) : State := (s.setLinkState q 0).setLink q {}

/-- LOCKING to ALIGNING (R749). -/
def execShroudPortPllLock (q : Fin 5) (s : State) : Out :=
  .next (if s.powered && s.linkState q == 1 then (s.raise (linkPll q 0)).setLinkState q 2 else s)

/-- ALIGNING to TRAINING (R749). -/
def execShroudPortAlign (q : Fin 5) (s : State) : Out :=
  .next (if s.powered && s.linkState q == 2 then (s.setLinkState q 3).setLink q { s.linkOf q with trains := 0, peerSeen := false }
    else s)

/-- A port below UP falls back (R749): to LOCKING when it loses PLL lock, else from TRAINING to ALIGNING. -/
def execShroudPortLockLoss (q : Fin 5) (pll : Bool) (s : State) : Out :=
  let st := s.linkState q
  .next (if !s.powered then s
    else if pll && (st == 2 || st == 3) then (s.clear (linkPll q 0)).setLinkState q 1
    else if !pll && st == 3 then s.setLinkState q 2
    else s)

/-- A control flit whose CRC-16 fails (R748). -/
def State.linkBadFlit (s : State) (q : Nat) : State := if 3 ≤ s.linkState q then s.countSat (linkCrcErr q) 1 else s

/-- A good TRAIN flit in TRAINING (R749): the state after it, and whether the port entered UP with it. -/
def State.linkTrain (s : State) (q : Nat) (rxReady peerSeen : Bool) : Bool × State :=
  let u := s.linkOf q
  let n := if peerSeen && u.peerSeen then u.trains + 1 else 0
  if n = 8 then (true, (s.setLinkState q 4).setLink q { waiting := u.waiting })
  else (false, s.setLink q { u with trains := n, peerSeen := u.peerSeen || rxReady })

/-- The state a port enters from UP by cause (R749, R750). -/
def downTo (cause : Nat) : Nat := if cause = 5 then 1 else if cause = 4 then 3 else 2

/-- Port q leaves UP (R750): its frames are lost and counted. -/
def State.linkDown (s : State) (q cause : Nat) : State :=
  let u := s.linkOf q
  let t := (s.setLinkState q (downTo cause)).setLink q {}
  let t := u.waiting.foldl (fun t w => t.freeIngress w) t
  let t := (t.countSat (linkDownCnt q) 1).countSat (linkLostFr q) (u.unacked.length + u.waiting.length)
  let t := if cause = 5 then t.clear (linkPll q 0) else t
  if q < 4 then t.shrLog 0x0C01 (q + 256 * cause) else t.styLog 0x0D01 (256 * cause)

/-! ### Retry -/

/-- Frames up to a SEQ and the rest; none acknowledged where no frame has that SEQ (R753). -/
def splitAck (fs : List (Nat × List Byte)) (seq : Nat) : List (Nat × List Byte) × List (Nat × List Byte) :=
  match fs.findIdx? (·.1 == seq) with
  | some i => (fs.take (i + 1), fs.drop (i + 1))
  | none => ([], fs)

/-- An ACK or NAK for a SEQ (R752, R753): the frames it acknowledges. -/
def State.linkAcked (s : State) (q seq : Nat) : List (List Byte) × State :=
  let u := s.linkOf q
  let (gone, rest) := splitAck u.unacked seq
  (gone.map (·.2), (s.setLink q { u with unacked := rest, stalls := if gone.isEmpty then u.stalls else 0,
                                         ackAt := if gone.isEmpty then u.ackAt else s.clock }).linkGo q)

/-- One replay of every unacknowledged frame (R752). -/
def State.linkReplays (s : State) (q : Nat) : State :=
  let u := s.linkOf q
  if u.unacked.isEmpty then s else (s.setLink q { u with stalls := u.stalls + 1, ackAt := s.clock }).countSat (linkReplay q) 1

/-- Eight replays without progress (R749). -/
def State.linkStuck (s : State) (q : Nat) : Bool := s.linkUp q && decide (8 ≤ (s.linkOf q).stalls)

/-- A CREDIT flit shows the totals freed by the peer (R754). -/
def execCreditFlit (q : Fin 5) (good : Bool) (vc0 vc1 : BitVec 16) (s : State) : Out :=
  .next (if !s.powered then s
    else if !good then s.linkBadFlit q
    else if s.linkUp q then (s.setLink q { s.linkOf q with shown := (vc0.toNat, vc1.toNat) }).linkGo q
    else s)

/-- A frame arrives (R752): whether it is accepted, and the ACK or NAK that it draws; the first that fails after a good one draws a
NAK with the last good SEQ. -/
def State.linkReceive (s : State) (q : Nat) (bs : List Byte) : Bool × State :=
  let u := s.linkOf q
  let nflit := (bs.getD (if q < 4 then 8 else 4) 0).toNat
  let whole := bs.length == 16 * (1 + nflit)
  let good := whole && frameCrcGood bs
  let seq := (bs.getD 3 0).toNat
  if good && seq == u.rxSeq then
    (true, s.setLink q { u with rxSeq := (seq + 1) % 256, nakOut := false, ack := some (false, seq) })
  else
    let t := if good then s else s.countSat (linkCrcErr q) 1
    (false, if u.nakOut then t else t.setLink q { u with nakOut := true, ack := some (true, (u.rxSeq + 255) % 256) })

end Sys2Proof.Machine
end

