-- ==== Sys2Proof/Machine/Shroud.lean ====
section
/-! DEFINITION. The shroud (spec/15_shrouds.md): election and formation, addressing and routing, endpoints and their credit book,
link loss, and Mast alignment. -/

namespace Sys2Proof.Machine

open Sys2Proof

/-! ### Identity and frames -/

/-- The device's 96-bit UID (spec/11_images_and_keys.md, fuse words 36-38). -/
def State.uid (s : State) : Nat := s.fuseWord 36 % 2 ^ 32 + 2 ^ 32 * (s.fuseWord 37 % 2 ^ 32) + 2 ^ 64 * (s.fuseWord 38 % 2 ^ 32)

/-- A key: the inverse of COORD above the UID.  The lowest wins. -/
def keyOf (coord : Bool) (uid : Nat) : Nat := (if coord then 0 else 2 ^ 96) + uid % 2 ^ 96

/-- The device's own key. -/
def State.ownKey (s : State) : Nat := keyOf (s.bit F.HST_STRAPS_COORD) s.uid

/-- FSTATE: 0 ALONE, 1 ELECTING, 2 FORMING, 3 FORMED. -/
def State.fstate (s : State) : Nat := s.fld F.SHR_STATUS_FSTATE

def State.formed (s : State) : Bool := s.fstate == 3

/-- The device's best key is its own. -/
def State.selfBest (s : State) : Bool := s.shroud.best == some s.ownKey

/-- The device's own endpoint address for an index. -/
def State.ownAddr (s : State) (e : Nat) : Nat := 64 * s.fld F.SHR_STATUS_ADDR + e

/-- A frame of this device: header and data, SEQ and CRC still 0. -/
def State.shrFrame (s : State) (kind flags dst e count : Nat) (data : List Byte) : List Byte :=
  [0x78, BitVec.ofNat 8 kind, BitVec.ofNat 8 flags, 0] ++ leBytes 2 dst ++ leBytes 2 (s.ownAddr e)
    ++ [BitVec.ofNat 8 (flitsOf data), BitVec.ofNat 8 count, 0, BitVec.ofNat 8 (s.fld F.SHR_STATUS_EPOCH), 0, 0, 0, 0] ++ data

/-- Bytes filled with zeros to a length. -/
def padTo (n : Nat) (bs : List Byte) : List Byte := bs ++ List.replicate (n - bs.length) 0

/-- Queue a frame of this device on port q. -/
def State.shrSend (s : State) (q vc : Nat) (bs : List Byte) : State := s.linkSend q { rank := 0, vc := vc, bytes := bs, ingress := none }

/-- The shroud ports that are UP. -/
def State.upPorts (s : State) : List Nat := (List.range 4).filter s.linkUp

/-- The parent port, 7 for none. -/
def State.parent (s : State) : Nat := s.fld F.SHR_FABRIC_PARENT

/-- A frame discarded in transit (R755, R768). -/
def State.shrDiscard (s : State) (hops : Nat) : State :=
  let t := s.countSat F.SHR_DISC 1
  if t.isQuiet F.SHR_DISC then t else (t.logOnce F.SHR_DISC 0x0C09 hops).raise F.SHR_EVENT_ERR

/-- Set ALIGNED or FAB_ALIGNED, with ALIGN_CHG (R784). -/
def State.setAlign (s : State) (f : Fld) (v : Bool) : State := if s.bit f = v then s else (s.setBit f v).raise F.SHR_EVENT_ALIGN_CHG

/-! ### Routes and members -/

/-- The installed table's entry for a device address: 0-3 port, 4 local, 15 unreachable. -/
def State.routeTo (s : State) (a : Nat) : Nat := (s.reg (F.SHR_ROUTE (a / 8))).toNat / 16 ^ (a % 8) % 16

/-- A device address is a member of the installed epoch. -/
def State.isMember (s : State) (a : Nat) : Bool := s.fld ⟨F.SHR_MEMBERS (a / 32), a % 32, 1⟩ == 1

/-- The route to a device address names a port that is not UP, or nothing (R775). -/
def State.noRoute (s : State) (a : Nat) : Bool := let p := s.routeTo a; p != 4 && !(decide (p < 4) && s.linkUp p)

/-! ### Endpoints -/

def noEndpoint : Nat → EndpointUnit := fun _ => {}

/-- What endpoint n holds. -/
def State.endpointOf (s : State) (n : Nat) : EndpointUnit := Table.get noEndpoint s.endpoint n

/-- Store what endpoint n holds, with HELD. -/
def State.setEndpoint (s : State) (n : Nat) (u : EndpointUnit) : State :=
  { s with endpoint := Table.put noEndpoint s.endpoint n u }.setFld (F.SHR_EP_RX_STATUS_HELD n) u.held.length

/-- Tokens sent and not lost, modulo 2^32. -/
def State.epSent (s : State) (n : Nat) : Nat := (s.fld (F.SHR_EP_TX_SENT_CNT n) + 2 ^ 32 - s.fld (F.SHR_EP_TX_LOST_CNT n)) % 2 ^ 32

/-- CREDIT = 32 - (TX_SENT - TX_LOST - RX_TAKEN) (R774). -/
def State.epCredit (s : State) (n : Nat) : Nat := (32 + 2 ^ 32 + (s.endpointOf n).taken - s.epSent n) % 2 ^ 32

/-- The device address of TX_PEER. -/
def State.txPeer (s : State) (n : Nat) : Nat := s.fld (F.SHR_EP_TX_PEER_ADDR n)

/-- The device address of RX_PEER. -/
def State.rxPeer (s : State) (n : Nat) : Nat := s.fld (F.SHR_EP_RX_PEER_ADDR n)

/-- SHR_EPn_TX_STATUS as it reads (R774, R775, R778). -/
def State.epTxStatus (s : State) (n : Nat) : Word :=
  let on := s.bit (F.SHR_EP_CFG_TX_EN n)
  let d := s.txPeer n / 64
  BitVec.ofNat 32 (s.epCredit n % 64 + (on && s.noRoute d).toNat * 64 + (on && !s.isMember d).toNat * 128
    + (s.endpointOf n).probe.isSome.toNat * 256)

/-- A CREDIT frame reaches the transmit side of endpoint n (R774): taken from TX_PEER only (DEDUCED, log entry 31). -/
def State.gotCredit (s : State) (n src recv taken : Nat) : State :=
  if s.bit (F.SHR_EP_CFG_TX_EN n) && src == s.txPeer n then
    s.setEndpoint n { s.endpointOf n with recv := recv, taken := taken, creditAt := s.clock } else s

/-- A CREDIT reply to the latest PROBE (R777): L tokens are written off. -/
def State.gotReply (s : State) (n src recv taken : Nat) : State :=
  let u := s.endpointOf n
  let t := s.gotCredit n src recv taken
  match u.probe with
  | some sent =>
    if src ≠ s.txPeer n then t
    else
      let l := (sent + 2 ^ 33 - s.fld (F.SHR_EP_TX_LOST_CNT n) - recv) % 2 ^ 32
      let t := t.setEndpoint n { t.endpointOf n with probe := none }
      if l = 0 then t
      else (t.countWrap (F.SHR_EP_TX_LOST n) l).shrLog 0x0C07 (n * 2 ^ 16 + min l 65535)
  | none => t

/-- Any CREDIT frame, with or without REPLY. -/
def State.creditFrame (s : State) (n src recv taken : Nat) (reply : Bool) : State :=
  if reply then s.gotReply n src recv taken else s.gotCredit n src recv taken

/-- Send a frame by the installed table; `here` is its effect where the address is the device's own. -/
def State.sendTo (s : State) (dst vc : Nat) (bs : List Byte) (here : State → State) : State :=
  let p := s.routeTo (dst / 64)
  if p = 4 then here s else if p < 4 then s.shrSend p vc bs else s

/-- Send a CREDIT frame to RX_PEER (R772). -/
def State.sendCredit (s : State) (n : Nat) (reply : Bool) : State :=
  if !s.formed then s
  else
    let recv := s.fld (F.SHR_EP_RX_RECV_CNT n)
    let taken := s.fld (F.SHR_EP_RX_TAKEN_CNT n)
    let data := padTo 16 (leBytes 4 recv ++ leBytes 4 taken ++ [BitVec.ofNat 8 reply.toNat])
    let t := s.setEndpoint n { s.endpointOf n with credited := taken }
    t.sendTo (s.rxPeer n) 1 (s.shrFrame 2 1 (s.rxPeer n) n 0 data) fun t => t.creditFrame (s.rxPeer n % 64) (s.ownAddr n) recv taken reply

/-- The head token of receive side n is taken (R772): a CREDIT frame follows each advance of 8. -/
def State.tokenTaken (s : State) (n : Nat) : Option (Dword × Byte) × State :=
  let u := s.endpointOf n
  match u.held with
  | [] => (none, s)
  | w :: ws =>
    let first := u.credited == s.fld (F.SHR_EP_RX_TAKEN_CNT n)
    let t := (s.setEndpoint n { u with held := ws, advAt := if first then s.clock else u.advAt }).countWrap (F.SHR_EP_RX_TAKEN n) 1
    (some w, if 8 ≤ (t.fld (F.SHR_EP_RX_TAKEN_CNT n) + 2 ^ 32 - u.credited) % 2 ^ 32 then t.sendCredit n false else t)

/-- Tokens of a TOKEN frame: its slots or flits (KIND table, R771). -/
def frameTokens (fmt : Bool) (count : Nat) (data : List Byte) : List (Dword × Byte) :=
  (List.range count).map fun i =>
    let o := (if fmt then 16 else 8) * i
    let d : Dword := BitVec.ofNat 64 (leNat ((data.drop o).take 8))
    (d, if fmt then data.getD (o + 8) 0 else fifoTag false false false 7 d)

/-- Discard tokens of receive side n (R773); `logs` where their source was unexpected. -/
def State.rxDiscard (s : State) (n k : Nat) (logs : Bool) : State :=
  let t := s.countSat (F.SHR_EP_RX_DISC n) k
  if !logs || t.isQuiet (F.SHR_EP_RX_DISC n) then t
  else (t.logOnce (F.SHR_EP_RX_DISC n) 0x0C08 (n * 2 ^ 16)).raise F.SHR_EVENT_ERR

/-- A TOKEN frame reaches receive side n (R772, R773).  Tokens past the 32 it holds, which the credit book rules out, are discarded
too (DEDUCED, log entry 31). -/
def State.gotTokens (s : State) (n src : Nat) (ts : List (Dword × Byte)) : State :=
  if !s.bit (F.SHR_EP_CFG_RX_EN n) then s
  else if src ≠ s.rxPeer n then s.rxDiscard n ts.length true
  else
    let u := s.endpointOf n
    let room := 32 - u.held.length
    let t := (s.setEndpoint n { u with held := u.held ++ ts.take room }).countWrap (F.SHR_EP_RX_RECV n) (min room ts.length)
    if room < ts.length then t.rxDiscard n (ts.length - room) false else t

/-- A PROBE reaches receive side n (R772): the CREDIT reply. -/
def State.gotProbe (s : State) (n : Nat) : State := if s.bit (F.SHR_EP_CFG_RX_EN n) then s.sendCredit n true else s

/-- The peer device of a transmit side left the membership (R778). -/
def State.txPairGone (s : State) (n : Nat) : State :=
  let t := s.countSat (F.SHR_EP_DROPS n) ((s.epSent n + 2 ^ 32 - (s.endpointOf n).recv) % 2 ^ 32)
  let t := (t.setReg (F.SHR_EP_TX_SENT n) 0).setReg (F.SHR_EP_TX_LOST n) 0
  (t.setEndpoint n { t.endpointOf n with recv := 0, taken := 0, probe := none }).shrLog 0x0C0D (n * 2 ^ 16)

/-- The peer device of a receive side left the membership (R778). -/
def State.rxPairGone (s : State) (n : Nat) : State :=
  let u := s.endpointOf n
  let t := ((s.rxDiscard n u.held.length false).setReg (F.SHR_EP_RX_RECV n) 0).setReg (F.SHR_EP_RX_TAKEN n) 0
  (t.setEndpoint n { u with held := [], credited := 0 }).shrLog 0x0C0D (n * 2 ^ 16 + 1)

/-! ### Alignment and reports -/

/-- The coordinator's FAB_ALIGNED (R784): every other member has reported ALIGNED. -/
def State.judgeAligned (s : State) : State :=
  let me := s.fld F.SHR_STATUS_ADDR
  if s.bit F.SHR_STATUS_IS_COORD then
    s.setAlign F.SHR_STATUS_FAB_ALIGNED ((List.range 64).all fun a => a == me || !s.isMember a || s.shroud.alignedAt.contains a)
  else s

/-- A REPORT from a device address reaches the coordinator (R784). -/
def State.gotReport (s : State) (a : Nat) (aligned : Bool) : State :=
  if s.bit F.SHR_STATUS_IS_COORD then
    let l := s.shroud.alignedAt.erase a
    { s with shroud := { s.shroud with alignedAt := if aligned then a :: l else l } }.judgeAligned
  else s

/-- A FORMED member sends its REPORT (R784). -/
def State.sendReport (s : State) : State :=
  if s.formed && !s.bit F.SHR_STATUS_IS_COORD then
    let dst := 64 * s.fld F.SHR_FABRIC_COORD_ADDR
    let data := padTo 16 [BitVec.ofNat 8 (s.fld F.SHR_STATUS_ALIGNED), BitVec.ofNat 8 (s.fld F.SHR_STATUS_EPOCH)]
    s.sendTo dst 1 (s.shrFrame 0x13 1 dst 0 0 data) id
  else s

/-- REPORT_SEND: every 10 ms. -/
def execReportSend (s : State) : Out := .next (if s.powered then s.sendReport else s)

/-- A REPORT reaches the device. -/
def execReport (a : Fin 64) (aligned : Bool) (s : State) : Out := .next (if s.powered && s.formed then s.gotReport a aligned else s)

/-! ### Tables -/

/-- Install a table (R761, R767, R778). -/
def State.installTable (s : State) (r : RouteTable) : State :=
  let old := s
  let t := (List.range 8).foldl (fun t k => t.setReg (F.SHR_ROUTE k) (BitVec.ofNat 32 (r.nibbles.getD k 0xFFFFFFFF))) s
  let ms := (List.range 64).filter fun a => t.routeTo a != 15
  let t := (List.range 2).foldl (fun t k => t.setReg (F.SHR_MEMBERS k)
    (BitVec.ofNat 32 ((ms.filter fun a => a / 32 == k).foldl (fun n a => n + 2 ^ (a % 32)) 0))) t
  let t := ((t.setFld F.SHR_STATUS_MEMBERS ms.length).setFld F.SHR_STATUS_EPOCH r.epoch).setFld F.SHR_STATUS_ADDR r.addr
  let t := ((t.raise F.SHR_STATUS_ADDR_VALID).setFld F.SHR_FABRIC_COORD_ADDR r.coord).raise F.SHR_EVENT_EPOCH
  let t := if t.fstate = 2 then t.setFld F.SHR_STATUS_FSTATE 3 else t
  let t := { t with shroud := { t.shroud with hasTable := true, table := none, epochAt := t.clock, noAddr := false } }
  let left := fun a => old.isMember a && !t.isMember a
  let t := (List.range 64).foldl (fun t n =>
    let t := if t.bit (F.SHR_EP_CFG_TX_EN n) && left (t.txPeer n / 64) then t.txPairGone n else t
    if t.bit (F.SHR_EP_CFG_RX_EN n) && left (t.rxPeer n / 64) then t.rxPairGone n else t) t
  t.judgeAligned

/-- A table is received or made (R767): installed while the device has none, else held until SWITCH. -/
def State.takeTable (s : State) (r : RouteTable) : State :=
  if s.shroud.hasTable then { s with shroud := { s.shroud with table := some r } } else s.installTable r

/-- A table that is held is installed at the first beat whose Mast is at or past SWITCH (R767). -/
def State.routeBeat (s : State) : State :=
  match s.shroud.table with
  | some r => if s.powered && atOrAfter s.now r.switch then s.installTable r else s
  | none => s

/-- The Mast reaches SWITCH (R767). -/
def execRouteSwitch (s : State) : Out := .next s.routeBeat

/-- An epoch that follows another, modulo 256. -/
def newerEpoch (a b : Nat) : Bool := let d := (a + 256 - b) % 256; decide (0 < d ∧ d < 128)

/-- A frame of a newer epoch installs that epoch's table when it is held (R767). -/
def State.epochSeen (s : State) (e : Nat) : State :=
  match s.shroud.table with
  | some r => if r.epoch = e ∧ newerEpoch e (s.fld F.SHR_STATUS_EPOCH) then s.installTable r else s
  | none => s

/-! ### Discovery and election -/

/-- The last HELLO of port q. -/
def State.helloOf (s : State) (q : Nat) : Option Hello := Table.get (fun _ => none) s.shroud.hello q

/-- R760: the device does not advertise its own key yet. -/
def State.defers (s : State) : Bool :=
  s.shroud.heardFormed && !s.bit F.SHR_STATUS_ALIGNED
    && (s.inHoist || decide (s.since (s.wide F.HST_T_SAIL_LO) < 4000000000))

/-- A HELLO that advertises a coordinator lost less than 2 ms ago is ignored (R782). -/
def State.helloIgnored (s : State) (key : Nat) : Bool :=
  match s.shroud.lost with
  | some (uid, m) => uid == key % 2 ^ 96 && !s.gone m 8000000
  | none => false

/-- The HELLOs in force, with their ports. -/
def State.hellos (s : State) : List (Nat × Hello) :=
  s.upPorts.filterMap fun q => match s.helloOf q with
    | some h => if s.helloIgnored h.key then none else some (q, h)
    | none => none

/-- The least of some numbers. -/
def leastOf : List Nat → Option Nat
  | [] => none
  | x :: xs => match leastOf xs with | some y => some (min x y) | none => some x

/-- TREE and UP_END of the ports. -/
def State.showPorts (s : State) : State :=
  (List.range 4).foldl (fun t q =>
    let t := t.setBit (F.SHR_P_STATUS_TREE q) (t.parent == q)
    match t.helloOf q with
    | some h => t.setBit (F.SHR_P_STATUS_UP_END q) (t.linkUp q && (decide (t.shroud.dist < h.dist)
        || (t.shroud.dist == h.dist && decide (t.fld F.SHR_STATUS_ADDR < h.addr))))
    | none => t.clear (F.SHR_P_STATUS_UP_END q)) s

/-- DIST, parent, COORD_SEQ, FAB_ALIGNED and COORD_SET by the HELLOs that advertise the best key (R758, R759, R784). -/
def State.followBest (s : State) : State :=
  let t := if s.selfBest then
      ({ s with shroud := { s.shroud with dist := 0 } }.setFld F.SHR_FABRIC_PARENT 7).setFld F.SHR_FABRIC_LEVEL 0
    else
      let hs := s.hellos.filter fun h => s.shroud.best == some h.2.key
      match leastOf (hs.map (·.2.dist)) with
      | none => s
      | some d =>
        match hs.find? (·.2.dist == d) with
        | none => s
        | some (q, h) =>
          let t := { s with shroud := { s.shroud with dist := d + 1, seq := h.seq,
                                                      seqAt := (if h.seq == s.shroud.seq then s.shroud.seqAt else s.clock) } }
          let t := (t.setFld F.SHR_FABRIC_PARENT q).setFld F.SHR_FABRIC_LEVEL (min 31 (d + 1))
          (t.setAlign F.SHR_STATUS_FAB_ALIGNED h.aligned).setBit F.SHR_STATUS_COORD_SET h.set
  t.showPorts

/-- Store the best key and SHR_COORD_UID. -/
def State.setBest (s : State) (k : Nat) : State :=
  let t := (List.range 3).foldl (fun t i => t.setReg (F.SHR_COORD_UID i) (BitVec.ofNat 32 (k / 2 ^ (32 * i)))) s
  { t with shroud := { t.shroud with best := some k, bestAt := t.clock, seqAt := t.clock } }

/-- The device enters ELECTING: it leaves FORMED and any formation of its own (R761, R787). -/
def State.toElecting (s : State) : State :=
  let t := if s.formed then s.coordLost else s
  let t := (t.setFld F.SHR_STATUS_FSTATE 1).clear F.SHR_STATUS_IS_COORD
  { t with shroud := { t.shroud with topos := [], alignedAt := [], due := false, reform := false, noAddr := false } }

/-- Adopt a best key (R758, R761). -/
def State.adoptBest (s : State) (k : Nat) : State :=
  let t := s.setBest k
  (if t.fstate = 0 then t else t.toElecting).followBest

/-- Weigh the keys heard and the device's own (R758, R760). -/
def State.elect (s : State) : State :=
  let defers := s.defers
  let s := if defers && s.selfBest then { s with shroud := { s.shroud with best := none } } else s
  match leastOf ((if defers then [] else [s.ownKey]) ++ s.hellos.map (·.2.key)) with
  | none => s
  | some k =>
    match s.shroud.best with
    | none => s.adoptBest k
    | some b => if k < b then s.adoptBest k else s.followBest

/-! ### TOPO -/

/-- A member sends its TOPO on its parent port (R762). -/
def State.sendTopo (s : State) : State :=
  if s.selfBest || !s.linkUp s.parent then s
  else
    let strap := s.bit F.SHR_CFG_ADDR_STRAP
    let req := if strap then s.fld F.HST_STRAPS_ADDR else s.fld F.SHR_STATUS_ADDR
    let b12 := strap.toNat + 2 * s.fld F.SHR_STATUS_ADDR_VALID + 4 * req
    let nbr := fun q => if s.linkUp q then s.helloOf q else none
    let data := padTo 16 (leBytes 12 s.uid ++ [BitVec.ofNat 8 b12])
      ++ ((List.range 4).flatMap fun q => leBytes 12 (match nbr q with | some h => h.uid | none => 0))
      ++ padTo 16 (List.replicate 5 (0 : Byte) ++ (List.range 4).map fun q => BitVec.ofNat 8 (match nbr q with | some h => h.port | none => 0))
    s.shrSend s.parent 1 (s.shrFrame 0x11 1 0 0 0 data)

/-- The ports changed (R762, R780): a member says so, the coordinator recomputes. -/
def State.portsChanged (s : State) : State :=
  if s.bit F.SHR_STATUS_IS_COORD then { s with shroud := { s.shroud with due := s.shroud.due || s.formed } }
  else if 2 ≤ s.fstate then s.sendTopo else s

/-- A TOPO's content, with the port it reached the coordinator on. -/
def parseTopo (q : Nat) (d : List Byte) : Topo :=
  { uid := leNat (d.take 12), strapped := u8 d 12 % 2 == 1, valid := u8 d 12 / 2 % 2 == 1, addr := u8 d 12 / 4,
    nbrs := (List.range 4).map fun i => leNat ((d.drop (16 + 12 * i)).take 12),
    ports := (List.range 4).map fun i => u8 d (69 + i) % 4,
    route := (List.range (u8 d 68)).map fun i => u32 d 64 / 4 ^ i % 4, ingress := q }

/-- The coordinator collects a TOPO (R763, R780): in FORMED a change makes it recompute. -/
def State.collectTopo (s : State) (x : Topo) : State :=
  let old := s.shroud.topos.find? (·.uid == x.uid)
  let same := old.map (fun o => (o.nbrs, o.ports, o.strapped, o.addr)) == some (x.nbrs, x.ports, x.strapped, x.addr)
  let rest := s.shroud.topos.filter (·.uid != x.uid)
  { s with shroud := { s.shroud with topos := rest ++ [x], due := s.shroud.due || (s.formed && !same),
                                     topoAt := if same then s.shroud.topoAt else s.clock } }

/-- Forward a frame on a port with HOPS incremented (R755); `bs` is the frame, held in the buffer of port q. -/
def State.shrForward (s : State) (q out : Nat) (bs : List Byte) : State :=
  let hops := (bs.getD 10 0).toNat + 1
  let vc := (bs.getD 2 0).toNat % 2
  if 16 ≤ hops then (s.linkFree q vc (flitsOf bs)).shrDiscard hops
  else s.linkSend out { rank := 0, vc := vc, bytes := patch bs 10 [BitVec.ofNat 8 hops], ingress := some q }

/-- A TOPO with its ingress port written at RLEN (R762). -/
def topoStep (q : Nat) (d : List Byte) : List Byte :=
  let n := u8 d 68
  patch (patch d 64 (leBytes 4 (u32 d 64 % 4 ^ n + q * 4 ^ n))) 68 [BitVec.ofNat 8 (n + 1)]

/-- A TOPO arrives on port q. -/
def State.gotTopo (s : State) (q : Nat) (bs : List Byte) : State :=
  let d := bs.drop 16
  if s.selfBest then (s.linkFree q 1 (flitsOf bs)).collectTopo (parseTopo q d)
  else if s.linkUp s.parent then s.shrForward q s.parent (bs.take 16 ++ topoStep q d)
  else s.linkFree q 1 (flitsOf bs)

/-! ### Formation -/

/-- A device of the formation: its UID, its neighbours' UIDs and ports. -/
structure Node where
  uid : Nat
  nbrs : List Nat
  ports : List Nat
  deriving DecidableEq, Repr

/-- The coordinator's own node. -/
def State.ownNode (s : State) : Node :=
  let nbr := fun q => if s.linkUp q then s.helloOf q else none
  { uid := s.uid, nbrs := (List.range 4).map fun q => match nbr q with | some h => h.uid | none => 0,
    ports := (List.range 4).map fun q => match nbr q with | some h => h.port | none => 0 }

/-- The node at the far end of port p of node i, where both ends report the link. -/
def nodeAt (ns : List Node) (i p : Nat) : Option Nat :=
  match ns[i]? with
  | none => none
  | some x =>
    let u := x.nbrs.getD p 0
    if u = 0 then none
    else (ns.findIdx? (·.uid == u)).bind fun j =>
      match ns[j]? with
      | some y => if y.nbrs.getD (x.ports.getD p 0) 0 = x.uid then some j else none
      | none => none

/-- More hops than any route has. -/
def farAway : Nat := 1000

/-- One round of shortening: each node's hops against its neighbours over the links a move admits. -/
def relax (ns : List Node) (ok : Nat → Nat → Bool) (hops : List Nat) : List Nat :=
  (List.range ns.length).map fun i => (List.range 4).foldl (fun n p =>
    match nodeAt ns i p with | some j => if ok i j then min n (hops.getD j farAway + 1) else n | none => n) (hops.getD i farAway)

/-- Rounds of shortening. -/
def relaxAll (ns : List Node) (ok : Nat → Nat → Bool) : Nat → List Nat → List Nat
  | 0, hops => hops
  | n + 1, hops => relaxAll ns ok n (relax ns ok hops)

/-- Insert by UID. -/
def insertTopo (x : Topo) : List Topo → List Topo
  | [] => [x]
  | y :: ys => if x.uid < y.uid then x :: y :: ys else y :: insertTopo x ys

/-- TOPOs in ascending order of UID; a TOPO carries no COORD strap (log entry 31). -/
def sortTopos (l : List Topo) : List Topo := l.foldl (fun acc x => insertTopo x acc) []

/-- The lowest address that is free. -/
def lowestFree (taken : List Nat) : Option Nat := (List.range 64).find? fun a => !taken.contains a

/-- The address that R764 gives a device after those of lower key. -/
def grantAddr (given : List (Nat × Nat)) (taken : List Nat) (strapped valid : Bool) (req uid : Nat) : Option Nat :=
  if strapped then (if taken.contains req then none else some req)
  else if valid && !taken.contains req then some req
  else match given.find? (·.1 == uid) with
    | some (_, a) => if taken.contains a then lowestFree taken else some a
    | none => lowestFree taken

/-- Addresses of the devices in order, by UID. -/
def grantAll (given : List (Nat × Nat)) : List Topo → List Nat → List (Nat × Nat)
  | [], _ => []
  | x :: xs, taken =>
    match grantAddr given taken x.strapped x.valid x.addr x.uid with
    | some a => (x.uid, a) :: grantAll given xs (a :: taken)
    | none => grantAll given xs taken

/-- What the coordinator computes (R764-R766): nodes with their addresses and hops. -/
structure Formation where
  nodes : List Node
  addrs : List Nat
  hops : List Nat
  deriving DecidableEq, Repr

/-- Which end of a link is up: the lower level, then the lower address. -/
def Formation.upEnd (f : Formation) (i j : Nat) : Bool :=
  let a := f.hops.getD i 0; let b := f.hops.getD j 0
  decide (a < b) || (a == b && decide (f.addrs.getD i 0 < f.addrs.getD j 0))

/-- Hops from each node to node d downward only, and by any up-then-down route. -/
def Formation.distances (f : Formation) (d : Nat) : List Nat × List Nat :=
  let n := f.nodes.length
  let down := relaxAll f.nodes (fun i j => f.upEnd i j) n ((List.range n).map fun i => if i = d then 0 else farAway)
  (down, relaxAll f.nodes (fun i j => f.upEnd j i) n down)

/-- The output port at node i toward node d (R766); 15 for none. -/
def Formation.portTo (f : Formation) (i d : Nat) : Nat :=
  if i = d then 4
  else
    let (down, any) := f.distances d
    let want := any.getD i farAway
    if farAway ≤ want then 15
    else ((List.range 4).find? fun p => match nodeAt f.nodes i p with
      | some j => (f.upEnd i j && down.getD j farAway + 1 == want) || (f.upEnd j i && any.getD j farAway + 1 == want)
      | none => false).getD 15

/-- The table of node i as eight words. -/
def Formation.table (f : Formation) (i : Nat) : List Nat :=
  (List.range 8).map fun k => (List.range 8).foldl (fun w j =>
    w + 16 ^ j * (match f.addrs.findIdx? (· == 8 * k + j) with | some d => f.portTo i d | none => 15)) 0

/-- The members that have TOPOs and lie within 16 hops, and what R764 grants them with the coordinator first. -/
def State.computeFormation (s : State) : Formation × List (Nat × Nat) :=
  let ts := sortTopos s.shroud.topos
  let nodeOf := fun (t : Topo) => ({ uid := t.uid, nbrs := t.nbrs, ports := t.ports } : Node)
  let all := s.ownNode :: ts.map nodeOf
  let hops := relaxAll all (fun _ _ => true) all.length ((List.range all.length).map fun i => if i = 0 then 0 else farAway)
  let near := (ts.zip hops.tail).filter fun p => decide (p.2 ≤ 16)
  let strap := s.bit F.SHR_CFG_ADDR_STRAP
  let own := (grantAddr s.shroud.given [] strap (s.bit F.SHR_STATUS_ADDR_VALID)
    (if strap then s.fld F.HST_STRAPS_ADDR else s.fld F.SHR_STATUS_ADDR) s.uid).getD 0
  let got := (s.uid, own) :: grantAll s.shroud.given ((near.map (·.1)).take 63) [own]
  let kept := near.filter fun p => got.any fun g => g.1 == p.1.uid
  let addrOf := fun u => match got.find? (·.1 == u) with | some g => g.2 | none => 0
  ({ nodes := s.ownNode :: kept.map fun p => nodeOf p.1, addrs := own :: kept.map fun p => addrOf p.1.uid, hops := 0 :: kept.map (·.2) }, got)

/-- Send a member its ROUTE frame (R767, R769): the TOPO's reverse route, from the coordinator outward. -/
def State.sendRoute (s : State) (f : Formation) (epoch switch : Nat) (x : Topo) : State :=
  let r := x.route.reverse
  let i := f.nodes.findIdx? (·.uid == x.uid)
  let word := (List.range r.length).foldl (fun w k => w + 4 ^ k * r.getD k 0) 0
  let b5 := match i with | some k => f.addrs.getD k 0 + 64 | none => 0
  let tab := match i with | some k => f.table k | none => List.replicate 8 0xFFFFFFFF
  let data := leBytes 4 word ++ [BitVec.ofNat 8 r.length, BitVec.ofNat 8 b5, BitVec.ofNat 8 epoch, 0] ++ leBytes 8 switch ++ tab.flatMap (leBytes 4)
  s.shrSend x.ingress 1 (s.shrFrame 0x12 5 (64 * (b5 % 64)) 0 0 data)

/-- The coordinator completes a formation (R763, R764, R769, R780). -/
def State.completeFormation (s : State) : State :=
  let n := s.shroud.topos.length + 1
  let few := (s.fstate == 2 || s.shroud.reform) && s.fld F.SHR_CFG_EXPECT != 0 && decide (n < s.fld F.SHR_CFG_EXPECT)
  let s := if few then s.shrLog 0x0C0B n else s
  let (f, got) := s.computeFormation
  let base := if newerEpoch s.shroud.issued (s.fld F.SHR_STATUS_EPOCH) then s.shroud.issued else s.fld F.SHR_STATUS_EPOCH
  let epoch := (base + 1) % 256
  let switch := (s.now + 80000) % 2 ^ 64
  let own := f.addrs.getD 0 0
  let given := got ++ s.shroud.given.filter fun g => !got.any fun h => h.1 == g.1
  let t := { s with shroud := { s.shroud with due := false, reform := false, issued := epoch, given := given } }
  let t := t.shroud.topos.foldl (fun t x => t.sendRoute f epoch switch x) (t.setFld F.SHR_STATUS_ADDR own)
  t.takeTable { epoch := epoch, switch := switch, nibbles := f.table 0, addr := own, coord := own }

/-- The coordinator holds what R763 asks for: EXPECT - 1 TOPOs, or 100 ms have passed; with EXPECT 0, FORM_QUIET_US without a new TOPO. -/
def State.toposIn (s : State) : Bool :=
  let n := s.fld F.SHR_CFG_EXPECT
  if n = 0 then s.gone s.shroud.topoAt (s.fld F.SHR_TIMING_FORM_QUIET_US * 4000)
  else decide (n ≤ s.shroud.topos.length + 1) || s.gone s.shroud.formAt 400000000

/-- FORMATION_COMPLETE: in FORMING, or in FORMED when a recomputation is due (R780) or REFORM asked for one. -/
def execFormationComplete (s : State) : Out :=
  let ready := if s.fstate = 2 then s.toposIn else s.formed && s.shroud.due && (!s.shroud.reform || s.toposIn)
  .next (if s.powered && s.bit F.SHR_STATUS_IS_COORD && ready then s.completeFormation else s)

/-- SHR_CMD.REFORM: on the coordinator a new formation is due; on a member nothing. -/
def execReform (s : State) : Out :=
  whenOpen s (if s.bit F.SHR_STATUS_IS_COORD && s.formed then
    { s with shroud := { s.shroud with due := true, reform := true, formAt := s.clock, topoAt := s.clock } } else s)

/-- A device without an address says why, and carries HELLO, TOPO and LINKDOWN frames alone (R765). -/
def State.noAddress (s : State) : State :=
  let s := { s with shroud := { s.shroud with noAddr := true } }
  if s.bit F.SHR_CFG_ADDR_STRAP && decide (s.shroud.dist ≤ 16) then s.shrLog 0x0C03 (s.fld F.HST_STRAPS_ADDR)
  else s.shrLog 0x0C04 s.shroud.dist

/-- A ROUTE frame reaches its member (R765, R767). -/
def State.gotRoute (s : State) (src : Nat) (d : List Byte) : State :=
  if s.fstate < 2 || s.selfBest then s
  else if u8 d 5 / 64 % 2 = 0 then s.noAddress
  else s.takeTable { epoch := u8 d 6, switch := leNat ((d.drop 8).take 8), nibbles := (List.range 8).map fun k => u32 d (16 + 4 * k),
                     addr := u8 d 5 % 64, coord := src / 64 }

/-- A ROUTE frame arrives on port q: this member's when HOPS has reached RLEN, else forwarded by its route. -/
def State.routeFrame (s : State) (q : Nat) (bs : List Byte) : State :=
  let d := bs.drop 16
  let hops := u8 bs 10
  if u8 d 4 ≤ hops then (s.linkFree q 1 (flitsOf bs)).gotRoute (u16 bs 6) d
  else if s.shroud.noAddr then s.linkFree q 1 (flitsOf bs)
  else s.shrForward q (u32 d 0 / 4 ^ hops % 4) bs

/-- ELECTING to FORMING (R761): the coordinator is known. -/
def State.enterForming (s : State) : State :=
  let t := s.setFld F.SHR_STATUS_FSTATE 2
  let t := { t with shroud := { t.shroud with formAt := t.clock, topoAt := t.clock } }
  if s.selfBest then
    let t := ((t.raise F.SHR_STATUS_IS_COORD).setAlign F.SHR_STATUS_ALIGNED true).followBest
    t.setBit F.SHR_STATUS_COORD_SET (t.bit F.MAST_STATUS_SET)
  else
    let t := (t.clear F.SHR_STATUS_IS_COORD).sendTopo
    if 16 < s.shroud.dist then t.noAddress else t

/-- The best key has been unchanged for FORM_QUIET_US (R761). -/
def execFormQuiet (s : State) : Out :=
  .next (if s.powered && s.fstate == 1 && s.shroud.best.isSome && s.gone s.shroud.bestAt (s.fld F.SHR_TIMING_FORM_QUIET_US * 4000) then
    s.enterForming else s)

/-- TOPO (R762): the member sends its own (none), or one arrives on a port, its header and five data flits. -/
def execTopo (frame : Option (Fin 4 × List Byte)) (s : State) : Out :=
  match frame with
  | none => .next (if s.powered && decide (2 ≤ s.fstate) then s.sendTopo else s)
  | some (q, bs) => .next (if s.powered && s.linkUp q then s.gotTopo q bs else s)

/-- ROUTE (R767): a ROUTE frame arrives on a port. -/
def execRoute (q : Fin 4) (bs : List Byte) (s : State) : Out := .next (if s.powered && s.linkUp q then s.routeFrame q bs else s)

/-! ### HELLO -/

/-- The data flits of a HELLO on port q. -/
def State.helloData (s : State) (q : Nat) : List Byte :=
  let k := s.shroud.best.getD s.ownKey
  let set := if s.selfBest then s.bit F.MAST_STATUS_SET else s.bit F.SHR_STATUS_COORD_SET
  let b12 := s.fld F.HST_STRAPS_COORD + 2 * s.fld F.SHR_STATUS_ADDR_VALID + 4 * s.fld F.SHR_STATUS_ADDR
  let c12 := (decide (k < 2 ^ 96)).toNat + 2 * set.toNat + 4 * s.fld F.SHR_STATUS_FAB_ALIGNED + 8 * s.formed.toNat
  leBytes 12 s.uid ++ [BitVec.ofNat 8 b12, BitVec.ofNat 8 q, 0, 0] ++ leBytes 12 k
    ++ [BitVec.ofNat 8 c12, BitVec.ofNat 8 s.shroud.dist, BitVec.ofNat 8 s.shroud.seq, 0]

/-- HELLO_SEND (R757). -/
def execHelloSend (s : State) : Out :=
  .next (if s.powered then
    let t := if s.fstate = 0 then s else s.elect
    t.upPorts.foldl (fun t q => t.shrSend q 1 (t.shrFrame 0x10 9 0 0 0 (t.helloData q))) t
  else s)

/-- What a HELLO's data flits say. -/
def parseHello (d : List Byte) : Hello :=
  { uid := leNat (d.take 12), addrValid := u8 d 12 / 2 % 2 == 1, addr := u8 d 12 / 4, port := u8 d 13 % 4,
    key := keyOf (u8 d 28 % 2 == 1) (leNat ((d.drop 16).take 12)), set := u8 d 28 / 2 % 2 == 1, aligned := u8 d 28 / 4 % 2 == 1,
    formed := u8 d 28 / 8 % 2 == 1, dist := u8 d 29, seq := u8 d 30 }

/-- A HELLO arrives on port q (R758-R760); the first of a neighbour also lets the ports' change be reported (log entry 31). -/
def State.gotHello (s : State) (q : Nat) (h : Hello) : State :=
  let fresh := (s.helloOf q).map (·.uid) != some h.uid
  let t := (List.range 3).foldl (fun t i => t.setReg (F.SHR_P_NBR_UID0 q + 4 * i) (BitVec.ofNat 32 (h.uid / 2 ^ (32 * i)))) s
  let t := ((t.setFld (F.SHR_P_STATUS_NBR_PORT q) h.port).setBit (F.SHR_P_STATUS_NBR_VALID q) h.addrValid).setFld (F.SHR_P_STATUS_NBR_ADDR q) h.addr
  let t := { t with shroud := { t.shroud with hello := Table.put (fun _ => none) t.shroud.hello q (some h),
                                              heardFormed := t.shroud.heardFormed || h.formed } }
  let t := t.elect
  if fresh then t.portsChanged else t

/-- HELLO: its two data flits on a port that is UP. -/
def execHello (q : Fin 4) (data : List Byte) (s : State) : Out :=
  .next (if s.powered && s.linkUp q then s.gotHello q (parseHello data) else s)

/-- COORD_SEQ_TICK (R759). -/
def execCoordSeqTick (s : State) : Out :=
  .next (if s.powered && s.selfBest && s.fstate != 0 then { s with shroud := { s.shroud with seq := (s.shroud.seq + 1) % 256 } } else s)

/-! ### Link loss and coordinator loss -/

/-- Flood a LINKDOWN on every UP port but one (R779). -/
def State.floodDown (s : State) (but uid port epoch hops : Nat) : State :=
  let data := padTo 16 (leBytes 12 uid ++ [BitVec.ofNat 8 port, BitVec.ofNat 8 epoch])
  if 16 ≤ hops then s.shrDiscard hops
  else (s.upPorts.filter (· != but)).foldl (fun t q => t.shrSend q 1 (patch (t.shrFrame 0x14 1 0 0 0 data) 10 [BitVec.ofNat 8 hops])) s

/-- The coordinator strikes a lost link from what it holds (R780, R793). -/
def State.strikeLink (s : State) (uid port : Nat) : State :=
  let ts := s.shroud.topos.map fun x => if x.uid = uid then { x with nbrs := replaceAt x.nbrs port fun _ => 0 } else x
  { s with shroud := { s.shroud with topos := ts, due := s.shroud.due || s.formed } }

/-- A LINKDOWN arrives (R779, R780); one seen before does nothing. -/
def State.gotLinkDown (s : State) (q uid port epoch hops : Nat) : State :=
  if s.shroud.seenDown.contains (uid, port, epoch) then s
  else
    let t := { s with shroud := { s.shroud with seenDown := (uid, port, epoch) :: s.shroud.seenDown } }
    let t := t.floodDown q uid port epoch (hops + 1)
    if t.bit F.SHR_STATUS_IS_COORD then t.strikeLink uid port else t

/-- LINKDOWN: its reporter, PORT and EPOCH, on a port. -/
def execLinkdown (q : Fin 4) (uid : BitVec 96) (port : Fin 4) (epoch : Byte) (s : State) : Out :=
  .next (if s.powered && s.linkUp q then s.gotLinkDown q uid.toNat port epoch.toNat 0 else s)

/-- Every port has left UP (R761). -/
def State.toAlone (s : State) : State :=
  let t := if s.formed then s.coordLost else s
  let t := ((t.setFld F.SHR_STATUS_FSTATE 0).clear F.SHR_STATUS_IS_COORD).setFld F.SHR_FABRIC_PARENT 7
  { (t.setFld F.SHR_FABRIC_LEVEL 0) with shroud := { t.shroud with best := none, dist := 0, heardFormed := false, topos := [], alignedAt := [],
                                                                   due := false, sync := none } }

/-- A shroud port has left UP (R761, R779, R780, R796). -/
def State.shroudDown (s : State) (q : Nat) : State :=
  let t := s.raise F.SHR_EVENT_PORT
  let sync := match t.shroud.sync with | some (p, _, _) => if p = q then none else t.shroud.sync | none => none
  let t := { t with shroud := { t.shroud with hello := Table.put (fun _ => none) t.shroud.hello q none, sync := sync } }
  if t.upPorts.isEmpty then t.toAlone.showPorts
  else
    let e := t.fld F.SHR_STATUS_EPOCH
    let t := { t with shroud := { t.shroud with seenDown := (t.uid, q, e) :: t.shroud.seenDown } }
    ((t.floodDown q t.uid q e 0).followBest).portsChanged

/-- A shroud port has entered UP (R761). -/
def State.shroudUp (s : State) : State :=
  let t := s.raise F.SHR_EVENT_PORT
  if t.fstate = 0 then (t.setFld F.SHR_STATUS_FSTATE 1).elect else t

/-- COORD_SEQ has not changed for 1 ms (R782). -/
def execCoordinatorLost (s : State) : Out :=
  if s.powered && s.fstate != 0 && !s.selfBest && s.gone s.shroud.seqAt 4000000 then
    let t := s.shrLog 0x0C05 (s.fld F.SHR_FABRIC_COORD_ADDR)
    let t := { t with shroud := { t.shroud with lost := some ((t.shroud.best.getD 0) % 2 ^ 96, t.clock), hello := [], heardFormed := false } }
    .next (t.coordLost.adoptBest t.ownKey)
  else .next s

/-! ### Mast alignment -/

/-- Answer a SYNC_REQ that arrived on port q (R783): ingress t2 now, egress t3 `ofs` qn later. -/
def State.answerSync (s : State) (q ofs : Nat) : State :=
  let coord := s.selfBest
  let ep := if coord then (0 : Word) else s.reg F.SHR_LAST_ERR
  let set := if coord then s.bit F.MAST_STATUS_SET else s.bit F.SHR_STATUS_COORD_SET
  let data := leBytes 8 s.now ++ leBytes 8 ((s.now + ofs) % 2 ^ 64)
    ++ padTo 16 (leBytes 4 ep.toNat ++ [BitVec.ofNat 8 (set.toNat + 2 * s.fld F.SHR_STATUS_ALIGNED)])
  s.shrSend q 1 (s.shrFrame 0x16 9 0 0 0 data)

/-- SHROUD_SYNC_REQ (R783): the member sends one on its parent port with egress stamp t1, or one arrives. -/
def execShroudSyncReq (arrived : Option (Fin 4)) (ofs : Nat) (s : State) : Out :=
  match arrived with
  | some q => .next (if s.powered && s.linkUp q then s.answerSync q ofs else s)
  | none =>
    if s.powered && decide (2 ≤ s.fstate) && !s.shroud.noAddr && !s.selfBest && s.linkUp s.parent && decide (s.parent < 4) then
      let t := { s with shroud := { s.shroud with sync := some (s.parent, (s.now + ofs) % 2 ^ 64, s.mast.steps) } }
      .next (t.shrSend t.parent 1 (t.shrFrame 0x15 9 0 0 0 []))
    else .next s

/-- Twice the offset o, and the delay, of an exchange (R783): rounding toward zero is of e and of the delay. -/
def exchange (t1 t2 t3 t4 : Nat) (asym : Int) : Int × Int :=
  let a := signed 64 ((t4 + 2 ^ 64 - t3) % 2 ^ 64)
  let b := signed 64 ((t2 + 2 ^ 64 - t1) % 2 ^ 64)
  (a - b + asym, (a + b).tdiv 2)

/-- A signed 32-bit register of a value; beyond 32 bits it is open (log entry 1). -/
def State.setSigned (s : State) (a : Nat) (v : Int) : State :=
  if -2 ^ 31 ≤ v ∧ v < 2 ^ 31 then s.setReg a (BitVec.ofNat 32 (unsigned 32 v))
  else let (w, t) := s.open_; t.setReg a (BitVec.ofNat 32 w)

/-- A phase sample of the shroud (R785-R787). -/
def State.shroudSample (s : State) (e : Int) : State :=
  if s.inHoist then
    if s.bit F.SHR_CFG_HOIST_STEP && s.hoist.stage == 0 && !s.shroud.stepped then
      let t := ({ s with shroud := { s.shroud with stepped := true } }.shrLog 0x0C0C (unsigned 32 (-e)))
      t.phaseRequest none (-e) true
    else s
  else if s.inSail && s.formed && !s.bit F.SHR_STATUS_IS_COORD then s.coordSample e
  else s

/-- A SYNC_RESP arrives on port q (R783-R787, R796); an exchange begun before an applied step gives nothing
(spec/03_discipline_and_holdover.md R115). -/
def State.gotSync (s : State) (q t2 t3 t4 : Nat) (ep : Int) (set : Bool) : State :=
  match s.shroud.sync with
  | some (p, t1, k) =>
    if p ≠ q then s
    else if k ≠ s.mast.steps then { s with shroud := { s.shroud with sync := none } }
    else
      let (o, delay) := exchange t1 t2 t3 t4 (s.asym (F.SHR_P_ASYM q))
      let e := (o + 2 * ep).tdiv 2
      let t := { s with shroud := { s.shroud with sync := none } }
      let t := ((t.setSigned (F.SHR_P_DELAY q) delay).setSigned F.SHR_LAST_ERR e).setBit F.SHR_STATUS_COORD_SET set
      let ok := decide (e.natAbs ≤ t.fld F.SHR_ALIGN_THR_THR)
      let t := if t.bit F.SHR_STATUS_IS_COORD || t.bit F.SHR_STATUS_ALIGNED = ok then t
        else (t.setAlign F.SHR_STATUS_ALIGNED ok).sendReport
      if set then t.shroudSample e else t
  | none => s

/-- SHROUD_SYNC_RESP (R783): t2, t3, E_P and the coordinator's SET; ingress t4 is `ofs` qn past the beat. -/
def execShroudSyncResp (q : Fin 4) (t2 t3 : Dword) (ep : Word) (set : Bool) (ofs : Nat) (s : State) : Out :=
  .next (if s.powered && s.linkUp q then s.gotSync q t2.toNat t3.toNat ((s.now + ofs) % 2 ^ 64) (signed 32 ep.toNat) set else s)

/-! ### Endpoint commands -/

/-- The FIFO engine that feeds transmit side n. -/
def State.epSource (s : State) (n : Nat) : Option Nat :=
  (List.range 64).find? fun m => s.bit (F.FIFO_CFG_EN m) && s.fld (F.FIFO_CFG_CONS m) == 3 && s.fld (F.FIFO_CFG_CIDX m) == n

/-- Pop words for a transmit side, each as its read finds it; one with VALID 0 is discarded (R770, R431). -/
def State.epPops (s : State) (m : Nat) : List Ecc → List (Dword × Byte) × State
  | [] => ([], s)
  | e :: es =>
    let (w, t) := s.fifoPop m e
    let (ws, t) := t.epPops m es
    (if tagBit w.2 7 then w :: ws else ws, t)

/-- Send tokens in one TOKEN frame (R770, R774). -/
def State.sendTokens (s : State) (n : Nat) (fmt : Bool) (ts : List (Dword × Byte)) : State :=
  if ts.isEmpty then s
  else
    let dst := s.txPeer n
    let data := if fmt then ts.flatMap fun w => leBytes 8 w.1.toNat ++ padTo 8 [w.2] else ts.flatMap fun w => leBytes 8 w.1.toNat
    let data := padTo ((data.length + 15) / 16 * 16) data
    let t := s.countWrap (F.SHR_EP_TX_SENT n) ts.length
    t.sendTo dst 0 (s.shrFrame 1 (2 * fmt.toNat) dst n ts.length data) fun t => t.gotTokens (dst % 64) (s.ownAddr n) (frameTokens fmt ts.length data)

/-- Whether transmit side n may send (R761, R775, R790). -/
def State.epSends (s : State) (n : Nat) : Bool :=
  s.powered && !s.bit F.FAB_STATUS_GSR && s.bit (F.SHR_EP_CFG_TX_EN n) && s.formed && !s.noRoute (s.txPeer n / 64)

/-- Endpoint n sends these tokens of its feed or of its engine. -/
def State.epTransmit (s : State) (n : Nat) (feed : List (Dword × Ecc)) : State :=
  if !s.epSends n then s
  else if s.bit (F.SHR_EP_CFG_TX_FIFO n) then
    match s.epSource n with
    | some m => if s.inSail then let (ws, t) := s.epPops m (feed.map (·.2)); t.sendTokens n true ws else s
    | none => s
  else if s.fabricAlive 0xA n then
    let w := s.fld (F.SHR_EP_CFG_TX_WIDTH_M1 n) + 1
    let ts := feed.map fun f => (BitVec.ofNat 64 (f.1.toNat % 2 ^ w), (0 : Byte))
    ts.foldl (fun t _ => t.portCount 0xA n) (s.sendTokens n false ts)
  else s

/-- ENDPOINT_TRANSMIT (R770, R774, R775): up to 8 tokens that its edge port offers, or as many pops as the list has reads. -/
def execEndpointTransmit (n : Fin 64) (feed : List (Dword × Ecc)) (s : State) : Out :=
  .next (s.epTransmit n (feed.take (min 8 (s.epCredit n))))

/-- ENDPOINT_CREDIT_FRAME (R772): after an advance of RX_TAKEN smaller than 8, 1 us later. -/
def execEndpointCreditFrame (n : Fin 64) (s : State) : Out :=
  .next (if s.powered && s.bit (F.SHR_EP_CFG_RX_EN n) && s.fld (F.SHR_EP_RX_TAKEN_CNT n) != (s.endpointOf n).credited
      && s.gone (s.endpointOf n).advAt 4000 then s.sendCredit n false
    else s)

/-- A PROBE is due (R776): 1 ms after the epoch, or 1 ms after the last CREDIT frame and the last PROBE; never within 1 ms of the epoch. -/
def State.probeDue (s : State) (n : Nat) : Bool :=
  let u := s.endpointOf n
  let e := s.shroud.epochAt + 4000000
  decide (e ≤ s.clock) && (decide (u.probedAt < e) || s.gone (max u.creditAt u.probedAt) 4000000)

/-- PROBE (R776). -/
def execProbe (n : Fin 64) (s : State) : Out :=
  if s.epSends n && s.epSent n != (s.endpointOf n).recv && s.probeDue n then
    let sent := s.fld (F.SHR_EP_TX_SENT_CNT n)
    let dst := s.txPeer n
    let t := s.setEndpoint n { s.endpointOf n with probe := some sent, probedAt := s.clock }
    .next (t.sendTo dst 0 (t.shrFrame 3 0 dst n 0 (padTo 16 (leBytes 4 sent))) fun t => t.gotProbe (dst % 64))
  else .next s

/-- PROBE_REPLY (R777): a CREDIT frame with REPLY from the peer. -/
def execProbeReply (n : Fin 64) (recv taken : Word) (s : State) : Out :=
  .next (if s.powered && s.formed && s.bit (F.SHR_EP_CFG_TX_EN n) then s.gotReply n (s.txPeer n) recv.toNat taken.toNat else s)

/-- PEER_WRITE (R792): the side's pair counters become 0, or the write is refused. -/
def execPeerWrite (_p : Path) (n : Fin 64) (rx : Bool) (v : Word) (s : State) : Out :=
  let u := s.endpointOf n
  let refused := s.shrLog 0x0C0A (n.val * 2 ^ 16 + rx.toNat)
  if rx then
    whenOpen s (if !u.held.isEmpty then refused
      else
        let (v, s) := s.mirrorMerge (F.SHR_EP_RX_PEER n) v
        let t := ((s.setFld (F.SHR_EP_RX_PEER_ADDR n) v.toNat).setReg (F.SHR_EP_RX_RECV n) 0).setReg (F.SHR_EP_RX_TAKEN n) 0
        t.setEndpoint n { u with credited := 0 })
  else
    whenOpen s (if s.epSent n ≠ u.taken then refused
      else
        let (v, s) := s.mirrorMerge (F.SHR_EP_TX_PEER n) v
        let t := ((s.setFld (F.SHR_EP_TX_PEER_ADDR n) v.toNat).setReg (F.SHR_EP_TX_SENT n) 0).setReg (F.SHR_EP_TX_LOST n) 0
        t.setEndpoint n { u with recv := 0, taken := 0, probe := none })

/-! ### Frames -/

/-- A frame by DST reaches its endpoint (KIND table). -/
def State.deliver (s : State) (bs : List Byte) : State :=
  let d := bs.drop 16
  let n := u16 bs 4 % 64
  let src := u16 bs 6 % 4096
  match u8 bs 1 with
  | 0x01 => s.gotTokens n src (frameTokens (u8 bs 2 / 2 % 2 == 1) (min 8 (u8 bs 9)) d)
  | 0x02 => s.creditFrame n src (u32 d 0) (u32 d 4) (u8 d 8 % 2 == 1)
  | 0x03 => s.gotProbe n
  | _ => s.gotReport (src / 64) (u8 d 0 % 2 == 1)

/-- A frame routed by DST (R755, R767, R768): only in FORMED and in its epoch; toward an unreachable address it is discarded too
(DEDUCED, log entry 31). -/
def State.routedFrame (s : State) (q : Nat) (bs : List Byte) : State :=
  let s := s.epochSeen (u8 bs 11)
  let vc := u8 bs 2 % 2
  if !s.formed || u8 bs 11 != s.fld F.SHR_STATUS_EPOCH then (s.linkFree q vc (flitsOf bs)).shrDiscard (u8 bs 10)
  else
    let p := s.routeTo (u16 bs 4 / 64 % 64)
    if p = 4 then (s.linkFree q vc (flitsOf bs)).deliver bs
    else if p < 4 then s.shrForward q p bs
    else (s.linkFree q vc (flitsOf bs)).shrDiscard (u8 bs 10)

/-- An accepted frame on shroud port q takes effect. -/
def State.shroudFrame (s : State) (q : Nat) (bs : List Byte) : State :=
  let d := bs.drop 16
  let here := s.linkFree q (u8 bs 2 % 2) (flitsOf bs)
  match u8 bs 1 with
  | 0x01 | 0x02 | 0x03 | 0x13 => s.routedFrame q bs
  | 0x10 => here.gotHello q (parseHello d)
  | 0x11 => s.gotTopo q bs
  | 0x12 => s.routeFrame q bs
  | 0x14 => here.gotLinkDown q (leNat (d.take 12)) (u8 d 12 % 4) (u8 d 13) (u8 bs 10)
  | 0x15 => here.answerSync q 0
  | 0x16 => here.gotSync q (leNat (d.take 8)) (leNat ((d.drop 8).take 8)) s.now (signed 32 (u32 d 16)) (u8 d 20 % 2 == 1)
  | _ => here

/-- FRAME_WAIT_TIMEOUT (R755): the VC0 frame that has waited longest for port q is discarded. -/
def execFrameWaitTimeout (q : Fin 4) (s : State) : Out :=
  let u := s.linkOf q
  match u.waiting.find? (·.vc == 0) with
  | some w => .next (if s.powered && s.gone w.since 200000 then
      ((s.setLink q { u with waiting := u.waiting.erase w }).freeIngress w).shrDiscard (u8 w.bytes 10) else s)
  | none => .next s

end Sys2Proof.Machine
end

