-- ==== Sys2Proof/Machine/Stay.lean ====
section
/-! DEFINITION. The stay (spec/16_stay.md): roles, heartbeats, takeover and switchover, what the pair mirrors, mirror slots, Mast
alignment between the members, and the events of the link ports that the shroud shares with it. -/

namespace Sys2Proof.Machine

open Sys2Proof

/-! ### Roles -/

/-- ROLE: 0 NONE, 1 STANDBY, 2 ACTIVE. -/
def State.role (s : State) : Nat := s.fld F.STY_STATUS_ROLE

/-- The stay link is UP. -/
def State.stayUp (s : State) : Bool := s.linkUp 4

/-- ACT_OUT (R802). -/
def State.actOut (s : State) : Bool := s.powered && s.role == 2

/-- The ROLE strap marks this member PRIMARY. -/
def State.primary (s : State) : Bool := s.bit F.HST_STRAPS_ROLE

/-- CONTEND: ACTIVE with ACT_IN high. -/
def State.showContend (s : State) : State :=
  let on := s.role == 2 && s.stay.actIn
  let t := if on && !s.bit F.STY_STATUS_CONTEND then { s with stay := { s.stay with contendAt := s.clock } } else s
  t.setBit F.STY_STATUS_CONTEND on

/-- Change role (R812, R825): WARM clears, and a STANDBY counts its heartbeat misses from here. -/
def State.setRole (s : State) (r : Nat) : State :=
  if s.role = r then s
  else
    let s := if r = 1 then { s with stay := { s.stay with misses := 0, hbAt := s.clock } } else s
    (((s.setFld F.STY_STATUS_ROLE r).clear F.STY_STATUS_WARM).raise F.STY_EVENT_ROLE_CHG).showContend

/-- Leave ACTIVE for STANDBY (R848): what was being received of slots, and what was offered, is discarded. -/
def State.demote (s : State) : State :=
  { s.setRole 1 with stay := { s.stay with slotOut := [], slotIn := [], takeover := none } }

/-- Entry into Sail (R812, R813). -/
def State.stayAtSail (s : State) : State :=
  if s.stay.actIn then s.setRole 1
  else if s.primary then s.setRole 2
  else { s with stay := { s.stay with claim := true, claimAt := s.clock } }

/-- CLAIM_WAIT_END (R813): CLAIM_US have passed. -/
def execClaimWaitEnd (s : State) : Out :=
  .next (if s.inSail && s.stay.claim && s.gone s.stay.claimAt (s.fld F.STY_TIMING_CLAIM_US * 4000) then { s with stay := { s.stay with claim := false } }.setRole 2 else s)

/-- A takeover begins at T (R814-R818, R171); a second trigger at the same beat adds its cause (R843). -/
def State.takeOver (s : State) (cause : Nat) : State :=
  match s.stay.takeover with
  | some (t0, d) => if t0 = s.now ∧ d / cause % 2 = 0 then { s with stay := { s.stay with takeover := some (t0, d + cause) } } else s
  | none =>
    if s.inSail && s.role == 1 && !s.bit F.MODE_STATUS_REEFING then
      let d := cause + 256 * s.fld F.STY_STATUS_WARM + 512 * s.stay.handed.toNat
      ({ s with stay := { s.stay with takeover := some (s.now, d), handed := false } }.setRole 2).dscTakeover
    else s

/-- TAKEOVER_COMPLETE (R817). -/
def execTakeoverComplete (s : State) : Out :=
  match s.stay.takeover with
  | some (t0, d) =>
    let t := ((s.setWide F.STY_LAST_TO_LO t0).countWrap F.STY_TAKEOVERS 1).raise F.STY_EVENT_TAKEOVER
    .next (if s.powered then { t with stay := { t.stay with takeover := none } }.styLog 0x0D04 d else s)
  | none => .next s

/-- ACT_IN_CHANGE (R804, R813, R814): ACT_IN is taken at a level. -/
def execActInChange (level : Bool) (s : State) : Out :=
  let t := { s with stay := { s.stay with actIn := level, contended := s.stay.contended && level } }
  .next (if !s.powered then t
    else
      let t := t.showContend
      if level then (if t.inSail && t.stay.claim then { t with stay := { t.stay with claim := false } }.setRole 1 else t)
      else t.takeOver 2)

/-- CONTENTION (R811, R821): ACT_IN has been high for 1 us on an ACTIVE member.  Before any PAIR frame neither demotes (DEDUCED, log
entry 32). -/
def execContention (s : State) : Out :=
  if !(s.powered && s.role == 2 && s.stay.actIn && s.gone s.stay.contendAt 4000) then .next s
  else if !s.bit F.STY_STATUS_PAIRED then
    .next (if s.stay.contended then s else { s with stay := { s.stay with contended := true } }.styLog 0x0D06 0)
  else
    let other := (List.range 3).foldl (fun n i => n + (s.reg (F.STY_PARTNER_UID i)).toNat * 2 ^ (32 * i)) 0
    let keeps := if s.primary = s.bit F.STY_STATUS_PARTNER_PRIMARY then decide (s.uid < other) else s.primary
    .next (if keeps then s else s.demote.styLog 0x0D05 0)

/-! ### Frames -/

/-- A stay frame (frame table), SEQ and CRC still 0. -/
def stayFrame (kind flags index mast : Nat) (data : List Byte) : List Byte :=
  [0x78, BitVec.ofNat 8 kind, BitVec.ofNat 8 flags, 0, BitVec.ofNat 8 (flitsOf data), 0] ++ leBytes 2 index ++ leBytes 4 mast
    ++ [0, 0, 0, 0] ++ data

/-- Queue a frame at a rank of R1064. -/
def State.staySend (s : State) (rank kind flags index : Nat) (data : List Byte) : State :=
  s.linkSend 4 { rank := rank, vc := 0, bytes := stayFrame kind flags index s.now data, ingress := none }

/-- The member may send mirror frames: ACTIVE, with the link UP and signatures that match (R810, R824). -/
def State.mirrors (s : State) : Bool := s.role == 2 && s.stayUp && s.bit F.STY_STATUS_SIG_MATCH

/-- The data flits of a TIMER frame (KIND table). -/
def State.timerData (s : State) (n : Nat) : List Byte :=
  leBytes 8 ((s.wide (F.TMR_ORIGIN_LO n) + s.timerFrozenQn n) % 2 ^ 64) ++ padTo 8 (leBytes 6 (s.timerPeriod n))
    ++ padTo 8 (leBytes 6 (s.wide (F.TMR_MATCH_LO n))) ++ leBytes 4 (s.reg (F.TMR_CTRL n)).toNat ++ leBytes 4 (s.reg (F.TMR_MACT n)).toNat
    ++ padTo 16 (leBytes 4 (s.reg (F.TMR_OACT n)).toNat
        ++ [BitVec.ofNat 8 (s.fld (F.TMR_STATUS_STATE n) + 16 * s.fld (F.TMR_STATUS_MATCHED n))])

/-- The data flits of a COMPARE frame. -/
def State.compareData (s : State) (n : Nat) : List Byte :=
  leBytes 8 (s.wide (F.CMP_VAL_LO n)) ++ leBytes 4 (s.reg (F.CMP_DELAY n)).toNat ++ leBytes 4 (s.reg (F.CMP_CTRL n)).toNat
    ++ padTo 16 (leBytes 4 (s.reg (F.CMP_ACT n)).toNat
        ++ [BitVec.ofNat 8 (s.fld (F.CMP_STATUS_ARMED n)), BitVec.ofNat 8 (s.cmpOf n).armSeq])

/-- An 8-byte item of a REG frame. -/
def State.regItem (s : State) (i : Nat) : List Byte :=
  match s.stayEntries[i]? with
  | some e => leBytes 2 i ++ [0, 0] ++ leBytes 4 (s.reg e.2.2.1).toNat
  | none => [0xFF, 0xFF, 0, 0, 0, 0, 0, 0]

/-- The data flits of a REG frame, the last item empty where they are odd. -/
def State.regData (s : State) (is : List Nat) : List Byte :=
  is.flatMap s.regItem ++ (if is.length % 2 = 1 then [0xFF, 0xFF, 0, 0, 0, 0, 0, 0] else [])

/-- What R824 compares of an entry: its mirrored fields, a timer's phase against its PERIOD and without MATCHED, a compare without
ARMED, which only a fire clears. -/
def State.entryView (s : State) (i : Nat) : List Byte :=
  match s.stayEntries[i]? with
  | some (1, _, a, m) => leBytes 4 ((s.reg a).toNat &&& m)
  | some (2, n, _, _) =>
    let o := (s.wide (F.TMR_ORIGIN_LO n) + s.timerFrozenQn n) % 2 ^ 64
    let p := s.timerPeriod n
    leBytes 8 (if p = 0 then o else o % p) ++ ((s.timerData n).drop 8).take 28 ++ leBytes 1 (s.fld (F.TMR_STATUS_STATE n))
  | some (_, n, _, _) => (s.compareData n).take 20 ++ leBytes 1 (s.cmpOf n).armSeq
  | none => []

/-- Remember what was sent of entry i. -/
def State.entrySent (s : State) (i : Nat) : State :=
  { s with stay := { s.stay with sentEntry := Table.put (fun _ => []) s.stay.sentEntry i (s.entryView i) } }

/-- Send one TIMER or COMPARE entry. -/
def State.sendUnit (s : State) (rank i : Nat) : State :=
  match s.stayEntries[i]? with
  | some (2, n, _, _) => (s.staySend rank 3 0 i (s.timerData n)).entrySent i
  | some (3, n, _, _) => (s.staySend rank 4 0 i (s.compareData n)).entrySent i
  | _ => s

/-- Send REG entries, sixteen to a frame. -/
def State.sendRegs (s : State) (rank : Nat) : Nat → List Nat → State
  | 0, _ => s
  | fuel + 1, is =>
    if is.isEmpty then s
    else (((is.take 16).foldl (fun t i => t.entrySent i) (s.staySend rank 2 0 0 (s.regData (is.take 16))))).sendRegs rank fuel (is.drop 16)

/-- The positions of the entries of a kind. -/
def State.entriesOfKind (s : State) (kind : Nat) : List Nat :=
  (List.range s.stayEntries.length).filter fun i => match s.stayEntries[i]? with | some e => e.1 == kind | none => false

/-- A DSC frame. -/
def State.sendDsc (s : State) (rank : Nat) : State :=
  let b2 := s.fld F.MAST_STATUS_SET + 2 * s.fld F.DSC_STATUS_MODEL_USABLE + 4 * s.fld F.DSC_STATUS_SYNCE_AIDED
  let s : State := { s with stay := { s.stay with dscSent := s.dscState } }
  s.staySend rank 5 0 0 (padTo 16 ([BitVec.ofNat 8 s.dscState, BitVec.ofNat 8 (s.fld F.DSC_STATUS_ACTIVE_SRC), BitVec.ofNat 8 b2, 0]
    ++ leBytes 4 (s.reg F.DSC_INTEG).toNat ++ leBytes 4 s.hoElapsed))

/-- A MODEL pair: a journal record of the present model, REASON 0x4. -/
def State.sendModel (s : State) (rank : Nat) : State :=
  let r := s.snapRecord (s.dsc.seq.getD 0) 4
  (s.staySend rank 6 0 0 (r.take 128)).staySend rank 6 0 1 (r.drop 128)

/-- The latest snapshot of slot n: tokens, instant, whether it has been queued. -/
def State.slotLast (s : State) (n : Nat) : Option (List Dword × Nat) := Table.get (fun _ => none) s.stay.slotLast n

/-- Queue a SLOT frame. -/
def State.sendSlot (s : State) (rank n : Nat) (ts : List Dword) (at_ : Nat) : State :=
  let s : State := { s with stay := { s.stay with slotUnsent := s.stay.slotUnsent.filter (· != n) } }
  s.linkSend 4 { rank := rank, vc := 0, ingress := none, bytes := stayFrame 1 0 n at_ (ts.flatMap fun d => leBytes 8 d.toNat) }

/-- The SLOT frame of a full refresh: the last snapshot of a slot. -/
def State.refreshSlot (s : State) (n : Nat) : State :=
  match s.slotLast n with | some (ts, m) => s.sendSlot 4 n ts m | none => s

/-- A full refresh (R824, R839, R847): frames of one that is still waiting are dropped first, and its END follows. -/
def State.fullRefresh (s : State) (final : Bool) : State :=
  let s := { s with stay := { s.stay with refreshAt := s.clock } }
  let u := s.linkOf 4
  let t := s.setLink 4 { u with waiting := u.waiting.filter fun w => w.rank != 4 }
  let t := if t.bit F.STY_STATUS_SIG_MATCH then
      let t := t.sendRegs 4 (t.stayEntries.length + 1) (t.entriesOfKind 1)
      let t := (t.entriesOfKind 2 ++ t.entriesOfKind 3).foldl (fun t i => t.sendUnit 4 i) t
      let t := (List.range 32).foldl (fun t n => t.refreshSlot n) t
      let t := t.sendDsc 4
      if t.bit F.STY_CFG_DSC_MIRROR then t.sendModel 4 else t
    else t
  t.staySend 4 9 final.toNat 0 []

/-- REFRESH (R824, R842): STY_CMD with its KEY, or (none) REFRESH_MS of Mast since the last refresh. -/
def execRefresh (cmd : Option Word) (s : State) : Out :=
  let ok := match cmd with
    | some v => v.toNat / 2 ^ 16 == 0x5354
    | none => s.gone s.stay.refreshAt (s.fld F.STY_CFG_REFRESH_MS * 4000000)
  .next (if ok && s.role == 2 && s.stayUp && !s.stay.handing && !s.stay.pushing then s.fullRefresh false else s)

/-- MIRROR_CHANGE_FRAME (R824): entry i changed since it was last sent. -/
def execMirrorChangeFrame (i : Fin 512) (s : State) : Out :=
  .next (if s.mirrors && decide (i < s.stayEntries.length) && s.entryView i != Table.get (fun _ => []) s.stay.sentEntry i then
    (match s.stayEntries[i.val]? with | some e => if e.1 = 1 then s.sendRegs 2 1 [i.val] else s.sendUnit 2 i | none => s)
  else s)

/-- A change of STATE sends a DSC frame (R824). -/
def State.stayBeat (s : State) : State :=
  if s.mirrors && s.bit F.STY_CFG_DSC_MIRROR && s.stay.dscSent != s.dscState then s.sendDsc 2 else s

/-- DSC_FRAME_SEND (R824). -/
def execDscFrameSend (s : State) : Out := .next (if s.mirrors && s.bit F.STY_CFG_DSC_MIRROR then s.sendDsc 2 else s)

/-- MODEL_EPOCH (spec/03_discipline_and_holdover.md R139, R140): an applied epoch is mirrored (R824). -/
def execModelEpoch (s : State) : Out :=
  if !s.inSail then .next s
  else
    let t := s.endEpoch
    .next (if s.epochGood && t.mirrors && t.bit F.STY_CFG_DSC_MIRROR then t.sendModel 5 else t)

/-! ### Heartbeats and pairing -/

/-- HEARTBEAT_SEND (R807): HB_SEQ advances; the flit is link control (R1064). -/
def execHeartbeatSend (s : State) : Out :=
  .next (if s.powered && s.stayUp then { s with stay := { s.stay with hbSeq := (s.stay.hbSeq + 1) % 65536 } } else s)

/-- A good heartbeat's fields (heartbeat table). -/
def State.heartbeatIn (s : State) (role : Nat) (flags : Nat) : State :=
  let was := s.fld F.STY_STATUS_PARTNER_ROLE
  let chg := was != role || !s.bit F.STY_STATUS_PARTNER_PRESENT
  let t := ((s.raise F.STY_STATUS_PARTNER_PRESENT).setFld F.STY_STATUS_PARTNER_ROLE role).setFld F.STY_STATUS_PARTNER_PRIMARY flags
  let t := t.setFld F.STY_STATUS_PARTNER_REEFING (flags / 2)
  let t := if chg then t.raise F.STY_EVENT_PARTNER_CHG else t
  let t := { t with stay := { t.stay with partnerAligned := flags / 8 % 2 == 1, partnerWarm := flags / 16 % 2 == 1,
                                          misses := if role = 2 ∨ t.role = 2 then 0 else t.stay.misses,
                                          hbAt := if role = 2 ∨ t.role = 2 then t.clock else t.stay.hbAt } }
  let t := if t.role = 2 then
      (if t.stay.partnerWarm && !s.bit F.STY_STATUS_WARM then t.raise F.STY_EVENT_WARM else t).setBit F.STY_STATUS_WARM t.stay.partnerWarm
    else t
  let t := if was = 2 ∧ role ≠ 2 then t.partnerLost else t
  if t.role = 2 ∧ role = 1 ∧ was ≠ 1 ∧ t.stayUp ∧ t.bit F.STY_STATUS_PAIRED then t.fullRefresh false else t

/-- HEARTBEAT (R807, R824): a refresh follows when the partner first shows STANDBY. -/
def execHeartbeat (good : Bool) (role : Fin 4) (flags : Byte) (s : State) : Out :=
  .next (if !(s.powered && s.stayUp) then s else if good then s.heartbeatIn role flags.toNat else s.linkBadFlit 4)

/-- HEARTBEAT_MISS (R814-R816): 6 us after the last good heartbeat in force, and every 5 us from there; the third in a row ends
PARTNER_PRESENT. -/
def execHeartbeatMiss (s : State) : Out :=
  if !(s.powered && s.gone s.stay.hbAt (24000 + 20000 * s.stay.misses)) then .next s
  else
    let n := s.stay.misses + 1
    let t := { s with stay := { s.stay with misses := n } }
    let t := if s.role = 1 then t.countSat F.STY_HB_MISS 1 else t
    if n ≠ 3 then .next t
    else
      let t := if t.bit F.STY_STATUS_PARTNER_PRESENT then (t.clear F.STY_STATUS_PARTNER_PRESENT).raise F.STY_EVENT_PARTNER_CHG else t
      if s.role ≠ 1 then .next (match s.stay.takeover with | some _ => t.takeOver 1 | none => t)
      else
        let t := if s.stay.actIn && !s.bit F.MODE_STATUS_REEFING then t.styLog 0x0D09 1 else t
        .next (if s.primary || !s.stay.actIn then t.takeOver 1 else t)

/-- A PAIR frame (R809-R811, R824). -/
def State.gotPair (s : State) (uid : Nat) (primary : Bool) (sig : Nat) : State :=
  let t := (List.range 3).foldl (fun t i => t.setReg (F.STY_PARTNER_UID i) (BitVec.ofNat 32 (uid / 2 ^ (32 * i)))) s
  let ok := sig % 2 ^ 32 == (s.reg F.STY_SIG).toNat
  let t := ((t.raise F.STY_STATUS_PAIRED).setReg F.STY_PARTNER_SIG (BitVec.ofNat 32 sig)).setBit F.STY_STATUS_SIG_MATCH ok
  let t := (t.setBit F.STY_STATUS_PARTNER_PRIMARY primary).setReg F.STY_SLOT_RX 0
  let t := if ok then t else t.styLog 0x0D03 sig
  let t := if primary = t.primary then t.styLog 0x0D06 1 else t
  if t.role = 2 ∧ t.fld F.STY_STATUS_PARTNER_ROLE = 1 then t.fullRefresh false else t

/-- PAIR. -/
def execPair (uid : BitVec 96) (primary : Bool) (sig : Word) (s : State) : Out :=
  .next (if s.powered && s.stayUp then s.gotPair uid.toNat primary sig.toNat else s)

/-! ### Switchover -/

/-- The causes that refuse a SWITCHOVER before the ledger is asked (R822). -/
def State.switchCause (s : State) (v : Word) : Option Nat :=
  if v.toNat / 2 ^ 16 ≠ 0x5354 then some 1
  else if s.role ≠ 2 then some 2
  else if s.fld F.STY_STATUS_PARTNER_ROLE ≠ 1 ∨ !s.stay.partnerWarm ∨ !s.stay.partnerAligned ∨ !s.stayUp
    ∨ !s.bit F.STY_STATUS_SIG_MATCH then some 3
  else none

/-- SWITCHOVER (R822, R823): a full refresh, END with FINAL 1, HANDOVER. -/
def execSwitchover (_p : Path) (v : Word) (s : State) : Out :=
  whenOpen s (match s.switchCause v with
    | some c => s.styLog 0x0D08 c
    | none =>
      let (ok, t) := s.ledgerAsk 4 (s.reg F.STY_PUSH_COST).toNat false
      if ok then
        let t := { t with stay := { t.stay with handing := true } }
        (t.fullRefresh true).staySend 4 0xB 0 0 []
      else t.styLog 0x0D08 4)

/-- HANDOVER is acknowledged, or 100 us have passed (R823): ACT_OUT falls, the member is STANDBY, a snapshot is requested. -/
def State.handoverDone (s : State) : State :=
  if s.stay.handing then
    let t := ({ s with stay := { s.stay with handing := false } }.ledgerEnd 4)
    if t.role = 2 then t.demote.snapRequest 4 else t
  else s

/-- HANDOVER_ACK. -/
def execHandoverAck (s : State) : Out := .next (if s.powered then s.handoverDone else s)

/-- The stay push has ended (R839). -/
def State.pushDone (s : State) : State :=
  if s.stay.pushing then ({ s with stay := { s.stay with pushing := false } }.ledgerEnd 4).setRole 0 else s

/-- Step 5 of the Reef entry sequence (R839, R840): a push requests a snapshot too (spec/03_discipline_and_holdover.md R148). -/
def State.stayPush (s : State) : State :=
  if s.role ≠ 2 then s
  else if !s.stayUp || s.fld F.STY_STATUS_PARTNER_ROLE != 1 then s.setRole 0
  else
    let (ok, t) := s.ledgerAsk 4 (s.reg F.STY_PUSH_COST).toNat true
    if ok then (({ t with stay := { t.stay with pushing := true } }.fullRefresh true).snapshot 4 true)
    else (t.styLog 0x0D07 0).setRole 0

/-- The partner has acknowledged frames. -/
def State.stayAcked (s : State) (gone : List (List Byte)) : State :=
  let t := if gone.any fun b => u8 b 1 == 0xB then s.handoverDone else s
  if gone.any fun b => u8 b 1 == 9 && u8 b 2 % 2 == 1 then t.pushDone else t

/-! ### Mirror frames on a STANDBY -/

/-- R819: a STANDBY applies mirror frames, and a member in its own takeover until that completes. -/
def State.applies (s : State) : Bool := s.inSail && (s.role == 1 || s.stay.takeover.isSome)

/-- A mirror frame was applied. -/
def State.mirrored (s : State) : State := s.countWrap F.STY_MIRROR_RX 1

/-- One REG item (R826). -/
def State.applyReg (s : State) (i : Nat) (v : Word) : State :=
  match s.stayEntries[i]? with
  | some (1, _, a, m) =>
    let mask : Word := BitVec.ofNat 32 m
    s.setReg a ((s.reg a &&& ~~~mask) ||| (v &&& mask))
  | _ => s

/-- MIRROR_REG (R826). -/
def execMirrorReg (items : List (BitVec 16 × Word)) (s : State) : Out :=
  .next (if s.applies then (items.foldl (fun t i => t.applyReg i.1.toNat i.2) s).mirrored else s)

/-- A TIMER frame on timer n (R828). -/
def State.applyTimer (s : State) (n : Nat) (d : List Byte) : State :=
  let recv := leNat (d.take 8)
  let per := leNat ((d.drop 8).take 6)
  let t := s.settleTimer n
  let diff := (recv + 2 ^ 64 - (s.wide (F.TMR_ORIGIN_LO n) + s.timerFrozenQn n) % 2 ^ 64) % 2 ^ 64
  let same := if per = 0 then diff == 0 else signed 64 diff % (per : Int) == 0
  let t := (t.setWide (F.TMR_PERIOD_LO n) per).setWide (F.TMR_MATCH_LO n) (leNat ((d.drop 16).take 6))
  let t := ((t.setReg (F.TMR_CTRL n) (BitVec.ofNat 32 (u32 d 24))).setReg (F.TMR_MACT n) (BitVec.ofNat 32 (u32 d 28))).setReg (F.TMR_OACT n)
    (BitVec.ofNat 32 (u32 d 32))
  let t := (t.setFld (F.TMR_STATUS_STATE n) (u8 d 36 % 4)).settleTimer n
  if same then t
  else
    let t := t.zeroFrozen n
    let ahead := (s.now + 2 ^ 64 - recv) % 2 ^ 64
    let k := if per = 0 ∨ 2 ^ 63 ≤ ahead then 0 else ahead / per
    let t := (t.setWide (F.TMR_ORIGIN_LO n) ((recv + k * per) % 2 ^ 64)).settleTimer n
    (t.markActed n).setBit (F.TMR_STATUS_MATCHED n) (!t.timerPending n && decide (t.wide (F.TMR_MATCH_LO n) % 2 ^ 48 ≤ t.timerValue n))

/-- The unit of entry i, where its kind is as given. -/
def State.entryUnit (s : State) (kind i : Nat) : Option Nat :=
  match s.stayEntries[i]? with
  | some e => if e.1 = kind then some e.2.1 else none
  | none => none

/-- MIRROR_TIMER (R828): the entry and its three data flits. -/
def execMirrorTimer (i : Fin 512) (data : List Byte) (s : State) : Out :=
  .next (if s.powered && decide (s.stayEntries.length ≤ i) then s.styLog 0x0D0C (3 + 2 ^ 16 * i.val)
    else match s.applies, s.entryUnit 2 i with | true, some n => (s.applyTimer n data).mirrored | _, _ => s)

/-- A COMPARE frame on channel n (R829). -/
def State.applyCompare (s : State) (n : Nat) (d : List Byte) : State :=
  let t := ((s.setReg (F.CMP_DELAY n) (BitVec.ofNat 32 (u32 d 8))).setReg (F.CMP_CTRL n) (BitVec.ofNat 32 (u32 d 12))).setReg (F.CMP_ACT n)
    (BitVec.ofNat 32 (u32 d 16))
  let u := t.cmpOf n
  if u.applied = some (u8 d 21) then t
  else
    let t := (t.setWide (F.CMP_VAL_LO n) (leNat (d.take 8))).setFld (F.CMP_STATUS_ARMED n) (u8 d 20)
    { t with cmp := Table.put noCmp t.cmp n { u with commitAt := t.now, applied := some (u8 d 21) } }

/-- MIRROR_COMPARE (R829): the entry and its two data flits. -/
def execMirrorCompare (i : Fin 512) (data : List Byte) (s : State) : Out :=
  .next (if s.powered && decide (s.stayEntries.length ≤ i) then s.styLog 0x0D0C (4 + 2 ^ 16 * i.val)
    else match s.applies, s.entryUnit 3 i with | true, some n => (s.applyCompare n data).mirrored | _, _ => s)

/-- A DSC frame (R830, R831). -/
def State.applyDsc (s : State) (d : List Byte) : State :=
  let t := (s.setFld F.STY_PARTNER_DSC_STATE (u8 d 0)).setFld F.STY_PARTNER_DSC_SRC (u8 d 1)
  ((t.setFld F.STY_PARTNER_DSC_SET (u8 d 2)).setFld F.STY_PARTNER_DSC_MODEL_USABLE (u8 d 2 / 2)).noteEpoch

/-- MIRROR_DSC (R830). -/
def execMirrorDsc (data : List Byte) (s : State) : Out := .next (if s.applies then (s.applyDsc data).mirrored else s)

/-- A MODEL pair (R830). -/
def State.applyModel (s : State) (r : List Byte) : State :=
  if s.bit F.DSC_MODEL_CFG_MIRROR_ADOPT && recordGood r then (s.modelLoad r 3).mirrored else s

/-- MIRROR_MODEL (R830): the 256 bytes of a pair. -/
def execMirrorModel (record : List Byte) (s : State) : Out := .next (if s.applies then s.applyModel record else s)

def noSlot : Nat → SlotIn := fun _ => {}

/-- The deliveries of slot n. -/
def State.slotOf (s : State) (n : Nat) : SlotIn := Table.get noSlot s.stay.slotIn n

/-- Store them. -/
def State.setSlot (s : State) (n : Nat) (u : SlotIn) : State := { s with stay := { s.stay with slotIn := Table.put noSlot s.stay.slotIn n u } }

/-- A SLOT frame (R833). -/
def State.applySlot (s : State) (n : Nat) (ts : List Dword) : State :=
  let u := s.slotOf n
  let t := if u.offered.isSome then s.countSat F.STY_SLOT_SKIP 1 else s
  ((t.setSlot n { u with offered := some ts }).raise ⟨F.STY_SLOT_RX, n, 1⟩).mirrored

/-- SLOT (R833): a slot's four tokens. -/
def execSlot (n : Fin 32) (t0 t1 t2 t3 : Dword) (s : State) : Out := .next (if s.applies then s.applySlot n [t0, t1, t2, t3] else s)

/-- The fabric takes a token from a slot's in port (R833): the three after a first one come before anything newer. -/
def State.slotTake (s : State) (n : Nat) : Option Dword × State :=
  let u := s.slotOf n
  match u.rest, u.offered with
  | d :: ds, _ => (some d, s.setSlot n { u with rest := ds })
  | [], some (d :: ds) => (some d, s.setSlot n { offered := none, rest := ds })
  | [], _ => (none, s)

/-- STAY_END (R825): WARM once every slot in use has arrived since pairing. -/
def State.gotEnd (s : State) : State :=
  let want := (s.reg F.STY_SLOTS)
  if s.role = 1 ∧ s.bit F.STY_STATUS_PAIRED ∧ !s.bit F.STY_STATUS_WARM ∧ s.reg F.STY_SLOT_RX &&& want = want then
    (s.raise F.STY_STATUS_WARM).raise F.STY_EVENT_WARM
  else s

/-- STAY_END. -/
def execStayEnd (s : State) : Out := .next (if s.applies then s.gotEnd else s)

/-- A SLOT frame of slot n that a newer snapshot may replace. -/
def slotWaits (n : Nat) (w : WaitFrame) : Bool := w.rank == 3 && u16 w.bytes 6 == n

/-- A snapshot is complete (R832): an ACTIVE keeps the latest of each slot and sends it. -/
def State.snapshotDone (s : State) (n : Nat) (ts : List Dword) : State :=
  if s.role ≠ 2 then s
  else
    let u := s.linkOf 4
    let t := { s with stay := { s.stay with slotLast := Table.put (fun _ => none) s.stay.slotLast n (some (ts, s.now)) } }
    let t := { t with stay := { t.stay with slotUnsent := if s.mirrors then s.stay.slotUnsent else n :: s.stay.slotUnsent.filter (· != n) } }
    let unsent := u.waiting.any (slotWaits n) || s.stay.slotUnsent.contains n
    let t := if unsent then t.countSat F.STY_SLOT_SKIP 1 else t
    if s.mirrors then
      (t.setLink 4 { u with waiting := u.waiting.filter fun w => !slotWaits n w }).sendSlot 3 n ts s.now
    else t

/-- MIRROR_SLOT_SNAPSHOT (R832): a token on slot n's out port, acknowledged at once; the fourth completes a snapshot. -/
def execMirrorSlotSnapshot (n : Fin 32) (d : Dword) (s : State) : Out :=
  if !s.fabricAlive 0xC n then .next s
  else
    let ts := Table.get (fun _ => []) s.stay.slotOut n ++ [d]
    let t := s.portCount 0xC n
    let put := fun l => { t with stay := { t.stay with slotOut := Table.put (fun _ => []) t.stay.slotOut n l } }
    .next (if ts.length < 4 then put ts else (put []).snapshotDone n ts)

/-! ### Mast alignment -/

/-- A phase sample of the stay (R836, R837). -/
def State.staySample (s : State) (e : Int) : State :=
  if s.inHoist then
    if s.bit F.STY_CFG_HOIST_STEP && s.hoist.stage == 0 && !s.stay.stepped then
      ({ s with stay := { s.stay with stepped := true } }.styLog 0x0D0B (unsigned 32 (-e))).phaseRequest none (-e) true
    else s
  else if s.inSail && s.role == 1 then s.partnerSample e
  else s

/-- Answer a SYNC_REQ (R835). -/
def State.stayAnswer (s : State) (ofs : Nat) : State :=
  s.staySend 1 8 0 0 (leBytes 8 s.now ++ leBytes 8 ((s.now + ofs) % 2 ^ 64)
    ++ padTo 16 [BitVec.ofNat 8 (s.fld F.MAST_STATUS_SET + 2 * (s.role == 2).toNat)])

/-- STAY_SYNC_REQ (R835): this member sends one, or one arrives. -/
def execStaySyncReq (arrived : Bool) (ofs : Nat) (s : State) : Out :=
  if !(s.powered && s.stayUp) then .next s
  else if arrived then .next (s.stayAnswer ofs)
  else if s.role != 2 && s.fld F.STY_STATUS_PARTNER_ROLE == 2 then
    .next ({ s with stay := { s.stay with sync := some ((s.now + ofs) % 2 ^ 64, s.mast.steps) } }.staySend 1 7 0 0 [])
  else .next s

/-- A SYNC_RESP (R835-R837); an exchange begun before an applied step gives nothing (spec/03_discipline_and_holdover.md R115). -/
def State.staySync (s : State) (t2 t3 t4 : Nat) (set : Bool) : State :=
  match s.stay.sync with
  | some (t1, k) =>
    if k ≠ s.mast.steps then { s with stay := { s.stay with sync := none } }
    else
    let (o, delay) := exchange t1 t2 t3 t4 (s.asym F.STY_ASYM)
    let e := o.tdiv 2
    let t := ({ s with stay := { s.stay with sync := none } }.setSigned F.STY_DELAY delay).setSigned F.STY_LAST_ERR e
    let ok := decide (e.natAbs ≤ s.fld F.STY_ALIGN_THR_THR)
    let t := if s.bit F.STY_STATUS_ALIGNED = ok then t else (t.setBit F.STY_STATUS_ALIGNED ok).raise F.STY_EVENT_ALIGN_CHG
    if set then t.staySample e else t
  | none => s

/-- STAY_SYNC_RESP (R835): t2, t3 and SET; ingress t4 is `ofs` qn past the beat. -/
def execStaySyncResp (t2 t3 : Dword) (set : Bool) (ofs : Nat) (s : State) : Out :=
  .next (if s.powered && s.stayUp then s.staySync t2.toNat t3.toNat ((s.now + ofs) % 2 ^ 64) set else s)

/-- SYNC_SAMPLE_TIMEOUT (R836, spec/15_shrouds.md R787): COORD or PARTNER is disqualified. -/
def execSyncSampleTimeout (partner : Bool) (s : State) : Out :=
  let late := if partner then s.gone s.dsc.partnerAt (3 * s.fld F.STY_TIMING_SYNC_US * 4000)
    else s.gone s.dsc.coordAt (3 * s.fld F.SHR_TIMING_SYNC_US * 4000)
  .next (if s.inSail && late then (if partner then s.partnerLost else s.coordLost) else s)

/-! ### The link ports -/

/-- The stay link has left UP (R809, R825, R836). -/
def State.stayDown (s : State) : State :=
  let t := ((s.raise F.STY_EVENT_LINK).clear F.STY_STATUS_PAIRED).clear F.STY_STATUS_SIG_MATCH
  let t := if t.role = 2 then t else t.clear F.STY_STATUS_WARM
  ({ t with stay := { t.stay with sync := none, model := [] } }).partnerLost

/-- The stay link has entered UP: a PAIR frame goes out (R809). -/
def State.stayEnter (s : State) : State :=
  let data := leBytes 12 s.uid ++ [BitVec.ofNat 8 s.primary.toNat, 0, 0, 0] ++ padTo 16 (leBytes 4 (s.reg F.STY_SIG).toNat ++ leBytes 4 (s.reg F.IMG_BUILD_ID).toNat)
  (s.raise F.STY_EVENT_LINK).staySend 1 0xA 0 0 data

/-- Port q leaves UP by a cause. -/
def State.portDown (s : State) (q cause : Nat) : State :=
  let lost := if q = 4 then ((s.linkOf 4).waiting.filter fun w => u8 w.bytes 1 == 1).map fun w => u16 w.bytes 6 else []
  let t := s.linkDown q cause
  let t := { t with stay := { t.stay with slotUnsent := lost ++ t.stay.slotUnsent } }
  if q < 4 then t.shroudDown q else t.stayDown

/-- SHROUD_PORT_DOWN (R749, R750). -/
def execShroudPortDown (q : Fin 5) (cause : Fin 16) (s : State) : Out :=
  .next (if s.powered && s.linkUp q && decide (1 ≤ cause.val ∧ cause.val ≤ 5) then s.portDown q cause else s)

/-- TRAIN_FLIT (R748, R749): on a shroud port PORT is the neighbour's. -/
def execTrainFlit (q : Fin 5) (good rxReady peerSeen : Bool) (port : Fin 4) (s : State) : Out :=
  if !s.powered then .next s
  else if !good then .next (s.linkBadFlit q)
  else if s.linkState q ≠ 3 then .next s
  else
    let (up, t) := s.linkTrain q rxReady peerSeen
    let t := if q.val < 4 then t.setFld (F.SHR_P_STATUS_NBR_PORT q) port else t
    .next (if up then (if q.val < 4 then t.shroudUp else t.stayEnter).linkGo q else t)

/-- A replay, and the port's end when eight have made no progress (R749, R752). -/
def State.replay (s : State) (q : Nat) : State :=
  let t := s.linkReplays q
  if t.linkStuck q then t.portDown q 4 else t

/-- REPLAY_TIMEOUT (R752). -/
def execReplayTimeout (q : Fin 5) (s : State) : Out :=
  .next (if s.powered && s.linkUp q && s.gone (s.linkOf q).ackAt 8000 then s.replay q else s)

/-- ACK_FLIT (R748, R752, R753). -/
def execAckFlit (q : Fin 5) (good nak : Bool) (seq : Byte) (s : State) : Out :=
  if !s.powered then .next s
  else if !good then .next (s.linkBadFlit q)
  else if !s.linkUp q then .next s
  else
    let (gone, t) := s.linkAcked q seq.toNat
    let t := if q.val = 4 then t.stayAcked gone else t
    .next (if nak then t.replay q else t)

/-- The NFLIT that a KIND has, and how many INDEX values (R808). -/
def State.stayKind (s : State) (kind : Nat) : Option (List Nat × Nat) :=
  match kind with
  | 1 => some ([2], 32) | 2 => some ([1, 2, 3, 4, 5, 6, 7, 8], 1)
  | 3 => some ([3], s.stayEntries.length) | 4 => some ([2], s.stayEntries.length)
  | 5 => some ([1], 1) | 6 => some ([8], 2) | 7 => some ([0], 1) | 8 => some ([2], 1) | 9 => some ([0], 1)
  | 0xA => some ([2], 1) | 0xB => some ([0], 1) | _ => none

/-- The items of a REG frame. -/
def regItems (d : List Byte) : List (Nat × Word) :=
  (List.range (d.length / 8)).map fun i => (u16 d (8 * i), BitVec.ofNat 32 (u32 d (8 * i + 4)))

/-- A frame of a KIND that is mirrored takes effect on a member that applies it (R819). -/
def State.mirrorFrame (s : State) (kind idx : Nat) (d : List Byte) : State :=
  if !s.applies then s
  else match kind with
    | 1 => s.applySlot idx ((List.range 4).map fun i => BitVec.ofNat 64 (leNat ((d.drop (8 * i)).take 8)))
    | 2 => ((regItems d).foldl (fun t i => t.applyReg i.1 i.2) s).mirrored
    | 3 => match s.entryUnit 2 idx with | some n => (s.applyTimer n d).mirrored | none => s
    | 4 => match s.entryUnit 3 idx with | some n => (s.applyCompare n d).mirrored | none => s
    | 5 => (s.applyDsc d).mirrored
    | 6 =>
      if idx = 0 then { s with stay := { s.stay with model := d } }
      else ({ s with stay := { s.stay with model := [] } }).applyModel (s.stay.model ++ d)
    | _ => s.gotEnd

/-- An accepted stay frame takes effect (R808). -/
def State.stayFrameIn (s : State) (bs : List Byte) : State :=
  let kind := u8 bs 1
  let idx := u16 bs 6
  let d := bs.drop 16
  let bad := match s.stayKind kind with | some (ns, k) => !ns.contains (u8 bs 4) || decide (k ≤ idx) | none => true
  if bad then s.styLog 0x0D0C (kind + 2 ^ 16 * idx)
  else match kind with
    | 7 => s.stayAnswer 0
    | 8 => s.staySync (leNat (d.take 8)) (leNat ((d.drop 8).take 8)) s.now (u8 d 16 % 2 == 1)
    | 0xA => s.gotPair (leNat (d.take 12)) (u8 d 12 % 2 == 1) (u32 d 16)
    | 0xB => { s with stay := { s.stay with handed := true } }
    | _ => s.mirrorFrame kind idx d

/-- SHROUD_FRAME (R752): a frame arrives on a port; one that is accepted takes effect. -/
def execShroudFrame (q : Fin 5) (bs : List Byte) (s : State) : Out :=
  if !(s.powered && s.linkUp q) then .next s
  else
    let (ok, t) := s.linkReceive q bs
    .next (if !ok then t else if q.val < 4 then t.shroudFrame q bs else (t.linkFree 4 0 (flitsOf bs)).stayFrameIn bs)

end Sys2Proof.Machine
end

