-- ==== Sys2Proof/Machine/Directory.lean ====
section
/-! DEFINITION. The directory of the external flash: its copies and entries, the states of the slots, and boot selection
(spec/13_field_update.md R667-R676). -/

namespace Sys2Proof.Machine

open Sys2Proof

/-- State codes of a slot. -/
def slotWRITING : Nat := 1
def slotWRITTEN : Nat := 2
def slotVERIFIED : Nat := 3
def slotTRIAL : Nat := 4
def slotCONFIRMED : Nat := 5
def slotRETIRED : Nat := 6

/-- 60 bytes with their CRC-32. -/
def crcRow (bs : List Byte) : List Byte := bs ++ leBytes 4 (crc32 bs).toNat

/-- The CRC-32 of 64 bytes is correct. -/
def crcRowGood (bs : List Byte) : Bool := leNat (bs.drop 60) == (crc32 (bs.take 60)).toNat

/-- A copy header. -/
def dirHeader (gen : Nat) : List Byte := crcRow (leBytes 4 0x52444754 ++ leBytes 2 1 ++ leBytes 2 0 ++ leBytes 4 gen ++ List.replicate 48 0)

/-- An entry as programmed. -/
def DirEntry.bytes (e : DirEntry) : List Byte :=
  crcRow (leBytes 2 0x4E45 ++ leBytes 1 e.slot ++ leBytes 1 e.state ++ leBytes 4 e.seq ++ leBytes 4 e.addr ++ leBytes 4 e.len
    ++ leBytes 2 e.svn ++ leBytes 1 e.attempt ++ leBytes 1 e.reason ++ leBytes 4 e.build ++ leBytes 8 e.nonce ++ leBytes 4 e.trialId
    ++ List.replicate 24 0)

/-- The good entry that 64 bytes hold (R667). -/
def entryOf (b : List Byte) : Option DirEntry :=
  if u16 b 0 = 0x4E45 ∧ crcRowGood b ∧ leNat ((b.drop 0x24).take 24) = 0 then
    some { slot := u8 b 2, state := u8 b 3, seq := u32 b 4, addr := u32 b 8, len := u32 b 12, svn := u16 b 16, attempt := u8 b 18,
           reason := u8 b 19, build := u32 b 20, nonce := leNat ((b.drop 24).take 8), trialId := u32 b 32 }
  else none

/-- Where entry position e of copy c lies. -/
def entryAddr (c e : Nat) : Nat := 65536 * c + 0x40 + 0x40 * e

/-- Directory copy c is valid (R667). -/
def State.copyValid (s : State) (c : Nat) : Bool :=
  let h := s.xflashBytes (65536 * c) 64
  u32 h 0 == 0x52444754 && u16 h 4 == 1 && crcRowGood h

/-- GEN of a copy. -/
def State.copyGen (s : State) (c : Nat) : Nat := u32 (s.xflashBytes (65536 * c) 64) 8

/-- Entry positions of a copy that are programmed or torn. -/
def State.usedEntries (s : State) (c : Nat) : List Nat := (List.range 1023).filter fun e => !s.xflashBlank (entryAddr c e) 64

/-- The first blank entry position of a copy; 1,023 when there is none. -/
def State.firstBlank (s : State) (c : Nat) : Nat := ((List.range 1023).find? fun e => s.xflashBlank (entryAddr c e) 64).getD 1023

/-- The good entries of a copy, by position. -/
def State.goodEntries (s : State) (c : Nat) : List DirEntry :=
  (s.usedEntries c).filterMap fun e => entryOf (s.xflashBytes (entryAddr c e) 64)

/-- Of two entries the one with the higher SEQ. -/
def laterEntry (a : Option DirEntry) (e : DirEntry) : Option DirEntry :=
  match a with
  | some d => if d.seq < e.seq then some e else some d
  | none => some e

/-- The latest entry that names a slot (R668). -/
def latestOf (es : List DirEntry) (slot : Nat) : Option DirEntry := (es.filter fun e => e.slot == slot).foldl laterEntry none

/-- The copy that is read: copy 0, or copy 1 when only it is valid (R498). -/
def State.dirCopy (s : State) : Option Nat := if s.copyValid 0 then some 0 else if s.copyValid 1 then some 1 else none

/-- The good entries of the copy that is read. -/
def State.dirEntries (s : State) : List DirEntry := match s.dirCopy with | some c => s.goodEntries c | none => []

/-- A slot's latest entry, and its state: EMPTY when no good entry names it. -/
def State.slotEntry (s : State) (slot : Nat) : Option DirEntry := latestOf s.dirEntries slot
def State.slotState (s : State) (slot : Nat) : Nat := match s.slotEntry slot with | some e => e.state | none => 0

/-- The highest SEQ in copy 0, 0 when it has no entry (R669). -/
def State.topSeq (s : State) : Nat := (s.goodEntries 0).foldl (fun m e => max m e.seq) 0

/-- Show what the directory holds: `second` when copy 1 has been read too. -/
def State.showDir (s : State) (second : Bool) : State :=
  let es := s.dirEntries
  let code := fun k => match latestOf es k with | some e => e.state | none => 0
  let t := (s.setFld F.UPD_STATUS_SLOTA (code 0)).setFld F.UPD_STATUS_SLOTB (code 1)
  let t := (t.setBit F.UPD_STATUS_DIR0_OK (s.copyValid 0)).setBit F.UPD_STATUS_DIR1_OK (second && s.copyValid 1)
  let t := t.setFld F.UPD_DIR_GEN_GEN (if s.copyValid 0 then s.copyGen 0 else 0)
  t.setFld F.UPD_DIR_USED_N (s.usedEntries 0).length

/-- The trial record, with the registers that show it (R674, R675). -/
def State.setTrial (s : State) (r : Option (Nat × Nat)) : State :=
  let t := { s with upd := { s.upd with trial := r } }
  match r with
  | some (id, cnt) => ((t.setFld F.UPD_TRIAL_ID_ID id).setFld F.UPD_TRIAL_CNT_CNT (min 3 cnt)).raise F.UPD_TRIAL_CNT_VALID
  | none => ((t.setFld F.UPD_TRIAL_ID_ID 0).setFld F.UPD_TRIAL_CNT_CNT 0).clear F.UPD_TRIAL_CNT_VALID

/-- The attempt count A of a TRIAL entry (R676). -/
def State.trialCount (s : State) (e : DirEntry) : Nat :=
  match s.upd.trial with
  | some (id, cnt) => if id = e.trialId ∧ !s.bit F.HOIST_CAUSE_VBAT_LOST then max e.attempt (min 3 cnt) else e.attempt
  | none => e.attempt

/-- The TRIAL entries of the directory, the one that counts first (R673). -/
def trialEntries (es : List DirEntry) : List DirEntry :=
  match latestOf es 0, latestOf es 1 with
  | some a, some b =>
    if a.state = slotTRIAL ∧ b.state = slotTRIAL then (if a.seq < b.seq then [b, a] else [a, b])
    else if a.state = slotTRIAL then [a] else if b.state = slotTRIAL then [b] else []
  | some a, none => if a.state = slotTRIAL then [a] else []
  | none, some b => if b.state = slotTRIAL then [b] else []
  | none, none => []

/-- The CONFIRMED entries in descending SEQ (R672). -/
def confirmedEntries (es : List DirEntry) : List DirEntry :=
  match latestOf es 0, latestOf es 1 with
  | some a, some b =>
    if a.state = slotCONFIRMED ∧ b.state = slotCONFIRMED then (if a.seq < b.seq then [b, a] else [a, b])
    else if a.state = slotCONFIRMED then [a] else if b.state = slotCONFIRMED then [b] else []
  | some a, none => if a.state = slotCONFIRMED then [a] else []
  | none, some b => if b.state = slotCONFIRMED then [b] else []
  | none, none => []

/-- The trial that R672 places first, with its count A, if any. -/
def State.trialFirst (s : State) (es : List DirEntry) : Option (DirEntry × Nat) :=
  match trialEntries es with
  | e :: _ => if s.trialCount e < 3 then some (e, s.trialCount e) else none
  | [] => none

/-- The candidates of the directory in order (R672). -/
def State.dirCandidates (s : State) (es : List DirEntry) : List DirEntry :=
  (match s.trialFirst es with | some (e, _) => [e] | none => []) ++ confirmedEntries es

end Sys2Proof.Machine
end

