-- ==== Sys2Proof/Machine/Attempts.lean ====
section
/-! DEFINITION. The steps of Hoist, its pause, and its load attempts: their start, their failure, what follows it, and parking
(spec/10_hoist.md R472, R473, R505-R519, R538; spec/01_architecture.md R42). -/

namespace Sys2Proof.Machine

open Sys2Proof

/-! ### Steps -/

/-- HOIST_STEP. -/
def State.hoistStep (s : State) : Nat := s.fld F.MODE_STATUS_HOIST_STEP

/-- Hoist moves to a step (R472): the time spent in the one before it is kept for HST_STEP_USk. -/
def State.setStep (s : State) (k : Nat) : State :=
  let h := s.hoist
  { s.setFld F.MODE_STATUS_HOIST_STEP k with
    hoist := { h with stepAt := s.mast.ran,
                      stepQn := Table.modify (fun _ => 0) h.stepQn s.hoistStep fun n => n + (s.mast.ran - h.stepAt) } }

/-- A Hoist that neither stands paused nor has parked, in a step. -/
def State.hoistAt (s : State) (k : Nat) : Bool :=
  s.inHoist && s.hoistStep == k && !s.bit F.MODE_STATUS_PFI_PAUSED && !s.bit F.MODE_STATUS_PARKED

/-- GSR and the write hold are asserted, with every stage at its initial state (spec/06_fabric.md R300), every user pin is at high impedance, and the device drives HALYARD low (R524, R538). -/
def State.holdAll (s : State) : State :=
  let t := ((s.raise F.FAB_STATUS_GSR).raise F.FAB_STATUS_WE_HELD).raise F.HST_HAL_STATUS_DRIVE
  { t.clear F.HST_HAL_STATUS_TAKEN with dev := { t.dev with outOn := false }, hoist := { t.hoist with stage := 0 },
                                         fab := {} }

/-- Hoist pauses (R42, R537, R538): 0x0109, the pins and stages held, charging stopped (spec/17_power_and_reef.md R880). -/
def State.hoistPause (s : State) : State :=
  let t := (((s.log 0x0109 s.hoistStep).raise F.MODE_STATUS_PFI_PAUSED).clear F.PWR_STATUS_CHARGING).holdAll
  { t.endLoad with hbuf := [] }.showHbuf

/-- PFI is asserted at a point where Hoist pauses. -/
def State.pauseIfPfi (s : State) : State :=
  if s.inHoist && s.bit F.PWR_STATUS_PFI && !s.bit F.MODE_STATUS_PFI_PAUSED && !s.bit F.MODE_STATUS_PARKED then s.hoistPause else s

/-! ### Attempts -/

/-- The candidate comes from the on-chip flash, whose reads are never slowed (R510). -/
def Candidate.onChip (c : Candidate) : Bool := c.code == 2

/-- Where a candidate's image words come from. -/
def Candidate.source (c : Candidate) : ImageSource :=
  match c.code with
  | 2 => .chip
  | 3 => .spi
  | 4 => .jtag
  | _ => .xflash

/-- The source is a host path (R515, R516). -/
def State.hostSourced (s : State) : Bool := s.hoist.src == 3 || s.hoist.src == 4

/-- The clock code of a candidate's first attempt (R494, R495): 100 MHz or on-chip, 25 MHz in safe mode or without SFDP. -/
def State.firstClock (s : State) (c : Candidate) : Nat :=
  if c.onChip || s.hostSourced then 0 else if s.hoist.src = 1 ∨ s.hoist.readBy = .slow03 then 2 else 0

/-- MODE_STATUS.GOLDEN and, on the golden image, the rest of R512. -/
def State.markGolden (s : State) (golden : Bool) : State :=
  let t := s.setBit F.MODE_STATUS_GOLDEN golden
  if golden then ((t.raise F.BOOT_STATUS_GOLDEN).log 0x0105 (s.fld F.BOOT_STATUS_REASON)).raise F.HST_EVENT_GOLDEN else t

/-- A load attempt on a candidate begins (R509-R512). -/
def State.startAttempt (s : State) (c : Candidate) (clk : Nat) : State :=
  let t := ((s.addSat F.BOOT_STATUS_ATTEMPTS 1).setFld F.BOOT_STATUS_CAND c.code).setFld F.BOOT_STATUS_CLK clk
  let t := t.markGolden c.onChip
  let t := if s.hoistStep = 5 then t else t.setStep 5
  let t := { t with hoist := { t.hoist with clk := clk, tries := t.hoist.tries + 1, attempts := t.hoist.attempts + 1, preSram := s.sram } }
  t.startImage c.source c.base

/-- Hoist waits for the first word of an image from a host path (R518). -/
def State.waitHost (s : State) : State :=
  let t := if s.hoistStep = 5 then s else s.setStep 5
  let t := ((t.raise F.HST_HOST_STATUS_WAITING).raise F.HST_EVENT_WAITING).clear F.HST_HOST_STATUS_BUSY
  { t with hbuf := [] }.showHbuf

/-- The first word of an image from a host path starts an attempt (R518). -/
def State.firstWord (s : State) (w : Word) : State :=
  let t := (s.clear F.HST_HOST_STATUS_WAITING).raise F.HST_HOST_STATUS_BUSY
  { t.startAttempt ⟨s.hoist.src, 0⟩ 0 with hbuf := [w] }.showHbuf

/-- Hoist parks (R513). -/
def State.park (s : State) : State :=
  let t := ((s.raise F.BOOT_STATUS_PARKED).raise F.MODE_STATUS_PARKED).log 0x0107 s.hoist.attempts
  t.raise F.HST_EVENT_PARKED

/-- The candidates from the next on (R510): the first of them starts, or Hoist parks. -/
def State.tryCandidates (s : State) (cs : List Candidate) : State :=
  let t := { s with hoist := { s.hoist with cands := cs, tries := 0 } }
  match cs with
  | [] => t.park
  | c :: _ => t.startAttempt c (t.firstClock c)

/-- A REASON after which Hoist goes to the next candidate (the REASON table). -/
def nextCandidate (reason : Nat) : Bool := reason == 1 || decide (8 ≤ reason)

/-- What follows a failed attempt (R510, R511, R513, R519). -/
def State.afterFailure (s : State) (reason : Nat) : State :=
  if s.hostSourced then s.waitHost
  else match s.hoist.cands with
    | [] => s.park
    | c :: cs =>
      if nextCandidate reason || decide (3 ≤ s.hoist.tries) then s.tryCandidates cs
      else s.startAttempt c (if reason = 7 ∨ c.onChip then s.hoist.clk else min 2 (s.hoist.clk + 1))

/-- The record of a failed attempt (R509): HST_ATTEMPTk up to the ninth, 0x0104, the event, REASON. -/
def State.recordAttempt (s : State) (code reason : Nat) : State :=
  let k := s.hoist.attempts - 1
  let cand := s.fld F.BOOT_STATUS_CAND
  let what := s.hoist.clk * 2 ^ 14 + cand * 2 ^ 8 + reason
  let t := if k < 9 then s.setReg (F.HST_ATTEMPT k) (BitVec.ofNat 32 (code * 2 ^ 16 + what)) else s
  ((t.log 0x0104 (k % 256 * 2 ^ 16 + what)).raise F.HST_EVENT_ATTEMPT_FAIL).setFld F.BOOT_STATUS_REASON reason

/-- The PLLs that the SHELL record declared stop (R505): the Mast PLL alone stays (R520). -/
def State.stopPlls (s : State) : State :=
  let t := (List.range 8).foldl (fun t k => t.laneOff k) s
  let t := (List.range 5).foldl (fun t q => t.linkOff q) t
  let t := t.setReg F.HST_PLL_STATUS 0
  t.setBit ⟨F.HST_PLL_STATUS, 0, 1⟩ (s.bit F.MAST_STATUS_PLL_LOCK)

/-- A load attempt fails with a unit's error code and a REASON (R505, R509, R510). -/
def State.failAttempt (s : State) (code reason : Nat) : State :=
  let t := ((s.recordAttempt code reason).stopPlls).unload
  ({ t.endLoad with hbuf := [] }.showHbuf).holdAll.afterFailure reason

/-- An attempt fails as an image's check says: its code is logged first. -/
def State.failLoad (s : State) (f : LoadFault) : State := (s.log f.code f.detail).failAttempt f.code f.reason

/-- An attempt fails for which the spec names no code of a failing unit: CODE is open (log entry 1). -/
def State.failPlain (s : State) (reason : Nat) : State :=
  let (v, t) := s.open_
  t.failAttempt (v % 2 ^ 16) reason

end Sys2Proof.Machine
end

