-- ==== Sys2Proof/Machine/Restart.lean ====
section
/-! DEFINITION. The start of a Hoist (spec/01_architecture.md, the transition table and R32, R33; spec/10_hoist.md R533-R535, R539):
what the battery-backed domain, the flashes and a rehoist keep. -/

namespace Sys2Proof.Machine

open Sys2Proof

/-! ### What a register keeps -/

/-- A register of TMR0-TMR7. -/
def reefTimerReg (a : Nat) : Bool := decide (0x51000 ≤ a ∧ a < 0x51200)

/-- The bits of a register that interrupt enables hold among those a Hoist would keep (R539). -/
def irqEnableBits (a : Nat) : Word :=
  if reefTimerReg a ∧ a % 64 = 0x28 then 3
  else if a = F.IMG_IRQ_EN ∨ a = F.MAST_IRQ_EN ∨ a = F.DSC_IRQ_EN ∨ a = F.EVL_IRQ_EN ∨ a = F.PWR_IRQ_EN ∨ a = F.PNL_IRQ_EN
    ∨ a = F.MON_IRQ_EN then 0xFFFFFFFF
  else 0

/-- The bits that survive power-up, PORST_N and Reef (R32, spec/04_timers_compares_captures.md R207): the battery-backed fields; the
levels at the balls are not the device's own. -/
def coldKeeps (a : Nat) : Word :=
  if reefTimerReg a ∨ (0x80010 ≤ a ∧ a < 0x80050) then 0xFFFFFFFF
  else match findRow a with | some r => BitVec.ofNat 32 r.kept | none => 0

/-- Registers of the PNL block that show panels and partial loads, which a Hoist starts again (R504). -/
def panelShown (a : Nat) : Bool :=
  a == F.PNL_LOAD_STATUS || a == F.PNL_LOAD_MASK || a == F.PNL_TORN || a == F.FAB_STATUS || a == F.FAB_STUCK
    || decide (0xF8020 ≤ a) || (decide (0xF0100 ≤ a ∧ a < 0xF0400) && (a % 32 == 0 || a % 32 == 4 || a % 32 == 16))

/-- The bits that a rehoist keeps: not those that Hoist loads, whose unit's chapter resets them at every Hoist, or that show what the
Hoist ends (DEDUCED, log entry 34). -/
def warmKeeps (a : Nat) : Word :=
  let loaded : Word := match findRow a with | some r => BitVec.ofNat 32 r.loads ||| BitVec.ofNat 32 r.param | none => 0
  match a / 0x10000 with
  | 0 => if a = F.HOIST_CAUSE then 0xFFFFFFFF else 0
  | 1 => if a = F.HST_STRAPS ∨ a = F.HST_PULL_FUSE then 0xFFFFFFFF else 0
  | 2 => if a = F.IMG_STATUS then 0xFFFF2FFF else if a = F.IMG_SVN then 0 else 0xFFFFFFFF
  | 3 => if a = F.FLC_WARN then 0 else 0xFFFFFFFF
  | 4 => if 0x40050 ≤ a then 0 else 0xFFFFFFFF
  | 5 => if reefTimerReg a ∨ a = F.TMR_REEF_WAKE then 0xFFFFFFFF else 0
  | 7 => ~~~loaded
  | 8 => if a = F.GPIO_VIO_OK ∨ (0x81050 ≤ a ∧ a < 0x81090) then 0
         else if 0x80010 ≤ a ∧ a < 0x80050 then 0xFFFFFFFF else ~~~loaded
  | 0xE => if a = F.PWR_STATUS then 0xFFFFFFCE else ~~~loaded
  | 0xF => if panelShown a then 0 else ~~~loaded
  | 0x10 => ~~~loaded
  | _ => 0

/-- Registers with only the kept bits; the others return to their Reset column, every interrupt enable among them. -/
def keepRegs (keeps : Nat → Word) (rs : Table Word) : Table Word :=
  (rs.map fun e =>
    let k := keeps e.1 &&& ~~~(irqEnableBits e.1)
    (e.1, (e.2 &&& k) ||| (resetWord e.1 &&& ~~~k))).filter fun e => e.2 != resetWord e.1

/-! ### Cold and warm starts -/

/-- An IDLE timer no longer freezes (spec/04_timers_compares_captures.md R186). -/
def State.idleTimer (s : State) (n : Nat) : State := (s.clear (F.TMR_STATUS_STATE n)).settleTimer n

/-- Timers that Hoist returns to IDLE (R212): TMR0-TMR7 without REEF_RUN. -/
def State.idleTimers (s : State) : State :=
  (List.range 8).foldl (fun t n => if t.bit (F.TMR_CTRL_REEF_RUN n) then t else t.idleTimer n) s

/-- A debug halt ends (spec/19_supervisor_and_host.md R1071): timers that it froze go on (spec/04_timers_compares_captures.md R205). -/
def State.endHalt (s : State) : State := if s.bit F.SUP_STATUS_HALTED then (s.clear F.SUP_STATUS_HALTED).settleHalted else s

/-- What is left of the device after a loss of the core supplies, PORST_N or Reef (R32, R33): the battery-backed domain, the fuses, the
flashes, and what stands at the pins.  When that domain lost its contents the Mast restarts at 0 (spec/02_mast.md R81). -/
def State.coldStart (s : State) : State :=
  let z : State := { regs := keepRegs coldKeeps s.regs }
  { z with
    mast := { acc := if s.dev.vbatLost then 0 else s.mast.acc, ran := s.mast.ran, age := s.mast.age },
    frozenSince := s.frozenSince.filter fun e => e.1 < 8,
    dev := { vbatLost := s.dev.vbatLost, porst := s.dev.porst },
    keys := { fuse := s.keys.fuse, bbk := s.keys.bbk, bbkZeroised := s.keys.bbkZeroised, tamperUnlogged := s.keys.tamperUnlogged },
    flash := { mem := s.flash.mem, openAt := s.flash.openAt, bad := s.flash.bad },
    xflash := s.xflash, xopen := s.xopen, upd := { trial := s.upd.trial }, stay := { actIn := s.stay.actIn },
    pwr := { byPfi := s.pwr.byPfi, entryUnlogged := s.pwr.entryUnlogged },
    fresh := s.fresh, pending := s.pending }

/-- An external program or erase in flight: it holds the next ROM boot (spec/13_field_update.md R701); the rest of its operation is
dropped. -/
def State.keepInFlight (s : State) : UpdateUnit :=
  if s.xflashBusy then { trial := s.upd.trial, steps := s.upd.steps.take 1, going := true } else { trial := s.upd.trial }

/-! ### Fuses -/

/-- Bits of a fuse word are set. -/
def State.setFuse (s : State) (k d : Nat) : State :=
  { s with keys := { s.keys with fuse := Table.put (fun _ => 0) s.keys.fuse k (s.fuseWord k ||| d) } }

/-- The bits of a thermometer word that are still clear, the lowest n of them. -/
def clearBits (n w : Nat) : Nat := (((List.range 32).filter fun i => w / 2 ^ i % 2 == 0).take n).foldl (fun m i => m + 2 ^ i) 0

/-- The words and bits that SVN_COMMIT programs (R588, R589). -/
def State.svnBits (s : State) : Nat × Nat :=
  let want := s.fld F.IMG_SVN_SVN - s.minSvn
  let free33 := 32 - popCount 32 (s.fuseWord 33)
  (clearBits (min want free33) (s.fuseWord 33), clearBits (want - free33) (s.fuseWord 34))

/-- A fuse program in progress completes before a rehoist (DEDUCED, log entry 34). -/
def State.fuseFinish (s : State) : State :=
  match s.keys.busyCmd, s.keys.fuseOp with
  | some 6, some (k, d) => s.setFuse k d
  | some 7, _ => (s.setFuse 33 s.svnBits.1).setFuse 34 s.svnBits.2
  | _, _ => s

/-- What a Hoist of CAUSE 0x4 or 0x5 finds (R83 of spec/02_mast.md, spec/19_supervisor_and_host.md R980, R991, R1071): the supplies
stayed, so the Mast, the collector and the SRAM stand; an on-chip operation ends under R650 and R651 of spec/12_flash_store.md. -/
def State.warmStart (s : State) : State :=
  let s := ({ s with dsc := { s.dsc with eraseDone := true } }).endHalt.flashInterrupted.engineFlash.fuseFinish
  let busy := s.xflashBusy
  let t := { s with regs := keepRegs warmKeeps s.regs }
  let t : State := { t with
    dev := { mode := .hoist, vbatLost := s.dev.vbatLost, porst := s.dev.porst },
    mast := { t.mast with window := none, windowAt := none },
    win := {},
    quiet := t.quiet.filter fun e => warmKeeps e.1 != 0,
    dsc := { coef := s.dsc.coef, cov := s.dsc.cov, dirty := s.dsc.dirty, vbatAge := s.dsc.vbatAge, seq := s.dsc.seq },
    frozenSince := s.frozenSince.filter fun e => e.1 < 8,
    cmp := [], cap := [], teq := [], sheet := [], stamp := [], panel := [], fences := [], fenceHeld := [], icpLast := none, icpStatus := [],
    xng := [], fifo := [], load := {}, hbuf := [], pcfg := [], fab := {}, stayEntries := [], upd := s.keepInFlight, txsrc := [], lane := [],
    link := [], shroud := {}, endpoint := [], stay := { actIn := s.stay.actIn }, evline := [], vioBad := 0, sup := { haltReq := s.sup.haltReq }, mbox := {}, mon := {},
    dbg := { s.dbg with haveReset := true },
    flash := { mem := t.flash.mem, openAt := t.flash.openAt, bad := t.flash.bad, mappedWarned := t.flash.mappedWarned },
    keys := { t.keys with challenge := none, token := [], fuseOp := none, busyCmd := none, massErase := none },
    pwr := { t.pwr with lowSpan := 0, paceNow := [], pacePeak := [], paceLoss := false, rsvEn := false, rsvDiv := 0, rsvExcursion := false,
                        chargeLogged := false, grants := s.pwr.grants.filter (fun g => busy && decide (5 ≤ g.1)), avsLate := false,
                        vbatLogged := false, reefSnapDone := false, reefPushDone := false },
    hoist := { refinLoaded := s.hoist.refinLoaded, waitsFlash := busy } }
  t.setFld F.PWR_LEDGER_COMMIT_UJ (t.pwr.grants.foldl (fun n g => n + g.2) 0)

/-- A Hoist starts (R29, R39, R472): step 0x2, the Mast in the 32 kHz domain after a cold start, ROM boot not yet begun.  A cold start that is no
POR returns XT_OK to 0 too, with no stop of XT32 (spec/00_scope.md R17, spec/02_mast.md R1072; DEDUCED, log entry 50); the TAP is in
Test-Logic-Reset for the ROM boot of CAUSE 0x1 to 0x3 (R34), and only a Hoist of CAUSE 0x3 shows wakes (R40). -/
def State.startHoist (s : State) (cause : Nat) (restart : Bool) : State :=
  let cold := decide (cause ≤ 3) && !restart
  let t := if cold then s.coldStart else s.warmStart
  let t := if cold then { t with mast := { t.mast with xtTicks := cause != 1 && s.bit F.MAST_STATUS_XT_OK } } else t
  let t := t.idleTimers
  { t with dev := { t.dev with cause := cause, wakes := if cause = 3 then s.dev.wakes else 0 },
           jtag := if cause ≤ 3 then {} else t.jtag,
           hoist := { t.hoist with restart := restart, stepAt := s.mast.ran } }

/-- A rehoist command or a full-device load (R36, R51): an image load in progress is abandoned with its keys
(spec/11_images_and_keys.md R569). -/
def State.rehoist (s : State) (cause : Nat) (path : Option Nat) : State :=
  let t := { s with dev := { s.dev with wakes := 0 } }.startHoist cause false
  { t with hoist := { t.hoist with path := path } }

/-! ### HST_CMD -/

/-- A full-device load over a host path (R543, R544): in Sail it starts a Hoist of CAUSE 0x5; a parked Hoist attempts from that path
without ROM boot; in any other Hoist it is refused unless the path is the Hoist's own source. -/
def State.hostLoad (s : State) (code : Nat) : State :=
  if s.inSail then s.rehoist 5 (some code)
  else if s.bit F.MODE_STATUS_PARKED then
    let t := ((s.clear F.MODE_STATUS_PARKED).clear F.BOOT_STATUS_PARKED).clear F.MODE_STATUS_GOLDEN
    { t with hoist := { t.hoist with src := code, cands := [] } }.waitHost
  else if (s.hoist.src = code ∧ s.hoist.booted ∧ 3 ≤ s.hoistStep) ∨ s.hoist.path = some code then s
  else s.log 0x010C code

/-- The KEY of HST_CMD is right, else nothing changes and 0x010A is logged (R540). -/
def State.hstKey (s : State) (v : Word) (t : State) : State := if bits v.toNat 31 16 = 0x4853 then t else s.log 0x010A v.toNat

/-- HST_CMD: HOST_LOAD acts alone when both bits are set (R540, R541); of commands of several paths in one window the first acts (R542). -/
def State.hstCommand (s : State) (p : Path) (v : Word) : State :=
  let t := if v.toNat / 2 % 2 = 1 then s.hostLoad 3 else if v.toNat % 2 = 1 then s.rehoist 4 none else s
  if v.toNat % 4 = 0 then s.hstKey v s
  else if comesAfter s.win.hstCmd p then s.hstKey v s
  else s.hstKey v (if s.beatRuns then { t with win := { t.win with hstCmd := some p } } else t)

/-- A write of HST_CMD with REHOIST (R51, R540, R549). -/
def execRehoist (p : Path) (v : Word) (s : State) : Out := whenOpen s (s.hstCommand p v)

/-- A write of HST_CMD with HOST_LOAD (R36, R541-R544). -/
def execHostLoad (p : Path) (v : Word) (s : State) : Out := whenOpen s (s.hstCommand p v)

end Sys2Proof.Machine
end

