-- ==== Sys2Proof/Machine/Supervisor.lean ====
section
/-! DEFINITION. The supervisor core's registers, the start of user firmware, halt and resume (spec/19_supervisor_and_host.md R933-R938,
R949-R952, R1071).  CSR numbers and the layout of dcsr are the RISC-V specifications' (PRESUMED, log entry 33). -/

namespace Sys2Proof.Machine

open Sys2Proof

def csrMstatus : Nat := 0x300
def csrMisa : Nat := 0x301
def csrMie : Nat := 0x304
def csrMtvec : Nat := 0x305
def csrDcsr : Nat := 0x7B0
def csrDpc : Nat := 0x7B1

/-- What a CSR holds where nothing has written it: misa, mimpid, MPP and dcsr's fixed fields read as such; the rest read 0. -/
def csrReset (n : Nat) : Word :=
  if n = csrMstatus then 0x1800 else if n = csrMisa then 0x40001104 else if n = 0xF13 then 0xA1 else if n = csrDcsr then 0x40000003 else 0

/-- A CSR's stored word. -/
def State.csr (s : State) (n : Nat) : Word := Table.get csrReset s.sup.csr n

/-- Store a CSR. -/
def State.setCsr (s : State) (n : Nat) (v : Word) : State := { s with sup := { s.sup with csr := Table.put csrReset s.sup.csr n v } }

/-- An integer register; x0 reads 0. -/
def State.x (s : State) (n : Nat) : Word := if n = 0 then 0 else Table.get (fun _ => 0) s.sup.x n

/-- Store an integer register; x0 discards it. -/
def State.setX (s : State) (n : Nat) (v : Word) : State :=
  if n = 0 then s else { s with sup := { s.sup with x := Table.put (fun _ => 0) s.sup.x n v } }

/-- Debug is authenticated (R949): at PL0, at PL1 while DBG_UNLOCKED. -/
def State.dbgOpen (s : State) : Bool := s.protLevel == 0 || (s.protLevel == 1 && s.bit F.IMG_STATUS_DBG_UNLOCKED)

/-- User firmware runs instructions of its own: it has started, the default handler does not hold it, and no routine call executes. -/
def State.userRuns (s : State) : Bool :=
  s.bit F.SUP_STATUS_USER && !s.bit F.SUP_STATUS_TRAPPED && !s.sup.calling && !s.flash.inCall && !s.upd.waits

/-- The ROM default handler (R938). -/
def State.defaultHandler (s : State) (cause epc : Word) : State :=
  (((((s.setReg F.SUP_LAST_CAUSE cause).setReg F.SUP_LAST_EPC epc).log 0x1008 cause.toNat).raise F.SUP_STATUS_TRAPPED).raise F.SUP_EVENT_TRAP)

/-- User firmware takes a trap: mepc, mcause, mtval (the value that the RISC-V rules give, or 0: open, log entry 1), MPIE and MIE; the
pc goes to mtvec, by cause for an interrupt in vectored mode.  At the ROM default handler R938 applies. -/
def State.takeTrap (s : State) (interrupt : Bool) (cause : Nat) (epc tval : Word) : State :=
  let (v, t) := s.open_
  let mcause : Word := BitVec.ofNat 32 (cause + if interrupt then 2 ^ 31 else 0)
  let m := t.csr csrMstatus
  let vec := t.csr csrMtvec
  let base := vec &&& ~~~3#32
  let target := if interrupt && vec.getLsbD 0 then base + BitVec.ofNat 32 (4 * cause) else base
  let t := ((t.setCsr 0x341 epc).setCsr 0x342 mcause).setCsr 0x343 (if v % 2 = 0 then tval else 0)
  let t := t.setCsr csrMstatus ((m &&& ~~~0x88#32) ||| (if m.getLsbD 3 then 0x80#32 else 0))
  let t : State := { t with sup := { t.sup with pc := target } }
  if target = t.sup.handler then t.defaultHandler mcause epc else t

/-- A register access of supervisor code that faults (spec/00_scope.md R6, R16, spec/12_flash_store.md R628): user firmware takes the exception at
its present instruction; ROM code makes no such access (log entry 33).  On the debug path it ends a program buffer (R947). -/
def State.accessTrap (s : State) (p : Path) (cause a : Nat) : State :=
  match p with
  | .sup => if s.userRuns then s.takeTrap false cause s.sup.pc (BitVec.ofNat 32 a) else s
  | .dbg => if s.dbg.cmderr = 0 then { s with dbg := { s.dbg with cmderr := 3 } } else s
  | _ => s

/-- The address at which the core stands: user firmware's pc, or one in the ROM, which the spec leaves open (log entry 1). -/
def State.corePc (s : State) : Word × State :=
  if s.userRuns then (s.sup.pc, s)
  else
    let (v, t) := s.open_
    (BitVec.ofNat 32 (0x10000000 + v % 0x8000 * 2), t)

/-- The core halts (R950) with a cause of dcsr. -/
def State.haltCore (s : State) (cause : Nat) : State :=
  let (pc, s) := s.corePc
  let t := (s.setCsr csrDpc pc).setCsr csrDcsr (putField (s.csr csrDcsr) ⟨0, 6, 3⟩ cause)
  ({ t with sup := { t.sup with haltReq := false } }.raise F.SUP_STATUS_HALTED).settleHalted

/-- A halted core resumes at dpc. -/
def State.resumeCore (s : State) : State :=
  if s.bit F.SUP_STATUS_HALTED then
    let t : State := if s.userRuns then { s with sup := { s.sup with pc := s.csr csrDpc } } else s
    (t.clear F.SUP_STATUS_HALTED).settleHalted
  else s

/-- User firmware starts at ENTRY (R936).  mtvec names the ROM default handler, whose address is open (log entry 1). -/
def State.startUser (s : State) : State :=
  let (v, t) := s.open_
  let handler : Word := BitVec.ofNat 32 (0x10000000 + v % 0x4000 * 4)
  let t := { t with sup := { pc := BitVec.ofNat 32 s.load.entry, haltReq := s.sup.haltReq, handler := handler,
                             cycles := s.sup.cycles, instret := s.sup.instret } }
  let t := ((t.setX 2 0x2003C000).setX 10 (s.reg F.HOIST_CAUSE)).setX 11 (s.reg F.BOOT_STATUS)
  (t.setCsr csrMtvec handler).raise F.SUP_STATUS_USER

/-- The core at entry into Sail: user firmware when the image held a SUPERVISOR record (R936, R937), and a halt request that waited
(R1071), where debug is authenticated. -/
def State.supAtSail (s : State) (loaded : Bool) : State :=
  let t := if loaded then s.startUser else s
  if t.sup.haltReq then
    if t.dbgOpen then t.haltCore 3 else { t with sup := { t.sup with haltReq := false } }
  else t

end Sys2Proof.Machine
end

