-- ==== Sys2Proof/Machine/Release.lean ====
section
/-! DEFINITION. The clock-loop wait, the halyard and the staged release up to entry into Sail (spec/10_hoist.md R506, R520-R532,
R546-R548). -/

namespace Sys2Proof.Machine

open Sys2Proof

/-! ### The clock-loop wait -/

/-- Every declared lane and port begins to lock (R521); the Mast PLL is always declared. -/
def State.startPlls (s : State) : State :=
  let t := (s.raise ⟨F.HST_PLL_STATUS, 16, 1⟩).setBit ⟨F.HST_PLL_STATUS, 0, 1⟩ (s.bit F.MAST_STATUS_PLL_LOCK)
  let t := (List.range 8).foldl (fun t k =>
    if t.laneDeclared k && t.laneState k == 0 then (t.raise ⟨F.HST_PLL_STATUS, 17 + k, 1⟩).setLaneState k 1 else t) t
  (List.range 5).foldl (fun t q => t.linkStart q) t

/-- Enabled pin sheets hold their INIT level (spec/05_sheets.md R272). -/
def State.initSheets (s : State) : State :=
  (List.range 256).foldl (fun t i => if t.bit (sheetEn i) then t.setFld (F.SHT_STATUS_LEVEL i) (t.fld (F.SHT_CFG_INIT i)) else t) s

/-- END has authenticated (R506, R521): the image's facts, the oscillator model, entry into the clock-loop wait. -/
def State.imageLoaded (s : State) (h : ImageHeader) : State :=
  let t := (s.showImage h s.load.rolls).modelAtHoist (s.load.seed.map (·.1)) ((s.load.seed.map (·.2)).getD false)
  let t := { t with dsc := { t.dsc with dirty := false } }.initSheets
  let t := ({ t.endLoad with load := { t.endLoad.load with ended := true } }).setStep 6
  t.startPlls

/-- The clock-loop wait ends once every REQ bit has its LOCK bit and the calibration of R254 is done: `codes` are the measured delays of
the enabled sheets and PPS_OUT; HALYARD is released (R522, R524). -/
def execClockLoopWaitEnd (codes : List Nat) (s : State) : Out :=
  let req := s.fld F.HST_PLL_STATUS_REQ
  let lock := s.fld F.HST_PLL_STATUS_LOCK
  if s.hoistAt 6 && (List.range 14).all (fun i => req / 2 ^ i % 2 == 0 || lock / 2 ^ i % 2 == 1) then
    .next (((s.calibrate codes).setStep 7).clear F.HST_HAL_STATUS_DRIVE)
  else .next s

/-- HST_PLL_WAIT expires (R523): 0x0106, and the attempt fails with REASON 0x7. -/
def execClockLoopTimeout (s : State) : Out :=
  let req := s.fld F.HST_PLL_STATUS_REQ
  let lock := s.fld F.HST_PLL_STATUS_LOCK
  let left := (List.range 14).foldl (fun n i => if req / 2 ^ i % 2 = 1 ∧ lock / 2 ^ i % 2 = 0 then n + 2 ^ i else n) 0
  .next (if s.hoistAt 6 then s.failLoad ⟨0x0106, left, 7⟩ else s)

/-- The Mast PLL loses lock (spec/02_mast.md R76, R546, R547): 0x0401 while REFIN is present, and before the first release stage Hoist waits again with HALYARD
low. -/
def execMastPllUnlock (s : State) : Out :=
  if s.powered && s.bit F.MAST_STATUS_PLL_LOCK then
    let t := (s.clear F.MAST_STATUS_PLL_LOCK).clear ⟨F.HST_PLL_STATUS, 0, 1⟩
    let t := if s.bit F.MAST_STATUS_REF_OK then (t.log 0x0401 (s.fld F.MAST_PLL_CFG_REFIN_SEL)).raise F.MAST_EVENT_PLL_UNLOCK else t
    let t := t.cutWindow
    .next (if s.hoistAt 7 then ((t.setStep 6).raise F.HST_HAL_STATUS_DRIVE).clear F.HST_HAL_STATUS_TAKEN else t)
  else .next s

/-! ### Entry into Sail -/

/-- Compare channels that Hoist loaded are armed with the Mast of the entry as that of their commit, and evaluated at the first beat of Sail,
which is that of the entry (spec/04_timers_compares_captures.md R175, R532; DEDUCED, log entry 43). -/
def State.armLoaded (s : State) : State :=
  let ns := (s.cmp.filter fun e => e.2.loaded).map (·.1)
  let t := ns.foldl (fun t n => t.armCompare n (t.wide (F.CMP_VAL_LO n))) s
  t.fireCompares (ns.filter fun n => atOrAfter s.now (s.wide (F.CMP_VAL_LO n)))

/-- Every panel that follows the device's release is RUNNING (spec/07_panels.md R359). -/
def State.panelsRun (s : State) : State :=
  (List.range 24).foldl (fun t k => (t.setPanelState k 1).setWide (F.PNL_RUN_LO k) t.now) s

/-- What field update and the voltage loop show of a new Sail. -/
def State.showSail (s : State) : State :=
  let code := s.fld F.BOOT_STATUS_CAND
  let trial := s.upd.readDir && (s.upd.trials.any fun p => p.1 == code)
  let t := (s.setFld F.UPD_STATUS_RUN code).setBit F.UPD_STATUS_TRIAL trial
  let t := (t.setFld F.PWR_VDDF_TARGET_REQ 800).raise F.PWR_STATUS_LOOP_RUN
  { t with pwr := { t.pwr with capLim := 950, lowSpan := 0, paceAt := t.clock } }

/-- The patrol starts (spec/12_flash_store.md R655): 100 ms, from offset 0. -/
def State.startPatrol (s : State) : State :=
  let t := ((s.setFld F.FLC_PATROL_CFG_MS 100).setFld F.FLC_PATROL_POS_OFS 0).setReg F.FLC_PATROL_STATUS 0
  { t with flash := { t.flash with patrolLogged := 0, patrolFrom := t.clock } }

/-- The device enters Sail (R532). -/
def State.enterSail (s : State) : State :=
  let loaded := s.load.entry != 0
  let t := ((s.setStep 0).setFld F.MODE_STATUS_MODE 1).raise F.HST_EVENT_SAIL
  let t := { t.setWide F.HST_T_SAIL_LO s.now with dev := { t.dev with mode := .sail } }
  let t := ((t.panelsRun).dscStart).startWindow
  ((((t.armLoaded).showSail).startPatrol).stayAtSail).supAtSail loaded

/-! ### The staged release -/

/-- OUT (R477, spec/18_pins_and_event_lines.md R908): user pins are driven, static ones as INIT says. -/
def State.releaseOut (s : State) : State :=
  let t := (List.range 256).foldl (fun t n =>
    if t.bit (F.SHT_CFG_EN n) then t
    else
      let i := t.fld (F.GPIO_PIN_CFG_INIT n)
      (t.setBit ⟨F.GPIO_OE (n / 16), n % 16, 1⟩ (decide (i < 2))).setBit ⟨F.GPIO_OUT (n / 16), n % 16, 1⟩ (i == 1)) s
  { t with dev := { t.dev with outOn := true } }

/-- One stage of the device: 0 OUT, 1 WE, 2 GSR. -/
def State.deviceStage (s : State) (stage : Nat) : State :=
  match stage with
  | 0 => s.releaseOut
  | 1 => s.clear F.FAB_STATUS_WE_HELD
  | _ => s.clear F.FAB_STATUS_GSR

/-- The stages still to come apply as far as their gaps of 0 let them (R529-R531); the third is entry into Sail. -/
def State.release : Nat → State → State
  | 0, s => s
  | fuel + 1, s =>
    let k := s.hoist.stage
    let t := s.deviceStage ((releaseOrder (s.fld F.HST_REL_CFG_ORDER)).getD k 2)
    let gap := if k = 0 then (s.reg F.HST_REL_GAP1).toNat else (s.reg F.HST_REL_GAP2).toNat
    let t := { t with hoist := { t.hoist with stage := k + 1, stageAt := (s.now + gap) % 2 ^ 64 } }
    if k = 2 then t.enterSail
    else if gap = 0 then State.release fuel t else t

/-- The first stage: HALYARD is ignored from here on (R527). -/
def State.beginRelease (s : State) : State := State.release 3 ((s.raise F.HST_HAL_STATUS_TAKEN).setStep 8)

/-- HALYARD has read high for 4,000 qn (R525, R548). -/
def execHalyardTaken (s : State) : Out := .next (if s.hoistAt 7 then s.beginRelease else s)

/-- TO_MS has passed first (R526). -/
def execHalyardTimeout (s : State) : Out :=
  .next (if s.hoistAt 7 && s.fld F.HST_HAL_CFG_TO_MS != 0 then
    (((s.raise F.BOOT_STATUS_HAL_ALONE).log 0x0108 (s.fld F.HST_HAL_CFG_TO_MS)).raise F.HST_EVENT_HAL_ALONE).beginRelease else s)

/-- The next stage applies at the first beat at or after its gap (R530). -/
def execReleaseStage (s : State) : Out :=
  .next (if s.hoistAt 8 && atOrAfter s.now s.hoist.stageAt then State.release 3 s else s)

end Sys2Proof.Machine
end

