-- ==== Sys2Proof/Machine/Hoist.lean ====
section
/-! DEFINITION. ROM boot, source selection, the directory read and the record load (spec/10_hoist.md R474-R506, R515-R519;
spec/12_flash_store.md R643-R647; spec/11_images_and_keys.md R598, R1083). -/

namespace Sys2Proof.Machine

open Sys2Proof

/-! ### ROM boot -/

/-- Zeroise the battery-backed key (spec/11_images_and_keys.md R584-R586). -/
def State.zeroKey (s : State) : State :=
  let t := ((s.clear F.IMG_STATUS_BBK_VALID).setReg F.IMG_BBK_KCV_LO 0).setReg F.IMG_BBK_KCV_HI 0
  { t with keys := { t.keys with bbk := [], bbkZeroised := true } }

/-- 0x0209 with its event. -/
def State.logZeroised (s : State) (why : Nat) : State := (s.log 0x0209 why).raise F.IMG_EVENT_ZEROISED

/-- Unfinished entries of SYS sector k's journal: entry, KIND and sector (R647). -/
def State.unfinished (s : State) (k : Nat) : List (Nat × Nat × Nat) :=
  (List.range (s.journalNext k)).filterMap fun e =>
    let u := s.sysUnit k (64 + 2 * e)
    if u16 u 0 = 0x4A45 ∧ unitGood u ∧ s.unitBlank (2048 * k + 65 + 2 * e) then some (e, u8 u 2, u16 u 4) else none

/-- ROM boot erases a sector again (R478, R666); `fails` are sectors whose erase fails. -/
def State.bootErase (s : State) (fails : List Nat) (k e sec : Nat) : State :=
  if fails.contains sec then ((s.sectorOpen sec).journalDone k e false).log 0x0303 (65536 * sec)
  else (((s.sectorErased sec).journalDone k e true).log 0x010B (65536 * sec)).raise F.HST_EVENT_JOURNAL

/-- The sectors of a mass erase in order: all but the protection word's (R597). -/
def massSectors (k : Nat) : List Nat := (List.range 256).filter (· != k)

/-- ROM boot completes a PL_LOWER from its step 2 (R598); a sector that fails stops it with PL1 in force (R1083). -/
def State.bootMassErase (s : State) (fails : List Nat) (k e : Nat) : State :=
  let t := s.zeroKey.logZeroised 2
  let good := (massSectors k).takeWhile fun x => !fails.contains x
  let t := good.foldl (fun t x => t.sectorErased x) t
  match (massSectors k)[good.length]? with
  | some x => ((t.sectorOpen x).log 0x0303 (65536 * x)).journalDone k e false
  | none => (((t.appendLevel 0).journalDone k e true).log 0x010B 0x01000000).raise F.HST_EVENT_JOURNAL

/-- Complete the unfinished erases of the journal. -/
def State.bootJournal (s : State) (fails : List Nat) (k : Nat) : State :=
  (s.unfinished k).foldl (fun t e => if e.2.1 = 2 then t.bootMassErase fails k e.1 else t.bootErase fails k e.1 e.2.2) s

/-- Neither SYS sector qualifies: the level by the fuses, 0x0309, a fresh SYS0 (R645). -/
def State.rebuildSys (s : State) : State :=
  let level := if s.slotOk 0 || s.slotOk 1 then 1 else 0
  (s.log 0x0309 level).sysBuild 0 1 level

/-- The flash store's part of ROM boot; an erase or a program that PFI bars pauses Hoist before it (R479, R537). -/
def State.bootFlash (s : State) (fails : List Nat) : State :=
  let pfi := s.bit F.PWR_STATUS_PFI
  if s.sysActive.isNone && pfi then s.hoistPause
  else
    let t := if s.sysActive.isNone then s.rebuildSys else s
    let k := (t.sysActive).getD 0
    let t := (t.setFld F.FLC_SYS_ACTIVE k).setFld F.FLC_SYS_LEVEL (t.storedLevel k)
    if (t.unfinished k).isEmpty then t
    else if pfi then t.hoistPause
    else
      let t := t.bootJournal fails k
      t.setFld F.FLC_SYS_LEVEL (t.storedLevel (t.fld F.FLC_SYS_ACTIVE))

/-- What the domain that outlives power tells the first ROM boot: a Mast held in deep Reef (spec/17_power_and_reef.md R883), a Reef entry
and a dropout not yet logged (R889), a zeroisation (spec/11_images_and_keys.md R586). -/
def State.bootReports (s : State) : State :=
  let t := if s.bit F.PWR_REEF_STATUS_DEEP_HELD then
      ((s.clear F.MAST_STATUS_SET).clear F.PWR_REEF_STATUS_DEEP_HELD).log 0x0E0A 0 else s
  let t := if t.pwr.entryUnlogged then t.log 0x0E09 (t.fld F.PWR_REEF_STATUS_ENTRY) else t
  let t := if t.bit F.PWR_REEF_STATUS_DROPOUT then (t.log 0x0E0D 0).clear F.PWR_REEF_STATUS_DROPOUT else t
  let t := if t.keys.tamperUnlogged then t.logZeroised 0 else t
  { t with pwr := { t.pwr with entryUnlogged := false }, keys := { t.keys with tamperUnlogged := false } }

/-- HOIST_CAUSE (R39): the cause, its wakes, VBAT_LOST and PFI_RESTART. -/
def State.writeCause (s : State) : State :=
  let lost := s.dev.vbatLost || (s.hoist.restart && s.bit F.HOIST_CAUSE_VBAT_LOST)
  let v := s.dev.cause + 16 * s.dev.wakes + 256 * lost.toNat + 512 * s.hoist.restart.toNat
  { s.setReg F.HOIST_CAUSE (BitVec.ofNat 32 v) with dev := { s.dev with vbatLost := false } }

/-- ROM boot up to its request for 0.80 V (R474-R481, R535; spec/17_power_and_reef.md R857). -/
def State.romBoot (s : State) (straps : BitVec 11) (fails : List Nat) : State :=
  let t := { s with hoist := { s.hoist with booted := true } }.writeCause
  let t := (t.setReg F.HST_STRAPS (straps.setWidth 32)).setReg F.HST_PULL_FUSE (BitVec.ofNat 32 (t.fuseWord 35))
  let t := (((t.setWide F.HST_T_START_LO s.now).setTrial t.upd.trial).bootReports).bootFlash fails
  if t.bit F.PWR_STATUS_AVS_FAULT then t else { t with pwr := { t.pwr with avsTarget := 800 } }

/-- ROM boot begins: not while PORST_N is held (R1075), nor before a flash operation has ended (R1078, spec/13_field_update.md R701).
`fails` are sectors whose erase from the journal fails. -/
def execRomBoot (straps : BitVec 11) (fails : List Nat) (s : State) : Out :=
  .next (if s.hoistAt 2 && !s.hoist.booted && !s.dev.porst && s.flash.op.isNone && !s.hoist.waitsFlash then s.romBoot straps fails else s)

/-! ### Source selection -/

/-- How the flash is read (R489-R491, R494, R495). -/
def probeReading (p : FlashProbe) (safe : Bool) : FlashRead :=
  if !(p.signature && p.major == 1) then .slow03
  else if safe then .fast0B
  else if p.reads144 && p.quadEnabled then .quad144
  else if p.reads114 && p.quadEnabled then .quad114
  else if p.reads122 then .dual122
  else if p.reads112 then .dual112
  else .fast0B

/-- The WIDTH code of a way of reading. -/
def readWidth : FlashRead → Nat
  | .dual112 | .dual122 => 1
  | .quad114 | .quad144 => 2
  | .slow03 | .fast0B => 0

/-- The probe (R488-R494). -/
def State.probeFlash (s : State) (p : FlashProbe) (safe : Bool) : State :=
  let ok := p.signature && p.major == 1
  let r := probeReading p safe
  let wide4 := ok && decide (24 < p.density)
  let t := ((s.setFld F.HST_FLASH_INFO_MFR (p.jedec.toNat % 256)).setBit F.HST_FLASH_INFO_PRESENT p.present).setBit F.HST_FLASH_INFO_SFDP_OK ok
  let t := (t.setBit F.HST_FLASH_INFO_ADDR4 wide4).setFld F.HST_FLASH_INFO_WIDTH (readWidth r)
  let t := if ok then (t.setFld F.HST_FLASH_INFO_DENSITY p.density).setFld F.HST_FLASH_INFO_BFPT_REV (p.major * 16 + p.minor % 16)
    else t.log 0x0102 p.jedec.toNat
  { t with hoist := { t.hoist with readBy := r, enter4 := wide4 && !p.table4 } }

/-- The golden image, in bank A of the on-chip flash (R501, spec/12_flash_store.md). -/
def goldenCandidate : Candidate := ⟨2, 0x20000⟩

/-- The source of this Hoist (R485-R487): 0 external flash, 1 in safe mode, 2 golden, 3 host SPI, 4 JTAG. -/
def State.chooseSource (s : State) : State :=
  let sel := s.fld F.HST_STRAPS_BOOTSEL
  match s.hoist.path with
  | some c => { s with hoist := { s.hoist with src := c } }
  | none =>
    if 5 ≤ sel then ({ s with hoist := { s.hoist with src := 0 } }).log 0x0101 (s.reg F.HST_STRAPS).toNat
    else { s with hoist := { s.hoist with src := sel } }

/-- Step 0x3 (R485-R495): the source, the probe of an external flash, and what comes next. -/
def State.selectSource (s : State) (p : FlashProbe) : State :=
  let t := (s.setStep 3).chooseSource
  match t.hoist.src with
  | 0 => (t.probeFlash p false).setStep 4
  | 1 => (t.probeFlash p true).setStep 4
  | 2 => t.tryCandidates [goldenCandidate]
  | _ =>
    match t.hoist.first with
    | some w => { t.waitHost with hoist := { t.waitHost.hoist with first := none } }.firstWord w
    | none => t.waitHost

/-- A Voltage read returns `mV` (R481); `late` when 10 ms have passed since the first request (spec/17_power_and_reef.md R859).  Within
10 mV of 800 mV ROM boot ends; `p` is what the probe of an external flash finds. -/
def execRomBootComplete (mV : Nat) (late : Bool) (p : FlashProbe) (s : State) : Out :=
  if s.hoistAt 2 && s.hoist.booted then
    let t := s.setFld F.PWR_VDDF_MEAS_MV (min mV 65535)
    if 790 ≤ mV ∧ mV ≤ 810 then
      .next (if s.bit F.PWR_STATUS_PFI then t.hoistPause else t.selectSource p)
    else if late && !s.pwr.avsLate then .next ({ t with pwr := { t.pwr with avsLate := true } }.log 0x0E02 mV)
    else .next t
  else .next s

/-! ### The directory -/

/-- The image base of a slot: without 4-byte addresses only the first 16 MiB are reachable (R492, R494). -/
def State.slotBase (s : State) (a : Nat) : Nat := if s.bit F.HST_FLASH_INFO_ADDR4 then a else a % 2 ^ 24

/-- The trial boot is counted before the first attempt (spec/13_field_update.md R674), and what the service needs later (R677, R678). -/
def State.countTrial (s : State) (es : List DirEntry) : State :=
  let trials := (trialEntries es).map fun e => (e.slot, s.trialCount e)
  match s.trialFirst es with
  | some (e, a) =>
    let t := s.setTrial (some (e.trialId, a + 1))
    { t with upd := { t.upd with readDir := true, trials := trials, counted := some e.slot } }
  | none => { s with upd := { s.upd with readDir := true, trials := trials, counted := none } }

/-- The directory read (R498-R501): `noise` are misread bytes by external address. -/
def State.readDirectory (s : State) (noise : List (Nat × Byte)) : State :=
  let seen := noise.foldl (fun v e => v.xflashPut e.1 [e.2]) s
  let copy := if s.bit F.HST_FLASH_INFO_PRESENT then seen.dirCopy else none
  let es := if copy.isSome then seen.dirEntries else []
  let cs := (s.dirCandidates es).map fun e => (⟨e.slot, s.slotBase e.addr⟩ : Candidate)
  let t := s.setBit F.BOOT_STATUS_DIR_COPY (copy == some 1)
  let t := if s.bit F.HST_FLASH_INFO_PRESENT then
      let v := seen.showDir (!seen.copyValid 0)
      ((t.setReg F.UPD_STATUS (v.reg F.UPD_STATUS)).setReg F.UPD_DIR_GEN (v.reg F.UPD_DIR_GEN)).setReg F.UPD_DIR_USED (v.reg F.UPD_DIR_USED)
    else t
  let t := t.countTrial es
  let t := if cs.isEmpty then (t.log 0x0103 copy.isSome.toNat).setFld F.BOOT_STATUS_REASON 2 else t
  if s.bit F.PWR_STATUS_PFI then t.hoistPause else t.tryCandidates (cs ++ [goldenCandidate])

/-- Hoist reads the directory of the external flash. -/
def execDirectoryRead (noise : List (Nat × Byte)) (s : State) : Out := .next (if s.hoistAt 4 then s.readDirectory noise else s)

/-! ### The record load -/

/-- A load attempt is under way and what it reads next is a header, or a record. -/
def State.loading (s : State) : Bool := s.hoistAt 5 && s.load.active

/-- The header of a full image (R551). -/
def State.fullHeader (s : State) (answers : Bool) (noise : List (Nat × Byte)) (errs : List (Nat × Nat)) : State :=
  if !s.load.src.streams && !(answers && (s.load.src == .chip || s.bit F.HST_FLASH_INFO_PRESENT)) then s.failPlain 1
  else match s.imageBytes noise 512 with
    | none => s
    | some b =>
      let (damaged, t) := s.imageChunks errs 512
      match t.verifyHeader b false damaged with
      | (.inl f, t) => t.failLoad f
      | (.inr (h, key, digest), t) =>
        let t := t.imageTaken 512
        { t with load := { t.load with hdr := some h, key := key, digest := digest } }.pauseIfPfi

/-- The image header of a full image in Hoist or of a partial image in Sail: `answers` when the flash that holds it answers, `noise` the
misread bytes by image offset, `errs` the bit errors of on-chip chunks. -/
def execImageHeader (answers : Bool) (noise : List (Nat × Byte)) (errs : List (Nat × Nat)) (s : State) : Out :=
  .next (if s.load.hdr.isSome then s
    else if s.loading then s.fullHeader answers noise errs
    else if s.inSail && s.partialBusy && s.load.active then s.partialHeader noise errs else s)

/-- A full image's record has taken effect: END ends the load, and a byte past it fails the attempt (R502). -/
def State.fullEffect (s : State) (h : ImageHeader) (r : Record) (p : List Byte) : State :=
  match s.recordEffect r p with
  | (t, some f) => t.failLoad f
  | (t, none) =>
    if r.type = 15 then
      if t.load.got ≠ [] ∨ t.hbuf ≠ [] then t.failLoad ⟨0x020C, r.index, 5⟩ else (t.imageLoaded h).pauseIfPfi
    else t.pauseIfPfi

/-- The next record of a full image (R502, R503, R557-R567, R1080). -/
def State.fullRecord (s : State) (h : ImageHeader) (noise : List (Nat × Byte)) (errs : List (Nat × Nat)) : State :=
  match s.imageBytes noise 16 with
  | none => s
  | some hd =>
    match recordHeaderFault h s.load hd (recordOf hd h.trailer) with
    | some f => s.failLoad f
    | none =>
      let n := s.recordNeeds h noise
      match s.imageBytes noise n with
      | none => s
      | some b =>
        let (damaged, t) := s.imageChunks errs n
        match openRecord h t.load b damaged with
        | .inl f => t.failLoad f
        | .inr (r, p, l) =>
          let t := t.imageTaken n
          { t with load := { l with got := t.load.got } }.fullEffect h r p

/-- The next record of the image in load. -/
def execImageRecord (noise : List (Nat × Byte)) (errs : List (Nat × Nat)) (s : State) : Out :=
  match s.load.hdr with
  | none => .next s
  | some h =>
    .next (if s.loading then s.fullRecord h noise errs
      else if s.inSail && s.partialBusy && s.load.active then s.partialRecord h noise errs else s)

/-! ### Host paths -/

/-- An image word from host SPI (3) or JTAG (4) (R515-R519, R604): the first of an image starts an attempt, one past END fails it, and
one that finds no place fails it with 0x010D. -/
def State.hostWord (s : State) (code : Nat) (w : Word) : State :=
  if !(s.inHoist && s.hoist.src == code && decide (5 ≤ s.hoistStep) && !s.bit F.MODE_STATUS_PFI_PAUSED && !s.bit F.MODE_STATUS_PARKED) then s
  else if s.bit F.HST_HOST_STATUS_WAITING then s.firstWord w
  else if s.load.ended then s.failLoad ⟨0x020C, s.load.index - 1, 5⟩
  else if 64 ≤ s.hbuf.length then s.failLoad ⟨0x010D, 0, 5⟩
  else { s with hbuf := s.hbuf ++ [w] }.showHbuf

/-- A write of HST_HOST_DATA. -/
def execHostDataWord (_p : Path) (w : Word) (s : State) : Out := whenOpen s (s.hostWord 3 w)

/-- No word for 100 ms of Mast on a host path (R518). -/
def execHostWordTimeout (s : State) : Out :=
  .next (if s.loading && s.hostSourced && !s.bit F.HST_HOST_STATUS_WAITING then s.failPlain 6 else s)

end Sys2Proof.Machine
end

