-- ==== Sys2Proof/Machine/Update.lean ====
section
/-! DEFINITION. Field update: the update routines and the update service (spec/13_field_update.md).  An operation is a list of steps; the
steps that take time end by UPDATE_OPERATION_COMPLETE, or by FLASH_OPERATION_COMPLETE where they use the on-chip flash. -/

namespace Sys2Proof.Machine

open Sys2Proof

def stBADSTATE : Nat := 0x10
def stRUNNING : Nat := 0x11
def stVERIFYFAIL : Nat := 0x12
def stNOTRIAL : Nat := 0x13
def stSNAP : Nat := 0x14
def stAGED : Nat := 0x15
def stXFLASH : Nat := 0x16

/-! ### The operation -/

/-- Replace what field update holds of its operation. -/
def State.setSteps (s : State) (l : List UpdStep) : State := { s with upd := { s.upd with steps := l, going := false } }

/-- A routine returns: LAST shows its status. -/
def State.updReturns (s : State) (vs : List Nat) : State :=
  (s.setFld F.UPD_STATUS_LAST (vs.getD 0 0)).returns vs

/-- What the routine of an index returns with a status before its end: upd_write the bytes programmed, upd_verify and upd_golden no
error code. -/
def updAnswer (kind st done : Nat) : List Nat :=
  if kind = 2 then [st, done] else if kind = 4 ∨ kind = 8 then [st, 0] else [st]

/-- The caller hears of the operation: its return, and for upd_verify and upd_golden, or a service, what is collected later. -/
def State.updReport (s : State) (vs : List Nat) : State :=
  let u := s.upd
  if u.own then s
  else
    let t := if u.kind = 4 ∨ u.kind = 8 ∨ u.caller = 1 then
        { s with upd := { u with results := Table.put (fun _ => []) u.results u.caller (vs.map (BitVec.ofNat 32 ·)) } } else s
    if u.waits then t.updReturns vs else t

/-- The operation is over: its grants end, and nothing of it is left. -/
def State.updClear (s : State) : State :=
  let t := ((s.ledgerEnd 5).ledgerEnd 6).clear F.UPD_STATUS_BUSY
  { t with upd := { t.upd with steps := [], going := false, own := false, kind := 0, waits := false, refused := false, done := 0 } }

/-- An operation ends with a status (R686, R689); what the service does on its own still checks the golden image. -/
def State.updStops (s : State) (st : Nat) : State :=
  if s.upd.own then
    if s.upd.steps.contains .goldenCheck then
      let t := s.setSteps [.goldenCheck, .answer []]
      { t with upd := { t.upd with refused := false } }
    else s.updClear
  else (s.updReport (updAnswer s.upd.kind st s.upd.done)).updClear

/-- A Reef entry sequence begins (R700): routines return PFI; an external program or erase already started runs on. -/
def State.updInterrupted (s : State) : State :=
  if s.upd.steps.isEmpty then s
  else
    let t := s.updReport (updAnswer s.upd.kind stPFI s.upd.done)
    if s.xflashBusy then { t with upd := { t.upd with steps := s.upd.steps.take 1, own := true, kind := 0, waits := false } } else t.updClear

/-- An external program or erase is cut (R700): its page or block reads as before it, as it would leave it, or as neither
(log entry 1). -/
def State.xflashCut (s : State) : State :=
  let (v, t) := s.open_
  match s.upd.steps with
  | .prog a bs :: _ =>
    if v % 3 = 0 then t
    else if v % 3 = 1 then t.xflashPut a bs
    else
      let b := t.fresh
      { t.xflashPut a ((List.range bs.length).map fun i => BitVec.ofNat 8 (Config.freeValue (b + i))) with fresh := b + bs.length }
  | .erase a :: _ =>
    if v % 3 = 0 then t
    else if v % 3 = 1 then t.xflashErased (a / 65536)
    else
      let u := t.xflashErased (a / 65536)
      { u with xopen := Table.put (fun _ => none) u.xopen (a / 65536) (some u.fresh), fresh := u.fresh + 65536 }
  | _ => s

/-! ### The directory's own steps -/

/-- Entries in ascending SEQ. -/
def insertEntry (e : DirEntry) : List DirEntry → List DirEntry
  | [] => [e]
  | d :: ds => if e.seq ≤ d.seq then e :: d :: ds else d :: insertEntry e ds

def bySeq (es : List DirEntry) : List DirEntry := es.foldr insertEntry []

/-- Rewrite copy c: its erase, its entries from position 0, its header (steps 2 to 4 of R684). -/
def rewriteCopy (c gen : Nat) (es : List DirEntry) : List UpdStep :=
  .erase (65536 * c) :: (List.range es.length).map (fun i => .prog (entryAddr c i) ((es.map DirEntry.bytes).getD i []))
    ++ [.prog (65536 * c) (dirHeader gen)]

/-- The entries that copy 0 holds and copy 1 lacks, appended to copy 1 in ascending SEQ (R679); a copy 1 that is not valid is rewritten
with them and copy 0's GEN. -/
def State.completeSteps (s : State) : List UpdStep :=
  let es0 := bySeq (s.goodEntries 0)
  if !s.copyValid 0 then []
  else if s.copyValid 1 then
    let missing := es0.filter fun e => !(s.goodEntries 1).contains e
    let at_ := s.firstBlank 1
    ((List.range (min missing.length (1023 - at_))).map fun i => .prog (entryAddr 1 (at_ + i)) ((missing.map DirEntry.bytes).getD i []))
  else rewriteCopy 1 (s.copyGen 0) es0

/-- Compaction (R684). -/
def State.compactSteps (s : State) : List UpdStep :=
  let es := s.dirEntries
  let latest := bySeq ((latestOf es 0).toList ++ (latestOf es 1).toList)
  let gen := ((match s.dirCopy with | some c => s.copyGen c | none => 0) + 1) % 2 ^ 32
  s.completeSteps ++ rewriteCopy 0 gen latest ++ rewriteCopy 1 gen latest ++ [.say 0x0111 gen]

/-- The repairs of R679. -/
def State.repairSteps (s : State) : List UpdStep :=
  if s.copyValid 0 then
    let l := s.completeSteps
    if l.isEmpty then [] else l ++ [.say 0x0110 1]
  else if s.copyValid 1 then s.compactSteps ++ [.say 0x0110 0]
  else []

/-- Append an entry (R669, R684): copy 0 rebuilt or both copies compacted first where that is due, then copy 0 and copy 1. -/
def State.appendSteps (s : State) (e : DirEntry) : List UpdStep :=
  if !s.copyValid 0 then (if s.copyValid 1 then s.repairSteps ++ [.append e] else [])
  else
    let at_ := s.firstBlank 0
    if 1000 ≤ at_ then s.compactSteps ++ [.append e]
    else
      let seq := (s.topSeq + 1) % 2 ^ 32
      let e := { e with seq := seq, trialId := if e.state = slotTRIAL ∧ e.trialId = 0 then seq else e.trialId }
      let b1 := s.firstBlank 1
      .prog (entryAddr 0 at_) e.bytes :: (if s.copyValid 1 ∧ b1 < 1023 then [.prog (entryAddr 1 b1) e.bytes] else [])

/-! ### Verification in place -/

/-- Every record from the engine's position up to END (R692); `get` gives bytes of the image and whether a chunk among them is
uncorrectable. -/
def verifyRecords (h : ImageHeader) (get : Nat → Nat → List Byte × Bool) : Nat → LoadUnit → Option LoadFault
  | 0, l => some ⟨0x020C, l.index, 5⟩
  | n + 1, l =>
    let hd := (get l.pos 16).1
    let r := recordOf hd h.trailer
    match recordHeaderFault h l hd r with
    | some f => some f
    | none =>
      let (b, damaged) := get l.pos (16 + r.len + h.trailer)
      match openRecord h l b damaged with
      | .inl f => some f
      | .inr (r, _, l) => if r.type = 15 then none else verifyRecords h get n l

/-- Verify a full image in place with the policy of a Hoist path (R692): the fault, or its header. -/
def State.verifyImage (s : State) (get : Nat → Nat → List Byte × Bool) : (LoadFault ⊕ ImageHeader) × State :=
  let (b, damaged) := get 0 512
  match s.verifyHeader b false damaged with
  | (.inl f, t) => (.inl f, t)
  | (.inr (h, key, digest), t) =>
    match verifyRecords h get (h.len / 32 + 1) { pos := 512, hdr := some h, key := key, digest := digest } with
    | some f => (.inl f, t)
    | none => (.inr h, t)

/-- Bytes of a slot's image; `noise` are misread bytes by image offset. -/
def State.slotBytes (s : State) (base : Nat) (noise : List (Nat × Byte)) (pos n : Nat) : List Byte × Bool :=
  (misread (s.xflashBytes (base + pos) n) pos noise, false)

/-- Bytes of the golden image, its first unit taken from the slot it is written from (R697). -/
def State.goldenBytes (s : State) (base : Nat) (errs : List (Nat × Nat)) (pos n : Nat) : List Byte × Bool :=
  let first := s.xflashBytes (base + pos) (32 - pos)
  (first.take n ++ (s.flashBytes (0x20000 + pos) n).drop (32 - pos), (chunksOf (0x20000 + pos) n).any fun c => s.chunkCount errs c == 15)

/-- Reading n bytes of the golden image shows its chunks (spec/12_flash_store.md R621). -/
def State.readGolden (s : State) (errs : List (Nat × Nat)) (n : Nat) : State :=
  let cs := chunksOf 0x20000 n
  let good := cs.takeWhile fun c => s.chunkCount errs c != 15
  (cs.take (good.length + 1)).foldl (fun t c => t.readChunk errs 3 c true) s

/-- The slot's image has been read in place (R671, R692). -/
def State.slotVerified (s : State) (slot : Nat) (noise : List (Nat × Byte)) (rest : List UpdStep) : State :=
  match s.slotEntry slot with
  | none => s.setSteps rest
  | some e =>
    match s.verifyImage (s.slotBytes e.addr noise) with
    | (.inr h, t) =>
      t.setSteps ([.append { e with state := slotVERIFIED, svn := h.svn, build := h.build, nonce := leNat h.nonce },
        .answer [stOK, 0]] ++ rest)
    | (.inl f, t) =>
      ((t.log f.code f.detail).log 0x0112 f.code).setSteps ([.append { e with state := slotRETIRED, reason := f.reason },
        .answer [stVERIFYFAIL, f.code]] ++ rest)

/-- The golden copy has been read in place (R697). -/
def State.goldenVerified (s : State) (slot : Nat) (errs : List (Nat × Nat)) (rest : List UpdStep) : State :=
  match s.slotEntry slot with
  | none => s.setSteps rest
  | some e =>
    match (s.readGolden errs e.len).verifyImage (s.goldenBytes e.addr errs) with
    | (.inr _, t) => t.setSteps rest
    | (.inl f, t) => (t.log f.code f.detail).setSteps [.answer [stVERIFYFAIL, f.code]]

/-- R680. -/
def State.checkGolden (s : State) (errs : List (Nat × Nat)) : State :=
  let (damaged, t) := ((chunksOf 0x20000 512).any fun c => s.chunkCount errs c == 15, s.readGolden errs 512)
  match t.verifyHeader (s.flashBytes 0x20000 512) false damaged with
  | (.inr _, t) => t.raise F.UPD_STATUS_GOLDEN_OK
  | (.inl f, t) => (t.log f.code f.detail).log 0x0119 f.code

/-! ### Running the steps -/

/-- A program or an erase of the external flash starts, as far as PFI, a partial load that reads it and the ledger let it (R683, R700,
R702; a write of the service itself waits for the load, spec/21_collisions_and_books.md); the erase that upd_begin asked for at its checks
has its grant. -/
def State.startExternal (s : State) (code cost : Nat) : State :=
  if s.writesBarred then (if s.upd.own then s.updClear else s.updStops stPFI)
  else if s.partialBusy && s.load.src == .xflash then (if s.upd.own then s else s.updStops stBUSY)
  else
    let (ok, t) := if code = 6 ∧ s.pwr.grants.any (·.1 == 6) then (true, s) else s.ledgerAsk code cost false
    if ok then { t with upd := { t.upd with going := true, refused := false } }
    else if s.upd.own then
      let t := if s.upd.refused then t else t.log 0x0118 s.upd.slot
      { t with upd := { t.upd with refused := true, retryFrom := t.mast.ran } }
    else t.updStops stLEDGER

/-- A part of the golden image is written, or its sectors are erased, through the on-chip flash's routine (R697). -/
def State.startGolden (s : State) (op : FlashOp) (code cost : Nat) : State :=
  if s.flash.op.isSome then s
  else if s.writesBarred then s.updStops stPFI
  else
    let (ok, t) := s.ledgerAsk code cost false
    if !ok then t.updStops stLEDGER
    else
      let t := { t with upd := { t.upd with going := true } }
      if op.erase then t.startSector op else t.beginFlash op

/-- Whole units of a slot's image, the last one filled with 0xFF. -/
def State.goldenUnits (s : State) (slot pos n : Nat) : List Byte :=
  match s.slotEntry slot with
  | none => []
  | some e =>
    let k := min n (e.len - pos)
    s.xflashBytes (e.addr + pos) k ++ List.replicate ((32 - k % 32) % 32) 0xFF

/-- An on-chip operation of the update service. -/
def goldenOp (erase : Bool) (ofs total : Nat) (bs : List Byte) : FlashOp :=
  { erase := erase, ofs := ofs, total := total, done := 0, src := 0, taken := bs, entry := none, caller := 2, waits := false }

/-- The engine has answered the request of upd_activate (R693): no snapshot is due or in progress, and REASON is 0x3. -/
def State.snapAnswered (s : State) : Bool :=
  s.dsc.snapBusy.isNone && s.dsc.snapWait.isEmpty && s.fld F.DSC_SNAP_STATUS_REASON == 3

/-- One step is due: a step that takes time starts, any other acts. -/
def State.updStep (s : State) (errs : List (Nat × Nat)) (st : UpdStep) (rest : List UpdStep) : State :=
  match st with
  | .prog _ _ => s.startExternal 5 (s.fld F.UPD_COST_PAGE_UJ)
  | .erase _ => s.startExternal 6 (s.fld F.UPD_COST_ERASE_UJ)
  | .verify _ => { s with upd := { s.upd with going := true } }
  | .goldenVerify _ => { s with upd := { s.upd with going := true } }
  | .goldenErase n => s.startGolden (goldenOp true 0x20000 n []) 2 (2004 * (n + (if s.compactsWithin n then 1 else 0)))
  | .goldenProg slot pos =>
    let bs := s.goldenUnits slot pos 4096
    if bs.isEmpty then s.setSteps rest else s.startGolden (goldenOp false (0x20000 + pos) (bs.length / 32) bs) 1 (2 * (bs.length / 32))
  | .goldenFirst slot => s.startGolden (goldenOp false 0x20000 1 (s.goldenUnits slot 0 32)) 1 2
  | .snap force =>
    let t := s.snapshot 3 false
    if t.snapAnswered then
      if !force && decide (2 ≤ t.fld F.DSC_SNAP_STATUS_RESULT) then t.updStops stSNAP else t.setSteps rest
    else { t with upd := { t.upd with going := true } }
  | .append e => s.setSteps (s.appendSteps e ++ rest)
  | .repairs => s.setSteps (s.repairSteps ++ rest)
  | .compact => s.setSteps (s.compactSteps ++ rest)
  | .goldenCheck => (s.checkGolden errs).setSteps rest
  | .goldenOk => (s.raise F.UPD_STATUS_GOLDEN_OK).setSteps rest
  | .say code detail => (s.log code detail).setSteps rest
  | .dropTrial => (s.setTrial none).setSteps rest
  | .openWindow =>
    let a := match s.slotEntry s.upd.slot with | some e => e.attempt | none => 0
    let t := (s.setFld F.UPD_STATUS_ATTEMPT a).setSteps rest
    { t with upd := { t.upd with window := some s.mast.ran } }
  | .closeWindow => let t := s.setSteps rest; { t with upd := { t.upd with window := none } }
  | .rehoist => s.updClear.rehoist 4 none
  | .answer vs => (s.updReport vs).updClear

/-- Steps act one after the other up to one that takes time or is refused. -/
def State.updRun (errs : List (Nat × Nat)) : Nat → State → State
  | 0, s => s
  | n + 1, s =>
    if s.upd.going || s.upd.refused || !s.inSail then s
    else match s.upd.steps with
      | [] => s
      | st :: rest => State.updRun errs n (s.updStep errs st rest)

/-- Enough turns for the longest run of steps that take no time. -/
def updFuel : Nat := 32

/-- Start an operation. -/
def State.updStart (s : State) (errs : List (Nat × Nat)) (u : UpdateUnit) (l : List UpdStep) : State :=
  State.updRun errs updFuel (({ s with upd := { u with steps := l, going := false, refused := false, done := 0 } }).raise F.UPD_STATUS_BUSY)

/-- The first step has ended well: its effect, and the steps that follow. -/
def State.updDone (s : State) (noise : List (Nat × Byte)) (errs : List (Nat × Nat)) : State :=
  match s.upd.steps with
  | .prog a bs :: rest =>
    let t := ((s.ledgerEnd 5).xflashPut a bs).setSteps rest
    let t := if a < 0x20000 ∧ s.inSail then t.showDir true else t
    { t with upd := { t.upd with done := s.upd.done + bs.length } }
  | .erase a :: rest =>
    let t := ((s.ledgerEnd 6).xflashErased (a / 65536)).setSteps rest
    if a < 0x20000 ∧ s.inSail then t.showDir true else t
  | .verify slot :: rest => s.slotVerified slot noise rest
  | .goldenVerify slot :: rest => s.goldenVerified slot errs rest
  | _ => s

/-- An external program or erase failed (R686). -/
def State.updFailed (s : State) : State :=
  let a := match s.upd.steps with | .prog a _ :: _ => a | .erase a :: _ => a | _ => 0
  let t := { s.xflashCut with upd := { s.upd with going := false } }
  let t := if a < 0x20000 then t.showDir true else t
  (t.log 0x0117 a).updStops stXFLASH

/-- A reading in place, or an external program or erase, ends; one that held ROM boot ends with nothing after it (R701). -/
def State.updCompletes (s : State) (ok : Bool) (noise : List (Nat × Byte)) (errs : List (Nat × Nat)) : State :=
  let t := if ok || !s.xflashBusy then s.updDone noise errs else if s.inSail then s.updFailed else s.xflashCut
  if s.inSail then
    let t := if t.upd.steps.isEmpty then t.updClear else t
    State.updRun errs updFuel t
  else { t with upd := { t.upd with steps := [], going := false, own := false }, hoist := { t.hoist with waitsFlash := false } }

/-- Steps that end by UPDATE_OPERATION_COMPLETE. -/
def State.updReading (s : State) : Bool :=
  s.xflashBusy || (s.upd.going && match s.upd.steps with | .verify _ :: _ => true | .goldenVerify _ :: _ => true | _ => false)

/-- An upd_verify or upd_golden reading, or an external program or erase, ends: `ok` when a program or erase ended within its time and
read back as written, `noise` the misread bytes of a slot's image, `errs` the bit errors of on-chip chunks. -/
def execUpdateOperationComplete (ok : Bool) (noise : List (Nat × Byte)) (errs : List (Nat × Nat)) (s : State) : Out :=
  .next (if s.powered && s.updReading then s.updCompletes ok noise errs else s)

/-- The update service sees the end of its on-chip operation. -/
def State.updFlash (s : State) : State :=
  match Table.get (fun _ => []) s.flash.results 2 with
  | [] => s
  | r =>
    let t := { s with flash := { s.flash with results := Table.put (fun _ => []) s.flash.results 2 [] } }
    let st := (r.getD 0 0).toNat
    if st ≠ stOK then ({ t with upd := { t.upd with going := false } }).updStops st
    else match t.upd.steps with
      | .goldenProg slot pos :: rest => t.setSteps (.goldenProg slot (pos + 4096) :: rest)
      | _ :: rest => t.setSteps rest
      | [] => t

/-- The request of upd_activate for a snapshot has been answered. -/
def State.updSnap (s : State) : State :=
  match s.upd.steps with
  | .snap force :: rest =>
    if s.upd.going && s.snapAnswered then
      let t := { s with upd := { s.upd with going := false } }
      if !force && decide (2 ≤ s.fld F.DSC_SNAP_STATUS_RESULT) then t.updStops stSNAP else t.setSteps rest
    else s
  | _ => s

/-! ### Routines -/

/-- The slot holds the running image. -/
def State.runningSlot (s : State) (slot : Nat) : Bool := s.fld F.UPD_STATUS_RUN == slot

/-- BUSY of R689, R702. -/
def State.updBusy (s : State) : Bool :=
  !s.upd.steps.isEmpty || s.flash.op.isSome || (s.partialBusy && s.load.src == .xflash)

/-- BUSY, then PFI, then what a routine does. -/
def State.updFree (s : State) (kind : Nat) (t : State) : State :=
  if s.updBusy then s.updReturns (updAnswer kind stBUSY 0)
  else if s.writesBarred then s.updReturns (updAnswer kind stPFI 0)
  else t

/-- A routine call runs in Sail while no other executes (R688). -/
def State.updGate (s : State) (kind : Nat) (t : State) : Out :=
  if !s.inSail then .next s
  else if s.flash.inCall || s.upd.waits then .next { s.setFld F.UPD_STATUS_LAST stBUSY with returned := (updAnswer kind stBUSY 0).map (BitVec.ofNat 32 ·) }
  else .next t

/-- The operation of a routine that returns at its end; a service collects its result in a later episode
(spec/19_supervisor_and_host.md R942). -/
def State.updCall (s : State) (c : RoutineCall) (kind slot : Nat) : UpdateUnit :=
  { s.upd with own := false, slot := slot, caller := callerOf c, kind := kind, waits := !callFromRom c }

/-- A slot that names one of the two, on a flash that is there (R489, R690). -/
def State.slotRefuses (s : State) (slot : Nat) : Option Nat :=
  if 2 ≤ slot then some stBADARG else if !s.bit F.HST_FLASH_INFO_PRESENT then some stXFLASH else none

/-- UPD_WIN_LEFT: the whole seconds that remain of an open window (R681). -/
def State.windowLeft (s : State) : Nat :=
  match s.upd.window with
  | some w => min ((w + s.fld F.UPD_CFG_CONFIRM_S * 4000000000 * 2 ^ 38 - s.mast.ran) / (4000000000 * 2 ^ 38)) 65535
  | none => 0

/-- upd_info. -/
def execUpdInfo (_c : RoutineCall) (s : State) : Out :=
  s.updGate 0 (s.updReturns [stOK, (s.reg F.UPD_STATUS).toNat, s.windowLeft])

/-- The end of the probed flash: 2^DENSITY bytes, or 16 MiB without SFDP. -/
def State.flashEnd (s : State) : Nat := if s.bit F.HST_FLASH_INFO_SFDP_OK then 2 ^ s.fld F.HST_FLASH_INFO_DENSITY else 2 ^ 24

/-- BAD_ARG of upd_begin (R690). -/
def State.beginBad (s : State) (slot a n : Nat) : Bool :=
  let other := match s.slotEntry (1 - slot) with
    | some e => e.state != slotRETIRED && decide (a < e.addr + e.len ∧ e.addr < a + n)
    | none => false
  decide (2 ≤ slot) || a % 65536 != 0 || decide (a < 0x20000) || n % 4 != 0 || decide (n < 1024) || decide (16777216 < n)
    || (s.bit F.HST_FLASH_INFO_PRESENT && (decide (s.flashEnd < a + n) || other))

/-- upd_begin (R690): the ledger is asked for the first erase among the checks. -/
def execUpdBegin (c : RoutineCall) (s : State) : Out :=
  let slot := c.a0.toNat
  let a := c.a1.toNat
  let n := c.a2.toNat
  s.updGate 1 (
    if s.beginBad slot a n then s.updReturns [stBADARG]
    else if !s.bit F.HST_FLASH_INFO_PRESENT then s.updReturns [stXFLASH]
    else if s.runningSlot slot then s.updReturns [stRUNNING]
    else s.updFree 1 (
      let (ok, t) := s.ledgerAsk 6 (s.fld F.UPD_COST_ERASE_UJ) false
      if !ok then t.updReturns [stLEDGER]
      else
        let init := if s.dirCopy.isNone then rewriteCopy 0 1 [] ++ rewriteCopy 1 1 [] else []
        let e : DirEntry := { slot := slot, state := slotWRITING, seq := 0, addr := a, len := n }
        let blocks := (List.range ((n + 65535) / 65536)).map fun i => UpdStep.erase (a + 65536 * i)
        t.updStart [] { (t.updCall c 1 slot) with begun := some slot } (init ++ [.append e] ++ blocks ++ [.answer [stOK]])))

/-- Pages of a range: 256-byte pieces of the external flash. -/
def pagesOf : Nat → Nat → List Byte → List UpdStep
  | 0, _, _ => []
  | n + 1, a, bs =>
    if bs.isEmpty then []
    else
      let k := 256 - a % 256
      .prog a (bs.take k) :: pagesOf n (a + k) (bs.drop k)

/-- upd_write (R691). -/
def execUpdWrite (c : RoutineCall) (s : State) : Out :=
  let o := c.a0.toNat
  let n := c.a2.toNat
  let entry := match s.upd.begun with
    | some slot => (match s.slotEntry slot with | some e => if e.state = slotWRITING then some e else none | none => none)
    | none => none
  s.updGate 2 (
    match entry with
    | none => s.updReturns [stBADARG, 0]
    | some e =>
      if o % 4 ≠ 0 ∨ n % 4 ≠ 0 ∨ n < 4 ∨ 4096 < n ∨ e.len < o + n ∨ !dstOk c c.a1.toNat n then s.updReturns [stBADARG, 0]
      else s.updFree 2 (
        if !(s.xflashBytes (e.addr + o) n).all (· == 0xFF) then s.updReturns [stNOTERASED, 0]
        else s.updStart [] (s.updCall c 2 e.slot) (pagesOf 17 (e.addr + o) (s.supBytes c.a1.toNat n) ++ [.answer [stOK, n]])))

/-- A slot in one of the states, or the status that refuses it. -/
def State.slotIn (s : State) (slot : Nat) (states : List Nat) : Nat ⊕ DirEntry :=
  match s.slotRefuses slot with
  | some st => .inl st
  | none =>
    match s.slotEntry slot with
    | some e => if states.contains e.state then .inr e else .inl stBADSTATE
    | none => .inl stBADSTATE

/-- upd_finish: WRITING to WRITTEN (R671). -/
def execUpdFinish (c : RoutineCall) (s : State) : Out :=
  let slot := c.a0.toNat
  s.updGate 3 (
    match s.slotIn slot [slotWRITING] with
    | .inl st => s.updReturns [st]
    | .inr e => s.updFree 3 (s.updStart [] (s.updCall c 3 slot) [.append { e with state := slotWRITTEN }, .answer [stOK]]))

/-- Options of R689. -/
def optionsBad (a3 : Word) : Bool := a3 &&& ~~~9#32 != 0

/-- An operation that returns STARTED without WAIT (R689). -/
def State.updBegins (s : State) (c : RoutineCall) (kind slot : Nat) (l : List UpdStep) : State :=
  let wait := c.a3.getLsbD 0
  let t := s.updStart [] { (s.updCall c kind slot) with waits := wait } l
  if wait then t else t.updReturns [stSTARTED, 0]

/-- upd_verify (R692). -/
def execUpdVerify (c : RoutineCall) (s : State) : Out :=
  let slot := c.a0.toNat
  s.updGate 4 (
    if optionsBad c.a3 then s.updReturns [stBADARG, 0]
    else match s.slotIn slot [slotWRITTEN] with
      | .inl st => s.updReturns [st, 0]
      | .inr _ => s.updFree 4 (s.updBegins c 4 slot [.verify slot]))

/-- upd_activate (R693). -/
def execUpdActivate (c : RoutineCall) (s : State) : Out :=
  let slot := c.a0.toNat
  let force := c.a3.getLsbD 3
  s.updGate 5 (
    if optionsBad c.a3 then s.updReturns [stBADARG]
    else match s.slotIn slot [slotVERIFIED] with
      | .inl st => s.updReturns [st]
      | .inr e =>
        if s.slotState (1 - slot) = slotTRIAL then s.updReturns [stBADSTATE]
        else if !force && s.fld F.DSC_STATUS_STATE == 4 && s.bit F.UPD_CFG_HO_GUARD then s.updReturns [stAGED]
        else s.updFree 5 (s.updStart [] (s.updCall c 5 slot)
          [.snap force, .append { e with state := slotTRIAL, attempt := 0, trialId := 0 }, .rehoist]))

/-- upd_confirm (R694). -/
def execUpdConfirm (c : RoutineCall) (s : State) : Out :=
  let slot := s.fld F.UPD_STATUS_RUN
  s.updGate 6 (
    if !s.bit F.UPD_STATUS_TRIAL ∨ s.upd.window.isNone then s.updReturns [stNOTRIAL]
    else match s.slotIn slot [slotTRIAL] with
      | .inl st => s.updReturns [if st = stBADSTATE then stNOTRIAL else st]
      | .inr e => s.updFree 6 (s.updStart [] (s.updCall c 6 slot)
          [.append { e with state := slotCONFIRMED, attempt := 0 }, .closeWindow, .dropTrial, .answer [stOK]]))

/-- upd_retire (R695). -/
def execUpdRetire (c : RoutineCall) (s : State) : Out :=
  let slot := c.a0.toNat
  s.updGate 7 (
    match s.slotRefuses slot with
    | some st => s.updReturns [st]
    | none =>
      if s.runningSlot slot then s.updReturns [stRUNNING]
      else match s.slotIn slot [slotVERIFIED, slotCONFIRMED, slotTRIAL] with
        | .inl st => s.updReturns [st]
        | .inr e =>
          let drop := if e.state = slotTRIAL then [UpdStep.dropTrial] else []
          s.updFree 7 (s.updStart [] (s.updCall c 7 slot)
            ([.append { e with state := slotRETIRED, reason := 0xF, attempt := 0, trialId := 0 }] ++ drop ++ [.answer [stOK]])))

/-- upd_golden (R696, R697): the sectors are erased, every byte but the first unit programmed, the copy verified, the first unit
programmed last. -/
def execUpdGolden (c : RoutineCall) (s : State) : Out :=
  let slot := c.a0.toNat
  s.updGate 8 (
    if optionsBad c.a3 then s.updReturns [stBADARG, 0]
    else match s.slotIn slot [slotCONFIRMED] with
      | .inl st => s.updReturns [st, 0]
      | .inr e =>
        let run := s.fld F.UPD_STATUS_RUN
        let keysrc := u8 (s.xflashBytes e.addr 16) 0xE / 2 % 2
        if !(decide (run < 2) && s.slotState run == slotCONFIRMED) ∨ 6291456 < e.len ∨ keysrc ≠ 0 then s.updReturns [stBADSTATE, 0]
        else s.updFree 8 (s.updBegins c 8 slot
          [.goldenErase ((e.len + 65535) / 65536), .goldenProg slot 32, .goldenVerify slot, .goldenFirst slot, .goldenOk, .answer [stOK, 0]]))

/-- upd_wait: what the caller's upd_verify or upd_golden returned, or STARTED while it runs. -/
def execUpdWait (c : RoutineCall) (s : State) : Out :=
  let runs := !s.upd.steps.isEmpty && !s.upd.own && s.upd.caller == callerOf c && (s.upd.kind == 4 || s.upd.kind == 8)
  s.updGate 9 (
    if runs then s.updReturns [stSTARTED, 0]
    else match Table.get (fun _ => []) s.upd.results (callerOf c) with
      | [] => let (v, t) := s.open_; let (w, t) := t.open_; t.updReturns [v % 2 ^ 32, w % 2 ^ 32]
      | r => s.updReturns (r.map (·.toNat)))

/-! ### The service at entry into Sail -/

/-- R677. -/
def State.countSteps (s : State) : List UpdStep :=
  let slot := s.fld F.UPD_STATUS_RUN
  match (if s.bit F.UPD_STATUS_TRIAL then s.slotEntry slot else none) with
  | none => []
  | some e =>
    let n := match s.upd.trial with
      | some (id, cnt) => if id = e.trialId then min 3 cnt else e.attempt + 1
      | none => e.attempt + 1
    [.append { e with attempt := n }, .say 0x0113 n, .openWindow]

/-- The REASON of the last failed attempt on a slot in HST_ATTEMPTk; open when none names it (log entry 1). -/
def State.lastReason (s : State) (slot : Nat) : Nat × State :=
  match ((List.range (min 9 s.hoist.attempts)).reverse.map fun k => (s.reg (F.HST_ATTEMPT k)).toNat).find? fun w => bits w 13 8 == slot with
  | some w => (w % 256, s)
  | none => let (v, t) := s.open_; (v % 256, t)

/-- R678, for one slot that was in TRIAL with count A. -/
def State.retireSteps (s : State) (slot a : Nat) : List UpdStep × State :=
  if s.bit F.UPD_STATUS_TRIAL && s.runningSlot slot then ([], s)
  else match s.slotEntry slot with
    | none => ([], s)
    | some e =>
      let (reason, t) := if 3 ≤ a then (0xE, s) else s.lastReason slot
      ([.append { e with state := slotRETIRED, reason := reason, attempt := 0, trialId := 0 }, .say (if 3 ≤ a then 0x0114 else 0x0115) slot, .dropTrial], t)

/-- What the service does after entry into Sail, once, in the order of its rules (R677-R680); R677 to R679 only when this Hoist read the
directory (R706). -/
def State.atSail (s : State) (errs : List (Nat × Nat)) : State :=
  let (l, t) := if s.upd.readDir then
      s.upd.trials.foldl (fun (l, t) p => let (m, u) := t.retireSteps p.1 p.2; (l ++ m, u)) (s.countSteps, s)
    else ([], s)
  let l := if s.upd.readDir then l ++ [.repairs] else []
  t.updStart errs { t.upd with served := true, own := true, slot := s.fld F.UPD_STATUS_RUN, kind := 0, waits := false }
    (l ++ [.goldenCheck, .answer []])

/-- The service acts after entry into Sail. -/
def execUpdateServiceAtSail (errs : List (Nat × Nat)) (s : State) : Out :=
  .next (if s.inSail && !s.upd.served && s.upd.steps.isEmpty && !s.writesBarred then s.atSail errs else s)

/-- A second of the Mast's advance has passed since the ledger refused the service's write (R683). -/
def State.retryDue (s : State) : Bool := !s.upd.refused || decide (s.upd.retryFrom + 4000000000 * 2 ^ 38 ≤ s.mast.ran)

/-- A write of the service that the ledger refused, or that waits for a partial load, is tried again (R683, R702). -/
def execDirectoryWriteRetry (s : State) : Out :=
  .next (if s.inSail && s.upd.own && !s.upd.going && s.retryDue then
    match s.upd.steps with
    | st :: rest => State.updRun [] updFuel (s.updStep [] st rest)
    | [] => s
  else s)

/-! ### The confirmation window -/

/-- The window's time has passed (R681). -/
def State.windowOver (s : State) : Bool :=
  match s.upd.window with
  | some w => decide (w + s.fld F.UPD_CFG_CONFIRM_S * 4000000000 * 2 ^ 38 ≤ s.mast.ran)
  | none => false

/-- The window closes without a confirm (R682); not while a CONFIRMED entry is being programmed (R703), nor under PFI (R704). -/
def State.closeWindow (s : State) : State :=
  if s.inSail && s.windowOver && !s.writesBarred && !(s.upd.kind == 6 && !s.upd.steps.isEmpty) then
    let t := s.log 0x0116 (s.fld F.UPD_STATUS_ATTEMPT)
    ({ t with upd := { t.upd with window := none } }).rehoist 4 none
  else s

/-- The confirmation window expires. -/
def execConfirmWindowClose (s : State) : Out := .next s.closeWindow

/-- A write of UPD_CFG (R699): CONFIRM_S moves the close of an open window; 0 stores 1. -/
def execConfirmSWrite (_p : Path) (v : Word) (s : State) : Out :=
  let n := v.toNat % 65536
  whenOpen s ((s.setFld F.UPD_CFG_HO_GUARD (v.toNat / 65536)).setFld F.UPD_CFG_CONFIRM_S (if n = 0 then 1 else n)).closeWindow

end Sys2Proof.Machine
end

