-- ==== Sys2Proof/Machine/Keys.lean ====
section
/-! DEFINITION. IMG_CMD, readback, fuses, protection levels and the JTAG instructions (spec/11_images_and_keys.md R583-R615). -/

namespace Sys2Proof.Machine

open Sys2Proof

/-! ### Zeroisation -/

/-- The image in load names the battery-backed key. -/
def State.loadUsesBbk (s : State) : Bool :=
  s.load.active && match s.load.hdr with | some h => h.enc && h.keysrc == 1 | none => false

/-- Zeroise the battery-backed key, logged with its detail where anything can be logged, and fail a load under that key (R584-R587). -/
def State.zeroise (s : State) (why : Nat) : State :=
  let t := s.zeroKey
  if !s.powered then { t with keys := { t.keys with tamperUnlogged := true } }
  else
    let t := t.logZeroised why
    if !s.loadUsesBbk then t
    else if s.inHoist then t.failLoad ⟨0x0207, 0x201, 9⟩
    else t.partialFails 0x0806 s.load.index

/-! ### Refusals -/

/-- 0x020A: the command's bit and a cause (R606). -/
def State.imgRefused (s : State) (bit cause : Nat) : State := (s.log 0x020A (bit + 256 * cause)).raise F.IMG_EVENT_REFUSED

/-- A command is done. -/
def State.imgDone (s : State) : State :=
  let t := (s.clear F.IMG_STATUS_BUSY).raise F.IMG_EVENT_DONE
  { t with keys := { t.keys with busyCmd := none } }

/-- A command goes on after its write. -/
def State.imgBusy (s : State) (bit : Nat) : State :=
  let t := s.raise F.IMG_STATUS_BUSY
  { t with keys := { t.keys with busyCmd := some bit } }

/-- A load is in progress (R597, R610): a partial one, or that of a Hoist that has not parked. -/
def State.anyLoad (s : State) : Bool := s.partialBusy || (s.inHoist && !s.bit F.MODE_STATUS_PARKED)

/-- PL_RAISE or PL_LOWER meets a load, a fuse program, a ROM flash routine or PFI (R592, R610). -/
def State.levelBusy (s : State) : Bool :=
  s.anyLoad || s.keys.busyCmd.isSome || s.flash.op.isSome || s.flash.inCall || s.writesBarred

/-! ### Commands -/

/-- A zeroisation of this window reached the key on another way than path p (R607). -/
def State.zeroisedFor (s : State) (p : Path) : Bool :=
  match s.win.zeroised with
  | some q => q != some p
  | none => false

/-- A BBK_LOAD of this window is marked. -/
def State.markBbk (s : State) (p : Path) (before : State) : State :=
  let data := (List.range 8).map fun k => before.reg (F.IMG_BBK_DATA k)
  if before.beatRuns then { s with win := { s.win with bbkLoad := some (p, data, before.bit F.IMG_EVENT_DONE) } } else s

/-- A BBK_LOAD that a zeroisation of another path, or at the pin, meets in its window did nothing and is refused (R607). -/
def State.bbkMet (s : State) (p : Option Path) : State :=
  let t := if s.beatRuns then { s with win := { s.win with zeroised := some p } } else s
  match s.win.bbkLoad with
  | some (q, data, done) =>
    if p = some q then t
    else
      let t := (List.range 8).foldl (fun t k => t.setReg (F.IMG_BBK_DATA k) (data.getD k 0)) t
      ({ t.setBit F.IMG_EVENT_DONE done with win := { t.win with bbkLoad := none } } : State).imgRefused 3 3
  | none => t

/-- BBK_LOAD (R583, R607). -/
def State.bbkLoad (s : State) (p : Path) : State :=
  if s.keys.busyCmd.isSome || s.zeroisedFor p then s.imgRefused 3 3
  else if s.bit F.IMG_STATUS_BBK_VALID then s.imgRefused 3 5
  else
    let key := (List.range 8).flatMap fun k => leBytes 4 (s.reg (F.IMG_BBK_DATA k)).toNat
    let t := (List.range 8).foldl (fun t k => t.setReg (F.IMG_BBK_DATA k) 0) s
    let t := (t.raise F.IMG_STATUS_BBK_VALID).setWide F.IMG_BBK_KCV_LO (leNat (keyCheck key))
    ({ t with keys := { t.keys with bbk := key, bbkZeroised := false } }.imgDone).markBbk p s

/-- DBG_CHAL (R594): the challenge is random, so open (log entry 1). -/
def State.dbgChal (s : State) : State :=
  if s.keys.busyCmd.isSome then s.imgRefused 1 3
  else
    let (v, t) := s.open_
    let c := leBytes 16 v
    let t := (List.range 4).foldl (fun t k => t.setReg (F.IMG_DBG_CHAL k) (BitVec.ofNat 32 (u32 c (4 * k)))) t
    let t := (t.setFld F.IMG_DBG_TOKEN_CNT_N 0).clear F.IMG_STATUS_DBG_UNLOCKED
    { t with keys := { t.keys with challenge := some c, token := [] } }.imgDone

/-- "TG368DBG". -/
def dbgLabel : List Byte := [0x54, 0x47, 0x33, 0x36, 0x38, 0x44, 0x42, 0x47]

/-- The slot that accepts the token, if the token is good (R596). -/
def State.tokenSlot (s : State) (challenge : List Byte) : Option Nat :=
  let bytes := fun (ws : List Word) => ws.flatMap fun w => leBytes 4 w.toNat
  let pub := bytes (s.keys.token.take 24)
  let msg := dbgLabel ++ ((List.range 3).flatMap fun k => leBytes 4 (s.fuseWord (36 + k))) ++ challenge
  let slot := (List.range 2).find? fun k => s.slotOk k && Config.sha384 pub == s.keyHash k
  if s.keys.token.length = 48 ∧ Config.ecdsaVerify pub (Config.sha384 msg) (bytes (s.keys.token.drop 24)) then slot else none

/-- DBG_UNLOCK (R596, R613). -/
def State.dbgUnlock (s : State) : State :=
  if s.keys.busyCmd.isSome then s.imgRefused 2 3
  else
    let t := { s.clear F.IMG_STATUS_DBG_UNLOCKED with keys := { s.keys with challenge := none } }
    if s.protLevel ≠ 1 then t.imgRefused 2 2
    else match s.keys.challenge.bind s.tokenSlot with
      | none => t.imgRefused 2 6
      | some k => (((t.raise F.IMG_STATUS_DBG_UNLOCKED).log 0x020F k).raise F.IMG_EVENT_UNLOCK).imgDone

/-- PL_RAISE (R592, R610): the program of a protection record through the controller. -/
def State.plRaise (s : State) : State :=
  if s.levelBusy then s.imgRefused 4 3
  else if s.protLevel ≠ 0 then s.imgRefused 4 2
  else if !(s.slotOk 0 || s.slotOk 1) then s.imgRefused 4 5
  else
    let (ok, t) := s.ledgerAsk 1 2 false
    if !ok then t.imgRefused 4 4
    else
      let k := t.fld F.FLC_SYS_ACTIVE
      let (k, t) := if 64 ≤ t.protNext k then (1 - k, t.sysCompact k) else (k, t)
      let op : FlashOp := { erase := false, ofs := 65536 * k + 32 * t.protNext k, total := 1, done := 0, src := 0,
                            taken := protRecord 1, entry := none, caller := 4, waits := false }
      (t.beginFlash op |>.imgBusy 4)

/-- The next sector of a mass erase is erased, or PL0 is written and a rehoist starts (steps 3 to 6 of R597). -/
def State.massNext (s : State) : State :=
  match s.keys.massErase with
  | none => s
  | some (k, e, n) =>
    match (massSectors k)[n]? with
    | some sec =>
      let op : FlashOp := { erase := true, ofs := 65536 * sec, total := 1, done := 0, src := 0, taken := [], entry := none,
                            caller := 4, waits := false }
      let t := (((s.showBusy (bankOf op.ofs) true).clear F.FLC_STATUS_DONE).setFld F.FLC_ADDR_OFS op.ofs)
      { t with flash := { t.flash with op := some op } }
    | none =>
      let t := ((s.appendLevel 0).journalDone k e true).ledgerEnd 2
      { t with keys := { t.keys with massErase := none } }.imgDone.rehoist 4 none

/-- PL_LOWER (R597, R610): steps 1 and 2, then the first sector. -/
def State.plLower (s : State) : State :=
  if s.levelBusy then s.imgRefused 5 3
  else if s.protLevel ≠ 1 then s.imgRefused 5 2
  else if !s.bit F.IMG_STATUS_DBG_UNLOCKED then s.imgRefused 5 5
  else
    let (ok, t) := s.ledgerAsk 2 (2000 * 255 + 4) false
    if !ok then t.imgRefused 5 4
    else
      let ((k, e), t) := t.journalRoom
      let t := (t.journalStart k e 2 0).zeroise 2
      { t with keys := { t.keys with massErase := some (k, e, 0) } }.massNext.imgBusy 5

/-- The fuse map forbids a word or a bit (R599). -/
def State.fuseForbids (s : State) (word bits_ : Nat) : Bool :=
  if word < 12 then s.fuseFlag 0
  else if word < 24 then s.fuseFlag 1
  else if word = 24 then
    decide (128 ≤ bits_) || ((List.range 7).any fun i => bits_ / 2 ^ i % 2 == 1 && s.fuseFlag i)
      || (bits_ / 2 ^ 5 % 2 == 1 && s.protLevel != 1)
      || (bits_ / 2 ^ 2 % 2 == 1 && !s.slotOk 1) || (bits_ / 2 ^ 3 % 2 == 1 && !s.slotOk 0)
  else if word < 33 then s.fuseFlag 4
  else if word = 35 then s.fuseFlag 6
  else true

/-- FUSE_PROG (R599, R600). -/
def State.fuseProg (s : State) : State :=
  let word := s.fld F.IMG_FUSE_ADDR_WORD
  let d := (s.reg F.IMG_FUSE_DATA).toNat
  let late := word == 33 || word == 34 || (word == 24 && decide (d &&& 0xFFFFFFF3 = 0))
  if s.inHoist || s.bit F.PWR_STATUS_PFI || s.keys.busyCmd.isSome then s.imgRefused 6 3
  else if s.protLevel = 2 ∧ !late then s.imgRefused 6 2
  else if s.fuseForbids word d then s.imgRefused 6 5
  else { s with keys := { s.keys with fuseOp := some (word, d) } }.imgBusy 6

/-- SVN_COMMIT (R588, R589). -/
def State.svnCommit (s : State) : State :=
  if s.inHoist || s.bit F.PWR_STATUS_PFI || s.keys.busyCmd.isSome then s.imgRefused 7 3
  else if s.fld F.IMG_SVN_SVN ≤ s.minSvn then s.imgDone
  else s.imgBusy 7

/-- ZEROISE (R585): done at once; a command still in progress keeps BUSY. -/
def State.zeroiseCommand (s : State) (p : Path) : State :=
  let t := (s.bbkMet (some p)).zeroise 1
  if t.keys.busyCmd.isSome then t.raise F.IMG_EVENT_DONE else t.imgDone

/-- The lowest command bit set; 0xFF when none is. -/
def lowestBit (v : Nat) : Nat := ((List.range 8).find? fun i => v / 2 ^ i % 2 == 1).getD 0xFF

/-- A command of IMG_CMD by its bit. -/
def State.imgAct (s : State) (p : Path) (b : Nat) : State :=
  match b with
  | 0 => s.zeroiseCommand p
  | 1 => s.dbgChal
  | 2 => s.dbgUnlock
  | 3 => s.bbkLoad p
  | 4 => s.plRaise
  | 5 => s.plLower
  | 6 => s.fuseProg
  | 7 => s.svnCommit
  | _ => s

/-- ZEROISE and BBK_LOAD of one window, which R607 decides and not R608. -/
def State.keyPair (s : State) (b : Nat) : Bool := (b == 0 && s.win.bbkLoad.isSome) || (b == 3 && s.win.zeroised.isSome)

/-- A write of IMG_CMD (R606): the KEY, then the lowest command; of commands of several paths in one window the first acts (R608). -/
def State.imgCommand (s : State) (p : Path) (v : Word) : State :=
  let b := lowestBit v.toNat
  if bits v.toNat 31 16 ≠ 0x494D then s.imgRefused b 1
  else if 8 ≤ b ∨ (comesAfter s.win.imgCmd p && !s.keyPair b) = true then s
  else
    let t := s.imgAct p b
    if s.beatRuns then { t with win := { t.win with imgCmd := some p } } else t

/-- A write of IMG_CMD with ZEROISE (R585, R606). -/
def execZeroise (p : Path) (v : Word) (s : State) : Out := whenOpen s (s.imgCommand p v)

/-- A write of IMG_CMD with DBG_CHAL (R594, R606). -/
def execDbgChal (p : Path) (v : Word) (s : State) : Out := whenOpen s (s.imgCommand p v)

/-- A write of IMG_CMD with DBG_UNLOCK (R596, R606). -/
def execDbgUnlock (p : Path) (v : Word) (s : State) : Out := whenOpen s (s.imgCommand p v)

/-- A write of IMG_CMD with BBK_LOAD (R583, R606). -/
def execBbkLoad (p : Path) (v : Word) (s : State) : Out := whenOpen s (s.imgCommand p v)

/-- A write of IMG_CMD with PL_RAISE (R592, R606). -/
def execPlRaise (p : Path) (v : Word) (s : State) : Out := whenOpen s (s.imgCommand p v)

/-- A write of IMG_CMD with PL_LOWER (R597, R606). -/
def execPlLower (p : Path) (v : Word) (s : State) : Out := whenOpen s (s.imgCommand p v)

/-- A write of IMG_CMD with FUSE_PROG (R599, R606). -/
def execFuseProg (p : Path) (v : Word) (s : State) : Out := whenOpen s (s.imgCommand p v)

/-- A write of IMG_CMD with SVN_COMMIT (R589, R606). -/
def execSvnCommit (p : Path) (v : Word) (s : State) : Out := whenOpen s (s.imgCommand p v)

/-! ### The end of a command -/

/-- A fuse word whose program failed or was cut: any of the bits asked for may be set (log entry 1). -/
def State.fuseOpen (s : State) (k d : Nat) : State :=
  let (v, t) := s.open_
  t.setFuse k (v &&& d)

/-- A fuse program ends (R600): it reads back as programmed, or 0x020E. -/
def State.fuseEnds (s : State) (ok : Bool) : State :=
  match s.keys.busyCmd, s.keys.fuseOp with
  | some 6, some (k, d) =>
    let t := { s with keys := { s.keys with fuseOp := none } }
    (if ok then t.setFuse k d else (t.fuseOpen k d).log 0x020E k).imgDone
  | some 7, _ =>
    let (a, b) := s.svnBits
    if ok then ((s.setFuse 33 a).setFuse 34 b).imgDone
    else if a ≠ 0 then ((s.fuseOpen 33 a).log 0x020E 33).imgDone
    else ((s.fuseOpen 34 b).log 0x020E 34).imgDone
  | _, _ => s

/-- A fuse program ends; `ok` when every word reads back as programmed. -/
def execImgCmdComplete (ok : Bool) (s : State) : Out := .next (if s.powered then s.fuseEnds ok else s)

/-- A fuse program is cut by a loss of power or PORST_N. -/
def State.fuseCut (s : State) : State :=
  match s.keys.busyCmd, s.keys.fuseOp with
  | some 6, some (k, d) => s.fuseOpen k d
  | some 7, _ => (s.fuseOpen 33 s.svnBits.1).fuseOpen 34 s.svnBits.2
  | _, _ => s

/-- The debug module frees the supervisor once debug is no longer authenticated (R593). -/
def State.debugRevoked (s : State) : State := if s.dbgOpen then s else s.resumeCore

/-- The end of PL_RAISE's program (R592, R593). -/
def State.plRaised (s : State) (ok : Bool) : State :=
  if ok then ((s.setFld F.FLC_SYS_LEVEL 1).imgDone).debugRevoked
  else
    let t := s.clear F.IMG_STATUS_BUSY
    { t with keys := { t.keys with busyCmd := none } }.imgRefused 4 7

/-- A mass erase stops with its journal entry unfinished (R612): the next ROM boot completes it (R598). -/
def State.massStops (s : State) : State :=
  let t := (s.ledgerEnd 2).clear F.IMG_STATUS_BUSY
  { t with keys := { t.keys with massErase := none, busyCmd := none } }

/-- A sector of a mass erase ends (R597, R1083). -/
def State.massSector (s : State) (end_ : FlashEnd) : State :=
  match s.keys.massErase, s.flash.op with
  | some (k, e, n), some op =>
    let sec := op.ofs / 65536
    let t := { s with flash := { s.flash with op := none } }
    let t := ((t.showBusy false false).showBusy true false).raise F.FLC_STATUS_DONE
    match end_ with
    | .passed p =>
      let t := ((t.sectorErased sec).setFld F.FLC_PULSES_N (max 1 (min p 48))).setFld F.FLC_STATUS_RESULT stOK
      { t with keys := { t.keys with massErase := some (k, e, n + 1) } }.massNext
    | .failed _ =>
      let t := ((t.sectorOpen sec).setFld F.FLC_PULSES_N 48).setFld F.FLC_STATUS_RESULT stERASEFAIL
      (((t.log 0x0303 op.ofs).journalDone k e false).massStops).imgRefused 5 7
  | _, _ => s

/-- IMG_CMD sees the end of PL_RAISE's program. -/
def State.keysFlash (s : State) : State :=
  match Table.get (fun _ => []) s.flash.results 4 with
  | [] => s
  | r =>
    let t := { s with flash := { s.flash with results := Table.put (fun _ => []) s.flash.results 4 [] } }
    if s.keys.busyCmd = some 4 then t.plRaised ((r.getD 0 0).toNat = stOK)
    else t

/-- PFI, a Reef command, a rehoist or a full-device load meets the operation in progress (spec/12_flash_store.md R650, R651): its owner
hears of it. A mass erase asks the ledger for its next operation, which is refused (R612). -/
def State.flashStops (s : State) : State :=
  let mass := s.keys.massErase.isSome
  let t := (s.flashInterrupted.engineFlash).keysFlash
  if mass then ((t.ledgerEnd 2).ledgerAsk 2 2000 false).2.massStops else t

/-- A program or a sector's erase completes (spec/12_flash_store.md R637): the model engine, the update service and IMG_CMD hear of
theirs, and what waited for the controller goes on. -/
def execFlashOperationComplete (end_ : FlashEnd) (s : State) : Out :=
  .next (if !s.powered then s
  else if s.keys.massErase.isSome then s.massSector end_
  else
    let t := (((s.flashCompletes end_).engineFlash).updFlash).keysFlash
    State.updRun [] updFuel (State.snapNext (t.dsc.snapWait.length + 1) t).updSnap)

/-! ### Tokens and readback -/

/-- A write of IMG_DBG_TOKEN (R595). -/
def execDbgTokenWrite (_p : Path) (w : Word) (s : State) : Out :=
  let n := s.keys.token.length
  whenOpen s (if 48 ≤ n then s
    else { s.setFld F.IMG_DBG_TOKEN_CNT_N (n + 1) with keys := { s.keys with token := s.keys.token ++ [w] } })

/-- A byte of the panel configuration (R1079). -/
def State.pcfgBytes (s : State) (a n : Nat) : List Byte :=
  (List.range n).map fun i =>
    let o := a + i
    let k := o / 491536
    let b := o % 491536
    if b = 1 then BitVec.ofNat 8 (s.fld (F.PNL_STATE_ORDER k))
    else if 4 ≤ b ∧ b < 8 then BitVec.ofNat 8 ((s.reg (F.PNL_REL k)).toNat / 2 ^ (8 * (b - 4)))
    else Table.get pcfgDefault s.pcfg o

/-- A read of IMG_RB_DATA (R590, R591, R1079; spec/12_flash_store.md R623, R639). -/
def State.readback (s : State) (p : Path) (errs : List (Nat × Nat)) : State :=
  let a := (s.reg F.IMG_RB_ADDR).toNat
  let o := a % 2 ^ 28
  let space := a / 2 ^ 28
  let inside := (space == 0 && decide (o < 0x1000000)) || (space == 1 && decide (o < 24 * 491536))
  if !(p == .sup || s.protLevel == 0) || !inside then
    { (s.log 0x020B a).raise F.IMG_EVENT_REFUSED with readData := 0 }
  else if space = 0 ∧ s.rangeBusy (o / 4 * 4) 4 then { s.log 0x0306 a with readData := 0 }
  else
    let t := s.setReg F.IMG_RB_ADDR (BitVec.ofNat 32 (a + 4))
    if space = 1 then { t with readData := BitVec.ofNat 32 (leNat (s.pcfgBytes o 4)) }
    else
      let bad := s.chunkCount errs (o / 32) == 15
      let t := t.readChunk errs 4 (o / 32) true
      { t with readData := if bad then 0 else BitVec.ofNat 32 (leNat (s.flashBytes o 4)) }

/-- A read of IMG_RB_DATA; `errs` are the bit errors of the chunk. -/
def execRbDataRead (p : Path) (errs : List (Nat × Nat)) (s : State) : Out := whenOpen s (s.readback p errs)

/-! ### JTAG -/

/-- A JTAG instruction acts while the TAP is not held in Test-Logic-Reset (spec/01_architecture.md R34); its code stays in the
instruction register, and its data register shifts bytes out. -/
def State.jtagOut (s : State) (ir : Nat) (out : List Byte) : State := { s with jtag := { s.jtag with ir := ir }, reply := out }

/-- IDCODE. -/
def execIdcode (s : State) : Out := whenOpen s (s.jtagOut 0x001 (leBytes 4 0x1368A2C9))

/-- BYPASS: a register of one bit, 0 at Capture-DR. -/
def execBypass (s : State) : Out := whenOpen s (s.jtagOut 0x3FF [0])

/-- Open bytes (log entry 1). -/
def State.openBytes (s : State) (n : Nat) : List Byte × State :=
  ((List.range n).map fun i => BitVec.ofNat 8 (Config.freeValue (s.fresh + i)), { s with fresh := s.fresh + n })

/-- SAMPLE/PRELOAD: the sample shifts out, its order of cells open, and the shifted bits stand in the boundary register. -/
def execSamplePreload (bits_ : List Bool) (s : State) : Out :=
  let (out, t) := s.openBytes ((bits_.length + 7) / 8)
  whenOpen s { t.jtagOut 0x002 out with jtag := { ir := 0x002, boundary := bits_ } }

/-- EXTEST: the pins are driven from the boundary register. -/
def execExtest (bits_ : List Bool) (s : State) : Out :=
  let (out, t) := s.openBytes ((bits_.length + 7) / 8)
  whenOpen s { t.jtagOut 0x003 out with jtag := { ir := 0x003, boundary := bits_ } }

/-- CLAMP: the pins hold what the boundary register drives, through the bypass register. -/
def execClamp (s : State) : Out := whenOpen s (s.jtagOut 0x004 [0])

/-- HIGHZ: the outputs are at high impedance, through the bypass register. -/
def execHighz (s : State) : Out := whenOpen s (s.jtagOut 0x005 [0])

/-- CFG_IN (R603-R605, spec/10_hoist.md R543, R544): HST_HOST_STATUS is captured, and the word is an image word. -/
def State.cfgIn (s : State) (w : Word) : State :=
  if s.inSail || s.bit F.MODE_STATUS_PARKED then
    if w = 0x4D494754 then
      let t := s.hostLoad 4
      if s.inSail then { t with hoist := { t.hoist with first := some w } } else t.hostWord 4 w
    else s
  else if s.hoist.src = 4 ∧ s.hoist.booted ∧ 3 ≤ s.hoistStep then s.hostWord 4 w
  else if w = 0x4D494754 then s.hostLoad 4
  else s

/-- JTAG delivers a word under CFG_IN. -/
def execCfgIn (w : Word) (s : State) : Out :=
  whenOpen s ((s.cfgIn w).jtagOut 0x0C0 (leBytes 4 (s.reg F.HST_HOST_STATUS).toNat))

/-- CFG_STATUS (R601, R602). -/
def execCfgStatus (s : State) : Out :=
  whenOpen s (s.jtagOut 0x0C1 (leBytes 4 (s.reg F.BOOT_STATUS).toNat ++ leBytes 2 ((s.reg F.MODE_STATUS).toNat % 4096) ++ leBytes 2 s.bootCode))

/-- PL_QUERY (R601, R602). -/
def execPlQuery (s : State) : Out :=
  let v := s.protLevel + 4 * (s.fuseFlag 5).toNat + 8 * (s.bit F.IMG_STATUS_DBG_UNLOCKED).toNat + 16 * (s.bit F.IMG_STATUS_OPEN_KEY).toNat
    + 32 * (s.slotOk 0).toNat + 64 * (s.slotOk 1).toNat + 128 * (s.fuseFlag 4).toNat + 256 * (s.bit F.IMG_STATUS_BBK_VALID).toNat
    + 2 ^ 16 * s.minSvn
  whenOpen s (s.jtagOut 0x0C2 (leBytes 4 v))

/-- MAST_PEEK (R601, R602, R614): the whole value at one instant. -/
def execMastPeek (s : State) : Out :=
  let v := (s.bit F.MAST_STATUS_SET).toNat + 2 * (s.bit F.MAST_STATUS_PLL_LOCK).toNat + 4 * (s.bit F.MAST_STATUS_DOMAIN).toNat
  whenOpen s (s.jtagOut 0x0C3 (leBytes 8 s.now ++ leBytes 1 v))

end Sys2Proof.Machine
end

