-- ==== Sys2Proof/Machine/Reset.lean ====
section
/-! DEFINITION. Power, reset, Reef and its wakes (spec/01_architecture.md R29, R42-R50, R1075; spec/17_power_and_reef.md R851-R855, R878-R897,
R1074). -/

namespace Sys2Proof.Machine

open Sys2Proof

/-! ### Loss of the core -/

/-- One XT32 tick, in units of 2^-38 qn. -/
def nominalSpan : Nat := 4000000000 * 2 ^ 38 / 32768

/-- Every output is at high impedance and ACT_OUT is low (R803). -/
def State.outputsOff (s : State) : State := { s.setRole 0 with dev := { s.dev with outOn := false } }

/-- The core stops: the battery-backed Mast goes on from the last XT32 edge, `lag` before the loss, or holds the last beat with XT32
stopped (R854); operations on the flashes and fuses are cut (spec/12_flash_store.md R653, R654, spec/13_field_update.md R700).  A committed
step that has not acted is lost with the core (DESIGN CHOICE, log entry 49); a debug halt ends (spec/19_supervisor_and_host.md R1071), the
halyard is released (spec/01_architecture.md R53) and the TAP is in Test-Logic-Reset (R34). -/
def State.coreDown (s : State) (lag : Nat) : State :=
  let s := s.endHalt
  let beat := !s.bit F.MAST_STATUS_DOMAIN
  let back := if beat && s.bit F.MAST_STATUS_XT_OK then min lag (nominalSpan - 1) else 0
  let t := { s with mast := { s.mast with acc := (s.mast.acc + 2 ^ 102 - back) % 2 ^ 102, step := none, remWas := none, afterStep := 0 },
                    jtag := {} }
  let t := (if beat then t.toReefDomain else t).clear F.HST_HAL_STATUS_DRIVE
  let t := if t.xflashBusy then t.xflashCut else t
  let t := (t.flashCut.fuseCut).outputsOff
  { t with dev := { t.dev with mode := .off, seenNotGood := false }, upd := { trial := t.upd.trial } }

/-- The supplies become good (R1074, R1075): a POR, unless the device is powered or in Reef. -/
def execPor (s : State) : Out :=
  .next (if s.dev.mode == .off && !s.dev.supplies then { s with dev := { s.dev with supplies := true } }.startHoist 1 false else s)

/-- PORST_N is asserted (R50): in Hoist and Sail the core stops, and a Reef entry sequence is abandoned. -/
def execPorstNAssert (lag : Nat) (s : State) : Out :=
  let t := { s with dev := { s.dev with porst := true } }
  .next (if s.powered then (t.coreDown lag).clear F.MODE_STATUS_REEFING else t)

/-- PORST_N is released (R29, R1075): a Hoist of CAUSE 0x2, or the Hoist of a POR that waits for it. -/
def execPorstNRelease (s : State) : Out :=
  let t := { s with dev := { s.dev with porst := false } }
  .next (if s.dev.porst && !s.powered && s.dev.supplies then t.startHoist 2 false else t)

/-- VDDS or VDDAUX leaves its range without PFI, outside Reef (R855, R897, R1074).  While PORST_N holds the device unpowered, their return is
a POR (spec/01_architecture.md R1075). -/
def execSupplyDropout (lag : Nat) (s : State) : Out :=
  .next (if !s.powered then (if s.dev.mode == .off then { s with dev := { s.dev with supplies := false } } else s)
  else
    let silent := s.bit F.PWR_STATUS_PFI || s.bit F.MODE_STATUS_REEFING
    let t := if silent then s else s.raise F.PWR_REEF_STATUS_DROPOUT
    let t := (t.coreDown lag).clear F.MODE_STATUS_REEFING
    { t with dev := { t.dev with supplies := false } })

/-- VDDF leaves its operating range (R803). -/
def execVddfOutOfRange (s : State) : Out := .next (if s.powered then s.outputsOff else s)

/-- The core supplies are lost during the Reef entry sequence, which ends at once with nothing logged, or in Reef, where that arms the
power-good wake (R49, R897); while PORST_N holds the device unpowered, their return is a POR (spec/01_architecture.md R1075). -/
def execCoreSuppliesLost (lag : Nat) (s : State) : Out :=
  .next (match s.dev.mode with
  | .reef => { s with dev := { s.dev with supplies := false, seenNotGood := true } }
  | .sail =>
    if s.bit F.MODE_STATUS_REEFING then
      let t := (s.coreDown lag).clear F.MODE_STATUS_REEFING
      { t with dev := { t.dev with supplies := false } }
    else s
  | .off => { s with dev := { s.dev with supplies := false } }
  | .hoist => s)

/-! ### PFI -/

/-- A halted core goes on (R952 of spec/19_supervisor_and_host.md). -/
def State.reefResume (s : State) : State :=
  if s.bit F.SUP_STATUS_HALTED then (s.log 0x100A (s.csr csrDpc).toNat).resumeCore else s

/-- Steps 1 to 3 of the Reef entry sequence (R879, R880, R896); the timer wakes of an earlier Reef go (TMR_REEF_WAKE). -/
def State.reefStart (s : State) (byPfi : Bool) : State :=
  let t := (((s.raise F.MODE_STATUS_REEFING).clear F.PWR_STATUS_CHARGING).clear F.PWR_STATUS_LOOP_RUN).raise F.PWR_EVENT_REEF
  let t := if t.standby then t.setRole 0 else t
  let t := { t.setReg F.TMR_REEF_WAKE 0 with
    win := if t.beatRuns then { t.win with reef := some byPfi } else t.win,
    pwr := { t.pwr with byPfi := byPfi, wake0 := false, wake1 := false, wakeTmr := false, reefSnapDone := false, reefPushDone := false } }
  ((t.reefResume.partialAbandoned).updInterrupted).flashStops

/-- The on-chip flash under PFI in a parked Hoist (spec/12_flash_store.md R650, R651). -/
def State.pfiInHoist (s : State) : State :=
  if s.bit F.MODE_STATUS_PARKED then s.flashStops
  else
    let boundary := s.load.src.streams && (s.load.got.isEmpty || s.bit F.HST_HOST_STATUS_WAITING)
    if s.hoistStep = 3 ∨ s.hoistStep = 4 ∨ 6 ≤ s.hoistStep ∨ (s.hoistStep = 5 ∧ boundary) then s.pauseIfPfi else s

/-- PFI meets a Reef entry sequence: one that a command of the same window began counts as entered on PFI (R44), an older one goes on
unchanged (R45). -/
def State.pfiMeets (s : State) : State := if s.win.reef = some false then { s with pwr := { s.pwr with byPfi := true } } else s

/-- PFI is taken as asserted (R42, R44, R45, R876, R879): in Sail the Reef entry sequence, in Hoist a pause at the next record boundary. -/
def execPfiAssert (s : State) : Out :=
  if s.bit F.PWR_STATUS_PFI then .next s
  else
    let t := s.callMeetsPfi.raise F.PWR_STATUS_PFI
    .next (if s.inSail then (if s.bit F.MODE_STATUS_REEFING then t.pfiMeets else t.reefStart true)
      else if s.inHoist then t.pfiInHoist else t)

/-- PFI is taken as deasserted (R43, R46): a paused Hoist restarts from ROM boot with its CAUSE. -/
def execPfiDeassert (s : State) : Out :=
  let t := s.clear F.PWR_STATUS_PFI
  .next (if s.inHoist && s.bit F.MODE_STATUS_PFI_PAUSED && s.dev.supplies then t.startHoist s.dev.cause true else t)

/-- A write of PWR_CMD (R878); in the window in which PFI began the sequence it starts nothing and logs nothing (spec/01_architecture.md R44). -/
def State.pwrCommand (s : State) (v : Word) : State :=
  if !v.getLsbD 0 then s
  else if bits v.toNat 31 16 ≠ 0x5057 then s.log 0x0E08 1
  else if !s.inSail then s.log 0x0E08 2
  else if s.bit F.MODE_STATUS_REEFING then (if s.win.reef = some true then s else s.log 0x0E08 3)
  else s.reefStart false

/-- The Reef command. -/
def execReefCommand (_p : Path) (v : Word) (s : State) : Out := whenOpen s (s.pwrCommand v)

/-! ### The Reef entry sequence -/

/-- Step 4: the model snapshot (R148, R165), after a fuse program in progress (R611). -/
def State.reefSnapshot (s : State) : State :=
  if s.pwr.reefSnapDone || s.keys.busyCmd.isSome then s else { s with pwr := { s.pwr with reefSnapDone := true } }.snapshot 2 true

/-- Step 4 is over. -/
def State.reefSnapOver (s : State) : Bool := s.pwr.reefSnapDone && s.flash.op.isNone

/-- Step 5: the stay push, once step 4 is over. -/
def State.reefPush (s : State) : State :=
  if s.reefSnapOver && !s.pwr.reefPushDone then { s with pwr := { s.pwr with reefPushDone := true } }.stayPush else s

/-- What the battery-backed domain writes at step 6 (R882, R889). -/
def State.reefEntry (s : State) : State :=
  let t := (s.setFld F.PWR_REEF_STATUS_ENTRY (if s.pwr.byPfi then 1 else 2)).clear F.MODE_STATUS_REEFING
  let t := { t with pwr := { t.pwr with entryUnlogged := true } }
  if t.bit F.PWR_WAKE_CFG_DEEP then (t.raise F.PWR_REEF_STATUS_DEEP_HELD).clear F.MAST_STATUS_XT_OK else t

/-- Step 6 (R879, R881): every pin off, ACT_OUT low, the Mast in the 32 kHz domain, the device in Reef. -/
def State.enterReef (s : State) : State :=
  let t := s.pushDone.outputsOff
  let t := if t.xflashBusy then t.xflashCut else t
  let t := if t.bit F.MAST_STATUS_DOMAIN then t else t.toReefDomain
  let t := t.reefEntry
  { t with dev := { t.dev with mode := .reef, seenNotGood := false }, jtag := {}, upd := { trial := t.upd.trial } }

/-- The Reef entry sequence ends once steps 4 and 5 are over; those not yet begun begin now.  A stay push under way ends with it: its ACK
has not come within 100 us (R839). -/
def execReefEntryComplete (s : State) : Out :=
  .next (if s.inSail && s.bit F.MODE_STATUS_REEFING then
    let t := s.reefSnapshot.reefPush
    if !t.pwr.reefPushDone || t.flash.op.isSome || (t.stay.pushing && !s.stay.pushing) then t else t.enterReef
  else s)

/-! ### Wakes -/

/-- WAKE0 or WAKE1 meets its condition (R47, R884). -/
def execWakeLatch (n : Fin 2) (s : State) : Out :=
  let on := if n.val = 0 then s.fld F.PWR_WAKE_CFG_WAKE0 != 0 else s.fld F.PWR_WAKE_CFG_WAKE1 != 0
  .next (if on && (s.dev.mode == .reef || s.bit F.MODE_STATUS_REEFING) then
    { s with pwr := if n.val = 0 then { s.pwr with wake0 := true } else { s.pwr with wake1 := true } } else s)

/-- The power-good wake is true (R48, R49). -/
def State.wakePg (s : State) : Bool := s.dev.supplies && !s.bit F.PWR_STATUS_PFI && (s.pwr.byPfi || s.dev.seenNotGood)

/-- The core supplies are back, and every wake that holds is taken (R40, R885): Reef ends in Hoist.  PORST_N held keeps the device
from it; with no wake true the device stays in Reef. -/
def execReefWake (s : State) : Out :=
  .next (if s.dev.mode == .reef then
    let t := { s with dev := { s.dev with supplies := true } }
    let w := s.pwr.wake0.toNat + 2 * s.pwr.wake1.toNat + 4 * s.pwr.wakeTmr.toNat + 8 * t.wakePg.toNat
    if s.dev.porst || w == 0 then t else { t with dev := { t.dev with wakes := w } }.startHoist 3 false
  else s)

/-! ### The battery-backed domain -/

/-- TAMPER (spec/11_images_and_keys.md R584, R586, R587). -/
def execTamper (s : State) : Out := .next (((s.bbkMet none).zeroise 0).raise F.IMG_STATUS_TAMPERED)

/-- What stands at the balls is not the domain's own. -/
def ballsKeep (a : Nat) : Word := if 0x80010 ≤ a ∧ a < 0x80050 then 0xFFFFFFFF else if a = F.PWR_STATUS then 0x40 else 0

/-- VBAT falls below 1.6 V while VDDAUX is not good (R851): the domain loses its contents. -/
def execVbatLoss (s : State) : Out :=
  .next (if s.dev.supplies || s.powered then s
  else
    { ({ s with regs := keepRegs ballsKeep s.regs }).clear F.HST_HAL_STATUS_DRIVE with
      mast := { s.mast with acc := 0 },
      frozenSince := [],
      keys := { s.keys with bbk := [], bbkZeroised := false, tamperUnlogged := false },
      upd := {},
      pwr := {},
      dev := { s.dev with mode := .off, vbatLost := true } })

end Sys2Proof.Machine
end

