-- ==== Sys2Proof/Machine/Monitors.lean ====
section
/-! DEFINITION. Feature negotiation, the pop of the error collector, and the temperature and supply monitors
(spec/19_supervisor_and_host.md R969-R986). -/

namespace Sys2Proof.Machine

open Sys2Proof

/-! ### Feature negotiation -/

/-- FEAT_ACCEPT is locked for a write of a path; a FEAT_LOCK of another path in this window comes after that write (R993). -/
def State.featLocked (s : State) (p : Path) : Bool :=
  s.bit F.FEAT_LOCK_LOCK && (s.win.featLock.isNone || s.win.featLock == some p)

/-- A write of FEAT_ACCEPTk (R971): bits that are not offered store 0; after FEAT_LOCK it is ignored (R10 of spec/00_scope.md). -/
def execFeatAcceptWrite (p : Path) (k : Fin 4) (v : Word) (s : State) : Out :=
  let a := F.FEAT_ACCEPT k
  let offer := s.reg (0x10 + 4 * k)
  whenOpen s (
    if s.featLocked p then (if v = s.reg a then s else s.log 0x1001 a)
    else
      let t := (s.markFound a).setReg a (v &&& offer)
      if v &&& ~~~offer = 0 then t else t.log 0x1007 a)

/-- A write of FEAT_LOCK (R973): LOCK is set by a 1. -/
def execFeatLock (p : Path) (v : Word) (s : State) : Out :=
  whenOpen s (if v.getLsbD 0 then
    let t := s.raise F.FEAT_LOCK_LOCK
    if s.beatRuns && !s.bit F.FEAT_LOCK_LOCK then { t with win := { t.win with featLock := some p } } else t
  else s)

/-! ### The error collector -/

/-- The oldest entry is freed before the codes of its window enter (R994); codes of earlier windows that were not kept are then
reported (R979). -/
def State.freeErr (s : State) (before : List ErrEntry) : State :=
  let codes := s.win.logged
  let lost := (before ++ codes).length - 64
  let after := (before.drop 1 ++ codes).length - 64
  let missed := if s.overwrites then s.unkept else s.unkept - lost
  let t := { s with errs := keptErrs s.overwrites (before.drop 1 ++ codes), unkept := s.unkept - missed }
  let t := if after < lost then
      { t.setFld F.ERR_DROPPED_CNT (t.fld F.ERR_DROPPED_CNT - 1) with unkept := t.unkept - if s.overwrites then 0 else 1 }.raise F.MON_EVENT_ERR_LOGGED else t
  let t := { t with win := { t.win with pushed := (before.drop 1).filter fun x => !t.errs.contains x } }
  if missed = 0 then t.showErrs else t.showErrs.log 0x100F missed

/-- A write of ERR_CMD (R978): POP removes the oldest entry only when the written SEQ is that entry's.  The POP of a code that this window
logged comes in a later window. -/
def execErrPop (_p : Path) (v : Word) (s : State) : Out :=
  let pops := fun (e : ErrEntry) => v.getLsbD 0 && e.seq == bits v.toNat 31 16
  whenOpen s (match s.errsBefore, s.errs with
    | e :: es, _ => if pops e then s.freeErr (e :: es) else s
    | [], e :: _ => if pops e then ({ s with win := { s.win with logged := [], pushed := [] } } : State).freeErr s.errs else s
    | [], [] => s)

/-! ### The temperature of OSC_TEMP (R982) -/

/-- The scale of the fixed-point logarithm: 2^96. -/
def lnScale : Nat := 2 ^ 96

/-- z + z^3/3 + z^5/5 + ..., with z and the sum in units of 2^-96: n more terms from the power zk at the odd number k. -/
def atanhFrom : Nat → Nat → Nat → Nat → Nat
  | 0, _, _, _ => 0
  | n + 1, z2, zk, k => zk / k + atanhFrom n z2 (zk * z2 / lnScale) (k + 2)

/-- ln of a ratio between 1 and 2, in units of 2^-96. -/
def lnNear (num den : Nat) : Nat :=
  let z := (num - den) * lnScale / (num + den)
  2 * atanhFrom 40 (z * z / lnScale) z 1

/-- A ratio brought between 1 and 2 by powers of 2, with the exponent. -/
def halve : Nat → Nat → Nat → Int → Nat × Nat × Int
  | 0, n, d, e => (n, d, e)
  | k + 1, n, d, e => if 2 * d ≤ n then halve k n (2 * d) (e + 1) else if n < d then halve k (2 * n) d (e - 1) else (n, d, e)

/-- ln of a positive ratio, in units of 2^-96 (log entry 35). -/
def lnRatio (num den : Nat) : Int :=
  let (n, d, e) := halve 128 num den 0
  (lnNear n d : Int) + e * (lnNear 2 1 : Int)

/-- T of R982 in units of 1/256 degree as a fraction, none where the formula has no value: 1/(100/29815 + l/(S BETA)) - 273.15. -/
def oscTemp (rpull rnom beta c : Nat) : Option (Int × Nat) :=
  if rpull = 0 ∨ rnom = 0 ∨ beta = 0 ∨ c = 0 ∨ 4096 ≤ c then none
  else
    let l := lnRatio (rpull * c) (rnom * (4096 - c))
    let sb : Int := (lnScale * beta : Nat)
    let d : Int := 100 * sb + 29815 * l
    if d ≤ 0 then none else some (256 * (100 * 29815 * sb - 27315 * d), 100 * d.toNat)

/-- Store an OSC_TEMP sample (R982, R983); a value that the formula does not give, or that T does not hold, is open (log entry 1). -/
def State.oscSample (s : State) (c : Nat) : Option Int × State :=
  let t := s.setFld F.MON_OSC_RAW_CODE c
  let ok := decide (16 ≤ c ∧ c ≤ 4080)
  let (v, t) := match oscTemp (s.reg F.MON_OSC_RPULL).toNat (s.reg F.MON_OSC_R25).toNat (s.reg F.MON_OSC_BETA).toNat c with
    | some (num, den) => t.roundOpen num den
    | none => let (f, t) := t.open_; ((f % 65536 : Int), t)
  let (v, t) := if -32768 ≤ v ∧ v < 32768 then (v, t) else let (f, t) := t.open_; (signed 16 f, t)
  let t := (t.setFld F.MON_OSC_TEMP_T (unsigned 16 v)).setBit F.MON_OSC_TEMP_VALID ok
  let t := if ok || s.mon.oscBad then t else (t.log 0x100E c).raise F.MON_EVENT_OSC_FAULT
  (if ok then some v else none, { t with mon := { t.mon with oscBad := !ok } })

/-- A threshold of R985 as the die temperature moves: whether it logs, and whether it has been passed. -/
def threshold (passed : Bool) (t lim : Int) : Bool × Bool :=
  if passed then (false, decide (lim - 1280 < t)) else (decide (lim ≤ t), decide (lim ≤ t))

/-- Store a die temperature (R981, R985). -/
def State.dieSample (s : State) (v : Int) : State :=
  let t := (s.setFld F.MON_DIE_TEMP_T (unsigned 16 v)).raise F.MON_DIE_TEMP_VALID
  let t := if s.sfld F.MON_TEMP_PEAK_T < v then t.setFld F.MON_TEMP_PEAK_T (unsigned 16 v) else t
  let (w, warned) := threshold s.mon.warned v (s.sfld F.MON_TEMP_LIM_WARN)
  let (c, crit) := threshold s.mon.crit v (s.sfld F.MON_TEMP_LIM_CRIT)
  let t := if w then (t.log 0x100B (unsigned 32 v)).raise F.MON_EVENT_WARN else t
  let t := if c then (t.log 0x100C (unsigned 32 v)).raise F.MON_EVENT_CRIT else t
  { t with mon := { t.mon with warned := warned, crit := crit } }

/-- A temperature that the model engine may use lies between -55 and +125 degrees (spec/03_discipline_and_holdover.md R143). -/
def validTemp (v : Int) : Bool := decide (-55 * 256 ≤ v ∧ v ≤ 125 * 256)

/-- Once per ms both temperatures are sampled, and the sensor that TSRC names goes to the model engine, which is idle in Hoist. -/
def execTemperatureSample (die : BitVec 16) (c : Fin 4096) (s : State) : Out :=
  .next (if !s.powered then s
  else
    let d := signed 16 die.toNat
    let t := s.dieSample d
    let (o, t) := t.oscSample c
    let v := if s.bit F.DSC_MODEL_CFG_TSRC then o else some d
    if !t.inSail then t else t.modelTemp (match v with | some x => if validTemp x then some x else none | none => none))

/-! ### The supplies (R986) -/

/-- The range of a measured supply in mV: 0 VDDS 850 ± 3 %, 1 VDDA 900, 2 VDDH 1,200, 3 VDDAUX 1,800, each ± 5 %
(the nominal voltages of spec/20_electrical_and_package.md). -/
def supplyInRange (i mV : Nat) : Bool :=
  let nom := if i = 0 then 850 else if i = 1 then 900 else if i = 2 then 1200 else 1800
  let tol := if i = 0 then 30 else 50
  decide (nom * (1000 - tol) ≤ 1000 * mV ∧ 1000 * mV ≤ nom * (1000 + tol))

/-- One supply: 0x100D once per excursion. -/
def State.supplySample (s : State) (i mV : Nat) : State :=
  let was := s.mon.supplyOut.contains i
  if supplyInRange i mV then { s with mon := { s.mon with supplyOut := s.mon.supplyOut.filter (· != i) } }
  else if was then s
  else
    let t := (s.log 0x100D (i * 2 ^ 28 + mV % 65536)).raise F.MON_EVENT_SUPPLY
    { t with mon := { t.mon with supplyOut := t.mon.supplyOut ++ [i] } }

/-- Once per ms the four supplies are measured. -/
def execSupplyMeasure (vdds vdda vddh vddaux : BitVec 16) (s : State) : Out :=
  .next (if !s.powered then s
  else
    let t := (s.setReg F.MON_V0 (BitVec.ofNat 32 (vdda.toNat * 65536 + vdds.toNat))).setReg F.MON_V1
      (BitVec.ofNat 32 (vddaux.toNat * 65536 + vddh.toNat))
    (((t.supplySample 0 vdds.toNat).supplySample 1 vdda.toNat).supplySample 2 vddh.toNat).supplySample 3 vddaux.toNat)

end Sys2Proof.Machine
end

