-- ==== Sys2Proof/Machine/Mailbox.lean ====
section
/-! DEFINITION. Service episodes and the ROM service mailbox (spec/19_supervisor_and_host.md R939-R942, R987-R996). -/

namespace Sys2Proof.Machine

open Sys2Proof

/-- No episode begins while a ROM routine call executes on the core or while the core is halted (R941). -/
def State.noEpisode (s : State) : Bool := s.flash.inCall || s.upd.waits || s.bit F.SUP_STATUS_HALTED

/-- What a command leaves behind. -/
def State.did (s : State) (o : Out) : State := match o with | .next t => t | _ => s

/-! ### Requests -/

/-- A refused request (R989). -/
def State.mboxRefused (s : State) (cause : Nat) : State :=
  ((s.setFld F.MBOX_STATUS_REFUSE cause).log 0x1009 cause).raise F.SUP_EVENT_MBOX_REF

/-- Bytes outside the mailbox buffer. -/
def outsideBuffer (a n : Nat) : Bool := decide (0 < n) && !decide (0x2003C000 ≤ a ∧ a + n ≤ 0x2003D000)

/-- The SRAM range that a routine takes as arguments: flash_read's destination, and the sources of flash_program and upd_write. -/
def sramArgs (family index : Nat) (c : RoutineCall) : Nat × Nat :=
  if family = 0 ∧ index = 1 then (c.a0.toNat, c.a2.toNat)
  else if (family = 0 ∧ index = 2) ∨ (family = 1 ∧ index = 2) then (c.a1.toNat, c.a2.toNat)
  else (0, 0)

/-- A routine word that reads 0, or names flash_wait or upd_wait. -/
def noRoutine (family index : Nat) : Bool :=
  if family = 0 then index == 4 || decide (8 ≤ index) else decide (9 ≤ index)

/-- The call that a request makes: MBOX_ARG0-3 as a0-a3 with bits 0 and 1 of a3 cleared, from ROM code (R988, R990). -/
def State.mboxArgs (s : State) : RoutineCall :=
  { a0 := s.reg (F.MBOX_ARG 0), a1 := s.reg (F.MBOX_ARG 1), a2 := s.reg (F.MBOX_ARG 2), a3 := s.reg (F.MBOX_ARG 3) &&& ~~~3#32,
    ra := 0x10000000, mtvec := s.csr csrMtvec }

/-- Why a write of MBOX_CMD is refused: the first cause of R988 that holds. -/
def State.mboxCause (s : State) (v : Word) : Option Nat :=
  let family := bits v.toNat 8 8
  let index := bits v.toNat 3 0
  let r := sramArgs family index s.mboxArgs
  if bits v.toNat 31 16 ≠ 0x4D42 then some 1
  else if s.bit F.MBOX_STATUS_BUSY then some 2
  else if !s.inSail then some 3
  else if noRoutine family index then some 4
  else if family = 0 ∧ index = 1 ∧ s.protLevel ≠ 0 then some 5
  else if outsideBuffer r.1 r.2 then some 6
  else none

/-- A write of MBOX_CMD. -/
def execMboxCmd (_p : Path) (v : Word) (s : State) : Out :=
  whenOpen s (match s.mboxCause v with
    | some c => s.mboxRefused c
    | none =>
      let t := s.raise F.MBOX_STATUS_BUSY
      { t with mbox := { call := some (bits v.toNat 8 8, bits v.toNat 3 0, s.mboxArgs), running := none } })

/-- A read of MBOX_BUF_DATA (R987). -/
def State.mboxRead (s : State) : State :=
  let w := s.fld F.MBOX_BUF_ADDR_WORD
  let t := s.setFld F.MBOX_BUF_ADDR_WORD (w + 1)
  { t with readData := BitVec.ofNat 32 (leNat (s.supBytes (0x2003C000 + 4 * w) 4)) }

/-- A write of MBOX_BUF_DATA, refused while BUSY (R987). -/
def State.mboxWrite (s : State) (v : Word) : State :=
  if s.bit F.MBOX_STATUS_BUSY then s.mboxRefused 2
  else
    let w := s.fld F.MBOX_BUF_ADDR_WORD
    (s.sramPut (0x2003C000 + 4 * w) (leBytes 4 v.toNat)).setFld F.MBOX_BUF_ADDR_WORD (w + 1)

/-- An access to MBOX_BUF_DATA: a write of a word, or a read. -/
def execMboxBufDataAccess (_p : Path) (w : Option Word) (s : State) : Out :=
  whenOpen s (match w with | some v => s.mboxWrite v | none => s.mboxRead)

/-! ### The service -/

/-- The routine of a table. -/
def callRoutine (family index : Nat) (c : RoutineCall) (errs : List (Nat × Nat)) (s : State) : Out :=
  match family, index with
  | 0, 0 => execFlashInfo c s
  | 0, 1 => execFlashRead c errs s
  | 0, 2 => execFlashProgram c s
  | 0, 3 => execFlashErase c s
  | 0, 5 => execFlashBlank c s
  | 0, 6 => execFlashConfig c s
  | 0, _ => .next (s.returns [stBADARG])
  | _, 0 => execUpdInfo c s
  | _, 1 => execUpdBegin c s
  | _, 2 => execUpdWrite c s
  | _, 3 => execUpdFinish c s
  | _, 4 => execUpdVerify c s
  | _, 5 => execUpdActivate c s
  | _, 6 => execUpdConfirm c s
  | _, 7 => execUpdRetire c s
  | _, 8 => execUpdGolden c s
  | _, _ => .next s

/-- A register that a routine does not return: its value is open (log entry 1). -/
def State.openWord (s : State) : Word × State := let (v, t) := s.open_; (BitVec.ofNat 32 v, t)

/-- The final result is loaded (R990). -/
def State.mboxDone (s : State) (vs : List Word) : State :=
  let (x, s) := s.openWord
  let (y, s) := s.openWord
  let t := ((s.setReg (F.MBOX_RET 0) (vs.getD 0 0)).setReg (F.MBOX_RET 1) (vs.getD 1 x)).setReg (F.MBOX_RET 2) (vs.getD 2 y)
  { (t.clear F.MBOX_STATUS_BUSY).raise F.SUP_EVENT_MBOX with mbox := {} }

/-- Forget what earlier calls of the service returned. -/
def State.forgetResults (s : State) : State :=
  { s with flash := { s.flash with results := Table.put (fun _ => []) s.flash.results 1 [] },
           upd := { s.upd with results := Table.put (fun _ => []) s.upd.results 1 [] }, returned := [] }

/-- The service's result of an operation that runs on: of a flash routine, or of an update routine, which LAST then shows. -/
def State.mboxCollect (s : State) : State :=
  match s.mbox.running with
  | none => s
  | some family =>
    match Table.get (fun _ => []) (if family = 0 then s.flash.results else s.upd.results) 1 with
    | [] => s
    | vs =>
      let t := s.mboxDone vs
      if family = 0 then t else t.setFld F.UPD_STATUS_LAST (vs.getD 0 0).toNat

/-- The service calls the requested routine (R990); one that waits for a busy bank is called again. -/
def State.mboxService (s : State) (errs : List (Nat × Nat)) : State :=
  match s.mbox.call with
  | none => s.mboxCollect
  | some (family, index, c) =>
    let t := s.did (callRoutine family index c errs s.forgetResults)
    let vs := t.returned
    let t := { t with returned := s.returned }
    let runs : State := { t with mbox := { call := none, running := some family } }
    if !t.inSail then t
    else match vs with
      | v :: _ => if v.toNat = stSTARTED then runs else t.mboxDone vs
      | [] => if family = 1 ∧ (!t.upd.steps.isEmpty ∨ !(Table.get (fun _ => []) t.upd.results 1).isEmpty) then runs.mboxCollect else t

/-- The mailbox's result becomes final. -/
def execMboxResult (s : State) : Out := .next (if s.inSail && !s.noEpisode then s.mboxCollect else s)

/-- One service episode (R942): the Reef entry snapshot, another model snapshot, the update service, or the mailbox.  It ends with every
integer register, CSR, cleat latch and staging word of user firmware as before (R939, R940). -/
def execServiceEpisode (errs : List (Nat × Nat)) (s : State) : Out :=
  .next (if !s.inSail || s.noEpisode then s
  else if s.bit F.MODE_STATUS_REEFING && !s.pwr.reefSnapDone then s.reefSnapshot.reefPush
  else if !s.dsc.snapWait.isEmpty && s.flash.op.isNone then (State.snapNext 1 s).updSnap
  else if !s.upd.steps.isEmpty && !s.upd.going && !s.upd.refused then State.updRun errs updFuel s
  else s.mboxService errs)

end Sys2Proof.Machine
end

