-- ==== Sys2Proof/Machine/Bus.lean ====
section
/-! DEFINITION. The shell register space as the access paths see it: what each register shows, reads with their cleat, clear and pop, and
writes under the access codes with each register's own effect (spec/00_scope.md R5-R20, spec/02_mast.md R92-R98). -/

namespace Sys2Proof.Machine

open Sys2Proof

/-! ### Interrupt lines (spec/19_supervisor_and_host.md R943-R945) -/

/-- Some pending bit below a count is set together with its enable. -/
def State.anyPend (s : State) (a count : Nat) (en : Nat → Bool) : Bool :=
  (List.range count).any fun i => s.bit ⟨a + 4 * (i / 32), i % 32, 1⟩ && en i

/-- An event register shares a bit with its enables. -/
def State.anyEvent (s : State) (a en : Nat) : Bool := s.reg a &&& s.reg en != 0

/-- Line k of the table of interrupt lines. -/
def State.irqLine (s : State) (k : Nat) : Bool :=
  match k with
  | 0 => s.anyEvent F.MAST_EVENT F.MAST_IRQ_EN
  | 1 => s.anyEvent F.DSC_EVENT F.DSC_IRQ_EN
  | 2 => s.anyPend (F.TMR_MPEND 0) 64 (fun n => s.bit (F.TMR_CTRL_MIRQ_EN n)) || s.anyPend (F.TMR_OPEND 0) 64 (fun n => s.bit (F.TMR_CTRL_OIRQ_EN n))
      || s.anyPend (F.CMP_PEND 0) 256 (fun n => s.bit (F.CMP_CTRL_IRQ_EN n)) || s.anyPend (F.CAP_PEND 0) 64 (fun n => s.bit (F.CAP_CTRL_IRQ_EN n))
  | 3 => s.bit F.SHT_IRQ_EN_LATE && (s.anyPend (F.SHT_LATE_PEND 0) 256 (fun _ => true) || s.reg F.SHT_LLATE_PEND != 0)
  | 4 => s.anyEvent F.PNL_EVENT F.PNL_IRQ_EN
  | 5 => (s.bit F.XNG_IRQ_EN_OVR && s.anyPend (F.XNG_OVR_PEND 0) 96 (fun _ => true))
      || (s.bit F.XNG_IRQ_EN_STALL && s.anyPend (F.XNG_STALL_PEND 0) 96 (fun _ => true))
      || (s.bit F.XNG_IRQ_EN_SKEW && s.anyPend (F.XNG_SKEW_PEND 0) 96 (fun _ => true))
  | 6 => (s.bit F.FIFO_IRQ_EN_LEVEL && s.anyPend (F.FIFO_LEVEL_PEND 0) 64 (fun _ => true))
      || (s.bit F.FIFO_IRQ_EN_ERR && s.anyPend (F.FIFO_ERR_PEND 0) 64 (fun _ => true))
  | 7 => s.anyEvent F.HST_EVENT F.HST_IRQ_EN
  | 8 => s.anyEvent F.IMG_EVENT F.IMG_IRQ_EN
  | 9 => (List.range 8).any fun k => s.anyEvent (F.LN_EVENT k) (F.LN_IRQ_EN k)
  | 10 => s.anyEvent F.SHR_EVENT F.SHR_IRQ_EN
  | 11 => s.anyEvent F.STY_EVENT F.STY_IRQ_EN
  | 12 => s.anyEvent F.PWR_EVENT F.PWR_IRQ_EN
  | 13 => s.anyEvent F.MON_EVENT F.MON_IRQ_EN
  | 14 => s.anyEvent F.SUP_EVENT F.SUP_IRQ_EN
  | 15 => s.fld F.EVL_PEND_PEND &&& s.fld F.EVL_IRQ_EN_HOST != 0
  | k => s.bit ⟨F.EVL_PEND, k - 16, 1⟩ && s.bit ⟨F.EVL_IRQ_EN, k - 16, 1⟩

/-- IRQ_STATUS (R943). -/
def State.irqLines (s : State) : Word := ((List.range 32).map fun k => if s.irqLine k then (1 : Word) <<< k else 0).foldl (· ||| ·) 0

/-- Some of lines 0-14 that a disable register does not hold back; a change of it takes effect from the next window (R999). -/
def State.anyLine (s : State) (dis : Nat) : Bool := s.irqLines &&& 0x7FFF#32 &&& ~~~(s.foundReg dis) != 0

/-- IRQ_N is driven low (R945). -/
def State.irqLow (s : State) : Bool := s.powered && !s.romCloses && (s.irqLine 15 || s.anyLine F.IRQ_HOST_DIS)

/-! ### What registers show -/

/-- The entry at the head of the collector, as the words of the ERR_HEAD set; 0 while it is empty (R977). -/
def State.errHead (s : State) : List Word :=
  match s.errs with
  | e :: _ => [BitVec.ofNat 32 e.mast, BitVec.ofNat 32 (e.mast / 2 ^ 32), BitVec.ofNat 32 (e.seq * 65536 + e.code), e.detail]
  | [] => [0, 0, 0, 0]

/-- The fence entry that PNL_FCH_SEL names: its INFO word and its STANDIN (spec/07_panels.md). -/
def State.fenceShown (s : State) : Word × Nat :=
  match s.fences[s.fld F.PNL_FCH_SEL_IDX]? with
  | some f => (BitVec.ofNat 32 (f.border * 2 ^ 26 + f.dir.toNat * 2 ^ 25 + f.first * 2 ^ 15 + (f.width - 1) * 2 ^ 9
      + f.sink.toNat * 2 + f.standIn.toNat), f.token)
  | none => (0, 0)

/-- HST_STEP_USk: whole us of Mast in step 2 + k of this Hoist (spec/10_hoist.md). -/
def State.stepUs (s : State) (k : Nat) : Word :=
  let now := if s.inHoist && s.hoistStep == 2 + k then s.mast.ran - s.hoist.stepAt else 0
  BitVec.ofNat 32 (min (2 ^ 32 - 1) ((Table.get (fun _ => 0) s.hoist.stepQn (2 + k) + now) / (4000 * 2 ^ 38)))

/-- One word of a 64-bit value. -/
def half (hi : Bool) (v : Nat) : Word := BitVec.ofNat 32 (if hi then v / 2 ^ 32 else v)

/-- Registers of the IMG block that show fuses and keys (spec/11_images_and_keys.md). -/
def State.viewImg (s : State) (a : Nat) (w : Word) : Word :=
  let kcv := if s.fuseFlag 4 then leNat (keyCheck s.efuseKey) else 0
  if a = F.IMG_STATUS then
    putField (putField (putField (putField (putField w F.IMG_STATUS_EFK_VALID (s.fuseFlag 4).toNat) F.IMG_STATUS_PK1_OK (s.slotOk 1).toNat)
      F.IMG_STATUS_PK0_OK (s.slotOk 0).toNat) F.IMG_STATUS_PL2_FUSE (s.fuseFlag 5).toNat) F.IMG_STATUS_PL s.protLevel
  else if a = F.IMG_SVN then putField w F.IMG_SVN_MIN_SVN s.minSvn
  else if a = F.IMG_EFK_KCV_LO then half false kcv
  else if a = F.IMG_EFK_KCV_HI then half true kcv
  else if a = F.IMG_FUSE_DATA then
    let k := s.fld F.IMG_FUSE_ADDR_WORD
    if 25 ≤ k ∧ k ≤ 32 then 0 else BitVec.ofNat 32 (s.fuseWord k)
  else if F.IMG_UID 0 ≤ a ∧ a ≤ F.IMG_UID 2 then BitVec.ofNat 32 (s.fuseWord (36 + (a - F.IMG_UID 0) / 4))
  else w

/-- Registers of the MAST block that show the engine (spec/02_mast.md). -/
def State.viewMast (s : State) (a : Nat) (w : Word) : Word :=
  if a = F.MAST_NOW_LO then half false s.now
  else if a = F.MAST_NOW_HI then half true s.now
  else if a = F.MAST_FRAC then BitVec.ofNat 32 (s.mast.acc / 2 ^ 14 % 2 ^ 24)
  else if a = F.MAST_STATUS then
    putField (putField w F.MAST_STATUS_RAMPING (s.reg F.MAST_FREQ != s.reg F.MAST_FREQ_EFF).toNat) F.MAST_STATUS_SLEWING (s.mast.rem != 0).toNat
  else if a = F.MAST_REM_LO then half false (unsigned 64 s.remQn)
  else if a = F.MAST_REM_HI then half true (unsigned 64 s.remQn)
  else if a = F.MAST_SLEW_TERM then BitVec.ofNat 32 (unsigned 32 s.slewTerm)
  else if a = F.MAST_RCAL_AGE then BitVec.ofNat 32 (min (2 ^ 32 - 1) (s.mast.age / (4000000000 * 2 ^ 38)))
  else w

/-- Registers of a timer that show its count (spec/04_timers_compares_captures.md R186-R188). -/
def State.viewTmr (s : State) (a : Nat) (w : Word) : Word :=
  if a < 0x51000 ∨ 0x52000 ≤ a then w
  else
    let n := (a - 0x51000) / 64
    if a = F.TMR_FROZEN_LO n then half false (s.timerFrozenQn n)
    else if a = F.TMR_FROZEN_HI n then half true (s.timerFrozenQn n)
    else if a = F.TMR_VALUE_LO n then half false (s.timerValue n)
    else if a = F.TMR_VALUE_HI n then half true (s.timerValue n)
    else if a = F.TMR_STATUS n then putField w (F.TMR_STATUS_PENDING n) (s.timerPending n).toNat
    else w

/-- Registers of the SHT block that show the pins and the calibration (spec/05_sheets.md). -/
def State.viewSht (s : State) (a : Nat) (w : Word) : Word :=
  if a = F.SHT_CAL_STATUS then putField w F.SHT_CAL_STATUS_ERR (s.calPaths.any fun i => s.bit (calErrFld i)).toNat
  else if 0x61000 ≤ a ∧ a < 0x63000 ∧ a % 32 = 8 then
    let n := (a - 0x61000) / 32
    putField w (F.SHT_STATUS_DRIVEN n) (s.bit (F.SHT_CFG_EN n) && (s.pinDriven n).isSome).toNat
  else w

/-- The present word of a register, before what a read does to it. -/
def State.view (s : State) (a : Nat) : Word :=
  let w := s.reg a
  match a / 0x10000 with
  | 0 => if a = F.IRQ_STATUS then s.irqLines else w
  | 1 =>
    if F.HST_STEP_US 0 ≤ a ∧ a ≤ F.HST_STEP_US 6 then s.stepUs ((a - F.HST_STEP_US 0) / 4)
    else if a = F.UPD_WIN_LEFT then BitVec.ofNat 32 s.windowLeft
    else w
  | 2 => s.viewImg a w
  | 4 => s.viewMast a w
  | 5 => s.viewTmr a w
  | 6 => s.viewSht a w
  | 7 =>
    if a = F.DSC_STATUS then
      putField w F.DSC_STATUS_TOD_NEEDED (!s.bit F.MAST_STATUS_SET && s.fld F.DSC_STATUS_ACTIVE_SRC == 1 && !s.dsc.todDone).toNat
    else if a = F.DSC_HO_ELAPSED then BitVec.ofNat 32 s.hoElapsed
    else w
  | 8 => if a = F.EVL_LEVEL then BitVec.ofNat 32 (((List.range 16).map fun n => (s.lineLevel n).toNat * 2 ^ n).sum)
      else if F.GPIO_IN 0 ≤ a ∧ a ≤ F.GPIO_IN 15 then
        let b := (a - F.GPIO_IN 0) / 4
        BitVec.ofNat 32 (((List.range 16).map fun i => (s.pinSensed (16 * b + i)).toNat * 2 ^ i).sum)
      else w
  | 9 => if 0x91000 ≤ a ∧ a % 32 = 8 then putField w (F.XNG_STATUS_ACTIVE ((a - 0x91000) / 32)) (s.xngActive ((a - 0x91000) / 32)).toNat else w
  | 0xB =>
    if a = F.LAN_EVENT_PEND then BitVec.ofNat 32 (((List.range 8).map fun k => (s.reg (F.LN_EVENT k) != 0).toNat * 2 ^ k).sum)
    else if 0xB1000 ≤ a ∧ a % 256 = 0x14 then
      let k := (a - 0xB1000) / 256
      putField w (F.LN_STATUS_TX_IDLE_E k) (s.txIdle k).toNat
    else w
  | 0xC => if 0xC1000 ≤ a ∧ a % 64 = 0xC then s.epTxStatus ((a - 0xC1000) / 64) else w
  | 0xD => if a = F.STY_STATUS then putField w F.STY_STATUS_PRIMARY s.primary.toNat else w
  | 0xF =>
    if a = F.PNL_FCH_INFO then s.fenceShown.1
    else if a = F.PNL_FCH_SI_LO then half false s.fenceShown.2
    else if a = F.PNL_FCH_SI_HI then half true s.fenceShown.2
    else if a = F.FAB_STATUS then
      putField (putField (putField w F.FAB_STATUS_EP_STALL_ANY ((List.range 12).any fun k => s.reg (F.FAB_EP_STALL k) != 0).toNat)
        F.FAB_STATUS_ILLEGAL_ANY (s.reg F.FAB_ILLEGAL_CNT != 0).toNat) F.FAB_STATUS_STUCK_ANY (s.reg F.FAB_STUCK != 0).toNat
    else w
  | 0x10 => if F.ERR_HEAD_TIME_LO ≤ a ∧ a ≤ F.ERR_HEAD_DETAIL then s.errHead.getD ((a - F.ERR_HEAD_TIME_LO) / 4) 0 else w
  | _ => w

/-! ### Reads -/

/-- The bits of a register that read 0: its WO fields. -/
def woMask (a : Nat) : Word := match findRow a with | some r => BitVec.ofNat 32 r.wo | none => 0

/-- The bits of a register that a read clears: its RC fields. -/
def rcMask (a : Nat) : Word := match findRow a with | some r => BitVec.ofNat 32 r.rc | none => 0

/-- The bits of a register that a write sets: its RW fields. -/
def rwMask (a : Nat) : Word := match findRow a with | some r => BitVec.ofNat 32 r.rw | none => 0

/-- What the path has latched for an address by a read of an earlier word of the set (R94, R223, R977). -/
def State.latched (s : State) (p : Path) (a : Nat) : Option Word :=
  match (s.path p).cleatTag with
  | some t => if t < a then (s.path p).cleat[(a - t) / 4]? else none
  | none => none

/-- The words that a read of a _LO word latches, that word first: the capture set, the collector's head, or one wide register. -/
def State.cleatSet (s : State) (a : Nat) : List Word :=
  if 0x54000 ≤ a ∧ a < 0x55000 ∧ a % 64 = 0 then s.capSet ((a - 0x54000) / 64)
  else if a = F.ERR_HEAD_TIME_LO then s.errHead
  else [s.view a, s.view (a + 4)]

/-- A read returns a word. -/
def State.gives (s : State) (w : Word) : State := { s with readData := w }

/-- A read of a register that has no read effect but its cleat and its RC fields (R11, R93, R94). -/
def State.readPlain (s : State) (p : Path) (a : Nat) : State :=
  match s.latched p a with
  | some w => s.gives (if 0x54000 ≤ a ∧ a < 0x55000 ∧ a % 64 = 0x24 then (s.view a &&& ~~~0x70#32) ||| (w &&& 0x70#32) else w)
  | none =>
    let w := s.view a &&& ~~~(woMask a)
    let t := if isWideLo a then s.setPath p { s.path p with cleatTag := some a, cleat := s.cleatSet a } else s
    let rc := rcMask a
    let t := if rc = 0 then t else (t.setReg a ((t.reg a &&& ~~~rc) ||| (resetWord a &&& rc))).setQuiet a false
    t.gives w

/-- A host path, to which R14 and R15 apply. -/
def hostPath (p : Path) : Bool := p == .spi || p == .i2c || p == .jtag

/-- An access that faults on the supervisor (R16, spec/12_flash_store.md R628). -/
def busFault (a : Nat) : Bool := (findRow a).isNone || a / 0x10000 == 3

/-- An access to the FLC block that is not from ROM code (spec/12_flash_store.md R628, R629): 0x0301, and a read returns 0 but on the path of
supervisor code. -/
def State.flcRefused (s : State) (p : Path) (a : Nat) (write : Bool) : State :=
  let t := s.log 0x0301 a
  if write || p = .sup then t else t.gives 0

/-- An access to the FLC block that is refused; supervisor code takes an access fault (spec/12_flash_store.md R628). -/
def execFlcAccessRefused (p : Path) (ofs : Fin 65536) (write : Bool) (s : State) : Out :=
  let a := 0x30000 + ofs.val / 4 * 4
  let t := s.flcRefused p a write
  whenOpen s (if p = .sup then t.accessTrap .sup (if write then 7 else 5) a else t)

/-- An access to an offset that no block map lists (R14, R15); on the supervisor it takes an access fault (R16). -/
def State.unlisted (s : State) (p : Path) (a : Nat) (write : Bool) : State :=
  if hostPath p then (let t := s.log 0x1002 a; if write then t else t.gives 0) else s.accessTrap p (if write then 7 else 5) a

/-- An access to the FLC block: every offset of it, listed or not, is refused under spec/12_flash_store.md R628 and R629 with 0x0301 alone, and
not with the 0x1002 of R14 and R15 (DESIGN CHOICE, log entry 47). -/
def State.flcAccess (s : State) (p : Path) (a : Nat) (write : Bool) : State :=
  s.did (execFlcAccessRefused p ⟨a % 65536, Nat.mod_lt _ (by decide)⟩ write s)

/-- A read of MAST_NOW_LO (R93, R95). -/
def State.readNow (s : State) (p : Path) : State :=
  let t := s.readPlain p F.MAST_NOW_LO
  t.setPath p { t.path p with frac := some (s.view F.MAST_FRAC).toNat }

/-- A read of MAST_FRAC: the fraction that the path latched, once (R95). -/
def State.readFrac (s : State) (p : Path) : State :=
  match (s.path p).frac with
  | some w => (s.setPath p { s.path p with frac := none }).gives (BitVec.ofNat 32 w)
  | none => s.gives (s.view F.MAST_FRAC)

/-- HALYARD as read: low while the device drives it, else what other devices make it (log entry 1). -/
def State.readHalyard (s : State) : State :=
  if s.bit F.HST_HAL_STATUS_DRIVE then s.gives (putField (s.reg F.HST_HAL_STATUS) F.HST_HAL_STATUS_LEVEL 0)
  else
    let (v, t) := s.open_
    t.gives (putField (s.reg F.HST_HAL_STATUS) F.HST_HAL_STATUS_LEVEL v)

/-- A number below a bound, for the exec of a unit; the callers' addresses lie within. -/
def unit (k : Nat) (i : Nat) (h : 0 < k) : Fin k := ⟨i % k, Nat.mod_lt _ h⟩

/-- A read of the FIFO block's POP registers (spec/09_fifo_engines.md R447, R448): POP_HI and POP_TAG read 0 unless the path's latch was last
loaded from the same engine. -/
def State.readPop (s : State) (p : Path) (a : Nat) : State :=
  let n := (a - 0xA1000) / 128
  if a % 128 = 0x50 then s.did (execFifoRegisterPop p (unit 64 n (by decide)) .clean s)
  else if (s.path p).cleatTag = some (F.FIFO_POP_LO n) then s.gives ((s.latched p a).getD 0)
  else s.gives 0

/-- A read of a register on a path.  The FLC block answers before R14 does (log entry 47). -/
def State.readReg (s : State) (p : Path) (a : Nat) : State :=
  if a / 0x10000 = 3 then s.flcAccess p a false
  else if (findRow a).isNone then s.unlisted p a false
  else if a = F.MAST_NOW_LO then s.readNow p
  else if a = F.MAST_FRAC then s.readFrac p
  else if a = F.HST_HAL_STATUS then s.readHalyard
  else if a = F.IMG_RB_DATA then s.readback p []
  else if a = F.MBOX_BUF_DATA then s.mboxRead
  else if 0xA1000 ≤ a ∧ a < 0xA3000 ∧ 0x50 ≤ a % 128 ∧ a % 128 ≤ 0x58 then s.readPop p a
  else
    let t := s.readPlain p a
    if 0x54000 ≤ a ∧ a < 0x55000 ∧ a % 64 = 0 then t.clear (F.CAP_STATUS_UNREAD ((a - 0x54000) / 64)) else t

/-! ### Writes -/

/-- The RWL bits of a register that are locked now (R8, R9): those that lock on entry into Sail, and those that lock on FEAT_LOCK. -/
def State.lockedBits (s : State) (r : RegRow) : Word :=
  BitVec.ofNat 32 ((if s.inSail then r.sailLocked else 0) ||| (if s.bit F.FEAT_LOCK_LOCK then r.featLocked else 0))

/-- The value that a limited field stores. -/
def Limit.store (l : Limit) (v : Nat) : Nat :=
  match l with
  | .clamp lo hi => max lo (min hi v)
  | .zeroAbove last => if last < v then 0 else v

/-- A word whose limited fields have been brought within their limits. -/
def limitWord (ls : List LimitedField) (w : Word) : Word :=
  ls.foldl (fun w f => putField w ⟨0, f.lo, f.width⟩ (f.limit.store (w.toNat / 2 ^ f.lo % 2 ^ f.width))) w

/-- A write under the access codes of R7, the locks of R10 and the mirror of spec/16_stay.md R827. -/
def State.writePlain (s : State) (a : Nat) (v : Word) : State :=
  match findRow a with
  | none => s
  | some r =>
    let old := s.reg a
    let locked := s.lockedBits r
    let t := if (v ^^^ old) &&& locked = 0 then s else s.log 0x1001 a
    let (v, t) := t.mirrorMerge a v
    let w := limitWord r.limits v
    let set := BitVec.ofNat 32 (r.rw ||| r.sailLocked ||| r.featLocked) &&& ~~~locked
    let w := (old &&& ~~~set) ||| (w &&& set)
    let w := w &&& ~~~(v &&& BitVec.ofNat 32 r.w1c)
    t.setReg a (w ||| (v &&& BitVec.ofNat 32 r.w1s))

/-- A write of a _HI word with a writable field stages it (R96, R98). -/
def State.stageHigh (s : State) (p : Path) (lo : Nat) (v : Word) : State :=
  let x := s.path p
  let t := match x.stage with
    | some (t, _) => if t = lo then s else (s.log 0x0408 (t + 4)).raise F.MAST_EVENT_STAGE_DROP
    | none => s
  t.setPath p { x with stage := some (lo, v) }

/-- A register with its writable bits replaced by a word's (R7). -/
def State.putWritable (s : State) (a : Nat) (v : Word) : State := s.setReg a ((s.reg a &&& ~~~(rwMask a)) ||| (v &&& rwMask a))

/-- A _LO word commits a wide register that has no effect of its own (R97); what the register's access codes do not let software write
stays. -/
def State.commitPlain (s : State) (p : Path) (a : Nat) (v : Word) : State :=
  let (d, t) := s.commitWide p a v
  if s.wideMirrored a then s.mirrorRefused a
  else (t.putWritable a (BitVec.ofNat 32 d)).putWritable (a + 4) (BitVec.ofNat 32 (d / 2 ^ 32))

/-- A command bit of a written word acts. -/
def onBit (v : Word) (i : Nat) (f : State → State) (s : State) : State := if v.getLsbD i then f s else s

/-- A write of MAST_CTRL: PH_MODE, then its command bits in ascending order (spec/02_mast.md R67, R68, R101). -/
def State.writeMastCtrl (s : State) (p : Path) (v : Word) : State :=
  onBit v 3 (fun t => t.cancelSlew (some p)) (onBit v 2 (fun t => t.markSet (some p)) (onBit v 1 (fun t => t.unset (some p))
    (s.writePlain F.MAST_CTRL v)))

/-- A write of DSC_CTRL: EN and FORCE_HO, STEER_AUTH, then its command bits in ascending order. -/
def State.writeDscCtrl (s : State) (p : Path) (v : Word) : State :=
  let auth := s.fld F.DSC_CTRL_STEER_AUTH
  let t := s.writePlain F.DSC_CTRL (putField v F.DSC_CTRL_STEER_AUTH auth)
  let want := bits v.toNat 2 1
  let t := if want = auth then t else t.did (execSteerAuthWrite p (unit 4 want (by decide)) t)
  let t := t.dscEval
  onBit v 6 (fun t => t.did (execPtpDisq t)) (onBit v 5 (fun t => t.did (execModelReset t)) (onBit v 4 (fun t => t.did (execSnapNow t))
    (onBit v 3 (fun t => t.did (execInjClear t)) t)))

/-- A write of PNL_CMD: QUIESCE before RESUME (spec/07_panels.md R367), then LOAD and ABORT. -/
def State.writePnlCmd (s : State) (p : Path) (v : Word) : State :=
  let running := if v.getLsbD 0 then (panelsOf (s.fld F.PNL_SEL_PNL)).filter fun k => s.panelState k == 1 else []
  onBit v 3 (fun t => t.did (execPanelAbort p t)) (onBit v 2 (fun t => t.did (execPanelLoad p t))
    (onBit v 1 (fun t => t.resumeSel running) (onBit v 0 (fun t => t.quiesceSel p) s)))

/-- A write of XNGn_CMD, in ascending bit order; whether clock edges arrive again at an UNPARK is open (log entry 1). -/
def State.writeXngCmd (s : State) (n : Fin 96) (v : Word) : State :=
  onBit v 3 (fun t => t.did (execCrossingClrHwm n t)) (onBit v 2 (fun t => t.did (execMailboxPop n t))
    (onBit v 1 (fun t => let (e, u) := t.open_; u.did (execUnpark n (e % 2 == 1) u)) (onBit v 0 (fun t => t.did (execRstC n t)) s)))

/-- A write of SHT_CAL_CTRL: TRACK_EN, then RECAL, whose measured codes are open (log entry 1). -/
def State.writeCalCtrl (s : State) (v : Word) : State :=
  onBit v 1 (fun t => t.did (execSheetRecal [] t)) (s.writePlain F.SHT_CAL_CTRL v)

/-- A write of STY_CMD: REFRESH, then SWITCHOVER, which restarts a refresh (spec/16_stay.md R822, R842, R847). -/
def State.writeStyCmd (s : State) (p : Path) (v : Word) : State :=
  onBit v 0 (fun t => t.did (execSwitchover p v t)) (onBit v 1 (fun t => t.did (execRefresh (some v) t)) s)

/-- A write to the TMR, CMP and CAP registers that act (spec/04_timers_compares_captures.md). -/
def State.writeTmr (s : State) (p : Path) (a : Nat) (v : Word) : State :=
  if a = F.GSTART_GO then (if v.getLsbD 0 then s.did (execGstartNow s) else onBit v 1 (fun t => t.did (execGstartAt t)) s)
  else if 0x51000 ≤ a ∧ a < 0x52000 then
    let n := unit 64 ((a - 0x51000) / 64) (by decide)
    match a % 64 with
    | 0x00 => s.did (execTimerOriginCommit p n v s)
    | 0x08 => s.did (execTimerPeriodWrite p n v s)
    | 0x10 => s.commitPlain p a v
    | 0x28 =>
      let t := (s.writePlain a v).settleTimer n
      if t.timerFrozen n = s.timerFrozen n then t else t.markMoved n
    | 0x2C => if v &&& 7#32 = 0 then s else s.timerOrder n (v.getLsbD 2) (v.getLsbD 1) (v.getLsbD 0)
    | _ => s.writePlain a v
  else if 0x52000 ≤ a ∧ a < 0x54000 ∧ a % 32 = 0x14 then (s.evalCompare ((a - 0x52000) / 32)).writePlain a v
  else if 0x52000 ≤ a ∧ a < 0x54000 ∧ a % 32 = 0 then s.did (execCmpValCommit p (unit 256 ((a - 0x52000) / 32) (by decide)) v s)
  else if 0x54000 ≤ a ∧ a < 0x55000 ∧ a % 64 = 0x2C then
    let n := unit 64 ((a - 0x54000) / 64) (by decide)
    onBit v 1 (fun t => t.did (execCaptureWinClose n t)) (onBit v 0 (fun t => t.did (execCaptureWinOpen n t)) s)
  else if isWideLo a then s.commitPlain p a v
  else s.writePlain a v

/-- A write to a DSC register that acts (spec/03_discipline_and_holdover.md). -/
def State.writeDsc (s : State) (p : Path) (a : Nat) (v : Word) : State :=
  if a = F.DSC_CTRL then s.writeDscCtrl p v
  else if a = F.DSC_TOD_SEC_LO then s.did (execTodCommit p v s)
  else if a = F.DSC_PTP_AT_LO then s.did (execPtpAtCommit p v s)
  else if a = F.DSC_PTP_ERR_LO then s.did (execPtpSampleCommit p v s)
  else if a = F.DSC_MODEL_TREF then s.did (execModelTrefWrite p v s)
  else (s.writePlain a v).dscEval

/-- A write to a register of the HST and update, IMG or MAST block that acts. -/
def State.writeLow (s : State) (p : Path) (a : Nat) (v : Word) : State :=
  if a = F.HST_CMD then s.did (execRehoist p v s)
  else if a = F.HST_HOST_DATA then s.did (execHostDataWord p v s)
  else if a = F.UPD_CFG then s.did (execConfirmSWrite p v s)
  else if a = F.IMG_CMD then s.did (execZeroise p v s)
  else if a = F.IMG_DBG_TOKEN then s.did (execDbgTokenWrite p v s)
  else if F.IMG_BBK_DATA 0 ≤ a ∧ a ≤ F.IMG_BBK_DATA 7 then s.setReg a v
  else if a = F.MAST_CTRL then s.writeMastCtrl p v
  else if a = F.MAST_FREQ then s.did (execMastFreqWrite p v s)
  else if a = F.MAST_PHASE_LO then s.did (execPhaseCommit p v s)
  else s.writePlain a v

/-- A write to a register of the IDENT and FEAT block that acts. -/
def State.writeIdent (s : State) (p : Path) (a : Nat) (v : Word) : State :=
  if F.FEAT_ACCEPT 0 ≤ a ∧ a ≤ F.FEAT_ACCEPT 3 then s.did (execFeatAcceptWrite p (unit 4 ((a - 0x20) / 4) (by decide)) v s)
  else if a = F.MBOX_CMD then s.did (execMboxCmd p v s)
  else if a = F.MBOX_BUF_DATA then s.mboxWrite v
  else s.writePlain a v

/-- A write to a register of the crossings, FIFO engines or lanes that acts. -/
def State.writeData (s : State) (p : Path) (a : Nat) (v : Word) : State :=
  if 0x91000 ≤ a ∧ a < 0xA0000 then
    let n := unit 96 ((a - 0x91000) / 32) (by decide)
    match a % 32 with
    | 0x0C => s.writeXngCmd n v
    | 0x18 => s.did (execMailboxCommit p n v s)
    | _ => s.writePlain a v
  else if 0xA1000 ≤ a ∧ a < 0xB0000 then
    let n := unit 64 ((a - 0xA1000) / 128) (by decide)
    match a % 128 with
    | 0x1C => onBit v 1 (fun t => t.did (execFifoClrHwm n t)) (onBit v 0 (fun t => t.did (execFifoFlush n t)) s)
    | 0x40 => s.did (execFifoRegisterPush p n v s)
    | _ => s.writePlain a v
  else if 0xB1000 ≤ a ∧ a < 0xC0000 then
    let k := unit 8 ((a - 0xB1000) / 256) (by decide)
    match a % 256 with
    | 0x18 => onBit v 2 (fun t => t.did (execTxtsPop k t)) (onBit v 1 (fun t => t.did (execLaneUp k t)) (onBit v 0 (fun t => t.did (execLaneDown k t)) s))
    | 0x24 => s.commitPlain p a v
    | _ => s.writePlain a v
  else s.writePlain a v

/-- A write to a register of the shrouds, stay, power, panels or monitors that acts. -/
def State.writeHigh (s : State) (p : Path) (a : Nat) (v : Word) : State :=
  if a = F.SHR_CMD then onBit v 0 (fun t => t.did (execReform t)) s
  else if 0xC1000 ≤ a ∧ a < 0xD0000 ∧ (a % 64 = 4 ∨ a % 64 = 8) then s.did (execPeerWrite p (unit 64 ((a - 0xC1000) / 64) (by decide)) (a % 64 == 8) v s)
  else if a = F.STY_CMD then s.writeStyCmd p v
  else if a = F.PWR_CMD then s.did (execReefCommand p v s)
  else if a = F.PWR_RSV_VTGT then s.did (execRsvVtgtWrite p v s)
  else if a = F.PNL_CMD then s.writePnlCmd p v
  else if a = F.PNL_HOST_DATA then s.did (execPanelHostData p v s)
  else if a = F.ERR_CMD then s.did (execErrPop p v s)
  else (s.markFound a).writePlain a v

/-- A write to a register of the pins that acts (spec/18_pins_and_event_lines.md). -/
def State.writePins (s : State) (p : Path) (a : Nat) (v : Word) : State :=
  if F.GPIO_OUT 0 ≤ a ∧ a ≤ F.GPIO_OUT 15 then s.did (execGpioStaticWrite p false (unit 16 ((a - F.GPIO_OUT 0) / 4) (by decide)) v s)
  else if F.GPIO_OE 0 ≤ a ∧ a ≤ F.GPIO_OE 15 then s.did (execGpioStaticWrite p true (unit 16 ((a - F.GPIO_OE 0) / 4) (by decide)) v s)
  else if F.EV_CFG 0 ≤ a ∧ a ≤ F.EV_CFG 15 then s.did (execEvCfgWrite p (unit 16 ((a - F.EV_CFG 0) / 4) (by decide)) v s)
  else s.writePlain a v

/-- A register of a declared timer or compare on a STANDBY (spec/16_stay.md R827). -/
def State.mirrorsAddr (s : State) (a : Nat) : Bool := match unitOfAddr a with | some (k, u) => s.mirrorUnit k u | none => false

/-- A write of a register on a path.  The FLC block answers before R15 does (log entry 47). -/
def State.writeReg (s : State) (p : Path) (a : Nat) (v : Word) : State :=
  if a / 0x10000 = 3 then s.flcAccess p a true
  else if (findRow a).isNone then s.unlisted p a true
  else if s.mirrorsAddr a then s.mirrorRefused a
  else if isWideLo (a - 4) && rwMask a ||| woMask a != 0 then s.stageHigh p (a - 4) v
  else match a / 0x10000 with
    | 0 => s.writeIdent p a v
    | 1 | 2 | 4 => s.writeLow p a v
    | 5 => s.writeTmr p a v
    | 6 => if a = F.SHT_CAL_CTRL then s.writeCalCtrl v else s.writePlain a v
    | 7 => s.writeDsc p a v
    | 8 => s.writePins p a v
    | 9 | 0xA | 0xB => s.writeData p a v
    | _ => s.writeHigh p a v

/-! ### The commands of the register space -/

/-- A read of the _LO word of a wide register (R93). -/
def execWideLoRead (p : Path) (addr : Nat) (s : State) : Out := whenOpen s (if isWideLo addr then s.readReg p addr else s)

/-- A write of the _HI word of a wide register (R96, R98). -/
def execWideHiWrite (p : Path) (addr : Nat) (v : Word) (s : State) : Out :=
  whenOpen s (if isWideLo (addr - 4) && decide (4 ≤ addr) then s.writeReg p addr v else s)

/-- A read of a register with RC fields clears them on every path and rearms what logs once per read (R11). -/
def execRcFieldRead (p : Path) (addr : Nat) (s : State) : Out := whenOpen s (if rcMask addr = 0 then s else s.readReg p addr)

/-- A write to a register (R7); on the supervisor a misaligned address takes its exception (R6). -/
def execRegisterWrite (p : Path) (addr : Nat) (v : Word) (s : State) : Out :=
  whenOpen s (if addr % 4 = 0 then s.writeReg p addr v else s.accessTrap p 6 addr)

/-- An access to an offset that no block map lists (R14-R16). -/
def execUnlistedOffsetAccess (p : Path) (addr : Nat) (w : Option Word) (s : State) : Out :=
  whenOpen s (if (findRow addr).isSome || addr / 0x10000 == 3 then s else s.unlisted p addr w.isSome)

/-- A read of ERR_HEAD_TIME_LO (spec/19_supervisor_and_host.md R977). -/
def execErrHeadRead (p : Path) (s : State) : Out := whenOpen s (s.readReg p F.ERR_HEAD_TIME_LO)

end Sys2Proof.Machine
end

