-- ==== Sys2Proof/Machine/Host.lean ====
section
/-! DEFINITION. The host SPI and I2C targets (spec/19_supervisor_and_host.md R953-R968).  A command carries the bytes of one frame or transfer,
and how many posted writes are performed before each of its words arrives. -/

namespace Sys2Proof.Machine

open Sys2Proof

/-- An error of the host targets: SUP_EVENT.HOST shows it. -/
def State.hostLog (s : State) (code detail : Nat) : State := (s.log code detail).raise F.SUP_EVENT_HOST

/-! ### Posted writes (R956, R957) -/

/-- The buffer of a path. -/
def State.posted (s : State) (i2c : Bool) : List (Nat × Word) := if i2c then s.host.i2cPosted else s.host.spiPosted

/-- Replace the buffer of a path. -/
def State.setPosted (s : State) (i2c : Bool) (ws : List (Nat × Word)) : State :=
  { s with host := if i2c then { s.host with i2cPosted := ws } else { s.host with spiPosted := ws } }

/-- The path of a target. -/
def hostPathOf (i2c : Bool) : Path := if i2c then .i2c else .spi

/-- The oldest posted write is performed. -/
def State.drainPosted (s : State) (i2c : Bool) : State :=
  match s.posted i2c with
  | w :: ws => (s.setPosted i2c ws).writeReg (hostPathOf i2c) w.1 w.2
  | [] => s

/-- So many posted writes are performed, in order. -/
def State.drainMany (s : State) (i2c : Bool) : Nat → State
  | 0 => s
  | n + 1 => (s.drainPosted i2c).drainMany i2c n

/-- Every posted write of a path is performed (R957); the buffer holds at most 8. -/
def State.drainAll (s : State) (i2c : Bool) : State := s.drainMany i2c (s.posted i2c).length

/-- A word is posted; one that finds 8 words waiting is discarded with 0x1004, and sets WOVF on the SPI target (R956). -/
def State.postWord (s : State) (i2c : Bool) (a : Nat) (w : Word) : State :=
  if 8 ≤ (s.posted i2c).length then
    let t := s.hostLog 0x1004 a
    if i2c then t else { t with host := { t.host with wovf := true } }
  else s.setPosted i2c (s.posted i2c ++ [(a, w)])

/-- The posted write at the front of a buffer is performed. -/
def execPostedWrite (i2c : Bool) (s : State) : Out := whenOpen s (s.drainPosted i2c)

/-! ### SPI frames -/

/-- The status byte (R954). -/
def State.statusByte (s : State) : Byte :=
  BitVec.ofNat 8 (0xA0 + s.irqLow.toNat * 16 + s.inSail.toNat * 8 + s.host.crcErr.toNat * 4 + s.host.wovf.toNat * 2
    + (!s.host.spiPosted.isEmpty).toNat)

/-- A frame begins: the status byte is sent during the command byte, which clears CRCERR and WOVF (R954, R955). -/
def State.spiBegin (s : State) : State :=
  { s with reply := [s.statusByte], host := { s.host with crcErr := false, wovf := false } }

/-- Bytes that the target sends. -/
def State.sends (s : State) (bs : List Byte) : State := { s with reply := s.reply ++ bs }

/-- A rejected frame or word (R961, R962). -/
def State.spiRejects (s : State) (cause a : Nat) : State := s.hostLog 0x1003 (cause * 2 ^ 24 + a % 2 ^ 24)

/-- The three address bytes in frame order (R953). -/
def addrBytes (a : Nat) : List Byte := beBytes 3 a

/-- The address after a word: it advances by 4 except under the FIXED commands (R953). -/
def nextAddr (fixed : Bool) (a : Nat) : Nat := if fixed then a else (a + 4) % 2 ^ 24

/-- The words of a write frame, one at each multiple of 4 or 5 bytes; the bytes of an unfinished word are dropped (R956, R960, R961, R963). -/
def State.spiWords (s : State) (crc fixed : Bool) : Nat → Nat → List Byte → List Nat → State
  | 0, _, _, _ => s
  | n + 1, a, bs, ds =>
    let k := if crc then 5 else 4
    if bs.length < k then s
    else
      let t := s.drainMany false (ds.headD 0)
      let d := bs.take 4
      let t := if crc && bs[4]? != some (crc8 (addrBytes a ++ d)) then
          ({ t with host := { t.host with crcErr := true } }).spiRejects 3 a
        else t.postWord false a (BitVec.ofNat 32 (leNat d))
      t.spiWords crc fixed n (nextAddr fixed a) (bs.drop k) (ds.drop 1)

/-- A write frame (R953-R963): a misaligned address is cause 2, a plain write under SPI_CRC_ONLY cause 4. -/
def State.spiWriteFrame (s : State) (crc fixed : Bool) (a : Nat) (bs : List Byte) (ds : List Nat) : State :=
  let t := (s.spiBegin).sends (List.replicate (3 + bs.length) 0xFF)
  if a % 4 ≠ 0 then t.spiRejects 2 a
  else if !crc && s.feature 0 then t.spiRejects 4 a
  else t.spiWords crc fixed bs.length a bs ds

/-- WRITE. -/
def execSpiWrite (addr : BitVec 24) (data : List Byte) (drains : List Nat) (s : State) : Out :=
  whenOpen s (s.spiWriteFrame false false addr.toNat data drains)

/-- WRITE_FIXED. -/
def execSpiWriteFixed (addr : BitVec 24) (data : List Byte) (drains : List Nat) (s : State) : Out :=
  whenOpen s (s.spiWriteFrame false true addr.toNat data drains)

/-- WRITE_CRC. -/
def execSpiWriteCrc (addr : BitVec 24) (data : List Byte) (drains : List Nat) (s : State) : Out :=
  whenOpen s (s.spiWriteFrame true false addr.toNat data drains)

/-- WRITE_FIXED_CRC. -/
def execSpiWriteFixedCrc (addr : BitVec 24) (data : List Byte) (drains : List Nat) (s : State) : Out :=
  whenOpen s (s.spiWriteFrame true true addr.toNat data drains)

/-- The words of a read frame (R957, R958, R960): for each, the posted writes first, the read, wait bytes, 0x5A and the word. -/
def State.spiFetches (s : State) (crc fixed : Bool) : Nat → List Nat → Nat × State
  | a, [] => (a, s)
  | a, w :: ws =>
    let t := (s.drainAll false).readReg .spi a
    let d := leBytes 4 t.readData.toNat
    let t := t.sends (List.replicate w 0xFF ++ [0x5A] ++ d ++ (if crc then [crc8 (addrBytes a ++ d)] else []))
    t.spiFetches crc fixed (nextAddr fixed a) ws

/-- A read frame of which `len` bytes after the address are clocked: `waits` are the wait bytes of each word whose fetch begins (R958). -/
def State.spiReadFrame (s : State) (crc fixed : Bool) (a : Nat) (waits : List Nat) (len : Nat) : State :=
  let t := s.spiBegin.sends [0xFF, 0xFF, 0xFF]
  if a % 4 ≠ 0 then (t.sends (List.replicate len 0xFF)).spiRejects 2 a
  else
    let t := (t.spiFetches crc fixed a waits).2
    { t with reply := t.reply.take (4 + len) ++ List.replicate (4 + len - t.reply.length) 0xFF }

/-- READ. -/
def execSpiRead (addr : BitVec 24) (waits : List (Fin 33)) (len : Nat) (s : State) : Out :=
  whenOpen s (s.spiReadFrame false false addr.toNat (waits.map (·.val)) len)

/-- READ_FIXED. -/
def execSpiReadFixed (addr : BitVec 24) (waits : List (Fin 33)) (len : Nat) (s : State) : Out :=
  whenOpen s (s.spiReadFrame false true addr.toNat (waits.map (·.val)) len)

/-- READ_CRC. -/
def execSpiReadCrc (addr : BitVec 24) (waits : List (Fin 33)) (len : Nat) (s : State) : Out :=
  whenOpen s (s.spiReadFrame true false addr.toNat (waits.map (·.val)) len)

/-- READ_FIXED_CRC. -/
def execSpiReadFixedCrc (addr : BitVec 24) (waits : List (Fin 33)) (len : Nat) (s : State) : Out :=
  whenOpen s (s.spiReadFrame true true addr.toNat (waits.map (·.val)) len)

/-- STATUS (R955). -/
def execSpiStatus (s : State) : Out := whenOpen s s.spiBegin

/-- A read frame whose next word is not ready after 32 wait bytes (R959): its read has begun, the word is sent as 0xE1. -/
def execSpiReadNotReady (fixed crc : Bool) (addr : BitVec 24) (waits : List (Fin 33)) (s : State) : Out :=
  whenOpen s (
    if addr.toNat % 4 ≠ 0 then s.spiReadFrame crc fixed addr.toNat [] 0
    else
      let r := (s.spiBegin.sends [0xFF, 0xFF, 0xFF]).spiFetches crc fixed addr.toNat (waits.map (·.val))
      let t := (r.2.drainAll false).readReg .spi r.1
      (t.sends (List.replicate 32 0xFF ++ [0xE1])).hostLog 0x1005 r.1)

/-- The command bytes of the table. -/
def spiCommands : List Nat := [0x02, 0x42, 0x12, 0x52, 0x0B, 0x4B, 0x1B, 0x5B, 0x05]

/-- A command byte that the table does not hold (R962): cause 1; no address has arrived, so that part of the detail is open (log entry 1). -/
def execSpiUnknownCommand (cmd : Byte) (s : State) : Out :=
  whenOpen s (if spiCommands.contains cmd.toNat then s else let (v, t) := s.spiBegin.open_; t.spiRejects 1 v)

/-! ### I2C transfers -/

/-- A STOP or a repeated START ends the transfer; an unfinished word is discarded and logged (R968). -/
def State.i2cEnds (s : State) (stop : Bool) : State :=
  let t := if s.host.i2cOpen && !s.host.i2cPart.isEmpty then s.hostLog 0x1006 s.host.i2cPtr else s
  { t with host := { t.host with i2cOpen := false, i2cPart := [], i2cIgnores := s.host.i2cIgnores && !stop } }

/-- A START with an address: the target answers its own only (R964), unless it ignores what comes before a STOP (R966). -/
def State.i2cAnswers (s : State) (dev : BitVec 7) : Bool :=
  dev.toNat == 0x60 + s.fld F.HST_STRAPS_ADDR % 16 && !s.host.i2cIgnores

/-- A transfer begins. -/
def State.i2cStart (s : State) : State := { s with host := { s.host with i2cOpen := true, i2cPart := [], i2cTimed := s.feature 2 } }

/-- The pointer after a word (R965). -/
def State.i2cNext (s : State) : State :=
  if s.host.i2cFixed then s else { s with host := { s.host with i2cPtr := (s.host.i2cPtr + 4) % 2 ^ 21 } }

/-- The data bytes of a write transfer: each word is posted at its fourth byte (R965). -/
def State.i2cWords (s : State) : Nat → List Byte → List Nat → State
  | 0, _, _ => s
  | n + 1, bs, ds =>
    if bs.length < 4 then { s with host := { s.host with i2cPart := bs } }
    else
      let t := (s.drainMany true (ds.headD 0)).postWord true s.host.i2cPtr (BitVec.ofNat 32 (leNat (bs.take 4)))
      (t.i2cNext).i2cWords n (bs.drop 4) (ds.drop 1)

/-- A write transfer: three pointer bytes, most significant first, and the data; a bad third byte is not acknowledged (R965, R966). -/
def execI2cWrite (dev : BitVec 7) (bytes : List Byte) (drains : List Nat) (s : State) : Out :=
  whenOpen s (
    let s := s.i2cEnds false
    if !s.i2cAnswers dev then s
    else
      let t := s.i2cStart
      if bytes.length < 3 then t
      else
        let ptr := beNat (bytes.take 3)
        if bits ptr 22 21 ≠ 0 ∨ ptr % 4 ≠ 0 then { t with host := { t.host with i2cIgnores := true } }
        else
          let t := { t with host := { t.host with i2cPtr := ptr % 2 ^ 21, i2cFixed := decide (2 ^ 23 ≤ ptr) } }
          t.i2cWords bytes.length (bytes.drop 3) drains)

/-- The bytes of a read transfer: each word is fetched before its first bit, after the path's posted writes (R957, R967). -/
def State.i2cFetches (s : State) : Nat → Nat → State
  | 0, _ => s
  | n + 1, len =>
    if len = 0 then s
    else
      let t := (s.drainAll true).readReg .i2c s.host.i2cPtr
      let d := leBytes 4 t.readData.toNat
      if len < 4 then { t.sends (d.take len) with host := { t.host with i2cPart := d.take len } }
      else ((t.sends d).i2cNext).i2cFetches n (len - 4)

/-- A read transfer of `len` bytes (R967). -/
def execI2cRead (dev : BitVec 7) (len : Nat) (s : State) : Out :=
  whenOpen s (
    let s := s.i2cEnds false
    if !s.i2cAnswers dev then s else ({ s.i2cStart with reply := [] }).i2cFetches len len)

/-- A STOP, or a repeated START. -/
def execI2cStop (restart : Bool) (s : State) : Out := whenOpen s (s.i2cEnds (!restart))

/-- SCL has been low for 25 ms under I2C_TIMEOUT (R969, R970): the transfer is abandoned. -/
def execI2cTimeout (s : State) : Out :=
  whenOpen s (if s.host.i2cOpen && s.host.i2cTimed && !s.host.i2cIgnores then
    let t := s.hostLog 0x1006 s.host.i2cPtr
    { t with host := { t.host with i2cOpen := false, i2cPart := [], i2cIgnores := true } }
  else s)

end Sys2Proof.Machine
end

