-- ==== Sys2Proof/Machine/Rv32.lean ====
section
/-! DEFINITION. One instruction of the supervisor core, as a single step and the program buffer run it
(spec/19_supervisor_and_host.md R933-R935, R944, R947, spec/12_flash_store.md R622, R623, R628, R638).  Instruction encodings, CSR numbers and
the trap rules are those of the RISC-V specifications that R933 names (PRESUMED, log entry 33). -/

namespace Sys2Proof.Machine

open Sys2Proof

/-- How an access to the core's address map ends: with a value, with an access fault, or it waits for a busy bank (R638). -/
inductive MemOut where
  | value (v : Nat) (s : State)
  | fault (s : State)
  | waits

/-- A read of the on-chip flash through the mapping: the chunk's corrected bits are open (log entry 1); the early warning is logged
when the chunk differs from that of the last one (R622). -/
def State.mappedRead (s : State) (a n : Nat) : MemOut :=
  if s.rangeBusy a n then .waits
  else
    let c := a / 32
    let (v, t) := s.open_
    let errs := [(c, v % 6)]
    let count := t.chunkCount errs c
    let warn := decide (t.flash.mappedWarned ≠ some c)
    let u := t.readChunk errs 1 c warn
    let u : State := if warn && decide (t.fld F.FLC_WARN_LEVEL ≤ count) && count != 15 then
      { u with flash := { u.flash with mappedWarned := some c } } else u
    if count = 15 then .fault u else .value (leNat (u.flashBytes a n)) u

/-- A register read by an instruction; the FLC block answers ROM code (R628), and reads 0 on the debug path (R629). -/
def State.coreRegRead (s : State) (p : Path) (rom : Bool) (a n : Nat) : MemOut :=
  if n ≠ 4 then .fault s
  else if a / 0x10000 = 3 ∧ rom = false then
    if p = .sup then .fault (s.flcRefused p a false) else .value 0 { s.flcRefused p a false with readData := s.readData }
  else if (findRow a).isNone then .fault s
  else
    let t := if a / 0x10000 = 3 then s.readPlain p a else s.readReg p a
    .value t.readData.toNat { t with readData := s.readData }

/-- A load (R935) of n bytes at an aligned address. -/
def State.memLoad (s : State) (p : Path) (rom : Bool) (a n : Nat) : MemOut :=
  if a < 0x110000 then s.coreRegRead p rom a n
  else if 0x10000000 ≤ a ∧ a < 0x10010000 then .value (leNat (s.supBytes a n)) s
  else if 0x20000000 ≤ a ∧ a < 0x20040000 then
    if a < 0x2003C000 ∨ rom then .value (leNat (s.supBytes a n)) s else .fault s
  else if 0x40000000 ≤ a ∧ a < 0x41000000 then s.mappedRead (a - 0x40000000) n
  else .fault s

/-- A write of the FLC block by ROM code (R628): FLC_CTRL starts an operation. -/
def State.flcWrite (s : State) (a : Nat) (v : Word) : State :=
  if a = F.FLC_CTRL then s.flcGo v
  else if a = F.FLC_PATROL_CFG then s.patrolEvery (v.toNat % 65536)
  else s.writePlain a v

/-- A store (R935) of n bytes at an aligned address. -/
def State.memStore (s : State) (p : Path) (rom : Bool) (a n : Nat) (v : Word) : MemOut :=
  if a < 0x110000 then
    if n ≠ 4 then .fault s
    else if a / 0x10000 = 3 then
      if rom then (if (findRow a).isNone then .fault s else .value 0 (s.flcWrite a v))
      else if p = .sup then .fault (s.flcRefused p a true) else .value 0 (s.flcRefused p a true)
    else if (findRow a).isNone then .fault s
    else .value 0 (s.writeReg p a v)
  else if 0x20000000 ≤ a ∧ a < 0x20040000 then
    if a < 0x2003C000 ∨ rom then .value 0 (s.sramPut a (leBytes n v.toNat)) else .fault s
  else .fault s

/-- A halfword of an instruction (R935): no fetch from the register space. -/
def State.fetchHalf (s : State) (a : Nat) : MemOut :=
  if a < 0x110000 then .fault s else s.memLoad .sup (decide (0x10000000 ≤ a ∧ a < 0x10010000)) a 2

/-! ### CSRs -/

/-- Trigger k's tdata1 and tdata2 among the stored CSRs. -/
def csrTdata1 (k : Nat) : Nat := 0x7A100 + k
def csrTdata2 (k : Nat) : Nat := 0x7A200 + k

/-- The trigger that tselect names. -/
def State.trigger (s : State) : Nat := (s.csr 0x7A0).toNat % 4

/-- mip (R944). -/
def State.mip (s : State) : Word := (s.irqLines &&& 0xFFFF0000#32) ||| (if s.anyLine F.IRQ_SUP_DIS then 0x800 else 0)

/-- Read a CSR of the table of R933; `none` for any other (R934). -/
def State.csrRead (s : State) (debug : Bool) (n : Nat) : Option Word :=
  match n with
  | 0xB00 => some (half false s.sup.cycles)
  | 0xB80 => some (half true s.sup.cycles)
  | 0xB02 => some (half false s.sup.instret)
  | 0xB82 => some (half true s.sup.instret)
  | 0x344 => some s.mip
  | 0x7A0 => some (BitVec.ofNat 32 s.trigger)
  | 0x7A1 => some (s.csr (csrTdata1 s.trigger) ||| 0x20000000)
  | 0x7A2 => some (s.csr (csrTdata2 s.trigger))
  | 0x7A4 => some 4
  | _ =>
    if [0x300, 0x301, 0x304, 0x305, 0x340, 0x341, 0x342, 0x343, 0xF11, 0xF12, 0xF13, 0xF14].contains n then some (s.csr n)
    else if debug && [0x7B0, 0x7B1, 0x7B2].contains n then some (s.csr n)
    else none

/-- A counter with one of its words replaced. -/
def putHalf (hi : Bool) (old : Nat) (v : Word) : Nat := if hi then old % 2 ^ 32 + 2 ^ 32 * v.toNat else old / 2 ^ 32 % 2 ^ 32 * 2 ^ 32 + v.toNat

/-- Store the bits of a CSR that are writable. -/
def State.csrMask (s : State) (n : Nat) (mask v : Word) : State := s.setCsr n ((s.csr n &&& ~~~mask) ||| (v &&& mask))

/-- A write of tdata1: a trigger whose dmode is set belongs to the debugger, and only there may its action enter debug mode. -/
def State.tdata1Write (s : State) (debug : Bool) (v : Word) : State :=
  let k := csrTdata1 s.trigger
  if (s.csr k).getLsbD 27 && !debug then s
  else s.setCsr k (v &&& (if debug && v.getLsbD 27 then 0x08001047#32 else 0x00000047#32))

/-- Write a CSR; `none` where it does not exist or only reads. -/
def State.csrWrite (s : State) (debug : Bool) (n : Nat) (v : Word) : Option State :=
  match n with
  | 0xB00 | 0xB80 => some { s with sup := { s.sup with cycles := putHalf (n == 0xB80) s.sup.cycles v } }
  | 0xB02 | 0xB82 => some { s with sup := { s.sup with instret := putHalf (n == 0xB82) s.sup.instret v } }
  | 0x300 => some (s.csrMask n 0x88 v)
  | 0x301 | 0x344 | 0x7A4 => some s
  | 0x304 => some (s.csrMask n 0xFFFF0800 v)
  | 0x305 => some (s.csrMask n 0xFFFFFFFD v)
  | 0x340 | 0x342 | 0x343 => some (s.setCsr n v)
  | 0x341 => some (s.csrMask n 0xFFFFFFFE v)
  | 0x7A0 => some (s.csrMask n 3 v)
  | 0x7A1 => some (s.tdata1Write debug v)
  | 0x7A2 => some (if (s.csr (csrTdata1 s.trigger)).getLsbD 27 && !debug then s else s.setCsr (csrTdata2 s.trigger) v)
  | 0x7B0 => if debug then some (s.csrMask n 0x8804 v) else none
  | 0x7B1 => if debug then some (s.csrMask n 0xFFFFFFFE v) else none
  | 0x7B2 => if debug then some (s.setCsr n v) else none
  | _ => none

/-- The trigger that matches an access, as its action; kind is the bit of mcontrol: 0 load, 1 store, 2 execute. -/
def State.triggered (s : State) (debug : Bool) (kind a : Nat) : Option Bool :=
  if debug then none
  else
    ((List.range 4).find? fun k =>
      let c := s.csr (csrTdata1 k)
      c.getLsbD 6 && c.getLsbD kind && (s.csr (csrTdata2 k)).toNat == a).map fun k => (s.csr (csrTdata1 k)).getLsbD 12

/-! ### The instruction set -/

/-- An I-type word. -/
def iType (imm rs1 f3 rd op : Nat) : Nat := imm % 4096 * 2 ^ 20 + rs1 * 2 ^ 15 + f3 * 2 ^ 12 + rd * 2 ^ 7 + op

/-- An R-type word. -/
def rType (f7 rs2 rs1 f3 rd : Nat) : Nat := f7 * 2 ^ 25 + rs2 * 2 ^ 20 + rs1 * 2 ^ 15 + f3 * 2 ^ 12 + rd * 2 ^ 7 + 0x33

/-- An SW word. -/
def swWord (imm rs2 rs1 : Nat) : Nat :=
  bits imm 11 5 * 2 ^ 25 + rs2 * 2 ^ 20 + rs1 * 2 ^ 15 + 2 * 2 ^ 12 + bits imm 4 0 * 2 ^ 7 + 0x23

/-- A JAL word. -/
def jalWord (imm rd : Nat) : Nat :=
  bits imm 20 20 * 2 ^ 31 + bits imm 10 1 * 2 ^ 21 + bits imm 11 11 * 2 ^ 20 + bits imm 19 12 * 2 ^ 12 + rd * 2 ^ 7 + 0x6F

/-- A branch on a register against x0. -/
def branchZero (imm rs1 f3 : Nat) : Nat :=
  bits imm 12 12 * 2 ^ 31 + bits imm 10 5 * 2 ^ 25 + rs1 * 2 ^ 15 + f3 * 2 ^ 12 + bits imm 4 1 * 2 ^ 8 + bits imm 11 11 * 2 ^ 7 + 0x63

/-- An immediate sign-extended from w bits to 32. -/
def immOf (w v : Nat) : Nat := unsigned 32 (signed w v)

/-- Quadrant 0 of the C extension. -/
def expandC0 (h : Nat) : Option Nat :=
  let rd := 8 + bits h 4 2
  let rs := 8 + bits h 9 7
  let w := bits h 12 10 * 8 + bits h 6 6 * 4 + bits h 5 5 * 64
  let sp := bits h 12 11 * 16 + bits h 10 7 * 64 + bits h 6 6 * 4 + bits h 5 5 * 8
  match bits h 15 13 with
  | 0 => if sp = 0 then none else some (iType sp 2 0 rd 0x13)
  | 2 => some (iType w rs 2 rd 0x03)
  | 6 => some (swWord w rd rs)
  | _ => none

/-- Arithmetic of quadrant 1. -/
def expandC1Alu (h : Nat) : Option Nat :=
  let rd := 8 + bits h 9 7
  let rs2 := 8 + bits h 4 2
  let imm := bits h 12 12 * 32 + bits h 6 2
  match bits h 11 10 with
  | 0 => if 32 ≤ imm then none else some (iType imm rd 5 rd 0x13)
  | 1 => if 32 ≤ imm then none else some (iType (0x400 + imm) rd 5 rd 0x13)
  | 2 => some (iType (immOf 6 imm) rd 7 rd 0x13)
  | _ =>
    if bits h 12 12 = 1 then none
    else match bits h 6 5 with
      | 0 => some (rType 0x20 rs2 rd 0 rd)
      | 1 => some (rType 0 rs2 rd 4 rd)
      | 2 => some (rType 0 rs2 rd 6 rd)
      | _ => some (rType 0 rs2 rd 7 rd)

/-- Quadrant 1 of the C extension. -/
def expandC1 (h : Nat) : Option Nat :=
  let rd := bits h 11 7
  let imm := bits h 12 12 * 32 + bits h 6 2
  let j := bits h 12 12 * 2048 + bits h 11 11 * 16 + bits h 10 9 * 256 + bits h 8 8 * 1024 + bits h 7 7 * 64 + bits h 6 6 * 128
    + bits h 5 3 * 2 + bits h 2 2 * 32
  let b := bits h 12 12 * 256 + bits h 11 10 * 8 + bits h 6 5 * 64 + bits h 4 3 * 2 + bits h 2 2 * 32
  let sp := bits h 12 12 * 512 + bits h 6 6 * 16 + bits h 5 5 * 64 + bits h 4 3 * 128 + bits h 2 2 * 32
  match bits h 15 13 with
  | 0 => some (iType (immOf 6 imm) rd 0 rd 0x13)
  | 1 => some (jalWord (immOf 12 j) 1)
  | 2 => some (iType (immOf 6 imm) 0 0 rd 0x13)
  | 3 =>
    if imm = 0 then none
    else if rd = 2 then some (iType (immOf 10 sp) 2 0 2 0x13)
    else some (immOf 6 imm % 2 ^ 20 * 2 ^ 12 + rd * 2 ^ 7 + 0x37)
  | 4 => expandC1Alu h
  | 5 => some (jalWord (immOf 12 j) 0)
  | 6 => some (branchZero (immOf 9 b) (8 + bits h 9 7) 0)
  | _ => some (branchZero (immOf 9 b) (8 + bits h 9 7) 1)

/-- Quadrant 2 of the C extension. -/
def expandC2 (h : Nat) : Option Nat :=
  let rd := bits h 11 7
  let rs2 := bits h 6 2
  match bits h 15 13 with
  | 0 => if bits h 12 12 = 1 then none else some (iType rs2 rd 1 rd 0x13)
  | 2 => if rd = 0 then none else some (iType (bits h 12 12 * 32 + bits h 6 4 * 4 + bits h 3 2 * 64) 2 2 rd 0x03)
  | 4 =>
    if bits h 12 12 = 0 then
      if rs2 = 0 then (if rd = 0 then none else some (iType 0 rd 0 0 0x67)) else some (rType 0 rs2 0 0 rd)
    else if rs2 = 0 then (if rd = 0 then some 0x00100073 else some (iType 0 rd 0 1 0x67))
    else some (rType 0 rs2 rd 0 rd)
  | 6 => some (swWord (bits h 12 9 * 4 + bits h 8 7 * 64) rs2 2)
  | _ => none

/-- The 32-bit instruction that a halfword of the C extension stands for. -/
def expandC (h : Nat) : Option Nat := match h % 4 with | 0 => expandC0 h | 1 => expandC1 h | _ => expandC2 h

/-- Arithmetic of RV32I; `alt` picks SUB and SRA. -/
def alu (f3 : Nat) (alt : Bool) (a b : Word) : Word :=
  match f3 with
  | 0 => if alt then a - b else a + b
  | 1 => a <<< (b.toNat % 32)
  | 2 => if a.slt b then 1 else 0
  | 3 => if a.ult b then 1 else 0
  | 4 => a ^^^ b
  | 5 => if alt then a.sshiftRight (b.toNat % 32) else a >>> (b.toNat % 32)
  | 6 => a ||| b
  | _ => a &&& b

/-- Arithmetic of the M extension. -/
def mulDiv (f3 : Nat) (a b : Word) : Word :=
  match f3 with
  | 0 => a * b
  | 1 => BitVec.ofInt 32 (a.toInt * b.toInt / 2 ^ 32)
  | 2 => BitVec.ofInt 32 (a.toInt * b.toNat / 2 ^ 32)
  | 3 => BitVec.ofNat 32 (a.toNat * b.toNat / 2 ^ 32)
  | 4 => if b = 0 then BitVec.allOnes 32 else BitVec.ofInt 32 (a.toInt.tdiv b.toInt)
  | 5 => if b = 0 then BitVec.allOnes 32 else BitVec.ofNat 32 (a.toNat / b.toNat)
  | 6 => if b = 0 then a else BitVec.ofInt 32 (a.toInt.tmod b.toInt)
  | _ => if b = 0 then a else BitVec.ofNat 32 (a.toNat % b.toNat)

/-- Whether a branch is taken; `none` for the two encodings that do not exist. -/
def branchTaken (f3 : Nat) (a b : Word) : Option Bool :=
  match f3 with
  | 0 => some (a == b)
  | 1 => some (a != b)
  | 4 => some (a.slt b)
  | 5 => some (!a.slt b)
  | 6 => some (a.ult b)
  | 7 => some (!a.ult b)
  | _ => none

/-- How an instruction ends: at the next one, at another, in an exception, at an ebreak, or at a trigger with its action. -/
inductive Ending where
  | next
  | jump (pc : Word)
  | trap (cause : Nat) (tval : Word)
  | ebreak
  | trigger (toDebug : Bool)

/-- An instruction that does not exist (cause 2). -/
def illegal (s : State) (i : Nat) : Option (State × Ending) := some (s, .trap 2 (BitVec.ofNat 32 i))

/-- A load: misalignment comes before an access fault (R933). -/
def State.loadInst (s : State) (p : Path) (rom debug : Bool) (f3 rd a i : Nat) : Option (State × Ending) :=
  let n := 2 ^ (f3 % 4)
  if f3 = 3 ∨ 6 ≤ f3 then illegal s i
  else match s.triggered debug 0 a with
    | some d => some (s, .trigger d)
    | none =>
      if a % n ≠ 0 then some (s, .trap 4 (BitVec.ofNat 32 a))
      else match s.memLoad p rom a n with
        | .waits => none
        | .fault t => some (t, .trap 5 (BitVec.ofNat 32 a))
        | .value v t => some (t.setX rd (BitVec.ofNat 32 (if f3 < 4 then immOf (8 * n) v else v)), .next)

/-- A store. -/
def State.storeInst (s : State) (p : Path) (rom debug : Bool) (f3 a i : Nat) (v : Word) : Option (State × Ending) :=
  let n := 2 ^ f3
  if 3 ≤ f3 then illegal s i
  else match s.triggered debug 1 a with
    | some d => some (s, .trigger d)
    | none =>
      if a % n ≠ 0 then some (s, .trap 6 (BitVec.ofNat 32 a))
      else match s.memStore p rom a n v with
        | .waits => none
        | .fault t => some (t, .trap 7 (BitVec.ofNat 32 a))
        | .value _ t => some (t, .next)

/-- A CSR instruction: the source is a register, or the immediate in its place. -/
def State.csrInst (s : State) (debug : Bool) (f3 rd rs1 n i : Nat) : Option (State × Ending) :=
  let src : Word := if 4 ≤ f3 then BitVec.ofNat 32 rs1 else s.x rs1
  match s.csrRead debug n with
  | none => illegal s i
  | some old =>
    let new := match f3 % 4 with | 1 => src | 2 => old ||| src | _ => old &&& ~~~src
    if f3 % 4 ≠ 1 ∧ rs1 = 0 then some (s.setX rd old, .next)
    else match s.csrWrite debug n new with
      | some t => some (t.setX rd old, .next)
      | none => illegal s i

/-- MRET: MIE takes MPIE, MPIE becomes 1. -/
def State.mret (s : State) : State × Ending :=
  let m := s.csr csrMstatus
  (s.setCsr csrMstatus ((m &&& ~~~0x88#32) ||| (if m.getLsbD 7 then 0x88#32 else 0x80#32)), .jump (s.csr 0x341))

/-- The SYSTEM opcode. -/
def State.systemInst (s : State) (debug : Bool) (i : Nat) : Option (State × Ending) :=
  if bits i 14 12 = 0 then
    if i = 0x00000073 then some (s, .trap 11 0)
    else if i = 0x00100073 then some (s, .ebreak)
    else if i = 0x30200073 then some s.mret
    else if i = 0x10500073 then some (s, .next)
    else illegal s i
  else if bits i 14 12 = 4 then illegal s i
  else s.csrInst debug (bits i 14 12) (bits i 11 7) (bits i 19 15) (bits i 31 20) i

/-- A 32-bit instruction at pc that took `len` bytes; `none` while a load waits for a busy bank. -/
def State.inst (s : State) (p : Path) (rom debug : Bool) (pc : Word) (len i : Nat) : Option (State × Ending) :=
  let rd := bits i 11 7
  let f3 := bits i 14 12
  let f7 := bits i 31 25
  let a := s.x (bits i 19 15)
  let b := s.x (bits i 24 20)
  let immI : Word := BitVec.ofNat 32 (immOf 12 (bits i 31 20))
  let immS : Word := BitVec.ofNat 32 (immOf 12 (f7 * 32 + rd))
  let link := pc + BitVec.ofNat 32 len
  match i % 128 with
  | 0x37 => some (s.setX rd (BitVec.ofNat 32 (i / 4096 * 4096)), .next)
  | 0x17 => some (s.setX rd (pc + BitVec.ofNat 32 (i / 4096 * 4096)), .next)
  | 0x6F =>
    let off := immOf 21 (bits i 31 31 * 2 ^ 20 + bits i 19 12 * 2 ^ 12 + bits i 20 20 * 2 ^ 11 + bits i 30 21 * 2)
    some (s.setX rd link, .jump (pc + BitVec.ofNat 32 off))
  | 0x67 => if f3 = 0 then some (s.setX rd link, .jump ((a + immI) &&& ~~~1#32)) else illegal s i
  | 0x63 =>
    let off := immOf 13 (bits i 31 31 * 2 ^ 12 + bits i 7 7 * 2 ^ 11 + bits i 30 25 * 2 ^ 5 + bits i 11 8 * 2)
    match branchTaken f3 a b with
    | some true => some (s, .jump (pc + BitVec.ofNat 32 off))
    | some false => some (s, .next)
    | none => illegal s i
  | 0x03 => s.loadInst p rom debug f3 rd (a + immI).toNat i
  | 0x23 => s.storeInst p rom debug f3 (a + immS).toNat i b
  | 0x13 =>
    let shift := f3 = 1 ∨ f3 = 5
    if shift ∧ f7 ≠ 0 ∧ ¬ (f3 = 5 ∧ f7 = 0x20) then illegal s i
    else some (s.setX rd (alu f3 (f3 == 5 && f7 == 0x20) a immI), .next)
  | 0x33 =>
    if f7 = 1 then some (s.setX rd (mulDiv f3 a b), .next)
    else if f7 = 0 ∨ (f7 = 0x20 ∧ (f3 = 0 ∨ f3 = 5)) then some (s.setX rd (alu f3 (f7 == 0x20) a b), .next)
    else illegal s i
  | 0x0F => if f3 = 0 then some (s, .next) else illegal s i
  | 0x73 => s.systemInst debug i
  | _ => illegal s i

/-- An instruction from its first halfword and the one after it, with its length. -/
def State.instAt (s : State) (p : Path) (rom debug : Bool) (pc : Word) (lo hi : Nat) : Option (State × Ending) :=
  if lo % 4 = 3 then s.inst p rom debug pc 4 (lo + 65536 * hi)
  else match expandC lo with
    | some i => s.inst p rom debug pc 2 i
    | none => illegal s lo

/-! ### Traps and single step -/

/-- The interrupt that user firmware takes next, by cause: the external one first, then the event lines (R944). -/
def State.interruptDue (s : State) : Option Nat :=
  let due := s.mip &&& s.csr csrMie
  if (s.csr csrMstatus).getLsbD 3 then (11 :: (List.range 16).map (16 + ·)).find? (due.getLsbD ·) else none

/-- The instruction's effect on the pc; whether debug mode is entered for another cause than the step. -/
def State.endInst (s : State) (pc : Word) (len : Nat) (e : Ending) : State × Option Nat :=
  let go (t : State) (q : Word) : State := { t with sup := { t.sup with pc := q, instret := t.sup.instret + 1 } }
  match e with
  | .next => (go s (pc + BitVec.ofNat 32 len), none)
  | .jump q => (go s q, none)
  | .trap c v => (s.takeTrap false c pc v, none)
  | .ebreak => if (s.csr csrDcsr).getLsbD 15 then (s, some 1) else (s.takeTrap false 3 pc pc, none)
  | .trigger true => (s, some 2)
  | .trigger false => (s.takeTrap false 3 pc pc, none)

/-- One instruction of user firmware at pc; `none` while its fetch or its load waits for a busy bank. -/
def State.userInst (s : State) (pc : Word) : Option (State × Option Nat) :=
  let a := pc.toNat
  match s.triggered false 2 a with
  | some d => some (s.endInst pc 0 (.trigger d))
  | none =>
    match s.fetchHalf a with
    | .waits => none
    | .fault t => some (t.endInst pc 0 (.trap 1 pc))
    | .value lo t =>
      let rom := decide (0x10000000 ≤ a ∧ a < 0x10010000)
      let len := if lo % 4 = 3 then 4 else 2
      match (if len = 4 then t.fetchHalf (a + 2) else .value 0 t) with
      | .waits => none
      | .fault u => some (u.endInst pc 0 (.trap 1 (pc + 2)))
      | .value hi u => (u.instAt .sup rom false pc lo hi).map fun r => r.1.endInst pc len r.2

/-! ### Calls of ROM routines (spec/12_flash_store.md R631, R632, spec/13_field_update.md R688) -/

/-- The routine whose entry address stands in a word of the ROM's tables: its family and index. -/
def routineAt (pc : Word) : Option (Nat × Nat) :=
  let word (o : Nat) : Nat := leNat ((List.range 4).map fun i => romAt (o + i))
  (((List.range 8).map fun k => (0, k)) ++ (List.range 10).map fun k => (1, k)).find? fun r =>
    word ((if r.1 = 0 then 0x100 else 0x140) + 4 * r.2) == pc.toNat

/-- The routine returns to ra: a0-a2 hold what it returned, and the registers it need not preserve are open (R632, log entry 1). -/
def State.routineReturns (s : State) : State :=
  let lost := [5, 6, 7, 10, 11, 12, 13, 14, 15, 16, 17, 28, 29, 30, 31]
  let t := lost.foldl (fun t n => let (w, u) := t.openWord; u.setX n w) s
  let t := s.returned.foldl (fun r w => (r.1.setX r.2 w, r.2 + 1)) (t, 10)
  { t.1 with sup := { t.1.sup with calling := false, pc := s.x 1 &&& ~~~1#32 } }

/-- Corrected bits of the chunks of a range, all open (log entry 1). -/
def State.openErrors (s : State) (a n : Nat) : List (Nat × Nat) × State :=
  let k := min 524288 (n / 32 + 2)
  ((List.range k).map fun i => (a / 32 + i, Config.freeValue (s.fresh + i) % 6), { s with fresh := s.fresh + k })

/-- User firmware calls a routine; `none` while the routine waits for a busy bank. -/
def State.routineCalled (s : State) (family index : Nat) : Option State :=
  let c : RoutineCall := { a0 := s.x 10, a1 := s.x 11, a2 := s.x 12, a3 := s.x 13, ra := s.x 1, mtvec := s.csr csrMtvec }
  let (errs, s) := s.openErrors c.a0.toNat c.a2.toNat
  let u : State := { s with returned := [] }
  let t := if family = 0 ∧ index = 4 then u.did (execFlashWait c u)
    else if family = 1 ∧ index = 9 then u.did (execUpdWait c u)
    else u.did (callRoutine family index c errs u)
  if !t.inSail then some t
  else if !t.returned.isEmpty then some t.routineReturns
  else if t.flash.inCall || t.upd.waits then some { t with sup := { t.sup with calling := true } }
  else none

/-- User firmware's next instruction, or its call of a routine; `none` while it waits for a busy bank. -/
def State.userNext (s : State) : Option (State × Option Nat) :=
  match routineAt s.sup.pc with
  | some (family, index) => (s.routineCalled family index).map fun t => (t, none)
  | none => s.userInst s.sup.pc

/-- A single step (R947): an interrupt that dcsr.stepie lets in, or one instruction; then the core halts again.  `none` while the
instruction waits for a busy bank. -/
def State.singleStep (s : State) : Option State :=
  let halts (t : State) (cause : Nat) : State := if t.inSail then t.haltCore cause else t
  if !s.userRuns then some (s.haltCore 4)
  else match (if (s.csr csrDcsr).getLsbD 11 then s.interruptDue else none) with
    | some c => some ((s.takeTrap true c s.sup.pc 0).haltCore 4)
    | none => s.userNext.map fun r => halts r.1 (r.2.getD 4)

/-- A halt request that is held while a routine call holds it (R641), or that waited for Sail, is decided (R949, R1071). -/
def State.haltHeld (s : State) : Bool := s.flash.inCall && (match s.flash.op with | some op => op.stalls | none => false)

/-- The core on a tick: a halt request that waited; the return of a call; or, where an instruction ends within the tick (open, log entry
1), an interrupt or one instruction of user firmware. -/
def State.coreTick (s : State) : State :=
  if !s.inSail || s.bit F.SUP_STATUS_HALTED then s
  else if s.sup.haltReq && !s.haltHeld then
    if s.dbgOpen then s.haltCore 3 else { s with sup := { s.sup with haltReq := false } }
  else if s.sup.calling then
    if s.flash.inCall || s.upd.waits then s else s.routineReturns
  else if !s.userRuns then s
  else
    let (v, t) := s.open_
    if v % 2 = 0 then t
    else match t.interruptDue with
      | some c => t.takeTrap true c t.sup.pc 0
      | none =>
        match t.userNext with
        | some (u, some cause) => u.haltCore cause
        | some (u, none) => u
        | none => t

end Sys2Proof.Machine
end

