-- ==== Sys2Proof/Machine/Debug.lean ====
section
/-! DEFINITION. The debug module, its JTAG transport, halt and resume, and the default handler (spec/19_supervisor_and_host.md R938,
R947-R952, R1071).  Addresses and layouts of the debug module's registers are those of RISC-V debug 0.13.2 (PRESUMED, log entry 33). -/

namespace Sys2Proof.Machine

open Sys2Proof

/-! ### Halt and resume -/

/-- A halt request (R949, R950, R1071): ignored in Sail while debug is not authenticated, held in Hoist and under R641. -/
def State.haltRequest (s : State) : State :=
  if !s.inSail then { s with sup := { s.sup with haltReq := true } }
  else if !s.dbgOpen || s.bit F.SUP_STATUS_HALTED then s
  else if s.haltHeld then { s with sup := { s.sup with haltReq := true } }
  else s.haltCore 3

/-- A resume request: the halted core runs on, or runs one instruction under dcsr.step (R947). -/
def State.resumeRequest (s : State) : State :=
  if !s.bit F.SUP_STATUS_HALTED then s
  else
    let t := s.resumeCore
    let acked (u : State) : State := { u with dbg := { u.dbg with resumeAck := true } }
    if (s.csr csrDcsr).getLsbD 2 then match t.singleStep with | some u => acked u | none => s
    else acked t

/-- A debugger requests a halt. -/
def execDebugHalt (s : State) : Out := whenOpen s s.haltRequest

/-- A debugger requests a resume. -/
def execDebugResume (s : State) : Out := whenOpen s s.resumeRequest

/-- A trap of user firmware reaches the ROM default handler (R938). -/
def execDefaultTrap (cause epc tval : Word) (s : State) : Out :=
  .next (if s.inSail && s.bit F.SUP_STATUS_USER && !s.bit F.SUP_STATUS_TRAPPED && !s.bit F.SUP_STATUS_HALTED then
    let m := s.csr csrMstatus
    let t := ((s.setCsr 0x341 epc).setCsr 0x342 cause).setCsr 0x343 tval
    let t := t.setCsr csrMstatus ((m &&& ~~~0x88#32) ||| (if m.getLsbD 3 then 0x80#32 else 0))
    ({ t with sup := { t.sup with pc := t.sup.handler } } : State).defaultHandler cause epc
  else s)

/-! ### Abstract commands and the program buffer -/

/-- A halfword of the program buffer; past its 8 words stands an ebreak (R947). -/
def State.progHalf (s : State) (k : Nat) : Nat :=
  if 16 ≤ k then 0x9002 else (Table.get (fun _ => 0) s.dbg.progbuf (k / 2)).toNat / 65536 ^ (k % 2) % 65536

/-- A program buffer runs from a halfword to its ebreak; an exception, or an instruction that depends on the pc, ends it with cmderr 3;
a load that waits for a busy bank ends it so too (log entry 33). -/
def State.runProgram (s : State) : Nat → Nat → State × Nat
  | 0, _ => (s, 3)
  | fuel + 1, k =>
    let lo := s.progHalf k
    match s.instAt .dbg false true 0 lo (s.progHalf (k + 1)) with
    | some (t, .next) => if lo % 128 = 0x17 then (s, 3) else t.runProgram fuel (if lo % 4 = 3 then k + 2 else k + 1)
    | some (t, .ebreak) => (t, 0)
    | some (t, .trap _ _) => (t, 3)
    | some _ => (s, 3)
    | none => (s, 3)

/-- The transfer of an Access Register command: state and cmderr. -/
def State.accessRegister (s : State) (write : Bool) (regno : Nat) : State × Nat :=
  if 0x1000 ≤ regno ∧ regno < 0x1020 then
    if write then (s.setX (regno - 0x1000) s.dbg.data0, 0)
    else ({ s with dbg := { s.dbg with data0 := s.x (regno - 0x1000) } }, 0)
  else if 0x1000 ≤ regno then (s, 2)
  else if write then match s.csrWrite true regno s.dbg.data0 with | some t => (t, 0) | none => (s, 3)
  else match s.csrRead true regno with | some w => ({ s with dbg := { s.dbg with data0 := w } }, 0) | none => (s, 3)

/-- What an abstract command does: Access Register with a transfer of 32 bits, then the program buffer under postexec. -/
def State.abstractRuns (s : State) (v : Nat) : State × Nat :=
  if !s.dbgOpen ∨ bits v 31 24 ≠ 0 ∨ bits v 19 19 = 1 ∨ (bits v 17 17 = 1 ∧ bits v 22 20 ≠ 2) then (s, 2)
  else if !s.bit F.SUP_STATUS_HALTED then (s, 4)
  else
    let r := if bits v 17 17 = 1 then s.accessRegister (bits v 16 16 == 1) (bits v 15 0) else (s, 0)
    if r.2 = 0 ∧ bits v 18 18 = 1 then r.1.runProgram 17 0 else r

/-- A write of command: ignored while cmderr stands. -/
def State.abstractCommand (s : State) (v : Nat) : State :=
  if s.dbg.cmderr ≠ 0 then s
  else
    let r := s.abstractRuns v
    { r.1 with dbg := { r.1.dbg with cmderr := r.2 } }

/-! ### System bus access (R948) -/

/-- The address advances under auto-increment. -/
def State.sbNext (s : State) : State :=
  if s.dbg.sbAutoInc then { s with dbg := { s.dbg with sbAddr := s.dbg.sbAddr + 4 } } else s

/-- A system bus access at sbaddress, on the JTAG path; a misaligned address sets sberror to 3. -/
def State.sbAccess (s : State) (write : Bool) : State :=
  let a := s.dbg.sbAddr.toNat
  if s.dbg.sbError ≠ 0 then s
  else if a % 4 ≠ 0 then { s with dbg := { s.dbg with sbError := 3 } }
  else if write then (s.writeReg .jtag a s.dbg.sbData).sbNext
  else
    let t := s.readReg .jtag a
    ({ t with dbg := { t.dbg with sbData := t.readData } } : State).sbNext

/-- One system bus access by a debugger at an address of its own. -/
def execSystemBusAccess (write : Bool) (addr data : Word) (s : State) : Out :=
  whenOpen s (
    let t : State := { s with dbg := { s.dbg with sbAddr := addr, sbData := if write then data else s.dbg.sbData } }
    t.sbAccess write)

/-! ### The debug module's registers -/

/-- dmstatus: impebreak, what the hart does, authenticated (R949), version 2. -/
def State.dmstatus (s : State) : Nat :=
  let halted := s.bit F.SUP_STATUS_HALTED
  2 ^ 22 + s.dbg.haveReset.toNat * (3 * 2 ^ 18) + s.dbg.resumeAck.toNat * (3 * 2 ^ 16) + (!halted).toNat * (3 * 2 ^ 10)
    + halted.toNat * (3 * 2 ^ 8) + s.dbgOpen.toNat * 2 ^ 7 + 2

/-- sbcs: version 1, 32-bit addresses and accesses. -/
def State.sbcs (s : State) : Nat :=
  2 ^ 29 + s.dbg.sbReadOnAddr.toNat * 2 ^ 20 + 2 * 2 ^ 17 + s.dbg.sbAutoInc.toNat * 2 ^ 16 + s.dbg.sbReadOnData.toNat * 2 ^ 15
    + s.dbg.sbError * 2 ^ 12 + 32 * 2 ^ 5 + 4

/-- A DMI read; the reading of sbdata0 may start the next access. -/
def State.dmRead (s : State) (a : Nat) : Word × State :=
  if a = 0x10 then (BitVec.ofNat 32 s.dbg.active.toNat, s)
  else if !s.dbg.active then (0, s)
  else if 0x20 ≤ a ∧ a < 0x28 then (Table.get (fun _ => 0) s.dbg.progbuf (a - 0x20), s)
  else match a with
    | 0x04 => (s.dbg.data0, s)
    | 0x11 => (BitVec.ofNat 32 s.dmstatus, s)
    | 0x12 => (0x00100000, s)
    | 0x16 => (BitVec.ofNat 32 (8 * 2 ^ 24 + s.dbg.cmderr * 2 ^ 8 + 1), s)
    | 0x38 => (BitVec.ofNat 32 s.sbcs, s)
    | 0x39 => (s.dbg.sbAddr, s)
    | 0x3C => (s.dbg.sbData, if s.dbg.sbReadOnData then s.sbAccess false else s)
    | 0x40 => (if s.bit F.SUP_STATUS_HALTED then 1 else 0, s)
    | _ => (0, s)

/-- A write of dmcontrol: haltreq, resumereq, ackhavereset and dmactive. -/
def State.dmControl (s : State) (v : Word) : State :=
  if !v.getLsbD 0 then { s with dbg := { haveReset := s.dbg.haveReset, address := s.dbg.address, result := s.dbg.result } }
  else if !s.dbg.active then { s with dbg := { s.dbg with active := true } }
  else
    let t : State := if v.getLsbD 28 then { s with dbg := { s.dbg with haveReset := false } } else s
    if v.getLsbD 31 then t.haltRequest
    else if v.getLsbD 30 then ({ t with dbg := { t.dbg with resumeAck := false } } : State).resumeRequest
    else t

/-- A DMI write. -/
def State.dmWrite (s : State) (a : Nat) (v : Word) : State :=
  if a = 0x10 then s.dmControl v
  else if !s.dbg.active then s
  else if 0x20 ≤ a ∧ a < 0x28 then { s with dbg := { s.dbg with progbuf := Table.put (fun _ => 0) s.dbg.progbuf (a - 0x20) v } }
  else match a with
    | 0x04 => { s with dbg := { s.dbg with data0 := v } }
    | 0x16 => { s with dbg := { s.dbg with cmderr := s.dbg.cmderr &&& (7 - bits v.toNat 10 8) } }
    | 0x17 => s.abstractCommand v.toNat
    | 0x38 => { s with dbg := { s.dbg with sbReadOnAddr := v.getLsbD 20, sbAutoInc := v.getLsbD 16, sbReadOnData := v.getLsbD 15,
                                           sbError := s.dbg.sbError &&& (7 - bits v.toNat 14 12) } }
    | 0x39 =>
      let t : State := { s with dbg := { s.dbg with sbAddr := v } }
      if s.dbg.sbReadOnAddr then t.sbAccess false else t
    | 0x3C => ({ s with dbg := { s.dbg with sbData := if s.dbg.sbError = 0 then v else s.dbg.sbData } } : State).sbAccess true
    | _ => s

/-! ### The JTAG transport -/

/-- DTMCS (IR 0x010): version 1 and abits 7; its idle hint is open (log entry 1).  No DMI operation leaves an error to reset. -/
def execDtmcs (_v : Word) (s : State) : Out :=
  whenOpen s (
    let (v, t) := s.open_
    t.jtagOut 0x010 (leBytes 4 (0x71 + v % 8 * 4096)))

/-- A DMI scan (IR 0x011): 41 bits are captured, the address and the result of the scan before it with status 0, and then the operation
that was shifted in is performed. -/
def execDmi (op : Fin 4) (addr : Fin 128) (data : Word) (s : State) : Out :=
  whenOpen s (
    let t := s.jtagOut 0x011 (leBytes 6 (s.dbg.address * 2 ^ 34 + s.dbg.result.toNat * 4))
    if op.val = 1 then
      let (w, u) := t.dmRead addr.val
      { u with dbg := { u.dbg with address := addr.val, result := w } }
    else if op.val = 2 then
      let u := t.dmWrite addr.val data
      { u with dbg := { u.dbg with address := addr.val, result := data } }
    else t)

end Sys2Proof.Machine
end

