-- ==== Sys2Proof/Machine/Clients.lean ====
section
/-! DEFINITION. Pushes and pulls that reach another unit: words that lane sources and endpoints take from crossings and FIFO engines, words
that endpoints give to engines, and tokens that the fabric takes from shell ports (spec/06_fabric.md R303, spec/08_crossings.md R394,
spec/09_fifo_engines.md R429-R433, spec/15_shrouds.md R772). -/

namespace Sys2Proof.Machine

open Sys2Proof

/-- A clocked-side client pulls a word from a STREAM crossing (R394); a lane transmit source uses it as a data word. -/
def execCrossingStreamPull (n : Fin 96) (s : State) : Out :=
  .next (if s.powered && s.fld (F.XNG_CFG_KIND n) == 3 && !s.toFabric n && s.xngActive n then
    match s.xngPull n with
    | (some w, t) => if s.fld (F.XNG_CFG_CLIENT n) = 5 then t.laneWord (s.fld (F.XNG_CFG_CIDX n)) (w, 0x80) else t
    | (none, t) => t
  else s)

/-- A receive side gives its oldest token to its engine while the engine has room (spec/15_shrouds.md R770-R772). -/
def State.endpointPush (s : State) (n ep : Nat) : State :=
  match (s.endpointOf ep).held with
  | [] => s
  | w :: _ =>
    if !s.bit (F.SHR_EP_CFG_RX_FIFO ep) then s
    else
      let (ok, t) := s.fifoPush n w.1 w.2 true
      if ok then (t.tokenTaken ep).2 else s

/-- A producer pushes (R429, R445): the fabric waits for room, a lane cannot; a shroud endpoint gives its oldest token. -/
def execFifoPush (n : Fin 64) (data : Dword) (tag : Byte) (s : State) : Out :=
  let prod := s.fld (F.FIFO_CFG_PROD n)
  if prod = 1 ∧ !s.fabricAlive 5 n then .next s
  else if prod = 1 then
    let (ok, t) := s.fifoPush n (BitVec.ofNat 64 (data.toNat % 2 ^ s.portWidth 5 n)) tag true
    .next (if ok then (t.portCount 5 n).portCount 6 n else t)
  else if prod = 2 then .next (s.fifoPush n data tag false).2
  else if prod = 3 then .next (s.endpointPush n (s.fld (F.FIFO_CFG_PIDX n)))
  else .next s

/-- A consumer takes the next visible word (R431-R433); under POP_WAIT the fabric is offered none while none is visible. A lane source
uses what it took as a data word; an endpoint sends it. -/
def execFifoPop (n : Fin 64) (ecc : Ecc) (s : State) : Out :=
  let cons := s.fld (F.FIFO_CFG_CONS n)
  let cidx := s.fld (F.FIFO_CFG_CIDX n)
  if !s.inSail || !s.bit (F.FIFO_CFG_EN n) || cons = 0 || cons = 4 then .next s
  else if cons = 1 then
    if !s.fabricOffers 7 n || s.bit (F.FIFO_CFG_POP_WAIT n) && (s.engine n).visible == 0 then .next s
    else .next (((s.fifoPop n ecc).2.portCount 7 n).portCount 8 n)
  else if cons = 2 then
    let (w, t) := s.fifoPop n ecc
    .next (if !tagBit w.2 7 || s.isSlot n w.2 then t else t.laneWord cidx w)
  else if cons = 3 then execEndpointTransmit (unit 64 cidx (by decide)) [(0, ecc)] s
  else .next (s.fifoPop n ecc).2

/-- A stamp channel's last edge is less than 8 qn old: it may still prove one of a pair that is discarded, so its token waits
(spec/05_sheets.md R268). -/
def State.stampYoung (s : State) (n : Nat) : Bool :=
  (s.stampOf n).lastKept && (match (s.stampOf n).lastEdge with | some e => decide (e ≤ s.now * 8 + 39 ∧ s.now * 8 < e + 64) | none => false)

/-- What a shell-to-fabric port's resource gives up when the fabric takes its token (R303); `none` while it offers none. -/
def State.portTake (s : State) (cls idx : Nat) : Option State :=
  match cls with
  | 0x3 => match (s.stampOf idx).buf with
    | [] => none
    | [_] => if s.stampYoung idx then none else some (s.setStamp idx { s.stampOf idx with buf := [], lastKept := false })
    | _ :: ds => some (s.setStamp idx { s.stampOf idx with buf := ds, lastKept := (s.stampOf idx).lastKept && !ds.isEmpty })
  | 0x9 => match s.lineOffers idx with
    | none => none
    | some _ => some (if (activeLevel (s.fld (F.EV_CFG_TRIG idx))).isSome then s else s.setLine idx { s.line idx with token := none, undoToken := none })
  | 0xB => if s.bit (F.SHR_EP_CFG_RX_FIFO idx) then none else match s.tokenTaken idx with | (some _, t) => some t | (none, _) => none
  | 0xD => match s.slotTake idx with | (some _, t) => some t | (none, _) => none
  | 0xF => match s.icpStatus with | [] => none | _ :: ds => some { s with icpStatus := ds }
  | _ => none

/-- The fabric takes the token that an edge port offers: the handshake counts in EPn_COUNT. -/
def execFabricTokenTake (port : Fin 384) (s : State) : Out :=
  let cls := s.fld (F.EP_BIND_CLASS port)
  let idx := s.fld (F.EP_BIND_INDEX port)
  .next (if !s.fabricOffers cls idx then s
  else match s.portTake cls idx with
    | some t => t.countWrap (F.EP_COUNT port) 1
    | none => s)

end Sys2Proof.Machine
end

