-- ==== Sys2Proof/Machine/Idle.lean ====
section
/-! DEFINITION. What one tick of time does while no command waits (DESIGN CHOICE, log entry 40): the Mast advances by a beat or a tick, the
units that follow it are evaluated at it, the image engine takes a word, and the core may end one instruction. -/

namespace Sys2Proof.Machine

open Sys2Proof

/-- The Mast advances when time passes: a beat, or a tick of the 32 kHz domain (R57, R78, R86). -/
def State.timePasses (s : State) : Bool :=
  !s.mastHolds && (!s.bit F.MAST_STATUS_DOMAIN || (s.bit F.MAST_STATUS_XT_OK && !s.bit F.PWR_REEF_STATUS_DEEP_HELD))

/-- What the units that follow the Mast do at a beat (spec/04_timers_compares_captures.md R174): the timers and compares first, whose edges the
sheets then place. -/
def State.beatUnits (s : State) : State :=
  let t := s.evalBeat
  if s.powered then t.panelsBeat.crossingsBeat.fifosBeat.sheetsBeat.capturesBeat.ppsBeat.linesBeat.routeBeat.stayBeat else t

/-- What a tick of time does to the fabric, to the queues in front of crossings, to the image engine and to the core. -/
def State.drains (s : State) : State :=
  let t := s.fabTick.drainHbuf
  ((List.range 4).foldl (fun u q => u.teqDrain q 4) t).coreTick

/-- One tick of time. -/
def State.idle (s : State) : State :=
  let t := if s.timePasses then s.passTime.beatUnits else s
  if s.powered then t.drains else t

/-- The beat at which the last remainder of REM is applied (spec/02_mast.md R62): SLEW_DONE sets. -/
def execSlewDone (s : State) : Out :=
  .next (if s.beatRuns && s.mast.rem != 0 && s.slewTerm == s.mast.rem then s.idle else s)

end Sys2Proof.Machine
end

