-- ==== Sys2Proof/Machine/Dispatch.lean ====
section
/-! DEFINITION. One arm per command: the call of its meaning. -/

namespace Sys2Proof.Machine

open Sys2Proof

def exec (i : Instr) (s : State) : Host.Outcome State Fault Refusal :=
  match i with
  | .por => Sys2Proof.Machine.execPor s
  | .porstNAssert lag => Sys2Proof.Machine.execPorstNAssert lag s
  | .porstNRelease => Sys2Proof.Machine.execPorstNRelease s
  | .supplyDropout lag => Sys2Proof.Machine.execSupplyDropout lag s
  | .vddfOutOfRange => Sys2Proof.Machine.execVddfOutOfRange s
  | .pfiAssert => Sys2Proof.Machine.execPfiAssert s
  | .pfiDeassert => Sys2Proof.Machine.execPfiDeassert s
  | .reefCommand p v => Sys2Proof.Machine.execReefCommand p v s
  | .reefEntryComplete => Sys2Proof.Machine.execReefEntryComplete s
  | .wakeLatch n => Sys2Proof.Machine.execWakeLatch n s
  | .reefWake => Sys2Proof.Machine.execReefWake s
  | .tamper => Sys2Proof.Machine.execTamper s
  | .vbatLoss => Sys2Proof.Machine.execVbatLoss s
  | .romBoot straps fails => Sys2Proof.Machine.execRomBoot straps fails s
  | .romBootComplete mV late p => Sys2Proof.Machine.execRomBootComplete mV late p s
  | .directoryRead noise => Sys2Proof.Machine.execDirectoryRead noise s
  | .imageHeader answers noise errs => Sys2Proof.Machine.execImageHeader answers noise errs s
  | .imageRecord noise errs => Sys2Proof.Machine.execImageRecord noise errs s
  | .hostDataWord p w => Sys2Proof.Machine.execHostDataWord p w s
  | .hostWordTimeout => Sys2Proof.Machine.execHostWordTimeout s
  | .rehoist p v => Sys2Proof.Machine.execRehoist p v s
  | .hostLoad p v => Sys2Proof.Machine.execHostLoad p v s
  | .mastPllLock => Sys2Proof.Machine.execMastPllLock s
  | .mastPllUnlock => Sys2Proof.Machine.execMastPllUnlock s
  | .clockLoopWaitEnd codes => Sys2Proof.Machine.execClockLoopWaitEnd codes s
  | .clockLoopTimeout => Sys2Proof.Machine.execClockLoopTimeout s
  | .halyardTaken => Sys2Proof.Machine.execHalyardTaken s
  | .halyardTimeout => Sys2Proof.Machine.execHalyardTimeout s
  | .releaseStage => Sys2Proof.Machine.execReleaseStage s
  | .updateServiceAtSail errs => Sys2Proof.Machine.execUpdateServiceAtSail errs s
  | .confirmWindowClose => Sys2Proof.Machine.execConfirmWindowClose s
  | .phaseCommit p lo => Sys2Proof.Machine.execPhaseCommit p lo s
  | .stepApply => Sys2Proof.Machine.execStepApply s
  | .slewDone => Sys2Proof.Machine.execSlewDone s
  | .freqRampUpdate => Sys2Proof.Machine.execFreqRampUpdate s
  | .mastFreqWrite p v => Sys2Proof.Machine.execMastFreqWrite p v s
  | .slewCancel => Sys2Proof.Machine.execSlewCancel s
  | .markSet => Sys2Proof.Machine.execMarkSet s
  | .unset => Sys2Proof.Machine.execUnset s
  | .refinLoss => Sys2Proof.Machine.execRefinLoss s
  | .refinReturn => Sys2Proof.Machine.execRefinReturn s
  | .xt32Stop => Sys2Proof.Machine.execXt32Stop s
  | .xt32Resume => Sys2Proof.Machine.execXt32Resume s
  | .rcalWindowComplete => Sys2Proof.Machine.execRcalWindowComplete s
  | .wideLoRead p addr => Sys2Proof.Machine.execWideLoRead p addr s
  | .wideHiWrite p addr v => Sys2Proof.Machine.execWideHiWrite p addr v s
  | .ppsInEdge edge => Sys2Proof.Machine.execPpsInEdge edge s
  | .ppsTimeout => Sys2Proof.Machine.execPpsTimeout s
  | .todCommit p lo => Sys2Proof.Machine.execTodCommit p lo s
  | .ptpAtCommit p lo => Sys2Proof.Machine.execPtpAtCommit p lo s
  | .ptpSampleCommit p lo => Sys2Proof.Machine.execPtpSampleCommit p lo s
  | .ptpTimeout => Sys2Proof.Machine.execPtpTimeout s
  | .ptpDisq => Sys2Proof.Machine.execPtpDisq s
  | .synceMeasurement meas => Sys2Proof.Machine.execSynceMeasurement meas s
  | .steerAuthWrite p auth => Sys2Proof.Machine.execSteerAuthWrite p auth s
  | .injClear => Sys2Proof.Machine.execInjClear s
  | .modelReset => Sys2Proof.Machine.execModelReset s
  | .modelTrefWrite p v => Sys2Proof.Machine.execModelTrefWrite p v s
  | .snapNow => Sys2Proof.Machine.execSnapNow s
  | .modelEpoch => Sys2Proof.Machine.execModelEpoch s
  | .modelPrediction => Sys2Proof.Machine.execModelPrediction s
  | .periodicSnapshot => Sys2Proof.Machine.execPeriodicSnapshot s
  | .ppsOutPulse => Sys2Proof.Machine.execPpsOutPulse s
  | .cmpValCommit p n lo => Sys2Proof.Machine.execCmpValCommit p n lo s
  | .compareFire n => Sys2Proof.Machine.execCompareFire n s
  | .timerOverflow n => Sys2Proof.Machine.execTimerOverflow n s
  | .timerMatch n => Sys2Proof.Machine.execTimerMatch n s
  | .timerStart n => Sys2Proof.Machine.execTimerStart n s
  | .timerStop n => Sys2Proof.Machine.execTimerStop n s
  | .timerReset n => Sys2Proof.Machine.execTimerReset n s
  | .timerOriginCommit p n lo => Sys2Proof.Machine.execTimerOriginCommit p n lo s
  | .timerPeriodWrite p n lo => Sys2Proof.Machine.execTimerPeriodWrite p n lo s
  | .gstartNow => Sys2Proof.Machine.execGstartNow s
  | .gstartAt => Sys2Proof.Machine.execGstartAt s
  | .captureLeadingEdge n fine => Sys2Proof.Machine.execCaptureLeadingEdge n fine s
  | .captureTrailingEdge n fine => Sys2Proof.Machine.execCaptureTrailingEdge n fine s
  | .captureRiseRead p n => Sys2Proof.Machine.execCaptureRiseRead p n s
  | .captureWinOpen n => Sys2Proof.Machine.execCaptureWinOpen n s
  | .captureWinClose n => Sys2Proof.Machine.execCaptureWinClose n s
  | .sheetTokenAccept idx token => Sys2Proof.Machine.execSheetTokenAccept idx token s
  | .sheetRelease idx => Sys2Proof.Machine.execSheetRelease idx s
  | .sheetRecal codes => Sys2Proof.Machine.execSheetRecal codes s
  | .calibrationTrack codes => Sys2Proof.Machine.execCalibrationTrack codes s
  | .stampChannelEdge n level fine => Sys2Proof.Machine.execStampChannelEdge n level fine s
  | .illegalDualRail loc => Sys2Proof.Machine.execIllegalDualRail loc s
  | .edgePortStall n => Sys2Proof.Machine.execEdgePortStall n s
  | .panelStuck k => Sys2Proof.Machine.execPanelStuck k s
  | .quiesce p => Sys2Proof.Machine.execQuiesce p s
  | .quiesceComplete k => Sys2Proof.Machine.execQuiesceComplete k s
  | .quiesceTimeout k => Sys2Proof.Machine.execQuiesceTimeout k s
  | .resume p => Sys2Proof.Machine.execResume p s
  | .panelLoad p => Sys2Proof.Machine.execPanelLoad p s
  | .panelReleaseStage k => Sys2Proof.Machine.execPanelReleaseStage k s
  | .panelLoadWordTimeout => Sys2Proof.Machine.execPanelLoadWordTimeout s
  | .panelAbort p => Sys2Proof.Machine.execPanelAbort p s
  | .panelHostData p w => Sys2Proof.Machine.execPanelHostData p w s
  | .icpDataToken d => Sys2Proof.Machine.execIcpDataToken d s
  | .fenceHandshake entry d => Sys2Proof.Machine.execFenceHandshake entry d s
  | .crossingPulseEvent n acknowledge => Sys2Proof.Machine.execCrossingPulseEvent n acknowledge s
  | .crossingLevelTransfer n level => Sys2Proof.Machine.execCrossingLevelTransfer n level s
  | .crossingWordTransfer n w => Sys2Proof.Machine.execCrossingWordTransfer n w s
  | .crossingRequest n => Sys2Proof.Machine.execCrossingRequest n s
  | .crossingStreamWrite n w => Sys2Proof.Machine.execCrossingStreamWrite n w s
  | .crossingStreamTake n => Sys2Proof.Machine.execCrossingStreamTake n s
  | .crossingStreamPull n => Sys2Proof.Machine.execCrossingStreamPull n s
  | .crossingWatchdogExpiry n => Sys2Proof.Machine.execCrossingWatchdogExpiry n s
  | .unpark n edges => Sys2Proof.Machine.execUnpark n edges s
  | .rstC n => Sys2Proof.Machine.execRstC n s
  | .crossingResetExit n clocked => Sys2Proof.Machine.execCrossingResetExit n clocked s
  | .crossingResyncDone n => Sys2Proof.Machine.execCrossingResyncDone n s
  | .crossingClrHwm n => Sys2Proof.Machine.execCrossingClrHwm n s
  | .mailboxPop n => Sys2Proof.Machine.execMailboxPop n s
  | .mailboxCommit p n lo => Sys2Proof.Machine.execMailboxCommit p n lo s
  | .fifoPush n data tag => Sys2Proof.Machine.execFifoPush n data tag s
  | .fifoPop n ecc => Sys2Proof.Machine.execFifoPop n ecc s
  | .fifoRegisterPush p n lo => Sys2Proof.Machine.execFifoRegisterPush p n lo s
  | .fifoRegisterPop p n ecc => Sys2Proof.Machine.execFifoRegisterPop p n ecc s
  | .fifoFlush n => Sys2Proof.Machine.execFifoFlush n s
  | .fifoClrHwm n => Sys2Proof.Machine.execFifoClrHwm n s
  | .scrubVisit ecc touched => Sys2Proof.Machine.execScrubVisit ecc touched s
  | .lanePllLock k => Sys2Proof.Machine.execLanePllLock k s
  | .laneCdrLock k => Sys2Proof.Machine.execLaneCdrLock k s
  | .lanePcsLock k => Sys2Proof.Machine.execLanePcsLock k s
  | .laneLockLoss k what => Sys2Proof.Machine.execLaneLockLoss k what s
  | .laneUp k => Sys2Proof.Machine.execLaneUp k s
  | .laneDown k => Sys2Proof.Machine.execLaneDown k s
  | .receiveFrame k f => Sys2Proof.Machine.execReceiveFrame k f s
  | .transmitFrameStart k j lead => Sys2Proof.Machine.execTransmitFrameStart k j lead s
  | .transmitUnderrun k => Sys2Proof.Machine.execTransmitUnderrun k s
  | .txtsPop k => Sys2Proof.Machine.execTxtsPop k s
  | .shroudPortAlign q => Sys2Proof.Machine.execShroudPortAlign q s
  | .trainFlit q good rxReady peerSeen port => Sys2Proof.Machine.execTrainFlit q good rxReady peerSeen port s
  | .shroudPortDown q cause => Sys2Proof.Machine.execShroudPortDown q cause s
  | .shroudFrame q bytes => Sys2Proof.Machine.execShroudFrame q bytes s
  | .ackFlit q good nak seq => Sys2Proof.Machine.execAckFlit q good nak seq s
  | .replayTimeout q => Sys2Proof.Machine.execReplayTimeout q s
  | .creditFlit q good vc0 vc1 => Sys2Proof.Machine.execCreditFlit q good vc0 vc1 s
  | .helloSend => Sys2Proof.Machine.execHelloSend s
  | .hello q data => Sys2Proof.Machine.execHello q data s
  | .coordSeqTick => Sys2Proof.Machine.execCoordSeqTick s
  | .formQuiet => Sys2Proof.Machine.execFormQuiet s
  | .topo frame => Sys2Proof.Machine.execTopo frame s
  | .formationComplete => Sys2Proof.Machine.execFormationComplete s
  | .route q bytes => Sys2Proof.Machine.execRoute q bytes s
  | .routeSwitch => Sys2Proof.Machine.execRouteSwitch s
  | .linkdown q uid port epoch => Sys2Proof.Machine.execLinkdown q uid port epoch s
  | .coordinatorLost => Sys2Proof.Machine.execCoordinatorLost s
  | .reform => Sys2Proof.Machine.execReform s
  | .shroudSyncReq arrived ofs => Sys2Proof.Machine.execShroudSyncReq arrived ofs s
  | .shroudSyncResp q t2 t3 ep set ofs => Sys2Proof.Machine.execShroudSyncResp q t2 t3 ep set ofs s
  | .report addr aligned => Sys2Proof.Machine.execReport addr aligned s
  | .endpointTransmit n feed => Sys2Proof.Machine.execEndpointTransmit n feed s
  | .endpointCreditFrame n => Sys2Proof.Machine.execEndpointCreditFrame n s
  | .probe n => Sys2Proof.Machine.execProbe n s
  | .probeReply n recv taken => Sys2Proof.Machine.execProbeReply n recv taken s
  | .peerWrite p n rx v => Sys2Proof.Machine.execPeerWrite p n rx v s
  | .heartbeatSend => Sys2Proof.Machine.execHeartbeatSend s
  | .heartbeat good role flags => Sys2Proof.Machine.execHeartbeat good role flags s
  | .heartbeatMiss => Sys2Proof.Machine.execHeartbeatMiss s
  | .actInChange level => Sys2Proof.Machine.execActInChange level s
  | .takeoverComplete => Sys2Proof.Machine.execTakeoverComplete s
  | .claimWaitEnd => Sys2Proof.Machine.execClaimWaitEnd s
  | .contention => Sys2Proof.Machine.execContention s
  | .pair uid primary sig => Sys2Proof.Machine.execPair uid primary sig s
  | .switchover p v => Sys2Proof.Machine.execSwitchover p v s
  | .handoverAck => Sys2Proof.Machine.execHandoverAck s
  | .refresh cmd => Sys2Proof.Machine.execRefresh cmd s
  | .mirrorChangeFrame idx => Sys2Proof.Machine.execMirrorChangeFrame idx s
  | .mirrorReg items => Sys2Proof.Machine.execMirrorReg items s
  | .mirrorTimer idx data => Sys2Proof.Machine.execMirrorTimer idx data s
  | .mirrorCompare idx data => Sys2Proof.Machine.execMirrorCompare idx data s
  | .mirrorDsc data => Sys2Proof.Machine.execMirrorDsc data s
  | .mirrorModel record => Sys2Proof.Machine.execMirrorModel record s
  | .slot n t0 t1 t2 t3 => Sys2Proof.Machine.execSlot n t0 t1 t2 t3 s
  | .stayEnd => Sys2Proof.Machine.execStayEnd s
  | .mirrorSlotSnapshot n d => Sys2Proof.Machine.execMirrorSlotSnapshot n d s
  | .staySyncReq arrived ofs => Sys2Proof.Machine.execStaySyncReq arrived ofs s
  | .staySyncResp t2 t3 set ofs => Sys2Proof.Machine.execStaySyncResp t2 t3 set ofs s
  | .avsbusPoll mV mA => Sys2Proof.Machine.execAvsbusPoll mV mA s
  | .avsbusVoltageWrite => Sys2Proof.Machine.execAvsbusVoltageWrite s
  | .avsbusFault cmd => Sys2Proof.Machine.execAvsbusFault cmd s
  | .paceSample => Sys2Proof.Machine.execPaceSample s
  | .powerCapCheck => Sys2Proof.Machine.execPowerCapCheck s
  | .reserveSample code => Sys2Proof.Machine.execReserveSample code s
  | .chargeTimeout => Sys2Proof.Machine.execChargeTimeout s
  | .rsvVtgtWrite p v => Sys2Proof.Machine.execRsvVtgtWrite p v s
  | .ledgerRequest code cost reefOp => Sys2Proof.Machine.execLedgerRequest code cost reefOp s
  | .vbatMeasure mV => Sys2Proof.Machine.execVbatMeasure mV s
  | .vioCheck mV => Sys2Proof.Machine.execVioCheck mV s
  | .gpioStaticWrite p oe b v => Sys2Proof.Machine.execGpioStaticWrite p oe b v s
  | .eventLineTrigger n level fine => Sys2Proof.Machine.execEventLineTrigger n level fine s
  | .evCfgWrite p n v => Sys2Proof.Machine.execEvCfgWrite p n v s
  | .flashInfo c => Sys2Proof.Machine.execFlashInfo c s
  | .flashRead c errs => Sys2Proof.Machine.execFlashRead c errs s
  | .flashProgram c => Sys2Proof.Machine.execFlashProgram c s
  | .flashErase c => Sys2Proof.Machine.execFlashErase c s
  | .flashWait c => Sys2Proof.Machine.execFlashWait c s
  | .flashBlank c => Sys2Proof.Machine.execFlashBlank c s
  | .flashConfig c => Sys2Proof.Machine.execFlashConfig c s
  | .flashOperationComplete end_ => Sys2Proof.Machine.execFlashOperationComplete end_ s
  | .patrolRead errs => Sys2Proof.Machine.execPatrolRead errs s
  | .flcAccessRefused p ofs write => Sys2Proof.Machine.execFlcAccessRefused p ofs write s
  | .updInfo c => Sys2Proof.Machine.execUpdInfo c s
  | .updBegin c => Sys2Proof.Machine.execUpdBegin c s
  | .updWrite c => Sys2Proof.Machine.execUpdWrite c s
  | .updFinish c => Sys2Proof.Machine.execUpdFinish c s
  | .updVerify c => Sys2Proof.Machine.execUpdVerify c s
  | .updActivate c => Sys2Proof.Machine.execUpdActivate c s
  | .updConfirm c => Sys2Proof.Machine.execUpdConfirm c s
  | .updRetire c => Sys2Proof.Machine.execUpdRetire c s
  | .updGolden c => Sys2Proof.Machine.execUpdGolden c s
  | .updWait c => Sys2Proof.Machine.execUpdWait c s
  | .directoryWriteRetry => Sys2Proof.Machine.execDirectoryWriteRetry s
  | .confirmSWrite p v => Sys2Proof.Machine.execConfirmSWrite p v s
  | .zeroise p v => Sys2Proof.Machine.execZeroise p v s
  | .dbgChal p v => Sys2Proof.Machine.execDbgChal p v s
  | .dbgUnlock p v => Sys2Proof.Machine.execDbgUnlock p v s
  | .bbkLoad p v => Sys2Proof.Machine.execBbkLoad p v s
  | .plRaise p v => Sys2Proof.Machine.execPlRaise p v s
  | .plLower p v => Sys2Proof.Machine.execPlLower p v s
  | .fuseProg p v => Sys2Proof.Machine.execFuseProg p v s
  | .svnCommit p v => Sys2Proof.Machine.execSvnCommit p v s
  | .imgCmdComplete ok => Sys2Proof.Machine.execImgCmdComplete ok s
  | .dbgTokenWrite p w => Sys2Proof.Machine.execDbgTokenWrite p w s
  | .rbDataRead p errs => Sys2Proof.Machine.execRbDataRead p errs s
  | .idcode => Sys2Proof.Machine.execIdcode s
  | .bypass => Sys2Proof.Machine.execBypass s
  | .samplePreload bits_ => Sys2Proof.Machine.execSamplePreload bits_ s
  | .extest bits_ => Sys2Proof.Machine.execExtest bits_ s
  | .clamp => Sys2Proof.Machine.execClamp s
  | .highz => Sys2Proof.Machine.execHighz s
  | .dtmcs v => Sys2Proof.Machine.execDtmcs v s
  | .dmi op addr data => Sys2Proof.Machine.execDmi op addr data s
  | .cfgIn w => Sys2Proof.Machine.execCfgIn w s
  | .cfgStatus => Sys2Proof.Machine.execCfgStatus s
  | .plQuery => Sys2Proof.Machine.execPlQuery s
  | .mastPeek => Sys2Proof.Machine.execMastPeek s
  | .debugHalt => Sys2Proof.Machine.execDebugHalt s
  | .debugResume => Sys2Proof.Machine.execDebugResume s
  | .systemBusAccess write addr data => Sys2Proof.Machine.execSystemBusAccess write addr data s
  | .serviceEpisode errs => Sys2Proof.Machine.execServiceEpisode errs s
  | .defaultTrap cause epc tval => Sys2Proof.Machine.execDefaultTrap cause epc tval s
  | .spiWrite addr data drains => Sys2Proof.Machine.execSpiWrite addr data drains s
  | .spiWriteFixed addr data drains => Sys2Proof.Machine.execSpiWriteFixed addr data drains s
  | .spiWriteCrc addr data drains => Sys2Proof.Machine.execSpiWriteCrc addr data drains s
  | .spiWriteFixedCrc addr data drains => Sys2Proof.Machine.execSpiWriteFixedCrc addr data drains s
  | .spiRead addr waits len => Sys2Proof.Machine.execSpiRead addr waits len s
  | .spiReadFixed addr waits len => Sys2Proof.Machine.execSpiReadFixed addr waits len s
  | .spiReadCrc addr waits len => Sys2Proof.Machine.execSpiReadCrc addr waits len s
  | .spiReadFixedCrc addr waits len => Sys2Proof.Machine.execSpiReadFixedCrc addr waits len s
  | .spiStatus => Sys2Proof.Machine.execSpiStatus s
  | .spiReadNotReady fixed crc addr waits => Sys2Proof.Machine.execSpiReadNotReady fixed crc addr waits s
  | .postedWrite i2c => Sys2Proof.Machine.execPostedWrite i2c s
  | .i2cWrite dev bytes drains => Sys2Proof.Machine.execI2cWrite dev bytes drains s
  | .i2cRead dev len => Sys2Proof.Machine.execI2cRead dev len s
  | .i2cStop restart => Sys2Proof.Machine.execI2cStop restart s
  | .i2cTimeout => Sys2Proof.Machine.execI2cTimeout s
  | .featAcceptWrite p k v => Sys2Proof.Machine.execFeatAcceptWrite p k v s
  | .featLock p v => Sys2Proof.Machine.execFeatLock p v s
  | .errHeadRead p => Sys2Proof.Machine.execErrHeadRead p s
  | .errPop p v => Sys2Proof.Machine.execErrPop p v s
  | .temperatureSample die c => Sys2Proof.Machine.execTemperatureSample die c s
  | .supplyMeasure vdds vdda vddh vddaux => Sys2Proof.Machine.execSupplyMeasure vdds vdda vddh vddaux s
  | .mboxCmd p v => Sys2Proof.Machine.execMboxCmd p v s
  | .mboxResult => Sys2Proof.Machine.execMboxResult s
  | .mboxBufDataAccess p w => Sys2Proof.Machine.execMboxBufDataAccess p w s
  | .unlistedOffsetAccess p addr w => Sys2Proof.Machine.execUnlistedOffsetAccess p addr w s
  | .registerWrite p addr v => Sys2Proof.Machine.execRegisterWrite p addr v s
  | .shroudPortPllLock q => Sys2Proof.Machine.execShroudPortPllLock q s
  | .shroudPortLockLoss q pll => Sys2Proof.Machine.execShroudPortLockLoss q pll s
  | .frameWaitTimeout q => Sys2Proof.Machine.execFrameWaitTimeout q s
  | .reportSend => Sys2Proof.Machine.execReportSend s
  | .syncSampleTimeout partner => Sys2Proof.Machine.execSyncSampleTimeout partner s
  | .dscFrameSend => Sys2Proof.Machine.execDscFrameSend s
  | .coreSuppliesLost lag => Sys2Proof.Machine.execCoreSuppliesLost lag s
  | .updateOperationComplete ok noise errs => Sys2Proof.Machine.execUpdateOperationComplete ok noise errs s
  | .fabricTokenTake port => Sys2Proof.Machine.execFabricTokenTake port s
  | .crossingStreamPush n w => Sys2Proof.Machine.execCrossingStreamPush n w s
  | .linkFaultSequence k remote on => Sys2Proof.Machine.execLinkFaultSequence k remote on s
  | .rcFieldRead p addr => Sys2Proof.Machine.execRcFieldRead p addr s
  | .spiUnknownCommand cmd => Sys2Proof.Machine.execSpiUnknownCommand cmd s

end Sys2Proof.Machine
end

