-- ==== Sys2Proof/WellFormed.lean ====
section
/-! DEFINITION. Which commands can arrive: the bounds that an operand's plain data does not carry in its type.  A meaning is total all the
same: a command that is not well formed has the effect its rule gives the operands as they are. -/

namespace Sys2Proof

/-- A bus address: aligned and within the shell register space (spec/00_scope.md R6, spec/01_architecture.md). -/
def busAddress (a : Nat) : Bool := a % 4 == 0 && decide (a < 0x110000)

/-- Measured delay codes are 7 bits wide (spec/05_sheets.md). -/
def delayCodes (cs : List Nat) : Bool := cs.all fun c => decide (c < 128)

/-- A frame on a link is whole flits of 16 bytes, header and data (spec/15_shrouds.md). -/
def frameBytes (bs : List Byte) : Bool := decide (16 ≤ bs.length) && bs.length % 16 == 0

/-- Bit errors are named by chunk of the on-chip flash, each once (spec/12_flash_store.md R620). -/
def chunkErrors (es : List (Nat × Nat)) : Bool := es.all fun e => decide (e.1 < 2 ^ 19)

/-- The command is well formed. -/
def Instr.wf : Instr → Bool
  | .romBoot _ fs => decide (fs.all (· < 2 ^ 32))
  | .imageHeader _ _ es => chunkErrors es
  | .imageRecord _ es => chunkErrors es
  | .clockLoopWaitEnd cs => delayCodes cs
  | .updateServiceAtSail es => chunkErrors es
  | .wideLoRead _ a => busAddress a
  | .wideHiWrite _ a _ => busAddress a
  | .sheetRecal cs => delayCodes cs
  | .calibrationTrack cs => delayCodes cs
  | .shroudFrame _ bs => frameBytes bs
  | .route _ bs => frameBytes bs
  | .mirrorModel bs => decide (bs.length = 256)
  | .vioCheck vs => decide (vs.length = 16)
  | .flashRead _ es => chunkErrors es
  | .patrolRead es => chunkErrors es
  | .rbDataRead _ es => chunkErrors es
  | .serviceEpisode es => chunkErrors es
  | .unlistedOffsetAccess _ a _ => busAddress a
  | .registerWrite _ a _ => busAddress a
  | .updateOperationComplete _ _ es => chunkErrors es
  | .rcFieldRead _ a => busAddress a
  | .por | .porstNAssert .. | .porstNRelease | .supplyDropout .. | .vddfOutOfRange | .pfiAssert | .pfiDeassert | .reefCommand ..
  | .reefEntryComplete | .wakeLatch .. | .reefWake | .tamper | .vbatLoss | .romBootComplete .. | .directoryRead .. | .hostDataWord ..
  | .hostWordTimeout | .rehoist .. | .hostLoad .. | .mastPllLock | .mastPllUnlock | .clockLoopTimeout | .halyardTaken
  | .halyardTimeout | .releaseStage | .confirmWindowClose | .phaseCommit .. | .stepApply | .slewDone | .freqRampUpdate
  | .mastFreqWrite .. | .slewCancel | .markSet | .unset | .refinLoss | .refinReturn | .xt32Stop | .xt32Resume | .rcalWindowComplete
  | .ppsInEdge .. | .ppsTimeout | .todCommit .. | .ptpAtCommit .. | .ptpSampleCommit .. | .ptpTimeout | .ptpDisq
  | .synceMeasurement .. | .steerAuthWrite .. | .injClear | .modelReset | .modelTrefWrite .. | .snapNow | .modelEpoch
  | .modelPrediction | .periodicSnapshot | .ppsOutPulse | .cmpValCommit .. | .compareFire .. | .timerOverflow .. | .timerMatch ..
  | .timerStart .. | .timerStop .. | .timerReset .. | .timerOriginCommit .. | .timerPeriodWrite .. | .gstartNow | .gstartAt
  | .captureLeadingEdge .. | .captureTrailingEdge .. | .captureRiseRead .. | .captureWinOpen .. | .captureWinClose ..
  | .sheetTokenAccept .. | .sheetRelease .. | .stampChannelEdge .. | .illegalDualRail .. | .edgePortStall .. | .panelStuck ..
  | .quiesce .. | .quiesceComplete .. | .quiesceTimeout .. | .resume .. | .panelLoad .. | .panelReleaseStage ..
  | .panelLoadWordTimeout | .panelAbort .. | .panelHostData .. | .icpDataToken .. | .fenceHandshake .. | .crossingPulseEvent ..
  | .crossingLevelTransfer .. | .crossingWordTransfer .. | .crossingRequest .. | .crossingStreamWrite .. | .crossingStreamTake ..
  | .crossingStreamPull .. | .crossingWatchdogExpiry .. | .unpark .. | .rstC .. | .crossingResetExit .. | .crossingResyncDone ..
  | .crossingClrHwm .. | .mailboxPop .. | .mailboxCommit .. | .fifoPush .. | .fifoPop .. | .fifoRegisterPush .. | .fifoRegisterPop ..
  | .fifoFlush .. | .fifoClrHwm .. | .scrubVisit .. | .lanePllLock .. | .laneCdrLock .. | .lanePcsLock .. | .laneLockLoss ..
  | .laneUp .. | .laneDown .. | .receiveFrame .. | .transmitFrameStart .. | .transmitUnderrun .. | .txtsPop .. | .shroudPortAlign ..
  | .trainFlit .. | .shroudPortDown .. | .ackFlit .. | .replayTimeout .. | .creditFlit .. | .helloSend | .hello .. | .coordSeqTick
  | .formQuiet | .topo .. | .formationComplete | .routeSwitch | .linkdown .. | .coordinatorLost | .reform | .shroudSyncReq ..
  | .shroudSyncResp .. | .report .. | .endpointTransmit .. | .endpointCreditFrame .. | .probe .. | .probeReply .. | .peerWrite ..
  | .heartbeatSend | .heartbeat .. | .heartbeatMiss | .actInChange .. | .takeoverComplete | .claimWaitEnd | .contention | .pair ..
  | .switchover .. | .handoverAck | .refresh .. | .mirrorChangeFrame .. | .mirrorReg .. | .mirrorTimer .. | .mirrorCompare ..
  | .mirrorDsc .. | .slot .. | .stayEnd | .mirrorSlotSnapshot .. | .staySyncReq .. | .staySyncResp .. | .avsbusPoll ..
  | .avsbusVoltageWrite | .avsbusFault .. | .paceSample | .powerCapCheck | .reserveSample .. | .chargeTimeout | .rsvVtgtWrite ..
  | .ledgerRequest .. | .vbatMeasure .. | .gpioStaticWrite .. | .eventLineTrigger .. | .evCfgWrite .. | .flashInfo ..
  | .flashProgram .. | .flashErase .. | .flashWait .. | .flashBlank .. | .flashConfig .. | .flashOperationComplete ..
  | .flcAccessRefused .. | .updInfo .. | .updBegin .. | .updWrite .. | .updFinish .. | .updVerify .. | .updActivate ..
  | .updConfirm .. | .updRetire .. | .updGolden .. | .updWait .. | .directoryWriteRetry | .confirmSWrite .. | .zeroise ..
  | .dbgChal .. | .dbgUnlock .. | .bbkLoad .. | .plRaise .. | .plLower .. | .fuseProg .. | .svnCommit .. | .imgCmdComplete ..
  | .dbgTokenWrite .. | .idcode | .bypass | .samplePreload .. | .extest .. | .clamp | .highz | .dtmcs .. | .dmi .. | .cfgIn ..
  | .cfgStatus | .plQuery | .mastPeek | .debugHalt | .debugResume | .systemBusAccess .. | .defaultTrap .. | .spiWrite ..
  | .spiWriteFixed .. | .spiWriteCrc .. | .spiWriteFixedCrc .. | .spiRead .. | .spiReadFixed .. | .spiReadCrc .. | .spiReadFixedCrc ..
  | .spiStatus | .spiReadNotReady .. | .postedWrite .. | .i2cWrite .. | .i2cRead .. | .i2cStop .. | .i2cTimeout | .featAcceptWrite ..
  | .featLock .. | .errHeadRead .. | .errPop .. | .temperatureSample .. | .supplyMeasure .. | .mboxCmd .. | .mboxResult
  | .mboxBufDataAccess .. | .shroudPortPllLock .. | .shroudPortLockLoss .. | .frameWaitTimeout .. | .reportSend
  | .syncSampleTimeout .. | .dscFrameSend | .coreSuppliesLost .. | .fabricTokenTake .. | .crossingStreamPush ..
  | .linkFaultSequence .. | .spiUnknownCommand .. => true

end Sys2Proof
end

