-- ==== Sys2Proof/Safety.lean ====
section
/-! DEFINITION. What counts as a safe run, and the terms the statements use. -/

namespace Sys2Proof

open Sys2Proof.Machine

/-- The next step answers a state: the block neither faults nor refuses. -/
def Goes (s : State) : Prop := ∃ t, step s = .next t

/-- A set of states that no step leaves. -/
def KeptByStep (inv : State → Prop) : Prop := ∀ s t, inv s → step s = .next t → inv t

/-- A fuse word has at least these bits programmed (spec/11_images_and_keys.md, the fuse array). -/
abbrev HasFuseBits (s : State) (word m : Nat) : Prop := s.fuseWord word &&& m = m

/-- A command answers a next state, and this holds of it. -/
def Runs (c : Instr) (s : State) (post : State → Prop) : Prop := ∃ t, exec c s = .next t ∧ post t

/-- The register space is open: the shell is powered and ROM boot does not close it (spec/01_architecture.md R29, R34). -/
abbrev Open (s : State) : Prop := (s.powered && !s.romCloses) = true

/-- A whole register as a field. -/
def whole (a : Nat) : Fld := ⟨a, 0, 32⟩

/-- Both words of a wide register as fields (R20). -/
def bothWords (a : Nat) : List Fld := [whole a, whole (a + 4)]

/-- The registers of the error collector as fields. -/
def collectorFields : List Fld := collectorRegs.map whole

/-- Every register field that has no bit in common with these reads as before. -/
def OnlyFields (fs : List Fld) (s t : State) : Prop :=
  ∀ g : Fld, (∀ f ∈ fs, g.addr ≠ f.addr ∨ g.lo + g.width ≤ f.lo ∨ f.lo + f.width ≤ g.lo) → t.fld g = s.fld g

/-- Nothing but registers changed, and of these only the fields given. -/
def Only (fs : List Fld) (s t : State) : Prop := OnlyFields fs s t ∧ { t with regs := s.regs } = s

/-- Nothing but registers and the error collector changed: of the registers only its own and the fields given. -/
def OnlyAndLog (fs : List Fld) (s t : State) : Prop :=
  OnlyFields (collectorFields ++ fs) s t ∧
    { t with regs := s.regs, errs := s.errs, unkept := s.unkept, bootCode := s.bootCode,
             win := { t.win with logged := s.win.logged, pushed := s.win.pushed } } = s

/-- No code has been logged at the present Mast: the window holds none. -/
abbrev QuietLog (s : State) : Prop := s.win.logged = [] ∧ s.win.pushed = [] ∧ ∀ e ∈ s.errs, e.mast ≠ s.now

/-- An error code is logged: with room in the collector it stands behind what the collector held before this window, among the codes
of this window in ascending order (spec/19_supervisor_and_host.md R974, R975). -/
def Logs (code detail : Nat) (s t : State) : Prop :=
  (s.errsBefore ++ s.win.logged).length < 64 → t.errs = s.errsBefore ++ insertErr s.win.logged (s.entryFor code detail)

/-- An error code is logged as the first of its window: with room in the collector its entry is the youngest (R974). -/
def LogsFirst (code detail : Nat) (s t : State) : Prop :=
  QuietLog s → s.errs.length < 64 → t.errs = s.errs ++ [s.entryFor code detail]

/-- Link port q can send at once: it is UP, nothing waits, nothing is unacknowledged, and every credit is free. -/
abbrev Ready (q : Nat) (s : State) : Prop :=
  s.linkUp q = true ∧ (s.linkOf q).waiting = [] ∧ (s.linkOf q).unacked = [] ∧ (s.linkOf q).sent = (s.linkOf q).shown ∧
    (s.linkOf q).txSeq < 256

/-- Port q has sent one frame of a KIND, with the next SEQ. -/
abbrev SentKind (q kind : Nat) (s t : State) : Prop :=
  (t.linkOf q).unacked.map (fun f => (f.1, u8 f.2 1)) = [((s.linkOf q).txSeq, kind)] ∧ (t.linkOf q).waiting = [] ∧
    (t.linkOf q).txSeq = ((s.linkOf q).txSeq + 1) % 256

/-- Port q has sent this frame, with the next SEQ. -/
abbrev SentOn (q : Nat) (bs : List Byte) (s t : State) : Prop :=
  (t.linkOf q).unacked = [((s.linkOf q).txSeq, sealFrame bs (s.linkOf q).txSeq)] ∧ (t.linkOf q).waiting = [] ∧
    (t.linkOf q).txSeq = ((s.linkOf q).txSeq + 1) % 256

/-- A code that was logged where others may follow it in the same window: with room for those too, the collector holds it. -/
abbrev FirstLog (code detail : Nat) (s t : State) : Prop :=
  QuietLog s → s.errs.length < 32 → ∃ e ∈ t.errs, e.code = code ∧ e.detail = BitVec.ofNat 32 detail ∧ e.mast = s.now

/-- Every byte of the on-chip flash outside n bytes from an address reads as before. -/
def FlashOnly (a n : Nat) (s t : State) : Prop :=
  ∀ x : Nat, x < a ∨ a + n ≤ x → Table.get t.flashDefault t.flash.mem x = Table.get s.flashDefault s.flash.mem x

/-- Every byte of the supervisor's SRAM outside n bytes from an offset reads as before. -/
def SramOnly (a n : Nat) (s t : State) : Prop :=
  ∀ x : Nat, x < a ∨ a + n ≤ x → Table.get zeroByte t.sram x = Table.get zeroByte s.sram x

/-- Every byte of the external flash outside n bytes from an address reads as before. -/
def XflashOnly (a n : Nat) (s t : State) : Prop :=
  ∀ x : Nat, x < a ∨ a + n ≤ x → Table.get t.xflashDefault t.xflash x = Table.get s.xflashDefault s.xflash x

/-- Every fuse word but one reads as before. -/
def FusesOnly (k : Nat) (s t : State) : Prop := ∀ w : Nat, w ≠ k → t.fuseWord w = s.fuseWord w

/-- A write of IMG_CMD with its KEY whose lowest command is bit b (spec/11_images_and_keys.md R606). -/
abbrev ImgCommand (b : Nat) (v : Word) : Prop := bits v.toNat 31 16 = 0x494D ∧ v.toNat % 2 ^ (b + 1) = 2 ^ b

/-- No command of IMG_CMD has acted in this window, and no battery-backed key was loaded or zeroised in it (R607, R608). -/
abbrev NoImgYet (s : State) : Prop := s.win.imgCmd = none ∧ s.win.bbkLoad = none ∧ s.win.zeroised = none

/-- The window of the second state with the marks of IMG_CMD as the first has them. -/
abbrev unmarkImg (s t : State) : WindowUnit :=
  { t.win with imgCmd := s.win.imgCmd, bbkLoad := s.win.bbkLoad, zeroised := s.win.zeroised }

/-- A JTAG instruction's code stands in the instruction register, and its data register has shifted these bytes out. -/
abbrev Shifts (ir : Nat) (out : List Byte) (s t : State) : Prop := t = { s with jtag := { s.jtag with ir := ir }, reply := out }

/-- A state in which a read frame has sent its status byte and its address bytes (spec/19_supervisor_and_host.md R953, R954). -/
abbrev spiOpened (s : State) : State :=
  { s with reply := [s.statusByte, 0xFF, 0xFF, 0xFF], host := { s.host with crcErr := false, wovf := false } }

/-- What a read frame has sent up to and with a word: the wait bytes, 0x5A, the word that the register returned. -/
abbrev wordSent (k : Nat) (t : State) : List Byte := List.replicate k 0xFF ++ [0x5A] ++ leBytes 4 t.readData.toNat

/-- A snapshot with something new to keep can start: the flash is free, the journal's sector has room, the ledger grants it, nothing bars
it, and n is the SEQ of the last record (spec/03_discipline_and_holdover.md R148-R152). -/
abbrev SnapFree (n : Nat) (s : State) : Prop :=
  s.swSteers = false ∧ s.upd.waits = false ∧ s.flash.op = none ∧ s.flash.inCall = false ∧ s.bit F.SUP_STATUS_HALTED = false ∧
    s.dsc.dirty = true ∧ s.dsc.seq = some n ∧ s.journalUsed s.journalSector < 256 ∧ s.ledgerGrants 16 false = true ∧ s.writesBarred = false

/-- The program of the next record has started, in the next free place of the journal's sector, with the next SEQ and its REASON; the
instant of the next periodic snapshot counts from the one given. -/
abbrev SnapStarts (reason n since : Nat) (s t : State) : Prop :=
  t.flash.op = some { erase := false, ofs := recordOfs s.journalSector (s.journalUsed s.journalSector), total := 8, done := 0, src := 0,
                      taken := s.snapRecord ((n + 1) % 2 ^ 32) reason, entry := none, caller := 3, waits := false } ∧
    t.dsc = { s.dsc with snapBusy := some (reason, (n + 1) % 2 ^ 32), dirty := false, snapAt := since } ∧
    t.pwr = { s.pwr with grants := s.pwr.grants ++ [(3, 16)] } ∧ t.bit F.FLC_STATUS_BUSY_B = true ∧
    OnlyFields [F.FLC_STATUS_BUSY_B, F.FLC_STATUS_DONE, F.FLC_ADDR_OFS, F.PWR_LEDGER_COMMIT_UJ, F.PWR_STATUS_LEDGER_BLIND] s t ∧
    { t with regs := s.regs, flash := { t.flash with op := s.flash.op }, dsc := s.dsc, pwr := s.pwr } = s

/-- Beside registers a command of a timer changed only what a freeze counts from and the marks of its window. -/
abbrev TimerFrame (s t : State) : Prop :=
  { t with regs := s.regs, frozenSince := s.frozenSince, win := { t.win with acted := s.win.acted, moved := s.win.moved } } = s

/-- No routine of ROM is being called (spec/12_flash_store.md R636). -/
abbrev NoCall (s : State) : Prop := s.flash.inCall = false ∧ s.upd.waits = false

/-- An update routine can run: in Sail, no call executes, no operation, PFI or Reef bars it, and the external flash answers. -/
abbrev UpdFree (s : State) : Prop :=
  s.inSail = true ∧ NoCall s ∧ s.updBusy = false ∧ s.writesBarred = false ∧ s.bit F.HST_FLASH_INFO_PRESENT = true

/-- Copy 0 of the directory is valid and has room, and the ledger grants the program of an entry. -/
abbrev DirRoom (s : State) : Prop :=
  s.copyValid 0 = true ∧ s.firstBlank 0 < 1000 ∧ s.ledgerGrants (s.fld F.UPD_COST_PAGE_UJ) false = true

/-- The next steps program an entry in copy 0 and, where it has room, in copy 1; then these. -/
abbrev Appends (e : DirEntry) (rest : List UpdStep) (s t : State) : Prop :=
  t.upd.steps = .prog (entryAddr 0 (s.firstBlank 0)) { e with seq := (s.topSeq + 1) % 2 ^ 32 }.bytes ::
      ((if s.copyValid 1 ∧ s.firstBlank 1 < 1023 then [.prog (entryAddr 1 (s.firstBlank 1)) { e with seq := (s.topSeq + 1) % 2 ^ 32 }.bytes] else [])
        ++ rest) ∧
    t.upd.going = true ∧ t.bit F.UPD_STATUS_BUSY = true ∧ t.pwr.grants = s.pwr.grants ++ [(5, s.fld F.UPD_COST_PAGE_UJ)]

/-- Of the registers only BUSY and the ledger's changed, and beside them only the update service and the grants. -/
abbrev UpdFrame (s t : State) : Prop :=
  OnlyFields [F.UPD_STATUS_BUSY, F.PWR_LEDGER_COMMIT_UJ, F.PWR_STATUS_LEDGER_BLIND] s t ∧ { t with regs := s.regs, upd := s.upd, pwr := s.pwr } = s

/-- Nothing is under way that PFI, a Reef command or a rehoist would meet: no operation of the flashes, of IMG_CMD or of the update
service, no partial load, no routine call of this window, the core not halted, the device no STANDBY. -/
abbrev Still (s : State) : Prop :=
  s.flash.op = none ∧ s.flash.results = [] ∧ s.upd.steps = [] ∧ s.keys.busyCmd = none ∧ s.keys.massErase = none ∧
    s.partialBusy = false ∧ s.win.flashCall = none ∧ s.bit F.SUP_STATUS_HALTED = false ∧ s.standby = false

end Sys2Proof
end

