-- ==== Sys2Proof/Certificates/Slice0/Obligations.lean ====
section
/-! DEFINITION. The statements for the provers. -/

open Sys2Proof Sys2Proof.Machine

/-- A step runs the command at the front of the queue.  For every command c, every list of waiting commands and every state s: the
step of s with c at the front of its queue is exec of c on s with the queue's rest. -/
def Obligations.FrontCommandRuns : Prop :=
  ∀ (c : Instr) (rest : List Instr) (s : State), step { s with pending := c :: rest } = exec c { s with pending := rest }

/-- With no command waiting a tick of time passes (the model's choice, log entry 40).  With an empty queue a step answers the state
after one tick of time; in an unpowered device (Reef) in which no timer runs and no channel is armed that tick moves the Mast alone, and
while the Mast holds (R86) it moves nothing. That a step on an empty queue is one tick is the model's choice, log entry 40. -/
def Obligations.EmptyQueueIdles : Prop :=
  (∀ s : State, s.pending = [] → step s = .next s.idle) ∧
  (∀ s : State, s.powered = false → s.bit F.MAST_STATUS_DOMAIN = true → s.timePasses = true → s.mast.step = none →
      s.runningTimers = [] → s.armedCompares = [] →
      s.idle.mast.acc = (s.mast.acc + s.tickSpan) % 2 ^ 102 ∧ { s.idle with mast := s.mast, win := s.win } = s) ∧
  (∀ s : State, s.mastHolds = true → s.passTime = s) ∧
  (∀ s : State, s.powered = false → s.timePasses = false → s.idle = s)

/-- A step takes the front command and leaves the rest in order.  Whatever command is at the front, the commands that wait after a
step are those that waited before it without the front one, in the same order: no command, and no tick, adds, drops or reorders
a waiting command. -/
def Obligations.QueueOnlyConsumed : Prop :=
  ∀ s t : State, step s = .next t → t.pending = s.pending.tail

/-- Every command answers a next state in every state.  No command of the table faults or refuses in any state, so every step goes:
each of the 281 commands answers a next state. -/
def Obligations.EveryCommandAnswers : Prop :=
  (∀ (c : Instr) (s : State), ∃ t, exec c s = .next t) ∧
  (∀ s : State, Goes s)

/-- A programmed fuse bit stays programmed.  For every fuse word and every mask: no step of any kind, and so no command sequence,
clears a bit of the mask once all of its bits are programmed. -/
def Obligations.FuseBitsStay : Prop :=
  ∀ word m : Nat, KeptByStep (HasFuseBits · word m)

/-- No fuse bit is programmed at reset (the model's choice, see the assumption log).  At reset every fuse word reads 0, so the
invariant of O5 holds of exactly the empty masks there. That a new part has no bit programmed is the model's choice. -/
def Obligations.FuseBitsAtReset : Prop :=
  ∀ word m : Nat, HasFuseBits State.reset word m ↔ m = 0

/-- Steering the Mast: phase, step, slew and frequency.  With the register space open and software steering, MAST_PHASE_LO commits a
phase request of the signed 64-bit value: with PH_MODE 0 it joins REM within the bound, on the beat with the other requests of its
window; with PH_MODE 1 while the Mast is not set in Sail it waits as a step. Under SHARED INJ adds it up; under HW it is ignored and
logs 0x0501, as is MAST_FREQ under HW and SHARED. STEP_APPLY adds the waiting step to the Mast, discards REM and sets SET. SLEW_DONE
is the beat on which REM gives its remainder up. The ramp update moves MAST_FREQ_EFF toward MAST_FREQ by at most RAMP. MAST_FREQ takes
a new target, which MAST_FREQ_EFF takes at the next beat while SET is 0. SLEW_CANCEL makes REM 0, or what other paths of its window
requested. Each says what stays as it was. -/
def Obligations.MastSteering : Prop :=
  (∀ (p : Path) (lo : Word) (s : State), Open s → s.authority = 2 → s.wideMirrored F.MAST_PHASE_LO = false →
      s.bit F.MAST_CTRL_PH_MODE = false → s.beatRuns = true →
      Runs (.phaseCommit p lo) s fun t =>
        t.mast.rem = clampInt (-2 ^ 78) (2 ^ 78)
          (s.mast.remWas.getD s.mast.rem + (s.mast.afterStep + signed 64 (s.commitWide p F.MAST_PHASE_LO lo).1) * 2 ^ 38) ∧
        { t.mast with rem := s.mast.rem, remWas := s.mast.remWas, afterStep := s.mast.afterStep } = s.mast ∧
        t.wide F.MAST_PHASE_LO = (s.commitWide p F.MAST_PHASE_LO lo).1 % 2 ^ 64 ∧
        OnlyFields (bothWords F.MAST_PHASE_LO) s t ∧ { t with regs := s.regs, mast := s.mast, paths := s.paths, win := s.win } = s) ∧
  (∀ (p : Path) (lo : Word) (s : State), Open s → s.authority = 2 → s.wideMirrored F.MAST_PHASE_LO = false →
      s.bit F.MAST_CTRL_PH_MODE = false → s.beatRuns = false → s.mast.step = none →
      (s.mast.rem + signed 64 (s.commitWide p F.MAST_PHASE_LO lo).1 * 2 ^ 38).natAbs ≤ 2 ^ 78 →
      Runs (.phaseCommit p lo) s fun t =>
        t.mast = { s.mast with rem := s.mast.rem + signed 64 (s.commitWide p F.MAST_PHASE_LO lo).1 * 2 ^ 38 } ∧
        t.wide F.MAST_PHASE_LO = (s.commitWide p F.MAST_PHASE_LO lo).1 % 2 ^ 64 ∧
        OnlyFields (bothWords F.MAST_PHASE_LO) s t ∧ { t with regs := s.regs, mast := s.mast, paths := s.paths } = s) ∧
  (∀ (p : Path) (lo : Word) (s : State), Open s → s.authority = 2 → s.wideMirrored F.MAST_PHASE_LO = false →
      s.bit F.MAST_CTRL_PH_MODE = true → (s.inSail && s.bit F.MAST_STATUS_SET) = false → s.win.setWas = none → s.mastHolds = false →
      Runs (.phaseCommit p lo) s fun t =>
        t.mast = { s.mast with step := some (s.mast.step.getD 0 + signed 64 (s.commitWide p F.MAST_PHASE_LO lo).1) } ∧
        OnlyFields (bothWords F.MAST_PHASE_LO) s t ∧ { t with regs := s.regs, mast := s.mast, paths := s.paths } = s) ∧
  (∀ (p : Path) (lo : Word) (s : State), Open s → s.authority = 1 → s.wideMirrored F.MAST_PHASE_LO = false →
      Runs (.phaseCommit p lo) s fun t =>
        t.wide F.DSC_INJ_LO = unsigned 64 (signed 64 (s.wide F.DSC_INJ_LO) + signed 64 (s.commitWide p F.MAST_PHASE_LO lo).1) ∧
        t.wide F.MAST_PHASE_LO = (s.commitWide p F.MAST_PHASE_LO lo).1 % 2 ^ 64) ∧
  (∀ (p : Path) (lo : Word) (s : State), Open s → s.authority = 0 →
      Runs (.phaseCommit p lo) s fun t => Logs 0x0501 F.MAST_PHASE_LO s t ∧ t.bit F.DSC_EVENT_AUTH_REFUSED = true ∧
        OnlyAndLog [F.DSC_EVENT_AUTH_REFUSED] s t) ∧
  (∀ (s : State) (q : Int), s.mast.step = some q → s.mast.afterStep = 0 →
      Runs .stepApply s fun t =>
        t.mast.acc = (((s.mast.acc : Int) + q * 2 ^ 38) % 2 ^ 102).toNat ∧ t.mast.rem = 0 ∧ t.mast.step = none ∧
        t.bit F.MAST_STATUS_SET = true ∧ t.win.stepped = true ∧
        OnlyFields (F.MAST_STATUS_SET :: bothWords F.DSC_MODEL_T0_LO) s t ∧ { t with regs := s.regs, mast := s.mast, win := s.win } = s) ∧
  (∀ s : State, s.beatRuns = true → s.mast.step = none → s.mast.remWas = none → s.mast.rem ≠ 0 → s.slewTerm = s.mast.rem →
      s.passTime.mast.rem = 0 ∧ s.passTime.mast.acc = (s.mast.acc + s.inc) % 2 ^ 102 ∧ s.passTime.bit F.MAST_EVENT_SLEW_DONE = true ∧
      OnlyFields [F.MAST_EVENT_SLEW_DONE, F.MAST_FREQ_EFF_FREQ] s s.passTime ∧
      { s.passTime with regs := s.regs, mast := s.mast, sup := s.sup, win := s.win } = s ∧
      Runs .slewDone s fun t => t = s.idle) ∧
  (∀ s : State, s.beatRuns = true → s.bit F.MAST_STATUS_SET = true → s.mast.rampIdx < s.now / 4000000 →
      Runs .freqRampUpdate s fun t =>
        t.sfld F.MAST_FREQ_EFF_FREQ = s.sfld F.MAST_FREQ_EFF_FREQ +
          clampInt (-s.rampMax) s.rampMax (s.sfld F.MAST_FREQ_FREQ - s.sfld F.MAST_FREQ_EFF_FREQ) ∧
        t.mast = { s.mast with rampIdx := s.now / 4000000 } ∧
        OnlyFields [F.MAST_FREQ_EFF_FREQ] s t ∧ { t with regs := s.regs, mast := s.mast } = s) ∧
  (∀ (p : Path) (v : Word) (s : State), Open s → s.authority = 2 → s.mirrorMask F.MAST_FREQ = 0 →
      Runs (.mastFreqWrite p v) s fun t => t.reg F.MAST_FREQ = v ∧ Only [F.MAST_FREQ_FREQ] s t) ∧
  (∀ (p : Path) (v : Word) (s : State), Open s → s.authority ≠ 2 →
      Runs (.mastFreqWrite p v) s fun t => Logs 0x0501 F.MAST_FREQ s t ∧ t.bit F.DSC_EVENT_AUTH_REFUSED = true ∧
        OnlyAndLog [F.DSC_EVENT_AUTH_REFUSED] s t) ∧
  (∀ s : State, s.beatRuns = true → s.mast.step = none → s.bit F.MAST_STATUS_SET = false →
      s.passTime.fld F.MAST_FREQ_EFF_FREQ = s.fld F.MAST_FREQ_FREQ) ∧
  (∀ s : State, Open s → s.mast.remWas = none →
      Runs .slewCancel s fun t => t.mast.rem = 0 ∧ { t.mast with rem := s.mast.rem, afterStep := s.mast.afterStep } = s.mast ∧
        { t with mast := s.mast } = s) ∧
  (∀ s : State, Open s → s.beatRuns = true → s.mast.remWas.isSome = true →
      Runs .slewCancel s fun t => t.mast.rem = clampInt (-2 ^ 78) (2 ^ 78) (s.mast.afterStep * 2 ^ 38) ∧
        { t with mast := s.mast, win := s.win } = s)

/-- The Mast's marks, its PLL, REFIN, XT32 and the calibration window.  MARK_SET sets SET. UNSET clears it in Hoist; in Sail it logs
0x0404 and raises UNSET_REFUSED. In Hoist, losing REFIN clears REF_OK with 0x0402 and its return sets it. XT32 stopping while
the beat runs clears XT_OK with 0x0407 and cuts the window; its return sets XT_OK and adds no tick, and a window follows. Lock of the
Mast PLL sets PLL_LOCK and REF_OK and takes the Mast out of the 32 kHz domain, without changing its value; unlock clears PLL_LOCK, with
0x0401 and REFIN_SEL while REFIN is present, and cuts the window. A calibration window whose advance is exactly the nominal 1/32,768 s for each tick stores the nominal tick and 0 ppb and sets
RCAL_VALID. -/
def Obligations.MastConditions : Prop :=
  (∀ s : State, Open s → s.bit F.HOIST_CAUSE_VBAT_LOST = false →
      Runs .markSet s fun t => t.bit F.MAST_STATUS_SET = true ∧ OnlyFields [F.MAST_STATUS_SET] s t ∧ { t with regs := s.regs, win := s.win } = s) ∧
  (∀ s : State, Open s → s.inHoist = true →
      Runs .unset s fun t => t.bit F.MAST_STATUS_SET = false ∧ OnlyFields [F.MAST_STATUS_SET] s t ∧ { t with regs := s.regs, win := s.win } = s) ∧
  (∀ s : State, s.inSail = true →
      Runs .unset s fun t => Logs 0x0404 0 s t ∧ t.bit F.MAST_EVENT_UNSET_REFUSED = true ∧
        OnlyAndLog [F.MAST_EVENT_UNSET_REFUSED] s t) ∧
  (∀ s : State, s.inHoist = true → s.bit F.MAST_STATUS_REF_OK = true →
      Runs .refinLoss s fun t => t.bit F.MAST_STATUS_REF_OK = false ∧ Logs 0x0402 0 s t ∧ t.bit F.MAST_EVENT_REF_LOST = true ∧
        OnlyAndLog [F.MAST_STATUS_REF_OK, F.MAST_EVENT_REF_LOST] s t) ∧
  (∀ s : State, s.inHoist = true →
      Runs .refinReturn s fun t => t.bit F.MAST_STATUS_REF_OK = true ∧ Only [F.MAST_STATUS_REF_OK] s t) ∧
  (∀ s : State, s.bit F.MAST_STATUS_XT_OK = true → s.bit F.MAST_STATUS_DOMAIN = false →
      Runs .xt32Stop s fun t => t.bit F.MAST_STATUS_XT_OK = false ∧ t.mast = { s.mast with window := none, windowAt := none } ∧ Logs 0x0407 0 s t ∧
        t.bit F.MAST_EVENT_XT_STOP = true ∧ OnlyFields (F.MAST_STATUS_XT_OK :: F.MAST_EVENT_XT_STOP :: collectorFields) s t) ∧
  (∀ s : State, s.bit F.MAST_STATUS_XT_OK = false → s.bit F.MAST_STATUS_DOMAIN = false →
      Runs .xt32Resume s fun t => t.bit F.MAST_STATUS_XT_OK = true ∧ t.mast.acc = s.mast.acc ∧ t.mast.windowAt.isSome = true ∧
        OnlyFields [F.MAST_STATUS_XT_OK] s t ∧ { t with regs := s.regs, mast := s.mast, fresh := s.fresh } = s) ∧
  (∀ s : State, s.bit F.MAST_STATUS_XT_OK = false → s.bit F.MAST_STATUS_DOMAIN = true → s.mast.xtTicks = false →
      Runs .xt32Resume s fun t => t.bit F.MAST_STATUS_XT_OK = true ∧ t.mast = s.mast ∧ Only [F.MAST_STATUS_XT_OK] s t) ∧
  (∀ s : State, s.powered = true → s.bit F.MAST_STATUS_PLL_LOCK = false → (s.inSail || s.hoist.refinLoaded) = true →
      Runs .mastPllLock s fun t => t.bit F.MAST_STATUS_PLL_LOCK = true ∧ t.bit F.MAST_STATUS_REF_OK = true ∧
        t.bit F.MAST_STATUS_DOMAIN = false ∧ t.mast.acc = s.mast.acc ∧ t.now = s.now ∧
        OnlyFields [F.MAST_STATUS_PLL_LOCK, F.MAST_STATUS_REF_OK, F.MAST_STATUS_DOMAIN, ⟨F.HST_PLL_STATUS, 0, 1⟩] s t ∧
        { t with regs := s.regs, mast := s.mast } = s) ∧
  (∀ s : State, s.powered = true → s.bit F.MAST_STATUS_PLL_LOCK = true → s.bit F.MAST_STATUS_REF_OK = true → s.beatRuns = true → s.hoistAt 7 = false →
      Runs .mastPllUnlock s fun t => t.bit F.MAST_STATUS_PLL_LOCK = false ∧ t.mast = { s.mast with window := none, windowAt := none } ∧
        LogsFirst 0x0401 (s.fld F.MAST_PLL_CFG_REFIN_SEL) s t ∧ t.bit F.MAST_EVENT_PLL_UNLOCK = true ∧
        OnlyFields ([F.MAST_STATUS_PLL_LOCK, F.MAST_EVENT_PLL_UNLOCK, ⟨F.HST_PLL_STATUS, 0, 1⟩] ++ collectorFields) s t) ∧
  (∀ s : State, s.powered = true → s.bit F.MAST_STATUS_PLL_LOCK = true → s.bit F.MAST_STATUS_REF_OK = false → s.hoistAt 7 = false →
      Runs .mastPllUnlock s fun t => t.bit F.MAST_STATUS_PLL_LOCK = false ∧ t.mast = { s.mast with window := none, windowAt := none } ∧
        OnlyFields [F.MAST_STATUS_PLL_LOCK, ⟨F.HST_PLL_STATUS, 0, 1⟩] s t ∧ { t with regs := s.regs, mast := s.mast } = s) ∧
  (∀ (s : State) (start : Nat) (slew : Int), s.mast.window = some (start, slew) →
      (((s.mast.acc + 2 ^ 102 - start) % 2 ^ 102 : Nat) : Int) - (s.mast.slewSum - slew) = nominalTick * (2 ^ 14 * 2097152) →
      Runs .rcalWindowComplete s fun t => t.wide F.MAST_RCAL_LO = nominalTick ∧ t.reg F.MAST_RCAL_PPB = 0 ∧
        t.bit F.MAST_STATUS_RCAL_VALID = true ∧ t.mast.age = 0 ∧
        OnlyFields (F.MAST_STATUS_RCAL_VALID :: whole F.MAST_RCAL_PPB :: bothWords F.MAST_RCAL_LO) s t)

/-- Power-up, PORST_N, supply dropout and loss of VBAT.  Good supplies start a Hoist of CAUSE 0x1 and the release of PORST_N one of
CAUSE 0x2, each with the fuses, the flashes and, with VBAT kept, the Mast as they were, and with the collector and the SRAM
empty. PORST_N asserted in a powered device stops the core with every output off; while the core is down it is only held. A
dropout without PFI stops the core and is remembered in DROPOUT. VDDF out of range turns the outputs off and ends the stay role.
Loss of VBAT loses the Mast, the key and every register but those that show what stands at the balls, and keeps the fuses and
the flashes. -/
def Obligations.PowerUpAndReset : Prop :=
  (∀ s : State, s.dev.mode = .off → s.dev.supplies = false →
      Runs .por s fun t => t.dev.mode = .hoist ∧ t.dev.cause = 1 ∧ t.dev.supplies = true ∧ t.dev.outOn = false ∧
        t.mast.acc = (if s.dev.vbatLost then 0 else s.mast.acc) ∧ t.keys.fuse = s.keys.fuse ∧ t.keys.bbk = s.keys.bbk ∧
        t.flash.mem = s.flash.mem ∧ t.xflash = s.xflash ∧ t.errs = [] ∧ t.sram = []) ∧
  (∀ s : State, s.dev.porst = true → s.powered = false → s.dev.supplies = true →
      Runs .porstNRelease s fun t => t.dev.mode = .hoist ∧ t.dev.cause = 2 ∧ t.dev.porst = false ∧ t.dev.outOn = false ∧
        t.mast.acc = (if s.dev.vbatLost then 0 else s.mast.acc) ∧ t.keys.fuse = s.keys.fuse ∧ t.keys.bbk = s.keys.bbk ∧
        t.flash.mem = s.flash.mem ∧ t.xflash = s.xflash ∧ t.errs = [] ∧ t.sram = []) ∧
  (∀ (lag : Nat) (s : State), s.powered = true →
      Runs (.porstNAssert lag) s fun t => t.dev.mode = .off ∧ t.dev.porst = true ∧ t.dev.outOn = false ∧
        t.bit F.MODE_STATUS_REEFING = false ∧ t.mast.step = none) ∧
  (∀ (lag : Nat) (s : State), s.powered = false →
      Runs (.porstNAssert lag) s fun t => t = { s with dev := { s.dev with porst := true } }) ∧
  (∀ (lag : Nat) (s : State), s.powered = true → s.bit F.PWR_STATUS_PFI = false → s.bit F.MODE_STATUS_REEFING = false →
      Runs (.supplyDropout lag) s fun t => t.dev.mode = .off ∧ t.dev.supplies = false ∧ t.dev.outOn = false ∧
        t.bit F.PWR_REEF_STATUS_DROPOUT = true) ∧
  (∀ s : State, s.powered = true →
      Runs .vddfOutOfRange s fun t => t.dev = { s.dev with outOn := false } ∧ t.fld F.STY_STATUS_ROLE = 0 ∧
        OnlyFields [F.STY_STATUS_ROLE, F.STY_STATUS_WARM, F.STY_EVENT_ROLE_CHG, F.STY_STATUS_CONTEND] s t ∧
        { t with regs := s.regs, dev := s.dev } = s) ∧
  (∀ s : State, s.dev.supplies = false → s.powered = false →
      Runs .vbatLoss s fun t => t.mast.acc = 0 ∧ t.dev.vbatLost = true ∧ t.dev.mode = .off ∧ t.keys.bbk = [] ∧
        t.keys.fuse = s.keys.fuse ∧ t.flash = s.flash ∧ t.xflash = s.xflash ∧ t.bit F.HST_HAL_STATUS_DRIVE = false ∧
        ∀ a, ballsKeep a = 0 → a ≠ F.HST_HAL_STATUS → t.reg a = resetWord a)

/-- PFI, the Reef command, entry into Reef, the wakes and TAMPER.  With nothing under way, PFI in Sail and the Reef command with its
KEY begin the Reef entry sequence; PFI deasserted clears PFI, and restarts a paused Hoist with its CAUSE. The sequence ends in
Reef with the outputs off, the Mast in the 32 kHz domain and ENTRY saying what began it. A wake whose condition is met is held,
loss of the supplies in Reef arms the power-good wake, and a held wake starts a Hoist of CAUSE 0x3. TAMPER in Reef zeroises the
battery-backed key and sets TAMPERED. -/
def Obligations.ReefEntryAndWake : Prop :=
  (∀ s : State, s.inSail = true → s.bit F.PWR_STATUS_PFI = false → s.bit F.MODE_STATUS_REEFING = false → Still s →
      Runs .pfiAssert s fun t => t.bit F.PWR_STATUS_PFI = true ∧ t.bit F.MODE_STATUS_REEFING = true ∧
        t.bit F.PWR_STATUS_CHARGING = false ∧ t.bit F.PWR_STATUS_LOOP_RUN = false ∧ t.bit F.PWR_EVENT_REEF = true ∧
        t.pwr.byPfi = true ∧ t.reg F.TMR_REEF_WAKE = 0 ∧
        OnlyFields [F.PWR_STATUS_PFI, F.MODE_STATUS_REEFING, F.PWR_STATUS_CHARGING, F.PWR_STATUS_LOOP_RUN, F.PWR_EVENT_REEF, whole F.TMR_REEF_WAKE] s t ∧
        { t with regs := s.regs, pwr := s.pwr, win := s.win } = s) ∧
  (∀ s : State, (s.inHoist && s.bit F.MODE_STATUS_PFI_PAUSED && s.dev.supplies) = false →
      Runs .pfiDeassert s fun t => t.bit F.PWR_STATUS_PFI = false ∧ Only [F.PWR_STATUS_PFI] s t) ∧
  (∀ s : State, s.inHoist = true → s.bit F.MODE_STATUS_PFI_PAUSED = true → s.dev.supplies = true →
      Runs .pfiDeassert s fun t => t.dev.mode = .hoist ∧ t.dev.cause = s.dev.cause ∧ t.hoist.restart = true ∧ t.dev.outOn = false) ∧
  (∀ (p : Path) (v : Word) (s : State), s.inSail = true → s.bit F.MODE_STATUS_REEFING = false → Still s →
      v.getLsbD 0 = true → bits v.toNat 31 16 = 0x5057 →
      Runs (.reefCommand p v) s fun t => t.bit F.MODE_STATUS_REEFING = true ∧
        t.bit F.PWR_STATUS_CHARGING = false ∧ t.bit F.PWR_STATUS_LOOP_RUN = false ∧ t.bit F.PWR_EVENT_REEF = true ∧
        t.pwr.byPfi = false ∧ t.reg F.TMR_REEF_WAKE = 0 ∧
        OnlyFields [F.MODE_STATUS_REEFING, F.PWR_STATUS_CHARGING, F.PWR_STATUS_LOOP_RUN, F.PWR_EVENT_REEF, whole F.TMR_REEF_WAKE] s t ∧
        { t with regs := s.regs, pwr := s.pwr, win := s.win } = s) ∧
  (∀ s : State, s.inSail = true → s.bit F.PWR_STATUS_PFI = false → s.bit F.MODE_STATUS_REEFING = true → s.win.reef ≠ some false →
      s.win.flashCall = none →
      Runs .pfiAssert s fun t => t.bit F.PWR_STATUS_PFI = true ∧ t.pwr = s.pwr ∧ Only [F.PWR_STATUS_PFI] s t) ∧
  (∀ s : State, s.inSail = true → s.bit F.MODE_STATUS_REEFING = true → s.pwr.reefSnapDone = true → s.pwr.reefPushDone = true →
      s.stay.pushing = false → Still s →
      Runs .reefEntryComplete s fun t => t.dev.mode = .reef ∧ t.dev.outOn = false ∧ t.bit F.MODE_STATUS_REEFING = false ∧
        t.bit F.MAST_STATUS_DOMAIN = true ∧ t.fld F.PWR_REEF_STATUS_ENTRY = (if s.pwr.byPfi then 1 else 2) ∧
        t.fld F.STY_STATUS_ROLE = 0 ∧ t.sram = s.sram ∧ t.flash = s.flash ∧ t.xflash = s.xflash ∧ t.keys = s.keys ∧ t.errs = s.errs) ∧
  (∀ (n : Fin 2) (s : State), s.dev.mode = .reef → s.fld F.PWR_WAKE_CFG_WAKE0 ≠ 0 → s.fld F.PWR_WAKE_CFG_WAKE1 ≠ 0 →
      Runs (.wakeLatch n) s fun t =>
        t.pwr = (if n.val = 0 then { s.pwr with wake0 := true } else { s.pwr with wake1 := true }) ∧ { t with pwr := s.pwr } = s) ∧
  (∀ (lag : Nat) (s : State), s.dev.mode = .reef →
      Runs (.coreSuppliesLost lag) s fun t =>
        t.dev = { s.dev with supplies := false, seenNotGood := true } ∧ { t with dev := s.dev } = s) ∧
  (∀ s : State, s.dev.mode = .reef → s.dev.porst = false → s.pwr.wake1 = true →
      Runs .reefWake s fun t => t.dev.mode = .hoist ∧ t.dev.cause = 3 ∧ t.dev.wakes / 2 % 2 = 1 ∧ t.dev.supplies = true ∧
        t.mast.acc = (if s.dev.vbatLost then 0 else s.mast.acc) ∧ t.keys.fuse = s.keys.fuse ∧ t.flash.mem = s.flash.mem) ∧
  (∀ s : State, s.powered = false → s.win.bbkLoad = none →
      Runs .tamper s fun t => t.keys.bbk = [] ∧ t.keys.bbkZeroised = true ∧ t.keys.tamperUnlogged = true ∧
        t.bit F.IMG_STATUS_TAMPERED = true ∧ OnlyFields [F.IMG_STATUS_TAMPERED, F.IMG_STATUS_BBK_VALID, whole F.IMG_BBK_KCV_LO, whole F.IMG_BBK_KCV_HI] s t ∧
        { t with regs := s.regs, keys := s.keys, win := s.win } = s)

/-- ROM boot, the source, the directory, a host path's words and HST_CMD.  ROM boot stores the straps, the pull fuses and the cause;
its end at 0.80 V probes the external flash and moves to the directory read; with no flash there the golden image is the one
candidate. On a host path the first word starts an attempt, the next are buffered, and a word that does not come fails the
attempt and waits again. HST_CMD with its KEY rehoists (CAUSE 0x4) or, in Sail, starts a host load (CAUSE 0x5). -/
def Obligations.HoistBootAndSource : Prop :=
  (∀ (straps : BitVec 11) (fails : List Nat) (s : State), s.hoistAt 2 = true → s.hoist.booted = false → s.dev.porst = false →
      s.flash.op = none → s.hoist.waitsFlash = false →
      Runs (.romBoot straps fails) s fun t => t.hoist.booted = true ∧ t.reg F.HST_STRAPS = straps.setWidth 32 ∧
        t.reg F.HST_PULL_FUSE = BitVec.ofNat 32 (s.fuseWord 35) ∧ t.wide F.HST_T_START_LO = s.now ∧
        t.fld F.HOIST_CAUSE_CAUSE = s.dev.cause % 16 ∧ t.dev.vbatLost = false) ∧
  (∀ (mV : Nat) (late : Bool) (p : FlashProbe) (s : State), s.hoistAt 2 = true → s.hoist.booted = true → 790 ≤ mV → mV ≤ 810 →
      s.bit F.PWR_STATUS_PFI = false → s.hoist.path = none → s.fld F.HST_STRAPS_BOOTSEL = 0 →
      Runs (.romBootComplete mV late p) s fun t => t.hoistStep = 4 ∧ t.hoist.src = 0 ∧ t.fld F.PWR_VDDF_MEAS_MV = mV ∧
        t.bit F.HST_FLASH_INFO_PRESENT = p.present ∧ t.bit F.HST_FLASH_INFO_SFDP_OK = (p.signature && p.major == 1)) ∧
  (∀ (noise : List (Nat × Byte)) (s : State), s.hoistAt 4 = true → s.bit F.HST_FLASH_INFO_PRESENT = false →
      s.bit F.PWR_STATUS_PFI = false → s.hoist.src = 0 →
      Runs (.directoryRead noise) s fun t => t.hoistStep = 5 ∧ t.hoist.cands = [goldenCandidate] ∧ t.fld F.BOOT_STATUS_CAND = 2 ∧
        t.fld F.BOOT_STATUS_REASON = 2 ∧ t.bit F.MODE_STATUS_GOLDEN = true ∧ t.load.active = true ∧ t.load.src = .chip ∧
        t.load.base = 0x20000 ∧ t.load.hdr = none) ∧
  (∀ (p : Path) (w : Word) (s : State), Open s → s.inHoist = true → s.hoist.src = 3 → 5 ≤ s.hoistStep →
      s.bit F.MODE_STATUS_PFI_PAUSED = false → s.bit F.MODE_STATUS_PARKED = false → s.bit F.HST_HOST_STATUS_WAITING = false →
      s.load.ended = false → s.hbuf.length < 64 →
      Runs (.hostDataWord p w) s fun t => t.hbuf = s.hbuf ++ [w] ∧ t.fld F.HST_HOST_STATUS_HBUF_FREE = 63 - s.hbuf.length ∧
        OnlyFields [F.HST_HOST_STATUS_HBUF_FREE] s t ∧ { t with regs := s.regs, hbuf := s.hbuf } = s) ∧
  (∀ (p : Path) (w : Word) (s : State), Open s → s.inHoist = true → s.hoist.src = 3 → 5 ≤ s.hoistStep →
      s.bit F.MODE_STATUS_PFI_PAUSED = false → s.bit F.MODE_STATUS_PARKED = false → s.bit F.HST_HOST_STATUS_WAITING = true →
      Runs (.hostDataWord p w) s fun t => t.hbuf = [w] ∧ t.bit F.HST_HOST_STATUS_WAITING = false ∧
        t.bit F.HST_HOST_STATUS_BUSY = true ∧ t.hoist.attempts = s.hoist.attempts + 1 ∧ t.load.active = true ∧ t.load.hdr = none) ∧
  (∀ s : State, s.loading = true → s.hostSourced = true → s.bit F.HST_HOST_STATUS_WAITING = false →
      Runs .hostWordTimeout s fun t => t.bit F.HST_HOST_STATUS_WAITING = true ∧ t.hbuf = [] ∧ t.dev.outOn = false ∧
        t.load.active = false ∧ t.pcfg = []) ∧
  (∀ (p : Path) (v : Word) (s : State), Open s → bits v.toNat 31 16 = 0x4853 → v.toNat % 4 = 1 →
      Runs (.rehoist p v) s fun t => t.dev.mode = .hoist ∧ t.dev.cause = 4 ∧ t.hoist.path = none ∧ t.hoist.booted = false ∧
        t.dev.outOn = false ∧ t.mast.acc = s.mast.acc ∧ t.load.active = false) ∧
  (∀ (p : Path) (v : Word) (s : State), s.inSail = true → bits v.toNat 31 16 = 0x4853 → v.toNat / 2 % 2 = 1 →
      Runs (.hostLoad p v) s fun t => t.dev.mode = .hoist ∧ t.dev.cause = 5 ∧ t.hoist.path = some 3 ∧ t.hoist.booted = false ∧
        t.dev.outOn = false ∧ t.mast.acc = s.mast.acc ∧ t.load.active = false)

/-- A write of HST_CMD with a wrong KEY.  A write of HST_CMD whose KEY is not 0x4853, with either of its commands set, changes
nothing and logs 0x010A. -/
def Obligations.WrongHoistKey : Prop :=
  ∀ (p : Path) (v : Word) (s : State), Open s → bits v.toNat 31 16 ≠ 0x4853 →
      (Runs (.rehoist p v) s fun t => Logs 0x010A v.toNat s t ∧ OnlyAndLog [] s t) ∧ (Runs (.hostLoad p v) s fun t => Logs 0x010A v.toNat s t ∧ OnlyAndLog [] s t)

/-- The header and the records of a full image, the clock-loop wait, the halyard and the release.  From a host path, a header that
verifies is taken and moves the engine past its 512 bytes, and one that does not leaves no header; a SEED or KEYROLL record that
opens moves the engine past it and counts it (a seed is kept), and one that does not fails the attempt. With every requested PLL
locked the clock-loop wait ends and HALYARD is released; its timeout fails the attempt. HALYARD high, or its timeout, begins the
staged release; each stage waits for its gap, and the third is entry into Sail. -/
def Obligations.ImageLoadAndRelease : Prop :=
  (∀ (answers : Bool) (noise : List (Nat × Byte)) (errs : List (Nat × Nat)) (s : State), s.loading = true → s.load.hdr = none →
      s.load.src = .spi → 512 ≤ s.load.got.length → s.bit F.PWR_STATUS_PFI = false → s.hostSourced = true →
      Runs (.imageHeader answers noise errs) s fun t =>
        match (s.verifyHeader (s.load.got.take 512) false false).1 with
        | .inr (h, key, digest) => t.load = { s.load with hdr := some h, key := key, digest := digest, pos := s.load.pos + 512,
                                                          got := s.load.got.drop 512 }
        | .inl _ => t.load.hdr = none ∧ t.load.active = false ∧ t.bit F.HST_HOST_STATUS_WAITING = true) ∧
  (∀ (noise : List (Nat × Byte)) (errs : List (Nat × Nat)) (h : ImageHeader) (s : State), s.loading = true → s.load.hdr = some h →
      s.load.src = .spi → 16 ≤ s.load.got.length → s.bit F.PWR_STATUS_PFI = false → s.hostSourced = true →
      recordHeaderFault h s.load (s.load.got.take 16) (recordOf (s.load.got.take 16) h.trailer) = none →
      s.recordNeeds h [] ≤ s.load.got.length →
      Runs (.imageRecord noise errs) s fun t =>
        match openRecord h s.load (s.load.got.take (s.recordNeeds h [])) false with
        | .inr (r, p, _) => r.type = 5 ∨ r.type = 6 → t.load.pos = s.load.pos + 16 + r.len + h.trailer ∧
            t.load.index = s.load.index + 1 ∧ t.load.got = s.load.got.drop (s.recordNeeds h []) ∧
            (r.type = 5 → t.load.seed = some (p, r.flags / 2 % 2 == 1))
        | .inl _ => t.load.active = false ∧ t.bit F.HST_HOST_STATUS_WAITING = true) ∧
  (∀ (codes : List Nat) (s : State), s.hoistAt 6 = true →
      (∀ i ∈ List.range 14, s.fld F.HST_PLL_STATUS_REQ / 2 ^ i % 2 = 0 ∨ s.fld F.HST_PLL_STATUS_LOCK / 2 ^ i % 2 = 1) →
      Runs (.clockLoopWaitEnd codes) s fun t => t.hoistStep = 7 ∧ t.bit F.HST_HAL_STATUS_DRIVE = false) ∧
  (∀ s : State, s.hoistAt 6 = true → s.hostSourced = true →
      Runs .clockLoopTimeout s fun t => t.hoistStep = 5 ∧ t.bit F.HST_HOST_STATUS_WAITING = true ∧ t.dev.outOn = false ∧ t.hbuf = []) ∧
  (∀ s : State, s.hoistAt 7 = true → s.hoist.stage = 0 → s.reg F.HST_REL_GAP1 ≠ 0 →
      Runs .halyardTaken s fun t => t.hoistStep = 8 ∧ t.bit F.HST_HAL_STATUS_TAKEN = true ∧ t.hoist.stage = 1 ∧
        t.hoist.stageAt = (s.now + (s.reg F.HST_REL_GAP1).toNat) % 2 ^ 64 ∧ t.dev.mode = .hoist) ∧
  (∀ s : State, s.hoistAt 7 = true → s.hoist.stage = 0 → s.reg F.HST_REL_GAP1 ≠ 0 → s.fld F.HST_HAL_CFG_TO_MS ≠ 0 →
      Runs .halyardTimeout s fun t => t.hoistStep = 8 ∧ t.bit F.HST_HAL_STATUS_TAKEN = true ∧ t.hoist.stage = 1 ∧
        t.bit F.BOOT_STATUS_HAL_ALONE = true ∧ t.bit F.HST_EVENT_HAL_ALONE = true ∧
        Logs 0x0108 (s.fld F.HST_HAL_CFG_TO_MS) s t) ∧
  (∀ s : State, s.hoistAt 8 = true → s.hoist.stage = 1 → s.reg F.HST_REL_GAP2 ≠ 0 → atOrAfter s.now s.hoist.stageAt = true →
      Runs .releaseStage s fun t => t.hoist.stage = 2 ∧ t.hoistStep = 8 ∧ t.dev.mode = .hoist ∧
        t.hoist.stageAt = (s.now + (s.reg F.HST_REL_GAP2).toNat) % 2 ^ 64) ∧
  (∀ s : State, s.hoistAt 8 = true → s.hoist.stage = 2 → atOrAfter s.now s.hoist.stageAt = true →
      Runs .releaseStage s fun t => t.inSail = true ∧ t.hoistStep = 0 ∧ t.fld F.MODE_STATUS_MODE = 1 ∧ t.bit F.HST_EVENT_SAIL = true)

/-- The sources of the discipline unit under software steering: PPS, ToD, PTP and SyncE.  Under SW steering in Sail: an edge of
PPS_IN is stamped, counted and its error measured within the second; its timeout, the PTP timeout and PTP_DISQ disqualify a qualified source
with 0x0502. A ToD second that matches the set Mast is accepted, one with no edge is refused with 0x0505. DSC_PTP_AT takes the
instant of the next sample; a sample of the last 2 s, taken since the last step, with no slew in between, is measured as
written, and one outside that age is refused. A SyncE measurement within its window is stored and counted. -/
def Obligations.DisciplineSources : Prop :=
  (∀ (level : Bool) (q : Fin 5) (s : State), s.inSail = true → s.swSteers = true → s.bit F.DSC_PPS_CFG_EDGE = !level → s.dsc.ppsPrev = none →
      s.bit (srcFld 1) = false → 1 < s.fld F.DSC_COUNTS_QUAL_N →
      Runs (.ppsInEdge ⟨level, q⟩) s fun t => t.wide F.DSC_PPS_STAMP_LO = (s.now + q.val) % 2 ^ 64 ∧
        t.wide F.DSC_LAST_ERR_LO = unsigned 64 (s.ppsError ((s.now + q.val) % 2 ^ 64)) ∧
        t.fld ⟨F.DSC_SAMPLE_CNT, 0, 32⟩ = (s.fld ⟨F.DSC_SAMPLE_CNT, 0, 32⟩ + 1) % 2 ^ 32 ∧
        t.dsc.ppsPrev = some ((s.now + q.val) % 2 ^ 64) ∧ t.dsc.ppsRun = 1 ∧ t.dsc.edgeSinceTod = true ∧
        OnlyFields ([F.DSC_STATUS_ACTIVE_SRC, F.DSC_STATUS_SYNCE_ACTIVE, whole F.DSC_SAMPLE_CNT] ++ bothWords F.DSC_PPS_STAMP_LO ++
          bothWords F.DSC_LAST_ERR_LO) s t ∧
        { t with regs := s.regs, dsc := s.dsc, fresh := s.fresh } = s) ∧
  (∀ (m : Nat) (s : State), s.inSail = true → s.swSteers = true → s.dsc.ppsPrev = some m →
      6000000000 ≤ s.since m → s.bit (srcFld 1) = true →
      Runs .ppsTimeout s fun t => t.bit (srcFld 1) = false ∧ Logs 0x0502 1 s t ∧ t.bit F.DSC_EVENT_SRC_DISQ = true ∧
        t.dsc = { s.dsc with ppsPrev := none, ppsRun := 0, ppsOuts := 0 } ∧ t.mast = s.mast) ∧
  (∀ (p : Path) (lo : Word) (s : State), Open s → s.inSail = true → s.wideMirrored F.DSC_TOD_SEC_LO = false →
      s.dsc.edgeSinceTod = true → (s.now + 2 ^ 64 - s.wide F.DSC_PPS_STAMP_LO) % 2 ^ 64 ≤ 3600000000 →
      s.bit F.MAST_STATUS_SET = true →
      (((s.commitWide p F.DSC_TOD_SEC_LO lo).1 % 2 ^ 48 : Nat) : Int) =
        ((s.wide F.DSC_PPS_STAMP_LO : Int) - s.ppsComp + 2000000000) / 4000000000 →
      Runs (.todCommit p lo) s fun t => t.wide F.DSC_TOD_SEC_LO = (s.commitWide p F.DSC_TOD_SEC_LO lo).1 % 2 ^ 48 ∧
        t.bit F.DSC_STATUS_TOD_MISMATCH = false ∧ t.dsc = { s.dsc with edgeSinceTod := false, todDone := true } ∧
        OnlyFields (F.DSC_STATUS_TOD_MISMATCH :: bothWords F.DSC_TOD_SEC_LO) s t ∧
        { t with regs := s.regs, dsc := s.dsc, paths := s.paths } = s) ∧
  (∀ (p : Path) (lo : Word) (s : State), Open s → s.inSail = true → s.wideMirrored F.DSC_TOD_SEC_LO = false →
      s.dsc.edgeSinceTod = false → s.dsc.todDone = false →
      Runs (.todCommit p lo) s fun t => Logs 0x0505 0xFFFFFFFF s t ∧ t.bit F.DSC_EVENT_TOD_BAD = true ∧ t.dsc = s.dsc ∧ t.mast = s.mast) ∧
  (∀ (p : Path) (lo : Word) (s : State), Open s → s.wideMirrored F.DSC_PTP_AT_LO = false →
      Runs (.ptpAtCommit p lo) s fun t => t.wide F.DSC_PTP_AT_LO = (s.commitWide p F.DSC_PTP_AT_LO lo).1 % 2 ^ 64 ∧
        t.dsc = { s.dsc with ptpAt := ((s.commitWide p F.DSC_PTP_AT_LO lo).1, s.mast.steps) } ∧
        OnlyFields (bothWords F.DSC_PTP_AT_LO) s t ∧ { t with regs := s.regs, dsc := s.dsc, paths := s.paths } = s) ∧
  (∀ (p : Path) (lo : Word) (s : State), Open s → s.inSail = true → s.swSteers = true → s.wideMirrored F.DSC_PTP_ERR_LO = false →
      s.dsc.ptpAt.1 ≤ s.now → s.now ≤ s.dsc.ptpAt.1 + 8000000000 → s.ptpBeforeStep = false → s.mast.slewHist = [] →
      s.dsc.ptpLast = none → s.dsc.ptpRun + 1 < s.fld F.DSC_COUNTS_QUAL_N →
      Runs (.ptpSampleCommit p lo) s fun t =>
        t.wide F.DSC_PTP_ERR_LO = (s.commitWide p F.DSC_PTP_ERR_LO lo).1 % 2 ^ 64 ∧
        t.wide F.DSC_LAST_ERR_LO = (s.commitWide p F.DSC_PTP_ERR_LO lo).1 % 2 ^ 64 ∧
        t.dsc.ptpRun = s.dsc.ptpRun + 1 ∧ t.dsc.ptpLast = some s.now ∧
        OnlyFields ([F.DSC_STATUS_ACTIVE_SRC, F.DSC_STATUS_SYNCE_ACTIVE, whole F.DSC_SAMPLE_CNT] ++ bothWords F.DSC_PTP_ERR_LO ++
          bothWords F.DSC_LAST_ERR_LO) s t ∧
        { t with regs := s.regs, dsc := s.dsc, paths := s.paths, fresh := s.fresh } = s) ∧
  (∀ (p : Path) (lo : Word) (s : State), Open s → s.inSail = true → s.wideMirrored F.DSC_PTP_ERR_LO = false →
      s.now < 2 ^ 62 → s.dsc.ptpAt.1 + 8000000000 < s.now →
      Runs (.ptpSampleCommit p lo) s fun t => t.bit F.DSC_EVENT_PTP_REFUSED = true ∧ t.dsc = s.dsc ∧ t.mast = s.mast) ∧
  (∀ (m : Nat) (s : State), s.inSail = true → s.dsc.ptpLast = some m →
      (s.reg F.DSC_PTP_TIMEOUT).toNat * 4000000 < s.since m → s.bit (srcFld 2) = false →
      Runs .ptpTimeout s fun t => t.dsc = { s.dsc with ptpRun := 0, ptpLast := none } ∧ { t with dsc := s.dsc } = s) ∧
  (∀ (m : Nat) (s : State), s.inSail = true → s.swSteers = true → s.dsc.ptpLast = some m →
      (s.reg F.DSC_PTP_TIMEOUT).toNat * 4000000 < s.since m → s.bit (srcFld 2) = true →
      Runs .ptpTimeout s fun t => t.bit (srcFld 2) = false ∧ Logs 0x0502 2 s t ∧ t.bit F.DSC_EVENT_SRC_DISQ = true ∧
        t.dsc = { s.dsc with ptpRun := 0, ptpLast := none } ∧ t.mast = s.mast) ∧
  (∀ s : State, Open s → s.inSail = true → s.swSteers = true → s.bit (srcFld 2) = true →
      Runs .ptpDisq s fun t => t.bit (srcFld 2) = false ∧ Logs 0x0502 2 s t ∧ t.bit F.DSC_EVENT_SRC_DISQ = true ∧
        t.dsc = { s.dsc with ptpRun := 0, ptpLast := none } ∧ t.mast = s.mast) ∧
  (∀ (meas : Word) (s : State), s.inSail = true → s.swSteers = true → s.bit F.DSC_SYNCE_CFG_EN = true →
      s.bit (F.LN_STATUS_PCS_LOCK (s.fld F.DSC_SYNCE_CFG_LANE)) = true →
      (signed 32 meas.toNat).natAbs * 1000000 ≤ s.fld F.DSC_SYNCE_CFG_SYNCE_WIN * 2 ^ 40 →
      s.dsc.synceRun + 1 < s.fld F.DSC_COUNTS_QUAL_N →
      Runs (.synceMeasurement meas) s fun t => t.reg F.DSC_SYNCE_MEAS = meas ∧ t.dsc = { s.dsc with synceRun := s.dsc.synceRun + 1 } ∧
        OnlyFields [whole F.DSC_SYNCE_MEAS] s t ∧ { t with regs := s.regs, dsc := s.dsc } = s)

/-- STEER_AUTH, INJ, the oscillator model, its snapshots and PPS_OUT.  In Hoist a change of STEER_AUTH takes the authority, gives I
the frequency in effect less SW_OFFSET unless SW takes over, and leaving SHARED clears INJ and SW_OFFSET; 0b11 is refused with
0x050F. INJ_CLEAR clears INJ. Outside holdover MODEL_RESET and a write of TREF clear the model and set its t0 to the Mast; in
holdover they are refused. A good epoch adds 16 s of training. The prediction writes the model's frequency to MAST_FREQ in FREE-RUN. A snapshot request with nothing new to keep reports RESULT 1 with its reason; one with a new epoch starts the program of a record. PPS_OUT rises at its instant for OUT_WIDTH. -/
def Obligations.DisciplineControlAndModel : Prop :=
  (∀ (p : Path) (auth : Fin 4) (s : State), Open s → s.inHoist = true → s.mirrorMask F.DSC_CTRL = 0 → auth.val ≠ 3 →
      auth.val ≠ s.fld F.DSC_CTRL_STEER_AUTH →
      Runs (.steerAuthWrite p auth) s fun t => t.fld F.DSC_CTRL_STEER_AUTH = auth.val ∧
        (auth.val ≠ 2 → t.reg F.DSC_INTEG =
          BitVec.ofNat 32 (unsigned 32 (s.sfld F.MAST_FREQ_EFF_FREQ - signed 32 (s.reg F.DSC_SW_OFFSET).toNat))) ∧
        (s.fld F.DSC_CTRL_STEER_AUTH = 1 → t.wide F.DSC_INJ_LO = 0 ∧ t.reg F.DSC_SW_OFFSET = 0) ∧
        OnlyFields ([F.DSC_CTRL_STEER_AUTH, whole F.DSC_INTEG, whole F.DSC_SW_OFFSET] ++ bothWords F.DSC_INJ_LO) s t ∧
        { t with regs := s.regs, dsc := s.dsc } = s) ∧
  (∀ (p : Path) (s : State), Open s → s.mirrorMask F.DSC_CTRL = 0 →
      Runs (.steerAuthWrite p 3) s fun t => Logs 0x050F F.DSC_CTRL s t ∧ t.bit F.DSC_EVENT_AUTH_REFUSED = true ∧
        OnlyAndLog [F.DSC_EVENT_AUTH_REFUSED] s t) ∧
  (∀ s : State, Open s → Runs .injClear s fun t => t.wide F.DSC_INJ_LO = 0 ∧ Only (bothWords F.DSC_INJ_LO) s t) ∧
  (∀ s : State, Open s → s.inHoldover = false →
      Runs .modelReset s fun t => t.fld F.DSC_MODEL_STATUS_TERMS = 0 ∧ t.bit F.DSC_STATUS_MODEL_USABLE = false ∧
        t.reg F.DSC_MODEL_TRAIN = 0 ∧ t.reg F.DSC_MODEL_SPAN = 0 ∧ t.wide F.DSC_MODEL_T0_LO = s.now ∧
        t.dsc = { s.dsc with coef := [0, 0, 0, 0], cov := List.replicate 10 0 } ∧
        OnlyFields ([F.DSC_MODEL_STATUS_TERMS, F.DSC_STATUS_MODEL_USABLE] ++ [F.DSC_MODEL_A0, F.DSC_MODEL_A1, F.DSC_MODEL_B1,
          F.DSC_MODEL_B2, F.DSC_MODEL_TRAIN, F.DSC_MODEL_SPAN].map whole ++ bothWords F.DSC_MODEL_T0_LO) s t ∧
        { t with regs := s.regs, dsc := s.dsc } = s) ∧
  (∀ s : State, Open s → s.inHoldover = true →
      Runs .modelReset s fun t => Logs 0x050F F.DSC_CTRL s t ∧ t.bit F.DSC_EVENT_AUTH_REFUSED = true ∧
        OnlyAndLog [F.DSC_EVENT_AUTH_REFUSED] s t) ∧
  (∀ (p : Path) (v : Word) (s : State), Open s → s.inHoldover = false → s.mirrorMask F.DSC_MODEL_TREF = 0 →
      Runs (.modelTrefWrite p v) s fun t => t.fld F.DSC_MODEL_TREF_TREF = v.toNat % 2 ^ 16 ∧ t.fld F.DSC_MODEL_STATUS_TERMS = 0 ∧
        t.wide F.DSC_MODEL_T0_LO = s.now ∧ t.dsc = { s.dsc with coef := [0, 0, 0, 0], cov := List.replicate 10 0 } ∧
        { t with regs := s.regs, dsc := s.dsc } = s) ∧
  (∀ s : State, s.epochGood = true →
      Runs .modelEpoch s fun t => t.fld ⟨F.DSC_MODEL_TRAIN, 0, 32⟩ = min (s.fld ⟨F.DSC_MODEL_TRAIN, 0, 32⟩ + 16) (2 ^ 32 - 1) ∧
        t.dsc.epochTemps = [] ∧ t.dsc.epochSteps = s.mast.steps ∧ t.dsc.dirty = true ∧ t.mast = s.mast) ∧
  (∀ (f : Int) (s : State), s.inSail = true → s.swSteers = false → s.bit F.DSC_CTRL_EN = true → s.fld F.DSC_CTRL_STEER_AUTH = 0 →
      s.dscState = 0 → s.modelUsable = true → s.bit F.MAST_STATUS_SET = true →
      s.modelNum = f * (2 ^ 48 * 14400000000000) → -2 ^ 31 ≤ f → f < 2 ^ 31 →
      Runs .modelPrediction s fun t => t.reg F.MAST_FREQ = BitVec.ofNat 32 (unsigned 32 f) ∧
        t.reg F.MAST_FREQ_EFF = s.reg F.MAST_FREQ_EFF ∧ t.mast = s.mast) ∧
  (∀ s : State, Open s → s.inSail = true → s.swSteers = false → s.upd.waits = false → s.flash.op = none → s.flash.inCall = false →
      s.bit F.SUP_STATUS_HALTED = false → s.dsc.dirty = false → s.journalUsed s.journalSector < 240 →
      Runs .snapNow s fun t => t.fld F.DSC_SNAP_STATUS_RESULT = 1 ∧ t.fld F.DSC_SNAP_STATUS_REASON = 3 ∧
        Only [F.DSC_SNAP_STATUS_RESULT, F.DSC_SNAP_STATUS_REASON] s t) ∧
  (∀ s : State, s.inSail = true → s.swSteers = false → s.upd.waits = false → s.flash.op = none → s.flash.inCall = false →
      s.bit F.MODE_STATUS_REEFING = false → s.bit F.SUP_STATUS_HALTED = false → s.dsc.dirty = false → s.journalUsed s.journalSector < 240 →
      s.snapPeriod ≤ s.since s.dsc.snapAt →
      Runs .periodicSnapshot s fun t => t.fld F.DSC_SNAP_STATUS_RESULT = 1 ∧ t.fld F.DSC_SNAP_STATUS_REASON = 1 ∧
        t.dsc = { s.dsc with snapAt := s.nextSnapAt } ∧
        OnlyFields [F.DSC_SNAP_STATUS_RESULT, F.DSC_SNAP_STATUS_REASON] s t ∧ { t with regs := s.regs, dsc := s.dsc } = s) ∧
  (∀ (n : Nat) (s : State), s.inSail = true → SnapFree n s →
      Runs .snapNow s fun t => SnapStarts 3 n s.dsc.snapAt s t) ∧
  (∀ (n : Nat) (s : State), s.inSail = true → SnapFree n s → s.snapPeriod ≤ s.since s.dsc.snapAt →
      Runs .periodicSnapshot s fun t => SnapStarts 1 n s.nextSnapAt s t) ∧
  (∀ s : State, s.inSail = true → s.bit F.MAST_STATUS_SET = true → s.fld F.DSC_PPS_CFG_OUT_GATE = 0 →
      s.reg F.DSC_PPS_OUT_OFS = 0 → s.now % 4000000000 = 0 → 0 < (s.nextNow + 2 ^ 64 - s.now) % 2 ^ 64 →
      Runs .ppsOutPulse s fun t =>
        (t.sheetOf 288).pulseEnds = [(s.now + ppsWidth (s.fld F.DSC_PPS_CFG_OUT_WIDTH)) % 2 ^ 64] ∧
        (t.sheetOf 288).lastEdge = some (s.now, s.now, s.mast.steps) ∧ t.mast = s.mast)

/-- A host access to an offset that no block map lists.  On each host path (host SPI, host I2C, JTAG), with the register space open:
a read of an offset that no block map lists returns 0 and logs 0x1002 with the absolute address; a write to one changes nothing
and logs the same. With room in the collector its entry is the youngest; a full collector treats the code as R976 says. -/
def Obligations.UnlistedHostAccess : Prop :=
  (∀ (p : Path) (a : Nat) (s : State), Open s → hostPath p = true → findRow a = none → a / 0x10000 ≠ 3 →
      Runs (.unlistedOffsetAccess p a none) s fun t => t.readData = 0 ∧ Logs 0x1002 a s t ∧
        { t with readData := s.readData } = s.log 0x1002 a) ∧
  (∀ (p : Path) (a : Nat) (v : Word) (s : State), Open s → hostPath p = true → findRow a = none → a / 0x10000 ≠ 3 →
      Runs (.unlistedOffsetAccess p a (some v)) s fun t => Logs 0x1002 a s t ∧ OnlyAndLog [] s t)

/-- The cleat latch and the staging word of each path.  A read of the _LO word of a wide register returns it and loads the reading
path's cleat latch with both words of the same instant; MAST_NOW_LO latches MAST_FRAC as well; ERR_HEAD_TIME_LO latches the four
words of the oldest entry, all 0 while the collector is empty. A write of a _HI word with a writable field stages it with its
register's tag on that path and changes no register; over another register's uncommitted word it logs 0x0408 and raises
STAGE_DROP. Nothing else changes. -/
def Obligations.WideRegisterAccess : Prop :=
  (∀ (p : Path) (a : Nat) (s : State), Open s → isWideLo a = true → (findRow a).isSome = true → a / 0x10000 ≠ 3 →
      a ≠ F.MAST_NOW_LO → a ≠ F.ERR_HEAD_TIME_LO → a / 0x1000 ≠ 0x54 → ¬ (0xA1000 ≤ a ∧ a < 0xA3000) → rcMask a = 0 →
      s.latched p a = none →
      Runs (.wideLoRead p a) s fun t => t.readData = s.view a &&& ~~~(woMask a) ∧
        t.path p = { s.path p with cleatTag := some a, cleat := [s.view a, s.view (a + 4)] } ∧
        { t with paths := s.paths, readData := s.readData } = s) ∧
  (∀ (p : Path) (s : State), Open s → s.latched p F.MAST_NOW_LO = none →
      Runs (.wideLoRead p F.MAST_NOW_LO) s fun t => t.readData = BitVec.ofNat 32 s.now ∧
        (t.path p).cleat = [BitVec.ofNat 32 s.now, BitVec.ofNat 32 (s.now / 2 ^ 32)] ∧
        (t.path p).frac = some (s.mast.acc / 2 ^ 14 % 2 ^ 24) ∧ { t with paths := s.paths, readData := s.readData } = s) ∧
  (∀ (p : Path) (s : State) (e : ErrEntry) (rest : List ErrEntry), Open s → s.latched p F.ERR_HEAD_TIME_LO = none → s.errs = e :: rest →
      Runs (.errHeadRead p) s fun t => t.readData = BitVec.ofNat 32 e.mast ∧
        (t.path p).cleat = [BitVec.ofNat 32 e.mast, BitVec.ofNat 32 (e.mast / 2 ^ 32), BitVec.ofNat 32 (e.seq * 65536 + e.code), e.detail] ∧
        (t.path p).cleatTag = some F.ERR_HEAD_TIME_LO ∧ { t with paths := s.paths, readData := s.readData } = s) ∧
  (∀ (p : Path) (s : State), Open s → s.latched p F.ERR_HEAD_TIME_LO = none → s.errs = [] →
      Runs (.errHeadRead p) s fun t => t.readData = 0 ∧ (t.path p).cleat = [0, 0, 0, 0] ∧
        { t with paths := s.paths, readData := s.readData } = s) ∧
  (∀ (p : Path) (a : Nat) (v : Word) (s : State), Open s → isWideLo a = true → (findRow (a + 4)).isSome = true → a / 0x10000 ≠ 3 →
      s.mirrorsAddr (a + 4) = false → rwMask (a + 4) ||| woMask (a + 4) ≠ 0 →
      (∀ x ∈ (s.path p).stage, x.1 = a) →
      Runs (.wideHiWrite p (a + 4) v) s fun t => t.path p = { s.path p with stage := some (a, v) } ∧ (∀ b, t.reg b = s.reg b) ∧
        { t with paths := s.paths } = s) ∧
  (∀ (p : Path) (a b : Nat) (v w : Word) (s : State), Open s → isWideLo a = true → (findRow (a + 4)).isSome = true → a / 0x10000 ≠ 3 →
      s.mirrorsAddr (a + 4) = false → rwMask (a + 4) ||| woMask (a + 4) ≠ 0 → (s.path p).stage = some (b, w) → b ≠ a →
      Runs (.wideHiWrite p (a + 4) v) s fun t => (t.path p).stage = some (a, v) ∧ t.bit F.MAST_EVENT_STAGE_DROP = true ∧
        Logs 0x0408 (b + 4) s t ∧ OnlyAndLog [F.MAST_EVENT_STAGE_DROP] s { t with paths := s.paths })

/-- What a write and a clearing read do under the access codes.  A write to a register of the monitor block, other than ERR_CMD,
sets its RW bits to what is written, clears the W1C bits written with 1, and leaves every other bit (RO, rsvd) as it was, for
every bit position. A write of STMP_CFG in Sail leaves the locked bits, takes the RW bits, and logs 0x1001 with the address
exactly when it would change a locked bit. A read of a register with RC bits returns its word and leaves those bits at their
reset value. Every other register stays. -/
def Obligations.RegisterAccessCodes : Prop :=
  (∀ (p : Path) (a i : Nat) (v : Word) (r : RegRow) (s : State), Open s → a / 0x10000 = 0x10 → a % 4 = 0 → a ≠ F.ERR_CMD →
      findRow a = some r → r.limits = [] → i < 32 → s.mirrorMask a = 0 → s.mirrorsAddr a = false → isWideLo (a - 4) = false →
      Runs (.registerWrite p a v) s fun t =>
        (t.reg a).getLsbD i = (if r.rw.testBit i then v.getLsbD i else if r.w1c.testBit i then (s.reg a).getLsbD i && !v.getLsbD i
          else (s.reg a).getLsbD i) ∧ Only [whole a] s t) ∧
  (∀ (p : Path) (n : Fin 256) (v : Word) (s : State), s.inSail = true → s.mirrorMask (F.STMP_CFG n) = 0 →
      (v ^^^ s.reg (F.STMP_CFG n)) &&& 0xF80001 = 0 →
      Runs (.registerWrite p (F.STMP_CFG n) v) s fun t =>
        t.reg (F.STMP_CFG n) = ((s.reg (F.STMP_CFG n) &&& 0x00FFFFF9) ||| (v &&& 0xFF000006)) ∧ Only [whole (F.STMP_CFG n)] s t) ∧
  (∀ (p : Path) (n : Fin 256) (v : Word) (s : State), s.inSail = true → s.mirrorMask (F.STMP_CFG n) = 0 →
      (v ^^^ s.reg (F.STMP_CFG n)) &&& 0xF80001 ≠ 0 →
      Runs (.registerWrite p (F.STMP_CFG n) v) s fun t =>
        t.reg (F.STMP_CFG n) = ((s.reg (F.STMP_CFG n) &&& 0x00FFFFF9) ||| (v &&& 0xFF000006)) ∧ Logs 0x1001 (F.STMP_CFG n) s t ∧
        OnlyAndLog [whole (F.STMP_CFG n)] s t) ∧
  (∀ (p : Path) (n : Fin 64) (s : State), Open s →
      Runs (.rcFieldRead p (F.TMR_MISSED n)) s fun t => t.readData = s.reg (F.TMR_MISSED n) ∧ t.reg (F.TMR_MISSED n) = 0 ∧
        OnlyFields [whole (F.TMR_MISSED n)] s t ∧
        { t with regs := s.regs, quiet := s.quiet, readData := s.readData } = s) ∧
  (∀ (p : Path) (s : State), Open s → s.latched p F.MON_TEMP_PEAK = none →
      Runs (.rcFieldRead p F.MON_TEMP_PEAK) s fun t => t.readData = s.reg F.MON_TEMP_PEAK ∧
        t.fld F.MON_TEMP_PEAK_T = bits (resetWord F.MON_TEMP_PEAK).toNat 15 0 ∧ OnlyFields [F.MON_TEMP_PEAK_T] s t ∧
        { t with regs := s.regs, quiet := s.quiet, readData := s.readData } = s)

/-- Feature negotiation.  While FEAT_LOCK is open, a write to FEAT_ACCEPTk stores 0 in every bit that FEAT_OFFERk does not offer and
the written value in the others, and it logs 0x1007 with the register's address exactly when it asks for a bit that is not
offered. After FEAT_LOCK the register stays and a write that would change it logs 0x1001. FEAT_LOCK locks by a written 1; a write of
FEAT_ACCEPT by another path in the window of that write still applies. -/
def Obligations.FeatureAcceptWrites : Prop :=
  (∀ (p : Path) (k : Fin 4) (v : Word) (s : State), Open s → s.featLocked p = false → v &&& ~~~(s.reg (0x10 + 4 * k)) = 0 →
      Runs (.featAcceptWrite p k v) s fun t => t.reg (F.FEAT_ACCEPT k) = v &&& s.reg (0x10 + 4 * k) ∧
        OnlyFields [whole (F.FEAT_ACCEPT k)] s t ∧ { t with regs := s.regs, win := { t.win with found := s.win.found } } = s) ∧
  (∀ (p : Path) (k : Fin 4) (v : Word) (s : State), Open s → s.featLocked p = false → v &&& ~~~(s.reg (0x10 + 4 * k)) ≠ 0 →
      Runs (.featAcceptWrite p k v) s fun t => t.reg (F.FEAT_ACCEPT k) = v &&& s.reg (0x10 + 4 * k) ∧
        Logs 0x1007 (F.FEAT_ACCEPT k) s t ∧
        OnlyAndLog [whole (F.FEAT_ACCEPT k)] s { t with win := { t.win with found := s.win.found } }) ∧
  (∀ (p : Path) (k : Fin 4) (v : Word) (s : State), Open s → s.featLocked p = true → v ≠ s.reg (F.FEAT_ACCEPT k) →
      Runs (.featAcceptWrite p k v) s fun t => Logs 0x1001 (F.FEAT_ACCEPT k) s t ∧ OnlyAndLog [] s t) ∧
  (∀ (p : Path) (v : Word) (s : State), Open s → v.getLsbD 0 = true →
      Runs (.featLock p v) s fun t => t.bit F.FEAT_LOCK_LOCK = true ∧ (s.bit F.FEAT_LOCK_LOCK = false → t.featLocked p = true) ∧
        OnlyFields [F.FEAT_LOCK_LOCK] s t ∧ { t with regs := s.regs, win := { t.win with featLock := s.win.featLock } } = s) ∧
  (∀ (p q : Path) (v : Word) (s : State), Open s → s.beatRuns = true → s.bit F.FEAT_LOCK_LOCK = false → v.getLsbD 0 = true → p ≠ q →
      Runs (.featLock p v) s fun t => t.featLocked q = false)

/-- The error collector's pop and the temperature and supply monitors.  ERR_CMD with POP and the head's SEQ removes the oldest
entry, with a wrong SEQ nothing changes, and after codes went unkept it then logs 0x100F with their number. Two codes of
one arbiter window enter in ascending order of code, and their SEQs with them. A die sample stores the temperature and its
peak, and a rise to WARN logs 0x100B and to CRIT 0x100C. The supply measurement stores the four values; with all four in range
and in no excursion it does nothing else, and VDDS out of range logs 0x100D once. -/
def Obligations.CollectorAndMonitors : Prop :=
  (∀ (p : Path) (v : Word) (s : State) (e : ErrEntry) (rest : List ErrEntry), Open s → s.win.logged = [] → s.win.pushed = [] →
      s.errs = e :: rest → rest.length < 64 → v.getLsbD 0 = true → e.seq = bits v.toNat 31 16 → s.unkept = 0 →
      Runs (.errPop p v) s fun t => t.errs = rest ∧ t.fld F.ERR_STATUS_COUNT = rest.length % 128 ∧
        Only [F.ERR_STATUS_COUNT, F.ERR_STATUS_FULL] s { t with errs := s.errs }) ∧
  (∀ (p : Path) (v : Word) (s : State) (e : ErrEntry) (rest : List ErrEntry), Open s → s.win.logged = [] → s.win.pushed = [] →
      s.errs = e :: rest → rest.length < 64 → v.getLsbD 0 = true → e.seq = bits v.toNat 31 16 → s.unkept ≠ 0 →
      Runs (.errPop p v) s fun t => t.unkept = 0 ∧
        t.errs = rest ++ [{ code := 0x100F, seq := s.fld F.ERR_NEXT_SEQ_SEQ, mast := s.now, detail := BitVec.ofNat 32 s.unkept }] ∧
        t.fld F.ERR_NEXT_SEQ_SEQ = (s.fld F.ERR_NEXT_SEQ_SEQ + 1) % 65536) ∧
  (∀ (p : Path) (v : Word) (s : State), Open s → (∀ e ∈ (s.errsBefore ++ s.errs).head?, v.getLsbD 0 = true → e.seq ≠ bits v.toNat 31 16) →
      Runs (.errPop p v) s fun t => t = s) ∧
  (∀ (a b d e : Nat) (s : State), QuietLog s → s.beatRuns = true → s.errs.length < 63 →
      ((s.log a d).log b e).errs = s.errs ++
        (if a ≤ b then [{ s.entryFor a d with seq := s.fld F.ERR_NEXT_SEQ_SEQ }, { s.entryFor b e with seq := (s.fld F.ERR_NEXT_SEQ_SEQ + 1) % 65536 }]
         else [{ s.entryFor b e with seq := s.fld F.ERR_NEXT_SEQ_SEQ }, { s.entryFor a d with seq := (s.fld F.ERR_NEXT_SEQ_SEQ + 1) % 65536 }])) ∧
  (∀ (die : BitVec 16) (c : Fin 4096) (s : State), s.inHoist = true → 16 ≤ c.val → c.val ≤ 4080 → s.mon.warned = false → s.mon.crit = false →
      signed 16 die.toNat < s.sfld F.MON_TEMP_LIM_WARN → signed 16 die.toNat < s.sfld F.MON_TEMP_LIM_CRIT →
      Runs (.temperatureSample die c) s fun t => t.fld F.MON_DIE_TEMP_T = die.toNat ∧ t.bit F.MON_DIE_TEMP_VALID = true ∧
        t.sfld F.MON_TEMP_PEAK_T = max (s.sfld F.MON_TEMP_PEAK_T) (signed 16 die.toNat) ∧ t.fld F.MON_OSC_RAW_CODE = c.val ∧
        t.bit F.MON_OSC_TEMP_VALID = true ∧ t.mon.oscBad = false ∧
        OnlyFields [F.MON_DIE_TEMP_T, F.MON_DIE_TEMP_VALID, F.MON_TEMP_PEAK_T, F.MON_OSC_RAW_CODE, F.MON_OSC_TEMP_T, F.MON_OSC_TEMP_VALID] s t ∧
        { t with regs := s.regs, mon := s.mon, fresh := s.fresh } = s) ∧
  (∀ (die : BitVec 16) (c : Fin 4096) (s : State), s.inHoist = true → 16 ≤ c.val → c.val ≤ 4080 → s.mon.warned = false → s.mon.crit = false →
      s.sfld F.MON_TEMP_LIM_WARN ≤ signed 16 die.toNat → signed 16 die.toNat < s.sfld F.MON_TEMP_LIM_CRIT →
      Runs (.temperatureSample die c) s fun t => t.fld F.MON_DIE_TEMP_T = die.toNat ∧ t.mon.warned = true ∧ t.mon.crit = false ∧
        t.bit F.MON_EVENT_WARN = true ∧ Logs 0x100B (unsigned 32 (signed 16 die.toNat)) s t) ∧
  (∀ (a b c d : BitVec 16) (s : State), s.powered = true → supplyInRange 0 a.toNat = true → supplyInRange 1 b.toNat = true →
      supplyInRange 2 c.toNat = true → supplyInRange 3 d.toNat = true → s.mon.supplyOut = [] →
      Runs (.supplyMeasure a b c d) s fun t => (t.reg F.MON_V0).toNat = b.toNat * 65536 + a.toNat ∧
        (t.reg F.MON_V1).toNat = d.toNat * 65536 + c.toNat ∧ Only [whole F.MON_V0, whole F.MON_V1] s t) ∧
  (∀ (a b c d : BitVec 16) (s : State), s.powered = true → supplyInRange 0 a.toNat = false → supplyInRange 1 b.toNat = true →
      supplyInRange 2 c.toNat = true → supplyInRange 3 d.toNat = true → s.mon.supplyOut = [] →
      Runs (.supplyMeasure a b c d) s fun t => t.mon.supplyOut = [0] ∧ t.bit F.MON_EVENT_SUPPLY = true ∧ Logs 0x100D a.toNat s t ∧
        OnlyAndLog [whole F.MON_V0, whole F.MON_V1, F.MON_EVENT_SUPPLY] s { t with mon := s.mon })

/-- Compare channels: the commit arms, the value fires.  CMPn_VAL_LO commits the value and in Sail arms the channel at the present
beat, after a fire that is due at it; in Hoist it arms nothing. An armed channel with no action selected fires at the beat that reaches its value, on time with
LATE 0 and LAG 0, or late (committed at or after its value) with LATE 1, LAG the distance saturated at 65,535, and 0x0601 only
with LOG_LATE, or passed by an applied step with STEPPED 1 and 0x0602; FIRED, PEND and the status fields change and nothing else. A channel whose action opens a capture window opens
it. -/
def Obligations.CompareChannels : Prop :=
  (∀ (p : Path) (n : Fin 256) (lo : Word) (s : State), s.inSail = true → s.mirrorUnit 3 n = false → s.wideMirrored (F.CMP_VAL_LO n) = false →
      s.compareDue n = false → s.win.dropped.contains n.val = false →
      Runs (.cmpValCommit p n lo) s fun t => t.wide (F.CMP_VAL_LO n) = (s.commitWide p (F.CMP_VAL_LO n) lo).1 ∧
        t.bit (F.CMP_STATUS_ARMED n) = true ∧ (t.cmpOf n).commitAt = s.now ∧ (t.cmpOf n).loaded = false ∧ (t.path p).stage = none ∧
        OnlyFields (F.CMP_STATUS_ARMED n :: bothWords (F.CMP_VAL_LO n)) s t ∧
        { t with regs := s.regs, cmp := s.cmp, paths := s.paths, win := { t.win with committed := s.win.committed } } = s) ∧
  (∀ (p : Path) (n : Fin 256) (lo : Word) (s : State), s.inSail = true → s.mirrorUnit 3 n = false → s.wideMirrored (F.CMP_VAL_LO n) = false →
      s.compareDue n = true → s.reg (F.CMP_ACT n) = 0 →
      Runs (.cmpValCommit p n lo) s fun t => t.wide (F.CMP_VAL_LO n) = (s.commitWide p (F.CMP_VAL_LO n) lo).1 ∧
        t.bit (F.CMP_STATUS_ARMED n) = true ∧ t.wide (F.CMP_FIRED_LO n) = s.now ∧ t.bit ⟨F.CMP_PEND (n / 32), n % 32, 1⟩ = true) ∧
  (∀ (p : Path) (n : Fin 256) (lo : Word) (s : State), Open s → s.inHoist = true → s.mirrorUnit 3 n = false → s.wideMirrored (F.CMP_VAL_LO n) = false →
      s.win.dropped.contains n.val = false →
      Runs (.cmpValCommit p n lo) s fun t => t.wide (F.CMP_VAL_LO n) = (s.commitWide p (F.CMP_VAL_LO n) lo).1 ∧
        OnlyFields (bothWords (F.CMP_VAL_LO n)) s t ∧
        { t with regs := s.regs, paths := s.paths, win := { t.win with committed := s.win.committed } } = s) ∧
  (∀ (n : Fin 256) (s : State), s.inSail = true → s.bit (F.CMP_STATUS_ARMED n) = true → s.now = s.wide (F.CMP_VAL_LO n) →
      (s.cmpOf n).commitAt ≠ s.now → s.compareAhead n = true → s.steppedOver s.now = false → s.reg (F.CMP_ACT n) = 0 →
      Runs (.compareFire n) s fun t => t.bit (F.CMP_STATUS_ARMED n) = false ∧ t.bit (F.CMP_STATUS_LATE n) = false ∧
        t.bit (F.CMP_STATUS_STEPPED n) = false ∧ t.fld (F.CMP_STATUS_LAG n) = 0 ∧ t.wide (F.CMP_FIRED_LO n) = s.now ∧
        t.bit ⟨F.CMP_PEND (n / 32), n % 32, 1⟩ = true ∧
        Only ([F.CMP_STATUS_ARMED n, F.CMP_STATUS_LATE n, F.CMP_STATUS_STEPPED n, F.CMP_STATUS_LAG n, ⟨F.CMP_PEND (n / 32), n % 32, 1⟩]
          ++ bothWords (F.CMP_FIRED_LO n)) s t) ∧
  (∀ (n : Fin 256) (s : State), s.inSail = true → s.bit (F.CMP_STATUS_ARMED n) = true → (s.cmpOf n).commitAt ≠ s.now →
      atOrAfter s.now (s.wide (F.CMP_VAL_LO n)) = true → s.compareAhead n = false →
      (s.cmpOf n).commitAt ≠ s.wide (F.CMP_VAL_LO n) → s.bit (F.CMP_CTRL_LOG_LATE n) = true → s.reg (F.CMP_ACT n) = 0 →
      Runs (.compareFire n) s fun t => t.bit (F.CMP_STATUS_ARMED n) = false ∧ t.bit (F.CMP_STATUS_LATE n) = true ∧
        t.fld (F.CMP_STATUS_LAG n) = min 65535 ((s.now + 2 ^ 64 - s.wide (F.CMP_VAL_LO n)) % 2 ^ 64) ∧ t.wide (F.CMP_FIRED_LO n) = s.now ∧
        Logs 0x0601 (n * 2 ^ 16 + min 65535 ((s.now + 2 ^ 64 - s.wide (F.CMP_VAL_LO n)) % 2 ^ 64)) s t ∧
        OnlyAndLog ([F.CMP_STATUS_ARMED n, F.CMP_STATUS_LATE n, F.CMP_STATUS_STEPPED n, F.CMP_STATUS_LAG n, ⟨F.CMP_PEND (n / 32), n % 32, 1⟩]
          ++ bothWords (F.CMP_FIRED_LO n)) s t) ∧
  (∀ (n : Fin 256) (s : State), s.inSail = true → s.bit (F.CMP_STATUS_ARMED n) = true → (s.cmpOf n).commitAt ≠ s.now →
      atOrAfter s.now (s.wide (F.CMP_VAL_LO n)) = true → s.compareAhead n = true → s.steppedOver (s.wide (F.CMP_VAL_LO n)) = true →
      s.reg (F.CMP_ACT n) = 0 →
      Runs (.compareFire n) s fun t => t.bit (F.CMP_STATUS_ARMED n) = false ∧ t.bit (F.CMP_STATUS_LATE n) = false ∧
        t.bit (F.CMP_STATUS_STEPPED n) = true ∧ t.wide (F.CMP_FIRED_LO n) = s.now ∧
        Logs 0x0602 (n * 2 ^ 16 + min 65535 ((s.now + 2 ^ 64 - s.wide (F.CMP_VAL_LO n)) % 2 ^ 64)) s t ∧
        OnlyAndLog ([F.CMP_STATUS_ARMED n, F.CMP_STATUS_LATE n, F.CMP_STATUS_STEPPED n, F.CMP_STATUS_LAG n, ⟨F.CMP_PEND (n / 32), n % 32, 1⟩]
          ++ bothWords (F.CMP_FIRED_LO n)) s t) ∧
  (∀ (n : Fin 256) (u : Fin 64) (s : State), s.inSail = true → s.bit (F.CMP_STATUS_ARMED n) = true → s.now = s.wide (F.CMP_VAL_LO n) →
      (s.cmpOf n).commitAt ≠ s.now → s.win.capClosed.contains u.val = false → s.reg (F.CMP_ACT n) = BitVec.ofNat 32 (u * 2 ^ 25 + 2 ^ 23) →
      Runs (.compareFire n) s fun t => t.bit (F.CAP_STATUS_WIN_OPEN u) = true ∧ t.bit (F.CMP_STATUS_ARMED n) = false)

/-- Timers: START, STOP, RESET, the origin and the period, GSTART.  START runs a timer: an IDLE one from value 0, a STOPPED one from
the value it stopped at; at the beat of a STOP by an action it leaves the timer STOPPED. STOP stops a RUNNING one at its value, after an
overflow that is due. RESET gives value 0 and clears MATCHED; an IDLE timer becomes
STOPPED. In Hoist a timer without REEF_RUN ignores each command and logs 0x0607. A committed origin is stored; a committed
period below 40 qn but not 0 becomes 40 with 0x0608. GSTART releases every selected timer with one origin, the present Mast or
GSTART_AT, and leaves the others. -/
def Obligations.TimerCommands : Prop :=
  (∀ (n : Fin 64) (s : State), Open s → s.mirrorUnit 2 n = false → (s.inSail = true ∨ s.reefRun n = true) → s.fld (F.TMR_STATUS_STATE n) = 0 →
      s.win.stops.contains n.val = false →
      Runs (.timerStart n) s fun t => t.fld (F.TMR_STATUS_STATE n) = 1 ∧ t.timerValue n = 0 ∧ t.bit (F.TMR_STATUS_MATCHED n) = false ∧
        OnlyFields ([F.TMR_STATUS_STATE n, F.TMR_STATUS_MATCHED n, F.TMR_STATUS_HALT_FROZEN n] ++ bothWords (F.TMR_FROZEN_LO n)
          ++ bothWords (F.TMR_ORIGIN_LO n)) s t ∧ TimerFrame s t) ∧
  (∀ (n : Fin 64) (s : State), Open s → s.mirrorUnit 2 n = false → (s.inSail = true ∨ s.reefRun n = true) → s.fld (F.TMR_STATUS_STATE n) = 2 →
      s.win.stops.contains n.val = false →
      Runs (.timerStart n) s fun t => t.fld (F.TMR_STATUS_STATE n) = 1 ∧ t.timerValue n = s.timerValue n ∧
        OnlyFields ([F.TMR_STATUS_STATE n, F.TMR_STATUS_HALT_FROZEN n] ++ bothWords (F.TMR_FROZEN_LO n)) s t ∧ TimerFrame s t) ∧
  (∀ (n : Fin 64) (s : State), Open s → s.mirrorUnit 2 n = false → (s.inSail = true ∨ s.reefRun n = true) → s.fld (F.TMR_STATUS_STATE n) = 2 →
      s.win.stops.contains n.val = true →
      Runs (.timerStart n) s fun t => t.fld (F.TMR_STATUS_STATE n) = 2 ∧ t.timerValue n = s.timerValue n) ∧
  (∀ (n : Fin 64) (s : State), Open s → s.mirrorUnit 2 n = false → (s.inSail = true ∨ s.reefRun n = true) → s.fld (F.TMR_STATUS_STATE n) = 1 →
      s.overflowDue n = false → s.matchDue n = false →
      Runs (.timerStop n) s fun t => t.fld (F.TMR_STATUS_STATE n) = 2 ∧ t.timerValue n = s.timerValue n ∧
        OnlyFields ([F.TMR_STATUS_STATE n, F.TMR_STATUS_HALT_FROZEN n] ++ bothWords (F.TMR_FROZEN_LO n)) s t ∧ TimerFrame s t) ∧
  (∀ (n : Fin 64) (s : State), s.inSail = true → s.mirrorUnit 2 n = false → s.timerFresh n = true → s.win.overflowed.contains n.val = false →
      s.overflowDue n = true → s.reg (F.TMR_OACT n) = 0 → s.reg (F.TMR_MACT n) = 0 →
      Runs (.timerStop n) s fun t => t.fld (F.TMR_STATUS_STATE n) = 2 ∧ t.bit ⟨F.TMR_OPEND (n / 32), n % 32, 1⟩ = true ∧
        t.timerValue n = s.timerValue n % s.timerPeriod n) ∧
  (∀ (n : Fin 64) (s : State), Open s → s.mirrorUnit 2 n = false → (s.inSail = true ∨ s.reefRun n = true) →
      s.win.stops.contains n.val = false → s.overflowDue n = false → s.matchDue n = false →
      Runs (.timerReset n) s fun t => t.timerValue n = 0 ∧ t.bit (F.TMR_STATUS_MATCHED n) = false ∧
        t.fld (F.TMR_STATUS_STATE n) = (if s.fld (F.TMR_STATUS_STATE n) = 0 then 2 else s.fld (F.TMR_STATUS_STATE n)) ∧
        OnlyFields ([F.TMR_STATUS_STATE n, F.TMR_STATUS_MATCHED n, F.TMR_STATUS_HALT_FROZEN n] ++ bothWords (F.TMR_FROZEN_LO n)
          ++ bothWords (F.TMR_ORIGIN_LO n)) s t ∧ TimerFrame s t) ∧
  (∀ (n : Fin 64) (s : State), Open s → s.mirrorUnit 2 n = false → s.inHoist = true → s.reefRun n = false →
      Runs (.timerStart n) s fun t => t = s.log 0x0607 (n * 2 ^ 16)) ∧
  (∀ (n : Fin 64) (s : State), Open s → s.mirrorUnit 2 n = false → s.inHoist = true → s.reefRun n = false →
      Runs (.timerReset n) s fun t => t = s.log 0x0607 (n * 2 ^ 16)) ∧
  (∀ (p : Path) (n : Fin 64) (lo : Word) (s : State), Open s → s.mirrorUnit 2 n = false → s.wideMirrored (F.TMR_ORIGIN_LO n) = false →
      s.overflowDue n = false → s.matchDue n = false →
      Runs (.timerOriginCommit p n lo) s fun t => t.wide (F.TMR_ORIGIN_LO n) = (s.commitWide p (F.TMR_ORIGIN_LO n) lo).1 ∧
        OnlyFields (bothWords (F.TMR_ORIGIN_LO n)) s t ∧ TimerFrame s { t with paths := s.paths }) ∧
  (∀ (p : Path) (n : Fin 64) (lo : Word) (s : State), Open s → s.mirrorUnit 2 n = false → s.wideMirrored (F.TMR_PERIOD_LO n) = false →
      s.overflowDue n = false → s.matchDue n = false →
      ((s.commitWide p (F.TMR_PERIOD_LO n) lo).1 % 2 ^ 48 = 0 ∨ 40 ≤ (s.commitWide p (F.TMR_PERIOD_LO n) lo).1 % 2 ^ 48) →
      Runs (.timerPeriodWrite p n lo) s fun t => t.timerPeriod n = (s.commitWide p (F.TMR_PERIOD_LO n) lo).1 % 2 ^ 48 ∧
        OnlyFields (bothWords (F.TMR_PERIOD_LO n)) s t ∧ TimerFrame s { t with paths := s.paths }) ∧
  (∀ (p : Path) (n : Fin 64) (lo : Word) (s : State), Open s → s.mirrorUnit 2 n = false → s.wideMirrored (F.TMR_PERIOD_LO n) = false →
      s.overflowDue n = false → s.matchDue n = false →
      1 ≤ (s.commitWide p (F.TMR_PERIOD_LO n) lo).1 % 2 ^ 48 → (s.commitWide p (F.TMR_PERIOD_LO n) lo).1 % 2 ^ 48 ≤ 39 →
      Runs (.timerPeriodWrite p n lo) s fun t => t.timerPeriod n = 40 ∧ Logs 0x0608 (n * 2 ^ 16) s t ∧
        OnlyAndLog (bothWords (F.TMR_PERIOD_LO n)) s { t with paths := s.paths, win := { t.win with acted := s.win.acted } }) ∧
  (∀ s : State, s.inSail = true → s.standby = false → (∀ n : Fin 64, s.overflowDue n = false ∧ s.matchDue n = false) →
      Runs .gstartNow s fun t => (∀ n : Fin 64, s.bit ⟨F.GSTART_MASK (n / 32), n % 32, 1⟩ = true →
          t.fld (F.TMR_STATUS_STATE n) = 1 ∧ t.wide (F.TMR_ORIGIN_LO n) = s.now ∧ t.timerValue n = 0) ∧
        (∀ n : Fin 64, s.bit ⟨F.GSTART_MASK (n / 32), n % 32, 1⟩ = false →
          t.fld (F.TMR_STATUS_STATE n) = s.fld (F.TMR_STATUS_STATE n) ∧ t.timerValue n = s.timerValue n) ∧
        TimerFrame s t) ∧
  (∀ s : State, s.inSail = true → s.standby = false → (∀ n : Fin 64, s.overflowDue n = false ∧ s.matchDue n = false) →
      Runs .gstartAt s fun t => (∀ n : Fin 64, s.bit ⟨F.GSTART_MASK (n / 32), n % 32, 1⟩ = true →
          t.fld (F.TMR_STATUS_STATE n) = 1 ∧ t.wide (F.TMR_ORIGIN_LO n) = s.wide F.GSTART_AT_LO ∧ t.bit (F.TMR_STATUS_MATCHED n) = false) ∧
        (∀ n : Fin 64, s.bit ⟨F.GSTART_MASK (n / 32), n % 32, 1⟩ = false →
          t.fld (F.TMR_STATUS_STATE n) = s.fld (F.TMR_STATUS_STATE n) ∧ t.timerValue n = s.timerValue n) ∧
        TimerFrame s t)

/-- A timer's overflow and match, and the capture units.  A timer that reaches PERIOD has its origin moved on by whole periods,
clears MATCHED and sets its OPEND bit; periods passed over are counted in MISSED and logged as 0x0603. One that reaches MATCH
sets MATCHED and its MPEND bit. A capture unit with room publishes a leading edge's stamp less COMP, and its trailing edge's
stamp and width; a trailing edge less than 8 qn after it is a glitch, which puts the registers back as they were and logs
0x0606. A read of RISE_LO cleats the set and clears UNREAD. WIN_OPEN and WIN_CLOSE move the window. -/
def Obligations.TimerEventsAndCaptures : Prop :=
  (∀ (n : Fin 64) (s : State), s.inSail = true → s.bit F.MODE_STATUS_REEFING = false → s.timerFresh n = true → s.win.overflowed.contains n.val = false →
      s.timerCounts n = true → 0 < s.timerPeriod n → s.timerPeriod n ≤ s.timerValue n →
      s.timerValue n < 2 * s.timerPeriod n → s.reg (F.TMR_OACT n) = 0 →
      Runs (.timerOverflow n) s fun t => t.wide (F.TMR_ORIGIN_LO n) = (s.wide (F.TMR_ORIGIN_LO n) + s.timerPeriod n) % 2 ^ 64 ∧
        t.timerValue n = s.timerValue n - s.timerPeriod n ∧ t.bit (F.TMR_STATUS_MATCHED n) = false ∧
        t.bit ⟨F.TMR_OPEND (n / 32), n % 32, 1⟩ = true ∧
        Only ([F.TMR_STATUS_MATCHED n, ⟨F.TMR_OPEND (n / 32), n % 32, 1⟩] ++ bothWords (F.TMR_ORIGIN_LO n)) s
          { t with win := { t.win with overflowed := s.win.overflowed } }) ∧
  (∀ (n : Fin 64) (s : State), s.inSail = true → s.bit F.MODE_STATUS_REEFING = false → s.timerFresh n = true → s.win.overflowed.contains n.val = false →
      s.timerCounts n = true → 0 < s.timerPeriod n → 2 * s.timerPeriod n ≤ s.timerValue n → s.reg (F.TMR_OACT n) = 0 →
      Runs (.timerOverflow n) s fun t => t.timerValue n = s.timerValue n % s.timerPeriod n ∧
        t.fld (whole (F.TMR_MISSED n)) = min (2 ^ 32 - 1) (s.fld (whole (F.TMR_MISSED n)) + (s.timerValue n / s.timerPeriod n - 1)) ∧
        Logs 0x0603 (n * 2 ^ 16 + min 65535 (s.timerValue n / s.timerPeriod n - 1)) s t ∧
        OnlyAndLog ([F.TMR_STATUS_MATCHED n, ⟨F.TMR_OPEND (n / 32), n % 32, 1⟩, whole (F.TMR_MISSED n)] ++ bothWords (F.TMR_ORIGIN_LO n)) s
          { t with win := { t.win with overflowed := s.win.overflowed } }) ∧
  (∀ (n : Fin 64) (s : State), s.inSail = true → s.bit F.MODE_STATUS_REEFING = false → s.timerFresh n = true → s.win.overflowed.contains n.val = false →
      s.timerCounts n = true → ¬ (0 < s.timerPeriod n ∧ s.timerPeriod n ≤ s.timerValue n) → s.bit (F.TMR_STATUS_MATCHED n) = false →
      0 < s.wide (F.TMR_MATCH_LO n) % 2 ^ 48 → s.wide (F.TMR_MATCH_LO n) % 2 ^ 48 ≤ s.timerValue n → s.reg (F.TMR_MACT n) = 0 →
      Runs (.timerMatch n) s fun t => t.bit (F.TMR_STATUS_MATCHED n) = true ∧ t.bit ⟨F.TMR_MPEND (n / 32), n % 32, 1⟩ = true ∧
        t.timerValue n = s.timerValue n ∧ Only [F.TMR_STATUS_MATCHED n, ⟨F.TMR_MPEND (n / 32), n % 32, 1⟩] s
          { t with win := { t.win with acted := s.win.acted } }) ∧
  (∀ (n : Fin 64) (fine : Fin 40) (s : State), s.capSees n = true → s.bit (F.CAP_CTRL_GATED n) = false → s.bit (F.CAP_STATUS_UNREAD n) = false →
      s.bit (F.CAP_CTRL_FAB n) = false → (s.capOf n).lead = none → (s.capOf n).trail = none → (s.capOf n).owed = false →
      Runs (.captureLeadingEdge n fine) s fun t => t.wide (F.CAP_RISE_LO n) = s.capStamp n fine / 8 ∧
        t.fld (F.CAP_FINE_RISE_FINE n) = s.capStamp n fine % 8 ∧ t.bit (F.CAP_STATUS_UNREAD n) = true ∧
        t.bit (F.CAP_STATUS_FALL_PEND n) = true ∧ t.bit ⟨F.CAP_PEND (n / 32), n % 32, 1⟩ = true ∧
        (t.capOf n).lead = some (s.capStamp n fine, s.mast.steps) ∧
        OnlyFields ([F.CAP_FINE_RISE_FINE n, F.CAP_STATUS_UNREAD n, F.CAP_STATUS_FALL_PEND n, F.CAP_STATUS_STEPPED n,
          ⟨F.CAP_PEND (n / 32), n % 32, 1⟩] ++ bothWords (F.CAP_RISE_LO n)) s t ∧ { t with regs := s.regs, cap := s.cap } = s) ∧
  (∀ (n : Fin 64) (fine : Fin 40) (s : State) (lead k : Nat), s.capSees n = true → (s.capOf n).lead = some (lead, k) →
      (s.capOf n).high = true → (s.capOf n).taken = true → (s.capOf n).owed = false →
      lead ≤ s.capStamp n fine → 64 ≤ s.capStamp n fine - lead → s.bit (F.CAP_CTRL_FAB_TRAIL n) = false →
      Runs (.captureTrailingEdge n fine) s fun t => t.wide (F.CAP_FALL_LO n) = s.capStamp n fine / 8 ∧
        t.fld (F.CAP_FINE_FALL_FINE n) = s.capStamp n fine % 8 ∧ t.wide (F.CAP_WIDTH_LO n) = (s.capStamp n fine - lead) % 2 ^ 64 ∧
        t.bit (F.CAP_STATUS_FALL_PEND n) = false ∧ (t.capOf n).taken = false ∧
        OnlyFields ([F.CAP_FINE_FALL_FINE n, F.CAP_STATUS_FALL_PEND n, F.CAP_STATUS_STEPPED n] ++ bothWords (F.CAP_FALL_LO n)
          ++ bothWords (F.CAP_WIDTH_LO n)) s t ∧ { t with regs := s.regs, cap := s.cap } = s) ∧
  (∀ (n : Fin 64) (f g : Fin 40) (s : State), s.capSees n = true → s.bit (F.CAP_CTRL_GATED n) = false → s.bit (F.CAP_STATUS_UNREAD n) = false →
      s.bit (F.CAP_CTRL_FAB n) = false → (s.capOf n).lead = none → (s.capOf n).trail = none → (s.capOf n).owed = false →
      f.val ≤ g.val → 40 ≤ s.capStamp n 0 → s.capStamp n 0 < 2 ^ 66 →
      Runs (.captureLeadingEdge n f) s fun u => Runs (.captureTrailingEdge n g) u fun t =>
        t.wide (F.CAP_RISE_LO n) = s.wide (F.CAP_RISE_LO n) ∧ t.bit (F.CAP_STATUS_UNREAD n) = false ∧ t.bit (F.CAP_STATUS_GLITCH n) = true ∧
        Logs 0x0606 (n * 2 ^ 16) s t ∧ OnlyAndLog [F.CAP_STATUS_GLITCH n] s { t with cap := s.cap }) ∧
  (∀ (p : Path) (n : Fin 64) (s : State), Open s →
      Runs (.captureRiseRead p n) s fun t => t.readData = s.reg (F.CAP_RISE_LO n) ∧ t.bit (F.CAP_STATUS_UNREAD n) = false ∧
        (t.path p).cleatTag = some (F.CAP_RISE_LO n) ∧ (t.path p).cleat[9]? = some (s.reg (F.CAP_RISE_LO n + 36)) ∧
        OnlyFields [F.CAP_STATUS_UNREAD n] s t ∧ { t with regs := s.regs, paths := s.paths, readData := s.readData } = s) ∧
  (∀ (n : Fin 64) (s : State), s.inSail = true →
      Runs (.captureWinOpen n) s fun t => t.bit (F.CAP_STATUS_WIN_OPEN n) = true ∧ Only [F.CAP_STATUS_WIN_OPEN n] s t) ∧
  (∀ (n : Fin 64) (s : State), s.inSail = true →
      Runs (.captureWinClose n) s fun t => t.bit (F.CAP_STATUS_WIN_OPEN n) = false ∧ Only [F.CAP_STATUS_WIN_OPEN n] s t)

/-- Sheets: accepting a token, late tokens and the release.  A token accepted by an empty sheet with AT less than 2^39 qn ahead
waits at its instant, extended to 64 bits from the Mast; with AT in the past it never waits: it counts late and logs once, and
DROP drives nothing. The token becomes the sheet's last one, and its edge port counts it. A release at its beat sets LEVEL
to the token's level, with the delay code of its instant on a pin that the sheet drives, counts REL_CNT and empties the queue; on a
lane sheet it opens the gate for a waiting frame. -/
def Obligations.SheetTokens : Prop :=
  (∀ (i : Fin 288) (token : Dword) (d port : Nat) (s : State), s.sheetAccepts i = true → (s.sheetOf i).queue = [] → (s.sheetOf i).lastDue = none →
      s.portOf (if i.val < 256 then 1 else 2) (if i.val < 256 then i else i - 256) = some port → 0 < d → d < 2 ^ 39 → token.toNat % 2 ^ 40 = (s.now + d) % 2 ^ 40 →
      Runs (.sheetTokenAccept i token) s fun t =>
        (t.sheetOf i).queue = [{ due := (s.now + d) % 2 ^ 64, value := if i.val < 256 then token.toNat / 2 ^ 40 % 4 else 0, headSince := some s.now }] ∧
        (t.sheetOf i).lastDue = some ((s.now + d) % 2 ^ 64) ∧ t.fld (sheetFld i 0x08 12 4) = 1 ∧
        t.wide (0x61010 + 0x20 * i) = (s.now + d) % 2 ^ 64 ∧
        OnlyFields ([sheetFld i 0x08 12 4, whole (F.EP_COUNT port)] ++ bothWords (0x61010 + 0x20 * i)) s t ∧
        { t with regs := s.regs, sheet := s.sheet } = s) ∧
  (∀ (i : Fin 288) (token : Dword) (d port : Nat) (s : State), s.sheetAccepts i = true → (s.sheetOf i).queue = [] → (s.sheetOf i).lastDue = none →
      s.portOf (if i.val < 256 then 1 else 2) (if i.val < 256 then i else i - 256) = some port → d ≤ 2 ^ 39 → token.toNat % 2 ^ 40 = (s.now + 2 ^ 40 - d) % 2 ^ 40 →
      s.bit (sheetPol i) = false → s.isQuiet (sheetLateCnt i) = false →
      Runs (.sheetTokenAccept i token) s fun t => (t.sheetOf i).queue = [] ∧ t.bit (sheetLate i) = true ∧
        t.fld (whole (sheetLateCnt i)) = min (2 ^ 32 - 1) (s.fld (whole (sheetLateCnt i)) + 1) ∧
        Logs 0x0701 (i * 2 ^ 16 + min 65535 d) s t ∧ t.fld (F.SHT_STATUS_LEVEL i) = s.fld (F.SHT_STATUS_LEVEL i)) ∧
  (∀ (i : Fin 256) (k : SheetToken) (s : State), s.powered = true → s.mast.lastStep = none → (s.sheetOf i).queue = [k] →
      (s.sheetOf i).pulseEnds = [] → k.due = s.now → k.value < 3 → s.bit (F.SHT_STATUS_RELOADING i) = false → s.sheetDrives i = false →
      Runs (.sheetRelease ⟨i, by omega⟩) s fun t => t.fld (F.SHT_STATUS_LEVEL i) = k.value ∧ (t.sheetOf i).queue = [] ∧
        t.fld (whole (sheetRelCnt i)) = (s.fld (whole (sheetRelCnt i)) + 1) % 2 ^ 32 ∧
        OnlyFields ([F.SHT_STATUS_LEVEL i, sheetFld i 0x08 12 4, whole (sheetRelCnt i)] ++ bothWords (0x61010 + 0x20 * i)) s t ∧
        { t with regs := s.regs, sheet := s.sheet } = s) ∧
  (∀ (i : Fin 256) (k : SheetToken) (s : State), s.powered = true → s.mast.lastStep = none → (s.sheetOf i).queue = [k] →
      (s.sheetOf i).pulseEnds = [] → k.due = s.now → k.value < 3 → s.bit (F.SHT_STATUS_RELOADING i) = false → s.sheetDrives i = true →
      k.value ≠ s.fld (F.SHT_STATUS_LEVEL i) → (s.sheetOf i).lastEdge = none → signed 8 (s.fld (F.SHT_SKEW_SKEW i)) = 0 →
      Runs (.sheetRelease ⟨i, by omega⟩) s fun t => t.fld (F.SHT_STATUS_LEVEL i) = k.value ∧ (t.sheetOf i).queue = [] ∧
        t.fld (F.SHT_FD_FD_LAST i) = s.fld (F.SHT_FD_FD_CAL i) ∧ (t.sheetOf i).lastEdge = some (s.now, s.now, s.mast.steps) ∧
        t.fld (whole (sheetRelCnt i)) = (s.fld (whole (sheetRelCnt i)) + 1) % 2 ^ 32 ∧
        OnlyFields ([F.SHT_STATUS_LEVEL i, F.SHT_FD_FD_LAST i, sheetFld i 0x08 12 4, whole (sheetRelCnt i)] ++ bothWords (0x61010 + 0x20 * i)) s t ∧
        { t with regs := s.regs, sheet := s.sheet } = s) ∧
  (∀ (x : Fin 32) (k : SheetToken) (s : State), s.powered = true → s.mast.lastStep = none → (s.sheetOf (256 + x)).queue = [k] →
      (s.sheetOf (256 + x)).pulseEnds = [] → k.due = s.now → s.panelAway (s.fld (sheetOwner (256 + x))) = false →
      s.bit (F.LSH_CFG_STBY_GATE x) = false → (s.sheetOf (256 + x)).gates < s.waitingFrames x → s.laneSendsGated (x / 4) = false →
      (∀ j : Fin 4, (s.sheetOf (256 + x / 4 * 4 + j)).gates = 0) →
      Runs (.sheetRelease ⟨256 + x, by omega⟩) s fun t => (t.sheetOf (256 + x)).queue = [] ∧ (t.sheetOf (256 + x)).gates = 1 ∧
        t.fld (whole (sheetRelCnt (256 + x))) = (s.fld (whole (sheetRelCnt (256 + x))) + 1) % 2 ^ 32 ∧
        OnlyFields ([sheetFld (256 + x) 0x08 12 4, whole (sheetRelCnt (256 + x))] ++ bothWords (0x61010 + 0x20 * (256 + x))) s t ∧
        { t with regs := s.regs, sheet := s.sheet } = s)

/-- Fine-delay calibration, stamp channels and the fabric monitors.  RECAL with PPS_OUT the one path and no edge near it adopts the
measured code at once and clears CAL_ERR; the track in Sail moves a code one step toward its measure. A stamp channel with room
keeps an accepted edge's token in its buffer; with four tokens it loses the edge, counts it and logs 0x0707 once; a second edge
less than 8 qn later takes the first back and logs 0x0708. An illegal dual-rail state is counted, and the first after a read
loads its location; a stalled edge port and a stuck panel set their bit and log. -/
def Obligations.CalibrationAndStamps : Prop :=
  (∀ (c : Nat) (s : State), Open s → s.bit F.SHT_CAL_STATUS_BUSY = false → s.calPaths = [288] → s.sheet = [] → s.edgeNear 288 = false →
      Runs (.sheetRecal [c]) s fun t => t.fld F.SHT_PPSO_FD_FD_CAL = min 127 c ∧ t.bit F.SHT_PPSO_FD_CAL_ERR = false ∧
        t.bit F.SHT_CAL_STATUS_BUSY = false ∧ OnlyFields [F.SHT_PPSO_FD_FD_CAL, F.SHT_PPSO_FD_CAL_ERR, F.SHT_CAL_STATUS_BUSY] s t ∧
        { t with regs := s.regs, sheet := s.sheet } = s) ∧
  (∀ (c : Nat) (s : State), s.inSail = true → s.bit F.SHT_CAL_CTRL_TRACK_EN = true → s.calPaths = [288] → s.edgeNear 288 = false →
      c < 128 → s.fld F.SHT_PPSO_FD_FD_CAL < c →
      Runs (.calibrationTrack [c]) s fun t => t.fld F.SHT_PPSO_FD_FD_CAL = s.fld F.SHT_PPSO_FD_FD_CAL + 1 ∧ Only [F.SHT_PPSO_FD_FD_CAL] s t) ∧
  (∀ (n : Fin 256) (fine : Fin 40) (s : State), s.inSail = true → s.bit (F.STMP_CFG_EN n) = true → s.lvdsOdd n = false →
      (s.stampOf n).lastEdge = none → s.fld (F.STMP_CFG_EDGES n) = 3 → s.panelAway (s.fld (F.STMP_CFG_OWNER n)) = false → (s.stampOf n).buf.length < 4 →
      Runs (.stampChannelEdge n true fine) s fun t => (t.stampOf n).buf = (s.stampOf n).buf ++ [s.stampToken n true fine] ∧
        t.fld (F.STMP_STATUS_DEPTH n) = (s.stampOf n).buf.length + 1 ∧ t.bit ⟨F.GPIO_IN (n / 16), n % 16, 1⟩ = true ∧
        OnlyFields [F.STMP_STATUS_DEPTH n, ⟨F.GPIO_IN (n / 16), n % 16, 1⟩] s t ∧ { t with regs := s.regs, stamp := s.stamp } = s) ∧
  (∀ (n : Fin 256) (fine : Fin 40) (s : State), s.inSail = true → s.bit (F.STMP_CFG_EN n) = true → s.lvdsOdd n = false →
      (s.stampOf n).lastEdge = none → s.fld (F.STMP_CFG_EDGES n) = 1 → s.panelAway (s.fld (F.STMP_CFG_OWNER n)) = false → (s.stampOf n).buf.length = 4 →
      s.isQuiet (F.STMP_LOST n) = false →
      Runs (.stampChannelEdge n true fine) s fun t => (t.stampOf n).buf = (s.stampOf n).buf ∧ t.bit (F.STMP_STATUS_LOST n) = true ∧
        t.fld (whole (F.STMP_LOST n)) = min (2 ^ 32 - 1) (s.fld (whole (F.STMP_LOST n)) + 1) ∧ Logs 0x0707 (n * 2 ^ 16) s t) ∧
  (∀ (n : Fin 256) (level : Bool) (fine : Fin 40) (e : Nat) (s : State), s.inSail = true → s.bit (F.STMP_CFG_EN n) = true → s.lvdsOdd n = false →
      (s.stampOf n).lastEdge = some e → (s.stampOf n).lastKept = true → e ≤ s.now * 8 + fine → s.now * 8 + fine < e + 64 →
      Runs (.stampChannelEdge n level fine) s fun t => (t.stampOf n).buf = (s.stampOf n).buf.dropLast ∧ t.bit (F.STMP_STATUS_GLITCH n) = true ∧
        Logs 0x0708 (n * 2 ^ 16) s t) ∧
  (∀ (loc : Word) (s : State), s.powered = true → s.isQuiet F.FAB_ILLEGAL_CNT = false →
      Runs (.illegalDualRail loc) s fun t => t.fld (whole F.FAB_ILLEGAL_CNT) = min (2 ^ 32 - 1) (s.fld (whole F.FAB_ILLEGAL_CNT) + 1) ∧
        t.reg F.FAB_ILLEGAL_LOC = loc &&& 0xFFFFFFC0 ∧ Logs 0x0881 (loc &&& 0xFFFFFFC0).toNat s t ∧
        OnlyAndLog [whole F.FAB_ILLEGAL_CNT, whole F.FAB_ILLEGAL_LOC] s { t with quiet := s.quiet, fab := s.fab }) ∧
  (∀ (loc : Word) (s : State), s.powered = true → s.isQuiet F.FAB_ILLEGAL_CNT = true →
      Runs (.illegalDualRail loc) s fun t => t.fld (whole F.FAB_ILLEGAL_CNT) = min (2 ^ 32 - 1) (s.fld (whole F.FAB_ILLEGAL_CNT) + 1) ∧
        Only [whole F.FAB_ILLEGAL_CNT] s { t with fab := s.fab }) ∧
  (∀ (n : Fin 384) (s : State), s.panelWatched (s.fld (F.EP_BIND_PANEL n)) = true → s.fld F.FAB_EP_STALL_TIME_US ≠ 0 →
      s.bit ⟨F.FAB_EP_STALL (n / 32), n % 32, 1⟩ = false →
      Runs (.edgePortStall n) s fun t => t.bit ⟨F.FAB_EP_STALL (n / 32), n % 32, 1⟩ = true ∧ Logs 0x0882 n s t ∧
        OnlyAndLog [⟨F.FAB_EP_STALL (n / 32), n % 32, 1⟩] s t) ∧
  (∀ (k : Fin 24) (s : State), s.panelWatched k = true → s.bit F.FAB_CTRL_STUCK_EN = true → s.bit ⟨F.FAB_STUCK, k, 1⟩ = false →
      Runs (.panelStuck k) s fun t => t.bit ⟨F.FAB_STUCK, k, 1⟩ = true ∧ Logs 0x0883 k s t ∧ OnlyAndLog [⟨F.FAB_STUCK, k, 1⟩] s t)

/-- Panels: quiesce, freeze, tear, resume; a partial load's start, words, timeout, abort and release stages.  QUIESCE of one RUNNING
panel makes it QUIESCING; of one in another state it logs 0x080D. A QUIESCING panel becomes FROZEN with the time it took, or
after PNL_QTIMEOUT is forced FROZEN and TORN with 0x0801. RESUME makes a FROZEN untorn panel RUNNING from the next beat on. LOAD in Sail with none in
progress starts a load; one in progress refuses it with 0x0802. A host word enters the buffer; with 64 waiting the load fails
with 0x0808. No word in time fails it with 0x0807; ABORT ends it with RESULT 3 and 0x080C. A data token at the enabled port
starts a load from it. Each release stage waits for its gap, and the third makes the panel RUNNING. -/
def Obligations.PanelsQuiesceAndLoad : Prop :=
  (∀ (p : Path) (k : Fin 24) (s : State), Open s → s.fld F.PNL_SEL_PNL = 2 ^ k.val → s.panelState k = 1 →
      Runs (.quiesce p) s fun t => t.panelState k = 2 ∧ (t.panelOf k).quiesceAt = s.now ∧ (t.panelOf k).quiesceMask = 2 ^ k.val ∧
        OnlyFields [F.PNL_STATE_STATE k] s t ∧
        { t with regs := s.regs, panel := s.panel, win := { t.win with quiesced := s.win.quiesced } } = s) ∧
  (∀ (p : Path) (k : Fin 24) (s : State), Open s → s.fld F.PNL_SEL_PNL = 2 ^ k.val → s.panelState k ≠ 1 →
      Runs (.quiesce p) s fun t => Logs 0x080D k s t ∧ t.bit F.PNL_EVENT_REFUSED = true ∧ OnlyAndLog [F.PNL_EVENT_REFUSED] s t) ∧
  (∀ (k : Fin 24) (s : State), s.panelState k = 2 → (s.panelOf k).quiesceMask = 0 → (s.panelOf k).resumeNext = false → s.partialBusy = false →
      (s.panelOf k).quiesceAt ≤ s.now → s.panelCalm k = true →
      Runs (.quiesceComplete k) s fun t => t.panelState k = 3 ∧
        (t.fld (F.PNL_QTIME_US k) = min (2 ^ 32 - 1) ((s.now - (s.panelOf k).quiesceAt) / 4000) ∨
          t.fld (F.PNL_QTIME_US k) = min (2 ^ 32 - 1) ((s.now - (s.panelOf k).quiesceAt) / 4000 + 1)) ∧
        OnlyFields [F.PNL_STATE_STATE k, F.PNL_QTIME_US k] s t ∧ { t with regs := s.regs, panel := s.panel, fresh := s.fresh } = s) ∧
  (∀ (k : Fin 24) (s : State), s.panelState k = 2 → (s.panelOf k).quiesceMask = 0 → (s.panelOf k).resumeNext = false → s.partialBusy = false →
      s.fld F.PNL_QTIMEOUT_US * 4000 ≤ (s.now + 2 ^ 64 - (s.panelOf k).quiesceAt) % 2 ^ 64 →
      Runs (.quiesceTimeout k) s fun t => t.panelState k = 3 ∧ t.bit (F.PNL_STATE_TORN k) = true ∧ t.bit ⟨F.PNL_TORN, k, 1⟩ = true ∧
        t.bit F.PNL_EVENT_TORN = true ∧ Logs 0x0801 k s t ∧
        OnlyAndLog [F.PNL_STATE_STATE k, F.PNL_STATE_TORN k, ⟨F.PNL_TORN, k, 1⟩, F.PNL_EVENT_TORN] s
          { t with panel := s.panel, fab := s.fab, fresh := s.fresh }) ∧
  (∀ (p : Path) (k : Fin 24) (s : State), Open s → s.fld F.PNL_SEL_PNL = 2 ^ k.val → s.panelState k = 3 → s.bit (F.PNL_STATE_TORN k) = false →
      s.heldByLoad k = false →
      Runs (.resume p) s fun t => t.panelOf k = { s.panelOf k with resumes := true } ∧ t.panelsBeat.panelState k = 1 ∧
        { t with panel := s.panel } = s) ∧
  (∀ (p : Path) (s : State), s.inSail = true → s.partialBusy = false →
      Runs (.panelLoad p) s fun t => t.partialBusy = true ∧ t.fld F.PNL_LOAD_STATUS_SRC = s.fld F.PNL_LOAD_SRC_SRC % 8 ∧
        t.fld F.PNL_LOAD_STATUS_RESULT = 0 ∧ t.load.active = true ∧ t.load.base = (s.reg F.PNL_LOAD_ADDR).toNat ∧ t.load.hdr = none ∧ t.hbuf = []) ∧
  (∀ (p : Path) (s : State), s.inSail = true → s.partialBusy = true →
      Runs (.panelLoad p) s fun t => Logs 0x0802 (s.fld F.PNL_LOAD_SRC_SRC) s t ∧ t.bit F.PNL_EVENT_REFUSED = true ∧
        t.fld F.PNL_LOAD_ERR_CODE = 0x0802 ∧ OnlyAndLog [F.PNL_EVENT_REFUSED, F.PNL_LOAD_ERR_CODE] s t) ∧
  (∀ (p : Path) (w : Word) (s : State), s.inSail = true → s.partialBusy = true → s.fld F.PNL_LOAD_STATUS_SRC = 2 → s.load.ended = false →
      s.hbuf.length < 64 →
      Runs (.panelHostData p w) s fun t => t.hbuf = s.hbuf ++ [w] ∧ t.fld F.PNL_LOAD_STATUS_HBUF_FREE = 63 - s.hbuf.length ∧
        OnlyFields [F.PNL_LOAD_STATUS_HBUF_FREE] s t ∧ { t with regs := s.regs, hbuf := s.hbuf } = s) ∧
  (∀ (p : Path) (w : Word) (s : State), s.inSail = true → s.partialBusy = true → s.fld F.PNL_LOAD_STATUS_SRC = 2 → s.load.ended = false →
      s.hbuf.length = 64 → s.bit F.PNL_CTRL_AUTO_FB = false →
      Runs (.panelHostData p w) s fun t => t.partialBusy = false ∧ t.fld F.PNL_LOAD_STATUS_RESULT = 2 ∧ t.hbuf = [] ∧ Logs 0x0808 0 s t ∧
        t.bit F.PNL_EVENT_HBUF_OVR = true ∧ t.bit F.PNL_EVENT_LOAD_FAIL = true) ∧
  (∀ s : State, s.inSail = true → s.partialBusy = true → s.load.active = true → s.load.src = .host → s.bit F.PNL_CTRL_AUTO_FB = false →
      Runs .panelLoadWordTimeout s fun t => t.partialBusy = false ∧ t.fld F.PNL_LOAD_STATUS_RESULT = 2 ∧ t.fld F.PNL_LOAD_ERR_CODE = 0x0807 ∧
        Logs 0x0807 s.load.words s t) ∧
  (∀ (p : Path) (s : State), Open s → s.partialBusy = true →
      Runs (.panelAbort p) s fun t => t.partialBusy = false ∧ t.fld F.PNL_LOAD_STATUS_RESULT = 3 ∧ t.hbuf = [] ∧
        (∀ k : Fin 24, t.panelState k ≠ 4 ∨ s.fld F.PNL_LOAD_MASK_MASK / 2 ^ k.val % 2 = 0) ∧
        Logs 0x080C ((panelsOf (s.fld F.PNL_LOAD_MASK_MASK)).foldl (fun m k => if t.panelState k = 6 then m + 2 ^ k else m) 0) s t) ∧
  (∀ (d : Dword) (port : Nat) (s : State), s.inSail = true → s.bit F.PNL_ICP_CFG_EN = true → s.fabricAlive 0xE 0 = true → s.partialBusy = false → s.icpLast = none →
      s.portOf 0xE 0 = some port →
      Runs (.icpDataToken d) s fun t => t.partialBusy = true ∧ t.fld F.PNL_LOAD_STATUS_SRC = 3 ∧ t.load.src = .icp ∧ t.load.active = true ∧
        t.load.got = leBytes 8 d.toNat ∧ t.fld (whole (F.EP_COUNT port)) = (s.fld (whole (F.EP_COUNT port)) + 1) % 2 ^ 32) ∧
  (∀ (k : Fin 24) (s : State), s.panelState k = 5 → (s.panelOf k).stage = 0 → s.fld (F.PNL_STATE_ORDER k) = 2 → atOrAfter s.now (s.panelOf k).due = true →
      Runs (.panelReleaseStage k) s fun t =>
        t.panelOf k = { s.panelOf k with weHeld := false, stage := 1, due := (s.now + 256 * s.fld (F.PNL_REL_GAP1 k)) % 2 ^ 64 } ∧ { t with panel := s.panel } = s) ∧
  (∀ (k : Fin 24) (s : State), s.panelState k = 5 → (s.panelOf k).stage = 2 → s.fld (F.PNL_STATE_ORDER k) = 5 → atOrAfter s.now (s.panelOf k).due = true →
      s.partialBusy = false →
      Runs (.panelReleaseStage k) s fun t => t.panelState k = 1 ∧ (t.panelOf k).outHeld = false ∧ t.wide (F.PNL_RUN_LO k) = s.now ∧
        t.load = s.load ∧ t.errs = s.errs)

/-- Fence channels between panels.  While both panels of a fence channel run, a handshake puts the token, cut to the channel's
width, into its empty stage, and the next handshake delivers it. With the source away and STANDIN, a running destination
receives STANDIN, which is counted; with the destination away and SINK, the token is sunk and counted. Nothing else changes. -/
def Obligations.FenceChannels : Prop :=
  (∀ (entry : Nat) (d : Dword) (f : Fence) (s : State), s.fences[entry]? = some f → s.powered = true → s.bit F.FAB_STATUS_GSR = false →
      s.panelState (fencePanels f).1 = 1 → s.panelState (fencePanels f).2 = 1 → s.fenceToken entry = none →
      Runs (.fenceHandshake entry d) s fun t => t.fenceToken entry = some (BitVec.ofNat 64 (d.toNat % 2 ^ f.width)) ∧
        { t with fenceHeld := s.fenceHeld } = s) ∧
  (∀ (entry : Nat) (d : Dword) (f : Fence) (s : State), s.fences[entry]? = some f → s.powered = true → s.bit F.FAB_STATUS_GSR = false →
      s.panelState (fencePanels f).1 = 1 → s.panelState (fencePanels f).2 = 1 → (s.fenceToken entry).isSome = true →
      Runs (.fenceHandshake entry d) s fun t => t.fenceToken entry = none ∧ { t with fenceHeld := s.fenceHeld } = s) ∧
  (∀ (entry : Nat) (d : Dword) (f : Fence) (s : State), s.fences[entry]? = some f → s.powered = true → s.bit F.FAB_STATUS_GSR = false →
      s.panelState (fencePanels f).1 = 4 → s.panelState (fencePanels f).2 = 1 → s.fenceToken entry = none → f.standIn = true →
      Runs (.fenceHandshake entry d) s fun t => t.fld (whole (F.PNL_STANDIN_CNT (fencePanels f).1)) =
        min (2 ^ 32 - 1) (s.fld (whole (F.PNL_STANDIN_CNT (fencePanels f).1)) + 1) ∧ Only [whole (F.PNL_STANDIN_CNT (fencePanels f).1)] s t) ∧
  (∀ (entry : Nat) (d : Dword) (f : Fence) (s : State), s.fences[entry]? = some f → s.powered = true → s.bit F.FAB_STATUS_GSR = false →
      s.panelState (fencePanels f).1 = 1 → s.panelState (fencePanels f).2 = 6 → f.sink = true →
      Runs (.fenceHandshake entry d) s fun t => t.fld (whole (F.PNL_SINK_CNT (fencePanels f).2)) =
        min (2 ^ 32 - 1) (s.fld (whole (F.PNL_SINK_CNT (fencePanels f).2)) + 1) ∧ Only [whole (F.PNL_SINK_CNT (fencePanels f).2)] s t)

/-- Crossings: what each kind carries.  A PULSE crossing with nothing in transit takes an event, a second one overruns, and the
acknowledge ends it. A LEVEL crossing toward the fabric gives the level in force, of several changed bits each the new or the old one; from
the fabric it takes the token's level. A WORD crossing holds one word cut to its
width; its round trip takes the word and gives it. A request at the companion of an empty WORD crossing of a tap samples the Mast field. A STREAM
crossing keeps words in order: a write joins at the end, or with 16 held overruns with 0x0901; a take gives the oldest and
counts the port; a pull of an empty one underruns with 0x0904; a push from the fabric joins, or waits while the crossing is
full. -/
def Obligations.CrossingTransfers : Prop :=
  (∀ (n : Fin 96) (s : State), s.powered = true → s.fld (F.XNG_CFG_KIND n) = 0 → s.xngActive n = true → s.toFabric n = true →
      s.bit (F.XNG_STATUS_PARKED n) = false → s.bit (F.XNG_STATUS_CSIDE_RST n) = false → s.bit (F.XNG_STATUS_FSIDE_RST n) = false →
      (s.crossing n).transit = false → s.bit (F.XNG_CFG_PACE n) = false →
      Runs (.crossingPulseEvent n false) s fun t => t.crossing n = { s.crossing n with transit := true } ∧
        OnlyFields [F.XNG_STATUS_FILL n, F.XNG_STATUS_HWM n, F.XNG_STATUS_EMPTY n, F.XNG_STATUS_FULL n] s t ∧ { t with regs := s.regs, xng := s.xng } = s) ∧
  (∀ (n : Fin 96) (s : State), s.powered = true → s.fld (F.XNG_CFG_KIND n) = 0 → s.xngActive n = true → s.toFabric n = true →
      s.bit (F.XNG_STATUS_PARKED n) = false → s.bit (F.XNG_STATUS_CSIDE_RST n) = false → s.bit (F.XNG_STATUS_FSIDE_RST n) = false →
      (s.crossing n).transit = true → s.bit (F.XNG_CFG_PACE n) = false → s.bit (F.XNG_STATUS_OVR n) = false →
      Runs (.crossingPulseEvent n false) s fun t => t.bit (F.XNG_STATUS_OVR n) = true ∧ t.bit ⟨F.XNG_OVR_PEND (n / 32), n % 32, 1⟩ = true ∧
        t.fld (whole (F.XNG_OVR_CNT n)) = min (2 ^ 32 - 1) (s.fld (whole (F.XNG_OVR_CNT n)) + 1) ∧ Logs 0x0901 (n * 2 ^ 16) s t ∧
        OnlyAndLog [F.XNG_STATUS_OVR n, ⟨F.XNG_OVR_PEND (n / 32), n % 32, 1⟩, whole (F.XNG_OVR_CNT n)] s t) ∧
  (∀ (n : Fin 96) (port : Nat) (s : State), s.fld (F.XNG_CFG_KIND n) = 0 → s.xngActive n = true → s.toFabric n = false →
      s.fabricAlive 4 n = true → s.portOf 4 n = some port → s.bit (F.XNG_STATUS_PARKED n) = false → s.bit (F.XNG_STATUS_CSIDE_RST n) = false →
      s.bit (F.XNG_STATUS_FSIDE_RST n) = false → (s.crossing n).transit = false → s.bit (F.XNG_CFG_PACE n) = false →
      Runs (.crossingPulseEvent n false) s fun t => t.crossing n = { s.crossing n with transit := true } ∧
        t.fld (whole (F.EP_COUNT port)) = (s.fld (whole (F.EP_COUNT port)) + 1) % 2 ^ 32 ∧
        OnlyFields [F.XNG_STATUS_FILL n, F.XNG_STATUS_HWM n, F.XNG_STATUS_EMPTY n, F.XNG_STATUS_FULL n, whole (F.EP_COUNT port)] s t ∧
        { t with regs := s.regs, xng := s.xng } = s) ∧
  (∀ (n : Fin 96) (s : State), s.powered = true → s.fld (F.XNG_CFG_KIND n) = 0 → s.xngActive n = true →
      (s.toFabric n = true → s.fabricOffers 4 n = true) → s.bit (F.XNG_CFG_PACE n) = false →
      Runs (.crossingPulseEvent n true) s fun t => t.crossing n = { s.crossing n with transit := false } ∧
        OnlyFields [F.XNG_STATUS_FILL n, F.XNG_STATUS_HWM n, F.XNG_STATUS_EMPTY n, F.XNG_STATUS_FULL n] s t ∧ { t with regs := s.regs, xng := s.xng } = s) ∧
  (∀ (n : Fin 96) (port : Nat) (s : State), s.powered = true → s.fld (F.XNG_CFG_KIND n) = 1 → s.xngActive n = true → s.toFabric n = true →
      s.bit (F.XNG_STATUS_PARKED n) = false → s.bit (F.XNG_STATUS_CSIDE_RST n) = false → s.bit (F.XNG_STATUS_FSIDE_RST n) = false →
      s.fabricOffers 4 n = true → s.portOf 4 n = some port → s.bit (F.XNG_CFG_PACE n) = false →
      Runs (.crossingLevelTransfer n 0) s fun t =>
        (∀ i : Fin 16, natBit (t.crossing n).sampled i = natBit (s.reg (F.XNG_MBOX_LO n)).toNat i ∨
          natBit (t.crossing n).sampled i = natBit (s.crossing n).sampled i) ∧
        (((List.range 16).filter fun i => natBit ((s.reg (F.XNG_MBOX_LO n)).toNat % 2 ^ 16) i != natBit (s.crossing n).settling i).length ≤ 1 →
          (t.crossing n).sampled = (s.reg (F.XNG_MBOX_LO n)).toNat % 2 ^ 16) ∧
        (t.crossing n).settling = (s.reg (F.XNG_MBOX_LO n)).toNat % 2 ^ 16 ∧
        (t.crossing n).out = some (BitVec.ofNat 64 (t.crossing n).sampled) ∧ (t.crossing n).held = (s.crossing n).held ∧
        t.fld (whole (F.EP_COUNT port)) = (s.fld (whole (F.EP_COUNT port)) + 1) % 2 ^ 32) ∧
  (∀ (n : Fin 96) (port : Nat) (level : Dword) (s : State), s.fld (F.XNG_CFG_KIND n) = 1 → s.xngActive n = true → s.toFabric n = false →
      s.bit (F.XNG_STATUS_PARKED n) = false → s.bit (F.XNG_STATUS_CSIDE_RST n) = false → s.bit (F.XNG_STATUS_FSIDE_RST n) = false →
      s.fabricAlive 4 n = true → s.portOf 4 n = some port → s.bit (F.XNG_CFG_PACE n) = false → (s.crossing n).level = none →
      Runs (.crossingLevelTransfer n level) s fun t =>
        (t.crossing n).level = some (level.toNat % 2 ^ (s.fld (F.XNG_CFG_WIDTH_M1 n) + 1) % 2 ^ 16) ∧
        t.fld (whole (F.EP_COUNT port)) = (s.fld (whole (F.EP_COUNT port)) + 1) % 2 ^ 32 ∧ t.reg (F.XNG_MBOX_LO n) = s.reg (F.XNG_MBOX_LO n) ∧
        t.errs = s.errs) ∧
  (∀ (n : Fin 96) (w : Dword) (s : State), s.powered = true → s.fld (F.XNG_CFG_KIND n) = 2 → s.xngActive n = true → s.toFabric n = true →
      s.bit (F.XNG_STATUS_FSIDE_RST n) = false → s.bit (F.XNG_STATUS_RESYNC n) = false → (s.crossing n).held = [] → (s.crossing n).unseen = 0 →
      s.bit (F.XNG_STATUS_RESET_SKEW n) = false → s.bit (F.XNG_CFG_REQ n) = false → s.bit (F.XNG_CFG_PACE n) = false → s.bit (F.XNG_CFG_VBIT n) = false →
      Runs (.crossingWordTransfer n (some w)) s fun t =>
        (t.crossing n).held = [BitVec.ofNat 64 (w.toNat % 2 ^ (s.fld (F.XNG_CFG_WIDTH_M1 n) + 1))] ∧ t.fld (F.XNG_STATUS_FILL n) = 1 ∧
        t.bit (F.XNG_STATUS_EMPTY n) = false ∧ t.bit (F.XNG_STATUS_FULL n) = true ∧
        OnlyFields [F.XNG_STATUS_FILL n, F.XNG_STATUS_HWM n, F.XNG_STATUS_EMPTY n, F.XNG_STATUS_FULL n] s t ∧ { t with regs := s.regs, xng := s.xng } = s) ∧
  (∀ (n : Fin 96) (port : Nat) (w : Dword) (s : State), s.fld (F.XNG_CFG_KIND n) = 2 → s.xngActive n = true → s.toFabric n = true →
      s.bit (F.XNG_STATUS_PARKED n) = false → s.bit (F.XNG_STATUS_CSIDE_RST n) = false → s.bit (F.XNG_STATUS_FSIDE_RST n) = false → s.bit (F.XNG_STATUS_RESYNC n) = false →
      s.bit (F.XNG_STATUS_RESET_SKEW n) = false → s.fabricOffers 4 n = true → s.portOf 4 n = some port → s.bit (F.XNG_CFG_PACE n) = false →
      (s.crossing n).held = [w] →
      Runs (.crossingWordTransfer n none) s fun t => (t.crossing n).held = [] ∧ (t.crossing n).out = some w ∧ t.fld (F.XNG_STATUS_FILL n) = 0 ∧
        t.fld (whole (F.EP_COUNT port)) = (s.fld (whole (F.EP_COUNT port)) + 1) % 2 ^ 32 ∧ t.errs = s.errs) ∧
  (∀ (n : Fin 96) (m : Fin 8) (port : Nat) (s : State), s.powered = true → s.fld (F.XNG_CFG_KIND n) = 2 → s.bit (F.XNG_CFG_REQ n) = true →
      s.fld (F.XNG_CFG_CLIENT n) = 2 → s.fld (F.XNG_CFG_CIDX n) = m → s.tapAnswers n m = true → s.fabricAlive 4 (companion n) = true →
      s.portOf 4 (companion n) = some port → s.bit (F.XNG_STATUS_FSIDE_RST (companion n)) = false → s.bit (F.XNG_STATUS_PARKED (companion n)) = false →
      s.bit (F.XNG_STATUS_CSIDE_RST (companion n)) = false → (s.crossing n).held = [] → (s.crossing n).unseen = 0 →
      s.bit (F.XNG_STATUS_FSIDE_RST n) = false → s.bit (F.XNG_STATUS_RESYNC n) = false → s.bit (F.XNG_STATUS_RESET_SKEW n) = false →
      s.bit (F.XNG_CFG_PACE n) = false →
      Runs (.crossingRequest n) s fun t => (t.crossing n).held = [s.xngToken n (s.tapValue m)] ∧ t.fld (F.XNG_STATUS_FILL n) = 1 ∧
        t.fld (whole (F.EP_COUNT port)) = (s.fld (whole (F.EP_COUNT port)) + 1) % 2 ^ 32 ∧
        OnlyFields [F.XNG_STATUS_FILL n, F.XNG_STATUS_HWM n, F.XNG_STATUS_EMPTY n, F.XNG_STATUS_FULL n, whole (F.EP_COUNT port)] s t ∧
        { t with regs := s.regs, xng := s.xng } = s) ∧
  (∀ (n : Fin 96) (w : Dword) (s : State), s.powered = true → s.fld (F.XNG_CFG_KIND n) = 3 → s.xngActive n = true → s.toFabric n = true →
      s.bit (F.XNG_STATUS_PARKED n) = false → s.bit (F.XNG_STATUS_FSIDE_RST n) = false → s.bit (F.XNG_STATUS_RESYNC n) = false →
      s.bit (F.XNG_STATUS_RESET_SKEW n) = false → (s.crossing n).held.length + (s.crossing n).unseen < 16 → s.bit (F.XNG_CFG_PACE n) = false →
      Runs (.crossingStreamWrite n w) s fun t => (t.crossing n).held = (s.crossing n).held ++ [s.xngToken n w] ∧
        t.fld (F.XNG_STATUS_FILL n) = (s.crossing n).held.length + 1 ∧
        OnlyFields [F.XNG_STATUS_FILL n, F.XNG_STATUS_HWM n, F.XNG_STATUS_EMPTY n, F.XNG_STATUS_FULL n] s t ∧ { t with regs := s.regs, xng := s.xng } = s) ∧
  (∀ (n : Fin 96) (w : Dword) (s : State), s.powered = true → s.fld (F.XNG_CFG_KIND n) = 3 → s.xngActive n = true → s.toFabric n = true →
      s.bit (F.XNG_STATUS_PARKED n) = false → s.bit (F.XNG_STATUS_FSIDE_RST n) = false → s.bit (F.XNG_STATUS_RESYNC n) = false →
      (s.crossing n).held.length = 16 →
      s.bit (F.XNG_CFG_PACE n) = false → s.bit (F.XNG_STATUS_OVR n) = false →
      Runs (.crossingStreamWrite n w) s fun t => t.crossing n = s.crossing n ∧ t.bit (F.XNG_STATUS_OVR n) = true ∧ Logs 0x0901 (n * 2 ^ 16 + 3) s t ∧
        OnlyAndLog [F.XNG_STATUS_OVR n, ⟨F.XNG_OVR_PEND (n / 32), n % 32, 1⟩, whole (F.XNG_OVR_CNT n)] s t) ∧
  (∀ (n : Fin 96) (port : Nat) (w : Dword) (ws : List Dword) (s : State), s.fld (F.XNG_CFG_KIND n) = 3 → s.xngActive n = true → s.toFabric n = true →
      s.bit (F.XNG_STATUS_PARKED n) = false → s.bit (F.XNG_STATUS_CSIDE_RST n) = false → s.bit (F.XNG_STATUS_FSIDE_RST n) = false → s.bit (F.XNG_STATUS_RESYNC n) = false →
      s.bit (F.XNG_STATUS_RESET_SKEW n) = false → s.fabricOffers 4 n = true → s.portOf 4 n = some port → s.bit (F.XNG_CFG_PACE n) = false →
      (s.crossing n).held = w :: ws → ws.length ≤ 15 →
      Runs (.crossingStreamTake n) s fun t => (t.crossing n).held = ws ∧ (t.crossing n).out = some w ∧ t.fld (F.XNG_STATUS_FILL n) = ws.length ∧
        t.fld (whole (F.EP_COUNT port)) = (s.fld (whole (F.EP_COUNT port)) + 1) % 2 ^ 32 ∧
        OnlyFields [F.XNG_STATUS_FILL n, F.XNG_STATUS_HWM n, F.XNG_STATUS_EMPTY n, F.XNG_STATUS_FULL n, F.XNG_STATUS_MBOX_BUSY n, whole (F.EP_COUNT port)] s t ∧
        { t with regs := s.regs, xng := s.xng } = s) ∧
  (∀ (n : Fin 96) (w : Dword) (ws : List Dword) (s : State), s.powered = true → s.fld (F.XNG_CFG_KIND n) = 3 → s.xngActive n = true → s.toFabric n = false →
      s.bit (F.XNG_STATUS_PARKED n) = false → s.bit (F.XNG_STATUS_RESET_SKEW n) = false → s.bit (F.XNG_CFG_PACE n) = false → s.fld (F.XNG_CFG_CLIENT n) ≠ 5 →
      (s.crossing n).held = w :: ws →
      Runs (.crossingStreamPull n) s fun t => (t.crossing n).held = ws ∧ (t.crossing n).out = some w ∧
        OnlyFields [F.XNG_STATUS_FILL n, F.XNG_STATUS_HWM n, F.XNG_STATUS_EMPTY n, F.XNG_STATUS_FULL n] s t ∧ { t with regs := s.regs, xng := s.xng } = s) ∧
  (∀ (n : Fin 96) (s : State), s.powered = true → s.fld (F.XNG_CFG_KIND n) = 3 → s.xngActive n = true → s.toFabric n = false →
      s.bit (F.XNG_STATUS_PARKED n) = false → (s.crossing n).held = [] → s.bit (F.XNG_STATUS_UNDR n) = false →
      Runs (.crossingStreamPull n) s fun t => t.bit (F.XNG_STATUS_UNDR n) = true ∧ Logs 0x0904 n s t ∧ OnlyAndLog [F.XNG_STATUS_UNDR n] s t) ∧
  (∀ (n : Fin 96) (port : Nat) (w : Dword) (s : State), s.powered = true → s.fld (F.XNG_CFG_KIND n) = 3 → s.xngActive n = true → s.toFabric n = false →
      s.fabricAlive 4 n = true → s.portOf 4 n = some port → s.isMailbox n = false → s.bit (F.XNG_STATUS_PARKED n) = false →
      s.bit (F.XNG_STATUS_CSIDE_RST n) = false → s.bit (F.XNG_STATUS_FSIDE_RST n) = false → s.bit (F.XNG_STATUS_RESYNC n) = false → s.bit (F.XNG_CFG_PACE n) = false →
      s.bit (F.XNG_STATUS_RESET_SKEW n) = false → (s.crossing n).held.length < 16 →
      Runs (.crossingStreamPush n w) s fun t => (t.crossing n).held = (s.crossing n).held ++ [s.xngToken n w] ∧
        t.fld (whole (F.EP_COUNT port)) = (s.fld (whole (F.EP_COUNT port)) + 1) % 2 ^ 32 ∧
        OnlyFields [F.XNG_STATUS_FILL n, F.XNG_STATUS_HWM n, F.XNG_STATUS_EMPTY n, F.XNG_STATUS_FULL n, whole (F.EP_COUNT port)] s t ∧
        { t with regs := s.regs, xng := s.xng } = s) ∧
  (∀ (n : Fin 96) (w : Dword) (s : State), s.fld (F.XNG_CFG_KIND n) = 3 → s.toFabric n = false → s.bit (F.XNG_STATUS_PARKED n) = false →
      s.bit (F.XNG_STATUS_CSIDE_RST n) = false → (s.crossing n).held.length = 16 →
      Runs (.crossingStreamPush n w) s fun t => t = s) ∧
  (∀ (port : Fin 384) (w : Dword) (ws : List Dword) (n : Nat) (s : State), s.fld (F.EP_BIND_CLASS port) = 3 → s.fld (F.EP_BIND_INDEX port) = n →
      s.fabricOffers 3 n = true → (s.stampOf n).buf = w :: ws → ws.length ≤ 3 → s.stampYoung n = false →
      Runs (.fabricTokenTake port) s fun t => (t.stampOf n).buf = ws ∧ t.fld (F.STMP_STATUS_DEPTH n) = ws.length ∧
        t.fld (whole (F.EP_COUNT port)) = (s.fld (whole (F.EP_COUNT port)) + 1) % 2 ^ 32 ∧
        OnlyFields [F.STMP_STATUS_DEPTH n, whole (F.EP_COUNT port)] s t ∧ { t with regs := s.regs, stamp := s.stamp } = s)

/-- Crossings: the watchdog, resets, the marks and the mailboxes.  The watchdog parks an active crossing that has seen no clock edge for its time, with 0x0902. UNPARK with
edges back discards the held words and resets the clocked side; without edges it logs 0x0906. RST_C under REJOIN discards the
held words and sets RESYNC, which clears when the handshake completes; under ALONE with the fabric side not in reset it sets
RESET_SKEW with 0x0903. A side held in reset leaves it. CLR_HWM makes HWM the fill. MBOX_LO commits one word toward the fabric,
and while busy is refused with 0x0905; POP takes the word and loads the next. -/
def Obligations.CrossingResetsAndMailboxes : Prop :=
  (∀ (n : Fin 96) (s : State), s.powered = true → s.xngActive n = true → s.bit (F.XNG_STATUS_PARKED n) = false →
      s.wdogDue n = true →
      Runs (.crossingWatchdogExpiry n) s fun t => t.bit (F.XNG_STATUS_STALL n) = true ∧ t.bit (F.XNG_STATUS_PARKED n) = true ∧
        t.bit ⟨F.XNG_STALL_PEND (n / 32), n % 32, 1⟩ = true ∧ Logs 0x0902 n s t ∧
        OnlyAndLog [F.XNG_STATUS_STALL n, F.XNG_STATUS_PARKED n, ⟨F.XNG_STALL_PEND (n / 32), n % 32, 1⟩] s t) ∧
  (∀ (n : Fin 96) (s : State), Open s → s.bit (F.XNG_STATUS_PARKED n) = true → s.bit (F.XNG_CFG_RMODE n) = false → s.bit (F.XNG_CFG_PACE n) = false →
      s.bit (F.XNG_STATUS_FSIDE_RST n) = false →
      Runs (.unpark n true) s fun t => (t.crossing n).held = [] ∧ t.bit (F.XNG_STATUS_PARKED n) = false ∧ t.bit (F.XNG_STATUS_RESYNC n) = true ∧
        t.bit (F.XNG_STATUS_CSIDE_RST n) = false ∧
        t.fld (whole (F.XNG_DISC n)) = min (2 ^ 32 - 1) (s.fld (whole (F.XNG_DISC n)) + (s.crossing n).held.length) ∧
        { t with regs := s.regs, xng := s.xng } = s) ∧
  (∀ (n : Fin 96) (s : State), Open s → s.bit (F.XNG_STATUS_PARKED n) = true →
      Runs (.unpark n false) s fun t => Logs 0x0906 n s t ∧ OnlyAndLog [] s t) ∧
  (∀ (n : Fin 96) (s : State), Open s → s.bit (F.XNG_CFG_RMODE n) = false → s.bit (F.XNG_CFG_PACE n) = false → s.bit (F.XNG_STATUS_FSIDE_RST n) = false →
      Runs (.rstC n) s fun t => (t.crossing n).held = [] ∧ t.bit (F.XNG_STATUS_RESYNC n) = true ∧ t.fld (F.XNG_STATUS_FILL n) = 0 ∧
        t.fld (whole (F.XNG_DISC n)) = min (2 ^ 32 - 1) (s.fld (whole (F.XNG_DISC n)) + (s.crossing n).held.length) ∧
        OnlyFields [whole (F.XNG_STATUS n), whole (F.XNG_DISC n)] s t ∧ { t with regs := s.regs, xng := s.xng } = s) ∧
  (∀ (n : Fin 96) (s : State), Open s → s.bit (F.XNG_CFG_RMODE n) = true → s.bit (F.XNG_CFG_PACE n) = false → s.bit (F.XNG_STATUS_FSIDE_RST n) = false →
      s.bit (F.XNG_STATUS_RESET_SKEW n) = false →
      Runs (.rstC n) s fun t => (t.crossing n).held = [] ∧ t.bit (F.XNG_STATUS_RESET_SKEW n) = true ∧
        t.bit ⟨F.XNG_SKEW_PEND (n / 32), n % 32, 1⟩ = true ∧ Logs 0x0903 (n * 2 ^ 16) s t) ∧
  (∀ (n : Fin 96) (s : State), s.powered = true → s.bit (F.XNG_STATUS_CSIDE_RST n) = true → s.bit (F.XNG_CFG_RMODE n) = false → s.bit (F.XNG_CFG_PACE n) = false →
      s.bit (F.XNG_STATUS_FSIDE_RST n) = false →
      Runs (.crossingResetExit n true) s fun t => t.bit (F.XNG_STATUS_CSIDE_RST n) = false ∧ t.bit (F.XNG_STATUS_RESYNC n) = true ∧
        (t.crossing n).held = [] ∧ OnlyFields [whole (F.XNG_STATUS n)] s t ∧ { t with regs := s.regs, xng := s.xng } = s) ∧
  (∀ (n : Fin 96) (s : State), s.powered = true → s.bit (F.XNG_STATUS_RESYNC n) = true →
      Runs (.crossingResyncDone n) s fun t => t.bit (F.XNG_STATUS_RESYNC n) = false ∧ Only [F.XNG_STATUS_RESYNC n] s t) ∧
  (∀ (n : Fin 96) (s : State), Open s →
      Runs (.crossingClrHwm n) s fun t => t.fld (F.XNG_STATUS_HWM n) = s.fld (F.XNG_STATUS_FILL n) ∧ Only [F.XNG_STATUS_HWM n] s t) ∧
  (∀ (p : Path) (n : Fin 96) (lo : Word) (s : State), Open s → s.isMailbox n = true → s.toFabric n = true → s.wideMirrored (F.XNG_MBOX_LO n) = false →
      s.fld (F.XNG_CFG_KIND n) = 2 → s.bit (F.XNG_STATUS_MBOX_BUSY n) = false → s.bit (F.XNG_STATUS_FSIDE_RST n) = false → s.bit (F.XNG_STATUS_RESYNC n) = false →
      s.bit (F.XNG_STATUS_RESET_SKEW n) = false → (s.crossing n).held = [] → (s.crossing n).unseen = 0 → s.bit (F.XNG_CFG_PACE n) = false →
      Runs (.mailboxCommit p n lo) s fun t => t.wide (F.XNG_MBOX_LO n) = (s.commitWide p (F.XNG_MBOX_LO n) lo).1 ∧
        (t.crossing n).held = [s.xngToken n (BitVec.ofNat 64 (s.commitWide p (F.XNG_MBOX_LO n) lo).1)] ∧ t.bit (F.XNG_STATUS_MBOX_BUSY n) = true ∧
        OnlyFields (whole (F.XNG_STATUS n) :: bothWords (F.XNG_MBOX_LO n)) s t ∧ { t with regs := s.regs, xng := s.xng, paths := s.paths } = s) ∧
  (∀ (p : Path) (n : Fin 96) (lo : Word) (s : State), Open s → s.isMailbox n = true → s.toFabric n = true → s.wideMirrored (F.XNG_MBOX_LO n) = false →
      s.fld (F.XNG_CFG_KIND n) = 2 → s.bit (F.XNG_STATUS_MBOX_BUSY n) = true →
      Runs (.mailboxCommit p n lo) s fun t => Logs 0x0905 n s t ∧ OnlyAndLog [] s { t with paths := s.paths }) ∧
  (∀ (n : Fin 96) (w : Dword) (ws : List Dword) (s : State), Open s → s.isMailbox n = true → s.toFabric n = false → s.bit (F.XNG_STATUS_MBOX_V n) = true →
      (s.crossing n).held = w :: ws → s.bit (F.XNG_STATUS_RESET_SKEW n) = false → s.bit (F.XNG_CFG_PACE n) = false →
      Runs (.mailboxPop n) s fun t => t.wide (F.XNG_MBOX_LO n) = w.toNat ∧ t.bit (F.XNG_STATUS_MBOX_V n) = true ∧ (t.crossing n).held = ws ∧
        OnlyFields (whole (F.XNG_STATUS n) :: bothWords (F.XNG_MBOX_LO n)) s t ∧ { t with regs := s.regs, xng := s.xng } = s) ∧
  (∀ (n : Fin 96) (s : State), Open s → s.isMailbox n = true → s.toFabric n = false → s.bit (F.XNG_STATUS_MBOX_V n) = true → (s.crossing n).held = [] →
      Runs (.mailboxPop n) s fun t => t.bit (F.XNG_STATUS_MBOX_V n) = false ∧ Only [F.XNG_STATUS_MBOX_V n] s t)

/-- FIFO engines: push, pop, the register port, FLUSH, CLR_HWM and the scrubber.  A STREAM engine with room keeps a pushed word,
from a lane or from PUSH_LO, as its last and visible; from a lane without room the word is dropped, counted and logged as
0x0A02. A word with VALID 0 changes nothing. A pop takes the first visible word; a read of POP_LO returns its low word and
latches its high word and tag; from an engine of another consumer it reads 0 and logs 0x0A08, as does a push to one of another
producer. A single-bit error is corrected, counted and flagged. FLUSH empties the engine but for the words of its window and counts the producer's words
dropped. CLR_HWM makes HWM the fill. The scrubber moves to the next address, and from the last back to 0, counting a pass. -/
def Obligations.FifoEngines : Prop :=
  (∀ (n : Fin 64) (d : Dword) (tag : Byte) (s : State), s.inSail = true → s.bit (F.FIFO_CFG_EN n) = true → s.fld (F.FIFO_CFG_PROD n) = 2 → s.fifoMode n = 0 →
      tagBit tag 7 = true → s.bit (F.FIFO_CFG_PAR_CHK n) = false → (s.engine n).words.length < s.fifoCap n → s.fifoCap n < 2 ^ 20 → s.bit (F.FIFO_CFG_PACE n) = false →
      Runs (.fifoPush n d tag) s fun t => (t.engine n).words = (s.engine n).words ++ [{ data := d, tag := tag, kind := .producer }] ∧
        (t.engine n).visible = (s.engine n).words.length + 1 ∧ t.fld (F.FIFO_FILL_WORDS n) = (s.engine n).words.length + 1 ∧
        t.bit (F.FIFO_STATUS_VISIBLE n) = true ∧
        OnlyFields [F.FIFO_FILL_WORDS n, F.FIFO_HWM_WORDS n, whole (F.FIFO_STATUS n), ⟨F.FIFO_LEVEL_PEND (n / 32), n % 32, 1⟩] s t ∧
        { t with regs := s.regs, fifo := s.fifo } = s) ∧
  (∀ (n : Fin 64) (d : Dword) (tag : Byte) (s : State), s.inSail = true → s.bit (F.FIFO_CFG_EN n) = true → s.fld (F.FIFO_CFG_PROD n) = 2 → s.fifoMode n = 0 →
      tagBit tag 7 = true → s.fifoCap n ≤ (s.engine n).words.length → s.bit (F.FIFO_CFG_PACE n) = false → s.bit (F.FIFO_STATUS_OVR n) = false →
      Runs (.fifoPush n d tag) s fun t => t.engine n = s.engine n ∧ t.bit (F.FIFO_STATUS_OVR n) = true ∧ Logs 0x0A02 (n * 2 ^ 16 + 2) s t ∧
        t.fld (whole (F.FIFO_DROP_CNT n)) = min (2 ^ 32 - 1) (s.fld (whole (F.FIFO_DROP_CNT n)) + 1) ∧
        OnlyAndLog [whole (F.FIFO_DROP_CNT n), F.FIFO_STATUS_OVR n, ⟨F.FIFO_ERR_PEND (n / 32), n % 32, 1⟩] s t) ∧
  (∀ (n : Fin 64) (d : Dword) (tag : Byte) (s : State), s.fld (F.FIFO_CFG_PROD n) = 2 → tagBit tag 7 = false → Runs (.fifoPush n d tag) s fun t => t = s) ∧
  (∀ (n : Fin 64) (port back : Nat) (w : FifoWord) (ws : List FifoWord) (v : Nat) (s : State), s.inSail = true → s.bit (F.FIFO_CFG_EN n) = true → s.fld (F.FIFO_CFG_CONS n) = 1 →
      s.fabricOffers 7 n = true → s.portOf 7 n = some port → s.portOf 8 n = some back → port ≠ back → (s.engine n).words = w :: ws → (s.engine n).visible = v + 1 → s.bit (F.FIFO_CFG_PACE n) = false →
      ws.length < 2 ^ 20 →
      Runs (.fifoPop n .clean) s fun t => (t.engine n).words = ws ∧ (t.engine n).visible = v ∧ t.fld (F.FIFO_FILL_WORDS n) = ws.length ∧
        t.fld (whole (F.EP_COUNT port)) = (s.fld (whole (F.EP_COUNT port)) + 1) % 2 ^ 32 ∧ t.errs = s.errs) ∧
  (∀ (p : Path) (n : Fin 64) (lo : Word) (s : State), s.inSail = true → s.bit (F.FIFO_CFG_EN n) = true → s.fld (F.FIFO_CFG_PROD n) = 4 → s.fifoMode n = 0 →
      s.bit (F.FIFO_CFG_PAR_CHK n) = false → (s.engine n).words.length < s.fifoCap n →
      Runs (.fifoRegisterPush p n lo) s fun t => (t.engine n).words = (s.engine n).words ++
          [{ data := BitVec.ofNat 64 (s.commitWide p (F.FIFO_PUSH_LO n) lo).1, tag := setTag (BitVec.ofNat 8 (s.fld (F.FIFO_PUSH_TAG_TAG n))) 7 true, kind := .producer }] ∧
        (t.path p).stage = none ∧ t.errs = s.errs) ∧
  (∀ (p : Path) (n : Fin 64) (lo : Word) (s : State), Open s → s.fld (F.FIFO_CFG_PROD n) ≠ 4 →
      Runs (.fifoRegisterPush p n lo) s fun t => Logs 0x0A08 (n * 2 ^ 16) s t ∧ OnlyAndLog [] s { t with paths := s.paths }) ∧
  (∀ (p : Path) (n : Fin 64) (w : FifoWord) (ws : List FifoWord) (v : Nat) (s : State), Open s → s.bit (F.FIFO_CFG_EN n) = true → s.fld (F.FIFO_CFG_CONS n) = 4 →
      (s.engine n).words = w :: ws → (s.engine n).visible = v + 1 →
      Runs (.fifoRegisterPop p n .clean) s fun t => t.readData = BitVec.ofNat 32 w.data.toNat ∧ (t.path p).cleatTag = some (F.FIFO_POP_LO n) ∧
        (t.path p).cleat = [BitVec.ofNat 32 w.data.toNat, BitVec.ofNat 32 (w.data.toNat / 2 ^ 32), w.tag.setWidth 32] ∧ (t.engine n).words = ws ∧ (t.engine n).visible = v) ∧
  (∀ (p : Path) (n : Fin 64) (w : FifoWord) (ws : List FifoWord) (v : Nat) (s : State), Open s → s.bit (F.FIFO_CFG_EN n) = true → s.fld (F.FIFO_CFG_CONS n) = 4 →
      (s.engine n).words = w :: ws → (s.engine n).visible = v + 1 → s.bit (F.FIFO_STATUS_CE n) = false →
      Runs (.fifoRegisterPop p n .single) s fun t => t.readData = BitVec.ofNat 32 w.data.toNat ∧ (t.path p).cleat[2]? = some (w.tag.setWidth 32) ∧ (t.engine n).words = ws ∧
        t.fld (whole (F.FIFO_CE_CNT n)) = min (2 ^ 32 - 1) (s.fld (whole (F.FIFO_CE_CNT n)) + 1) ∧ t.bit (F.FIFO_STATUS_CE n) = true ∧
        Logs 0x0A06 (n * 2 ^ 24 + s.fifoHeadAddr n) s t) ∧
  (∀ (p : Path) (n : Fin 64) (s : State), Open s → s.fld (F.FIFO_CFG_CONS n) ≠ 4 →
      Runs (.fifoRegisterPop p n .clean) s fun t => t.readData = 0 ∧ Logs 0x0A08 (n * 2 ^ 16 + 1) s t ∧ (t.path p).cleat = [0, 0, 0] ∧
        OnlyAndLog [] s { t with paths := s.paths, readData := s.readData }) ∧
  (∀ (n : Fin 64) (s : State), Open s → (s.engine n).opened = false → (s.engine n).young = 0 → (s.engine n).visible ≤ (s.engine n).words.length →
      Runs (.fifoFlush n) s fun t => (t.engine n).words = [] ∧ (t.engine n).visible = 0 ∧ t.fld (F.FIFO_FILL_WORDS n) = 0 ∧
        t.fld (whole (F.FIFO_DROP_CNT n)) = min (2 ^ 32 - 1) (s.fld (whole (F.FIFO_DROP_CNT n)) + ((s.engine n).words.filter fun w => w.kind == .producer).length) ∧
        t.errs = s.errs) ∧
  (∀ (n : Fin 64) (s : State), Open s → (s.engine n).opened = false → (s.engine n).young ≤ (s.engine n).words.length →
      Runs (.fifoFlush n) s fun t => (t.engine n).words = (s.engine n).words.drop ((s.engine n).words.length - (s.engine n).young)) ∧
  (∀ (n : Fin 64) (s : State), Open s →
      Runs (.fifoClrHwm n) s fun t => t.fld (F.FIFO_HWM_WORDS n) = s.fld (F.FIFO_FILL_WORDS n) ∧ Only [F.FIFO_HWM_WORDS n] s t) ∧
  (∀ s : State, s.powered = true → s.bit F.FIFO_SCRUB_CFG_EN = true → s.fld F.FIFO_SCRUB_STATUS_ADDR < 524287 →
      Runs (.scrubVisit .clean false) s fun t => t.fld F.FIFO_SCRUB_STATUS_ADDR = s.fld F.FIFO_SCRUB_STATUS_ADDR + 1 ∧ Only [F.FIFO_SCRUB_STATUS_ADDR] s t) ∧
  (∀ s : State, s.powered = true → s.bit F.FIFO_SCRUB_CFG_EN = true → s.fld F.FIFO_SCRUB_STATUS_ADDR = 524287 →
      Runs (.scrubVisit .clean false) s fun t => t.fld F.FIFO_SCRUB_STATUS_ADDR = 0 ∧
        t.fld F.FIFO_SCRUB_STATUS_PASSES = (s.fld F.FIFO_SCRUB_STATUS_PASSES + 1) % 2 ^ F.FIFO_SCRUB_STATUS_PASSES.width ∧
        Only [F.FIFO_SCRUB_STATUS_ADDR, F.FIFO_SCRUB_STATUS_PASSES] s t)

/-- A lane's states from OFF to UP, its locks, its fault sequences and its report queue.  UP moves a declared OFF lane to LOCKING;
PLL lock to NO_SIGNAL, CDR lock to ALIGNING, PCS lock to UP, each with its lock bit, and entry into UP raises UP_CHG. Losing the
PCS lock moves an UP lane to ALIGNING and logs 0x0B01; DOWN turns it OFF and clears every lock. Fault sequences show RX_LF or
RX_RF while they last. TXTS_POP removes the head of the report queue. -/
def Obligations.LaneStates : Prop :=
  (∀ (k : Fin 8) (s : State), Open s → s.laneDeclared k = true → s.laneState k = 0 →
      Runs (.laneUp k) s fun t => t.laneState k = 1 ∧ Only [F.LN_STATUS_STATE k] s t) ∧
  (∀ (k : Fin 8) (s : State), s.powered = true → s.laneState k = 1 →
      Runs (.lanePllLock k) s fun t => t.laneState k = 2 ∧ t.bit (F.LN_STATUS_PLL_LOCK k) = true ∧ t.bit ⟨F.HST_PLL_STATUS, 1 + k, 1⟩ = true ∧
        Only [F.LN_STATUS_STATE k, F.LN_STATUS_PLL_LOCK k, ⟨F.HST_PLL_STATUS, 1 + k, 1⟩] s t) ∧
  (∀ (k : Fin 8) (s : State), s.powered = true → s.laneState k = 2 →
      Runs (.laneCdrLock k) s fun t => t.laneState k = 3 ∧ t.bit (F.LN_STATUS_CDR_LOCK k) = true ∧ Only [F.LN_STATUS_STATE k, F.LN_STATUS_CDR_LOCK k] s t) ∧
  (∀ (k : Fin 8) (s : State), s.powered = true → s.laneState k = 3 →
      Runs (.lanePcsLock k) s fun t => t.laneState k = 4 ∧ t.bit (F.LN_STATUS_PCS_LOCK k) = true ∧
        t.bit (F.LN_STATUS_FEC_LOCK k) = (s.fld (F.LN_CFG_FEC k) != 0) ∧ t.bit (F.LN_EVENT_UP_CHG k) = true ∧
        Only [F.LN_STATUS_STATE k, F.LN_STATUS_PCS_LOCK k, F.LN_STATUS_FEC_LOCK k, F.LN_EVENT_UP_CHG k] s t) ∧
  (∀ (k : Fin 8) (s : State), s.powered = true → s.laneState k = 4 → s.fld F.DSC_SYNCE_CFG_LANE ≠ k →
      Runs (.laneLockLoss k .pcs) s fun t => t.laneState k = 3 ∧ t.bit (F.LN_STATUS_PCS_LOCK k) = false ∧ t.bit (F.LN_STATUS_FEC_LOCK k) = false ∧
        t.bit (F.LN_EVENT_UP_CHG k) = true ∧ t.bit (F.LN_EVENT_ERR k) = true ∧ Logs 0x0B01 k s t ∧
        OnlyAndLog [F.LN_STATUS_STATE k, F.LN_STATUS_PCS_LOCK k, F.LN_STATUS_FEC_LOCK k, F.LN_EVENT_UP_CHG k, F.LN_EVENT_ERR k] s t) ∧
  (∀ (k : Fin 8) (s : State), Open s → s.fld F.DSC_SYNCE_CFG_LANE ≠ k →
      Runs (.laneDown k) s fun t => t.laneState k = 0 ∧ t.bit (F.LN_STATUS_PLL_LOCK k) = false ∧ t.bit (F.LN_STATUS_CDR_LOCK k) = false ∧
        t.bit (F.LN_STATUS_PCS_LOCK k) = false ∧ (t.laneOf k).tx = none ∧ t.errs = s.errs) ∧
  (∀ (k : Fin 8) (on : Bool) (s : State), s.powered = true → 3 ≤ s.laneState k →
      Runs (.linkFaultSequence k true on) s fun t => t.bit (F.LN_STATUS_RX_RF k) = on ∧ Only [F.LN_STATUS_RX_RF k] s t) ∧
  (∀ (k : Fin 8) (on : Bool) (s : State), s.powered = true → 3 ≤ s.laneState k →
      Runs (.linkFaultSequence k false on) s fun t => t.bit (F.LN_STATUS_RX_LF k) = on ∧ Only [F.LN_STATUS_RX_LF k] s t) ∧
  (∀ (k : Fin 8) (s : State) (r : Nat × Word) (rest : List (Nat × Word)), Open s → (s.laneOf k).reports = r :: rest →
      Runs (.txtsPop k) s fun t => (t.laneOf k).reports = rest ∧ t.bit (F.LN_STATUS_TXTS_V k) = !rest.isEmpty ∧
        t.wide (F.LN_TXTS_LO k) = ((rest.head?.map (·.1)).getD 0) % 2 ^ 64 ∧ t.reg (F.LN_TXTS_INFO k) = (rest.head?.map (·.2)).getD 0 ∧
        OnlyFields ([F.LN_STATUS_TXTS_V k, whole (F.LN_TXTS_INFO k)] ++ bothWords (F.LN_TXTS_LO k)) s t ∧ { t with regs := s.regs, lane := s.lane } = s)

/-- Frames received and sent by a lane.  A whole, good frame received by an UP lane that names no crossing is counted and nothing
else changes; one of at most 8 octets reaches the crossing that the lane names as one word; one longer than MAX_LEN is counted as truncated and logged as 0x0B04 once. An ungated source that holds its
descriptor and all its words sends the frame's octets, counts it and holds nothing more; a gated one does so once its gate is open and uses it up; in
RAW a word goes out as it is. A descriptor with LEN below 64 is
refused: counted and logged as 0x0B09. A frame that lacks a word ends with the octets so far, counted, and logged as 0x0B07
once. -/
def Obligations.LaneFrames : Prop :=
  (∀ (k : Fin 8) (f : RxFrame) (s : State), s.inSail = true → s.laneState k = 4 → s.fld (F.LN_CFG_MODE k) ≠ 4 → f.octets ≠ [] →
      f.octets.length ≤ s.fld (F.LN_RX_CFG_MAX_LEN k) → f.perr = false → f.fecCorr = 0 → f.fecUncorr = 0 → s.fld (F.LN_RX_CFG_DEST k) = 0 →
      96 ≤ s.fld (F.LN_XNG_RX_RX k) → 96 ≤ s.fld (F.LN_XNG_RX_RXD k) →
      Runs (.receiveFrame k f) s fun t => t.fld (whole (F.LN_RX_FRAMES k)) = (s.fld (whole (F.LN_RX_FRAMES k)) + 1) % 2 ^ 32 ∧ Only [whole (F.LN_RX_FRAMES k)] s t) ∧
  (∀ (k : Fin 8) (n : Fin 96) (f : RxFrame) (s : State), s.inSail = true → s.laneState k = 4 → s.fld (F.LN_CFG_MODE k) ≠ 4 → f.octets ≠ [] → f.octets.length ≤ 8 →
      f.octets.length ≤ s.fld (F.LN_RX_CFG_MAX_LEN k) → f.perr = false → f.fecCorr = 0 → f.fecUncorr = 0 → s.fld (F.LN_RX_CFG_DEST k) = 0 →
      s.fld (F.LN_XNG_RX_RX k) = n → 96 ≤ s.fld (F.LN_XNG_RX_RXD k) → s.bit (F.XNG_STATUS_FSIDE_RST n) = false → s.bit (F.XNG_STATUS_RESYNC n) = false →
      s.bit (F.XNG_STATUS_RESET_SKEW n) = false → (s.crossing n).held.length + (s.crossing n).unseen < s.xngDepth n → s.bit (F.XNG_CFG_PACE n) = false →
      Runs (.receiveFrame k f) s fun t => (t.crossing n).held = (s.crossing n).held ++ [s.xngToken n (BitVec.ofNat 64 (leNat f.octets))] ∧
        t.fld (whole (F.LN_RX_FRAMES k)) = (s.fld (whole (F.LN_RX_FRAMES k)) + 1) % 2 ^ 32 ∧ t.errs = s.errs) ∧
  (∀ (k : Fin 8) (f : RxFrame) (s : State), s.inSail = true → s.laneState k = 4 → s.fld (F.LN_CFG_MODE k) ≠ 4 → f.octets ≠ [] →
      s.fld (F.LN_RX_CFG_MAX_LEN k) < f.octets.length → f.perr = false → f.fecCorr = 0 → f.fecUncorr = 0 → s.fld (F.LN_RX_CFG_DEST k) = 0 →
      96 ≤ s.fld (F.LN_XNG_RX_RX k) → 96 ≤ s.fld (F.LN_XNG_RX_RXD k) → s.isQuiet (F.LN_RX_TRUNC k) = false →
      Runs (.receiveFrame k f) s fun t => t.fld (whole (F.LN_RX_TRUNC k)) = min (2 ^ 32 - 1) (s.fld (whole (F.LN_RX_TRUNC k)) + 1) ∧
        Logs 0x0B04 k s t ∧ t.bit (F.LN_EVENT_ERR k) = true ∧
        OnlyAndLog [whole (F.LN_RX_FRAMES k), whole (F.LN_RX_TRUNC k), F.LN_EVENT_ERR k] s { t with quiet := s.quiet }) ∧
  (∀ (k : Fin 8) (j : Fin 4) (lead : Nat) (d : Dword) (tag : Byte) (ws : List (Dword × Byte)) (s : State), s.powered = true → 2 ≤ s.laneState k →
      s.laneSends k = false → s.fld (F.LN_CFG_MODE k) ≠ 4 → (s.source (4 * k + j)).held = (d, tag) :: ws → ws.length = txWords d →
      (s.srcCrossing (4 * k + j)).all (fun n => (s.crossing n).held.isEmpty) = true → (s.srcEngine (4 * k + j)).all (fun n => (s.engine n).visible == 0) = true →
      txBad d = false → txOp d = 0 → eopWrong d ((d, tag) :: ws) = false → s.srcGated (4 * k + j) = false → s.srcTurn k j d = true →
      Runs (.transmitFrameStart k j lead) s fun t => (t.laneOf k).line = (ws.flatMap fun w => leBytes 8 w.1.toNat).take (txLen d) ∧ (t.laneOf k).tx = none ∧
        (t.source (4 * k + j)).held = [] ∧ t.fld (whole (F.LN_TX_FRAMES k)) = (s.fld (whole (F.LN_TX_FRAMES k)) + 1) % 2 ^ 32 ∧ t.errs = s.errs) ∧
  (∀ (k : Fin 8) (j : Fin 4) (lead g : Nat) (d : Dword) (tag : Byte) (ws : List (Dword × Byte)) (s : State), s.powered = true → 2 ≤ s.laneState k →
      s.laneSends k = false → s.fld (F.LN_CFG_MODE k) ≠ 4 → (s.source (4 * k + j)).held = (d, tag) :: ws → ws.length = txWords d →
      (s.srcCrossing (4 * k + j)).all (fun n => (s.crossing n).held.isEmpty) = true → (s.srcEngine (4 * k + j)).all (fun n => (s.engine n).visible == 0) = true →
      txBad d = false → txOp d = 0 → eopWrong d ((d, tag) :: ws) = false → s.srcGated (4 * k + j) = true → (s.sheetOf (256 + (4 * k + j))).gates = g + 1 →
      Runs (.transmitFrameStart k j lead) s fun t => (t.laneOf k).line = (ws.flatMap fun w => leBytes 8 w.1.toNat).take (txLen d) ∧
        (t.sheetOf (256 + (4 * k + j))).gates = g ∧ (t.source (4 * k + j)).held = [] ∧ t.errs = s.errs) ∧
  (∀ (k : Fin 8) (j : Fin 4) (lead : Nat) (d : Dword) (tag : Byte) (ws : List (Dword × Byte)) (s : State), s.powered = true → 2 ≤ s.laneState k →
      s.laneSends k = false → s.fld (F.LN_CFG_MODE k) = 4 → (s.source (4 * k + j)).held = (d, tag) :: ws → s.srcCrossing (4 * k + j) = none →
      s.srcEngine (4 * k + j) = none → s.srcGated (4 * k + j) = false → s.reg (F.LN_RAW_MASK k) = 0 →
      Runs (.transmitFrameStart k j lead) s fun t => (t.laneOf k).line = leBytes 8 d.toNat ∧ (t.source (4 * k + j)).held = ws ∧ t.errs = s.errs) ∧
  (∀ (k : Fin 8) (j : Fin 4) (lead : Nat) (d : Dword) (tag : Byte) (ws : List (Dword × Byte)) (s : State), s.powered = true → 2 ≤ s.laneState k →
      s.laneSends k = false → s.fld (F.LN_CFG_MODE k) ≠ 4 → (s.source (4 * k + j)).held = (d, tag) :: ws →
      (s.srcCrossing (4 * k + j)).all (fun n => (s.crossing n).held.isEmpty) = true → (s.srcEngine (4 * k + j)).all (fun n => (s.engine n).visible == 0) = true → txLen d < 64 →
      s.srcGated (4 * k + j) = false →
      Runs (.transmitFrameStart k j lead) s fun t => t.fld (whole (F.LN_TX_BAD k)) = min (2 ^ 32 - 1) (s.fld (whole (F.LN_TX_BAD k)) + 1) ∧
        Logs 0x0B09 d.toNat s t ∧ t.bit (F.LN_EVENT_ERR k) = true ∧ t.lane = s.lane ∧
        OnlyAndLog [whole (F.LN_TX_BAD k), F.LN_EVENT_ERR k] s { t with txsrc := s.txsrc }) ∧
  (∀ (k : Fin 8) (f : TxFrame) (s : State), s.powered = true → (s.laneOf k).tx = some f → s.isQuiet (F.LN_TX_UNDR k) = false →
      Runs (.transmitUnderrun k) s fun t => (t.laneOf k).tx = none ∧ (t.laneOf k).line = (f.got.flatMap fun w => leBytes 8 w.toNat) ∧
        t.fld (whole (F.LN_TX_UNDR k)) = min (2 ^ 32 - 1) (s.fld (whole (F.LN_TX_UNDR k)) + 1) ∧ Logs 0x0B07 (k * 256 + f.src) s t)

/-- The link ports of the shroud and the stay: training, acknowledgement, replay, credits, falling back.  PLL lock moves a LOCKING
port to ALIGNING with its lock bit, alignment to TRAINING with nothing counted. A TRAIN flit with PEER_SEEN adds to the run of
one that has seen its peer; the eighth makes the port UP, with its event, and on the stay port a PAIR frame goes out. A control
flit of bad CRC counts CRC_ERR. A CREDIT flit stores what the peer freed. An ACK of the one waiting frame empties the replay
buffer. A replay timeout counts a replay and keeps the frames; the eighth without progress takes the stay port down to TRAINING.
A port leaves UP to the state of its cause, counting it. A lost lock below UP falls back. A frame whose CRC fails counts and
draws a NAK of the last good SEQ. An accepted HANDOVER is noted. A frame that waited too long is discarded and counted. -/
def Obligations.LinkPorts : Prop :=
  (∀ (q : Fin 5) (s : State), s.powered = true → s.linkState q = 1 →
      Runs (.shroudPortPllLock q) s fun t => t.linkState q = 2 ∧ t.bit (linkPll q 0) = true ∧ Only [linkFld q, linkPll q 0] s t) ∧
  (∀ (q : Fin 5) (s : State), s.powered = true → s.linkState q = 2 →
      Runs (.shroudPortAlign q) s fun t => t.linkState q = 3 ∧ t.linkOf q = { s.linkOf q with trains := 0, peerSeen := false } ∧
        OnlyFields [linkFld q] s t ∧ { t with regs := s.regs, link := s.link } = s) ∧
  (∀ (port : Fin 4) (s : State), s.powered = true → s.linkState 4 = 3 → (s.linkOf 4).peerSeen = true → (s.linkOf 4).trains < 7 →
      Runs (.trainFlit 4 true true true port) s fun t => t.linkOf 4 = { s.linkOf 4 with trains := (s.linkOf 4).trains + 1 } ∧ { t with link := s.link } = s) ∧
  (∀ (port : Fin 4) (s : State), s.powered = true → s.linkState 4 = 3 → (s.linkOf 4).peerSeen = true → (s.linkOf 4).trains = 7 → (s.linkOf 4).waiting = [] →
      Runs (.trainFlit 4 true true true port) s fun t => t.linkState 4 = 4 ∧ t.bit F.STY_EVENT_LINK = true ∧
        (t.linkOf 4).unacked.map (fun f => (f.1, u8 f.2 1)) = [(0, 0xA)]) ∧
  (∀ (q : Fin 4) (port : Fin 4) (s : State), s.powered = true → s.linkState q = 3 → (s.linkOf q).peerSeen = true → (s.linkOf q).trains = 7 →
      (s.linkOf q).waiting = [] → s.fstate ≠ 0 →
      Runs (.trainFlit ⟨q, by omega⟩ true true true port) s fun t => t.linkState q = 4 ∧ t.bit F.SHR_EVENT_PORT = true ∧
        t.fld (F.SHR_P_STATUS_NBR_PORT q) = port ∧ t.linkOf q = {}) ∧
  (∀ (q : Fin 5) (a b c : Bool) (port : Fin 4) (s : State), s.powered = true → 3 ≤ s.linkState q →
      Runs (.trainFlit q false b c port) s fun t => t.fld (whole (linkCrcErr q)) = min (2 ^ 32 - 1) (s.fld (whole (linkCrcErr q)) + 1) ∧
        Only [whole (linkCrcErr q)] s t) ∧
  (∀ (q : Fin 5) (a b : BitVec 16) (s : State), s.powered = true → s.linkUp q = true → (s.linkOf q).waiting = [] →
      Runs (.creditFlit q true a b) s fun t => t.linkOf q = { s.linkOf q with shown := (a.toNat, b.toNat) } ∧ { t with link := s.link } = s) ∧
  (∀ (q : Fin 4) (seq : Byte) (f : List Byte) (s : State), s.powered = true → s.linkUp q = true → (s.linkOf q).waiting = [] →
      (s.linkOf q).unacked = [(seq.toNat, f)] →
      Runs (.ackFlit ⟨q, by omega⟩ true false seq) s fun t => (t.linkOf q).unacked = [] ∧ (t.linkOf q).stalls = 0 ∧ { t with link := s.link } = s) ∧
  (∀ (q : Fin 5) (s : State), s.powered = true → s.linkUp q = true → (s.linkOf q).unacked ≠ [] → (s.linkOf q).stalls < 7 →
      s.gone (s.linkOf q).ackAt 8000 = true →
      Runs (.replayTimeout q) s fun t => t.linkOf q = { s.linkOf q with stalls := (s.linkOf q).stalls + 1, ackAt := s.clock } ∧
        t.fld (whole (linkReplay q)) = min (2 ^ 32 - 1) (s.fld (whole (linkReplay q)) + 1) ∧
        OnlyFields [whole (linkReplay q)] s t ∧ { t with regs := s.regs, link := s.link } = s) ∧
  (∀ s : State, s.powered = true → s.linkUp 4 = true → (s.linkOf 4).unacked ≠ [] → (s.linkOf 4).stalls = 7 → s.gone (s.linkOf 4).ackAt 8000 = true →
      Runs (.replayTimeout 4) s fun t => t.linkState 4 = 3 ∧ t.linkOf 4 = {} ∧ t.bit F.STY_STATUS_PAIRED = false) ∧
  (∀ (q : Fin 5) (cause : Fin 16) (s : State), s.powered = true → s.linkUp q = true → 1 ≤ cause.val → cause.val ≤ 5 →
      Runs (.shroudPortDown q cause) s fun t => t.linkState q = downTo cause ∧
        t.fld (whole (linkDownCnt q)) = min (2 ^ 32 - 1) (s.fld (whole (linkDownCnt q)) + 1) ∧
        t.fld (whole (linkLostFr q)) = min (2 ^ 32 - 1) (s.fld (whole (linkLostFr q)) + ((s.linkOf q).unacked.length + (s.linkOf q).waiting.length)) ∧
        FirstLog (if q.val < 4 then 0x0C01 else 0x0D01) ((if q.val < 4 then q.val else 0) + 256 * cause) s t) ∧
  (∀ (q : Fin 5) (s : State), s.powered = true → (s.linkState q = 2 ∨ s.linkState q = 3) →
      Runs (.shroudPortLockLoss q true) s fun t => t.linkState q = 1 ∧ t.bit (linkPll q 0) = false ∧ Only [linkFld q, linkPll q 0] s t) ∧
  (∀ (q : Fin 5) (s : State), s.powered = true → s.linkState q = 3 →
      Runs (.shroudPortLockLoss q false) s fun t => t.linkState q = 2 ∧ Only [linkFld q] s t) ∧
  (∀ (q : Fin 5) (bs : List Byte) (s : State), s.powered = true → s.linkUp q = true → frameCrcGood bs = false → (s.linkOf q).nakOut = false →
      Runs (.shroudFrame q bs) s fun t => (t.linkOf q).ack = some (true, ((s.linkOf q).rxSeq + 255) % 256) ∧ (t.linkOf q).nakOut = true ∧
        (t.linkOf q).rxSeq = (s.linkOf q).rxSeq ∧ t.fld (whole (linkCrcErr q)) = min (2 ^ 32 - 1) (s.fld (whole (linkCrcErr q)) + 1) ∧
        OnlyFields [whole (linkCrcErr q)] s t ∧ { t with regs := s.regs, link := s.link } = s) ∧
  (∀ (bs : List Byte) (s : State), s.powered = true → s.linkUp 4 = true → (s.linkReceive 4 bs).1 = true → u8 bs 1 = 0xB → u8 bs 4 = 0 → u16 bs 6 = 0 →
      Runs (.shroudFrame 4 bs) s fun t => t.stay = { s.stay with handed := true } ∧ (t.linkOf 4).rxSeq = ((s.linkOf 4).rxSeq + 1) % 256 ∧
        (t.linkOf 4).ack = some (false, (s.linkOf 4).rxSeq) ∧ { t with stay := s.stay, link := s.link } = s) ∧
  (∀ (q : Fin 4) (w : WaitFrame) (s : State), s.powered = true → (s.linkOf q).waiting = [w] → w.vc = 0 → w.ingress = none →
      s.gone w.since 200000 = true → s.isQuiet F.SHR_DISC = false →
      Runs (.frameWaitTimeout q) s fun t => (t.linkOf q).waiting = [] ∧ t.fld (whole F.SHR_DISC) = min (2 ^ 32 - 1) (s.fld (whole F.SHR_DISC) + 1) ∧
        Logs 0x0C09 (u8 w.bytes 10) s t ∧ t.bit F.SHR_EVENT_ERR = true ∧
        OnlyAndLog [whole F.SHR_DISC, F.SHR_EVENT_ERR] s { t with link := s.link, quiet := s.quiet })

/-- The shroud: election, formation, routes, link loss, coordinator loss and Mast alignment.  The coordinator's COORD_SEQ ticks
modulo 256; its HELLO goes out on its UP port. A HELLO of a lower key becomes the best key, with DIST one more and its port the
parent, and its neighbour's fields show. A quiet election's winner enters FORMING as coordinator. A member's TOPO goes out on
its parent; one that arrives at the coordinator is collected. A coordinator without members completes a formation with the next
epoch and its own address; a member's ROUTE installs its table at once while it has none; a held table is installed at SWITCH. A
LINKDOWN is noted once; REFORM on a formed coordinator makes a formation due. A lost coordinator logs 0x0C05 and the device
falls back to its own key. SYNC_REQ and SYNC_RESP go out, and a symmetric exchange measures no offset. REPORTs are noted and
sent. -/
def Obligations.ShroudElection : Prop :=
  (∀ s : State, s.powered = true → s.selfBest = true → s.fstate ≠ 0 →
      Runs .coordSeqTick s fun t => t = { s with shroud := { s.shroud with seq := (s.shroud.seq + 1) % 256 } }) ∧
  (∀ (q : Fin 4) (s : State), s.powered = true → s.selfBest = true → s.fstate ≠ 0 → s.defers = false → s.shroud.hello = [] → s.upPorts = [q.val] → Ready q s →
      Runs .helloSend s fun t => SentKind q 0x10 s t) ∧
  (∀ (q : Fin 4) (data : List Byte) (s : State), s.powered = true → s.linkUp q = true → s.shroud.hello = [] → s.shroud.best = some s.ownKey → s.fstate = 1 →
      (parseHello data).key < s.ownKey → s.helloIgnored (parseHello data).key = false →
      Runs (.hello q data) s fun t => t.shroud.best = some (parseHello data).key ∧ t.shroud.dist = (parseHello data).dist + 1 ∧ t.parent = q ∧
        t.fstate = 1 ∧ t.helloOf q = some (parseHello data) ∧ t.fld (F.SHR_P_STATUS_NBR_PORT q) = (parseHello data).port ∧
        t.fld (F.SHR_P_STATUS_NBR_ADDR q) = (parseHello data).addr % 64) ∧
  (∀ s : State, s.powered = true → s.fstate = 1 → s.selfBest = true → s.gone s.shroud.bestAt (s.fld F.SHR_TIMING_FORM_QUIET_US * 4000) = true →
      Runs .formQuiet s fun t => t.fstate = 2 ∧ t.bit F.SHR_STATUS_IS_COORD = true ∧ t.bit F.SHR_STATUS_ALIGNED = true ∧ t.parent = 7) ∧
  (∀ (q : Fin 4) (s : State), s.powered = true → 2 ≤ s.fstate → s.selfBest = false → s.parent = q → Ready q s →
      Runs (.topo none) s fun t => SentKind q 0x11 s t ∧ { t with link := s.link } = s) ∧
  (∀ (q : Fin 4) (bs : List Byte) (s : State), s.powered = true → s.linkUp q = true → s.selfBest = true → s.shroud.topos = [] →
      Runs (.topo (some (q, bs))) s fun t => t.shroud.topos = [parseTopo q (bs.drop 16)] ∧ { t with shroud := s.shroud, link := s.link } = s) ∧
  (∀ s : State, s.powered = true → s.bit F.SHR_STATUS_IS_COORD = true → s.fstate = 2 → s.shroud.topos = [] → s.shroud.hasTable = false →
      s.fld F.SHR_CFG_EXPECT = 0 → s.gone s.shroud.topoAt (s.fld F.SHR_TIMING_FORM_QUIET_US * 4000) = true → s.shroud.issued = s.fld F.SHR_STATUS_EPOCH → s.bit F.SHR_CFG_ADDR_STRAP = true →
      Runs .formationComplete s fun t => t.fstate = 3 ∧ t.fld F.SHR_STATUS_EPOCH = (s.fld F.SHR_STATUS_EPOCH + 1) % 256 ∧
        t.fld F.SHR_STATUS_ADDR = s.fld F.HST_STRAPS_ADDR % 64 ∧ t.bit F.SHR_STATUS_ADDR_VALID = true ∧
        t.fld F.SHR_FABRIC_COORD_ADDR = s.fld F.HST_STRAPS_ADDR % 64 ∧ t.shroud.hasTable = true ∧ t.bit F.SHR_EVENT_EPOCH = true) ∧
  (∀ (q : Fin 4) (bs : List Byte) (s : State), s.powered = true → s.linkUp q = true → s.fstate = 2 → s.selfBest = false → s.shroud.hasTable = false →
      u8 (bs.drop 16) 4 ≤ u8 bs 10 → u8 (bs.drop 16) 5 / 64 % 2 = 1 →
      Runs (.route q bs) s fun t => t.fstate = 3 ∧ t.fld F.SHR_STATUS_EPOCH = u8 (bs.drop 16) 6 ∧ t.fld F.SHR_STATUS_ADDR = u8 (bs.drop 16) 5 % 64 ∧
        t.fld F.SHR_FABRIC_COORD_ADDR = u16 bs 6 / 64 % 64 ∧ (∀ k : Fin 8, (t.reg (F.SHR_ROUTE k)).toNat = u32 (bs.drop 16) (16 + 4 * k))) ∧
  (∀ (r : RouteTable) (s : State), s.powered = true → s.shroud.table = some r → atOrAfter s.now r.switch = true →
      Runs .routeSwitch s fun t => t.fld F.SHR_STATUS_EPOCH = r.epoch % 256 ∧ t.fld F.SHR_STATUS_ADDR = r.addr % 64 ∧ t.shroud.table = none ∧
        t.shroud.hasTable = true) ∧
  (∀ (q : Fin 4) (uid : BitVec 96) (port : Fin 4) (e : Byte) (s : State), s.powered = true → s.upPorts = [q.val] →
      (uid.toNat, port.val, e.toNat) ∉ s.shroud.seenDown → s.bit F.SHR_STATUS_IS_COORD = false →
      Runs (.linkdown q uid port e) s fun t => t = { s with shroud := { s.shroud with seenDown := (uid.toNat, port.val, e.toNat) :: s.shroud.seenDown } }) ∧
  (∀ s : State, s.powered = true → s.fstate ≠ 0 → s.selfBest = false → s.gone s.shroud.seqAt 4000000 = true →
      Runs .coordinatorLost s fun t => t.shroud.best = some s.ownKey ∧ t.fstate = 1 ∧ t.parent = 7 ∧
        t.shroud.lost = some (s.shroud.best.getD 0 % 2 ^ 96, s.clock) ∧ FirstLog 0x0C05 (s.fld F.SHR_FABRIC_COORD_ADDR) s t ∧
        t.bit F.SHR_EVENT_COORD_LOST = true) ∧
  (∀ s : State, Open s → s.bit F.SHR_STATUS_IS_COORD = true → s.formed = true →
      Runs .reform s fun t => t = { s with shroud := { s.shroud with due := true, reform := true, formAt := s.clock, topoAt := s.clock } }) ∧
  (∀ (q : Fin 4) (ofs : Nat) (s : State), s.powered = true → 2 ≤ s.fstate → s.shroud.noAddr = false → s.selfBest = false → s.parent = q → Ready q s →
      Runs (.shroudSyncReq none ofs) s fun t => t.shroud.sync = some (q.val, (s.now + ofs) % 2 ^ 64, s.mast.steps) ∧ SentKind q 0x15 s t) ∧
  (∀ (q : Fin 4) (ofs : Nat) (s : State), s.powered = true → Ready q s →
      Runs (.shroudSyncReq (some q) ofs) s fun t => SentKind q 0x16 s t ∧ { t with link := s.link } = s) ∧
  (∀ (q : Fin 4) (d t1 t3 : Nat) (ofs : Nat) (s : State), s.powered = true → s.linkUp q = true → s.shroud.sync = some (q.val, t1, s.mast.steps) → s.reg (F.SHR_P_ASYM q) = 0 →
      s.bit F.SHR_STATUS_IS_COORD = false → s.formed = false → d < 2 ^ 31 → t1 < 2 ^ 64 → t3 < 2 ^ 64 → (s.now + ofs) % 2 ^ 64 = (t3 + d) % 2 ^ 64 →
      Runs (.shroudSyncResp q (BitVec.ofNat 64 (t1 + d)) (BitVec.ofNat 64 t3) 0 false ofs) s fun t => (t.reg (F.SHR_P_DELAY q)).toNat = d ∧
        t.reg F.SHR_LAST_ERR = 0 ∧ t.bit F.SHR_STATUS_ALIGNED = true ∧ t.bit F.SHR_STATUS_COORD_SET = false ∧ t.shroud.sync = none ∧ t.mast = s.mast) ∧
  (∀ (a : Fin 64) (s : State), s.powered = true → s.formed = true → s.bit F.SHR_STATUS_IS_COORD = true →
      Runs (.report a true) s fun t => a.val ∈ t.shroud.alignedAt ∧
        t.bit F.SHR_STATUS_FAB_ALIGNED = ((List.range 64).all fun x => x == s.fld F.SHR_STATUS_ADDR || !s.isMember x || t.shroud.alignedAt.contains x)) ∧
  (∀ (q : Fin 4) (s : State), s.powered = true → s.formed = true → s.bit F.SHR_STATUS_IS_COORD = false → s.routeTo (s.fld F.SHR_FABRIC_COORD_ADDR) = q → Ready q s →
      Runs .reportSend s fun t => SentKind q 0x13 s t ∧ { t with link := s.link } = s)

/-- Shroud endpoints and their credit book.  A transmit side with credit sends its edge port's tokens in one TOKEN frame and counts
them. The receive side's CREDIT frame carries RX_RECV and RX_TAKEN to its peer. A PROBE carries TX_SENT and awaits its reply; a
reply that shows L tokens missing adds L to TX_LOST and logs 0x0C07, and one that shows none logs nothing. A write of TX_PEER
with nothing outstanding stores the peer and clears the pair's counters; with tokens outstanding it is refused with 0x0C0A, and
so is a write of RX_PEER while tokens are held. -/
def Obligations.ShroudEndpoints : Prop :=
  (∀ (n : Fin 64) (q : Fin 4) (port : Nat) (d : Dword) (s : State), s.epSends n = true → s.bit (F.SHR_EP_CFG_TX_FIFO n) = false → s.fabricAlive 0xA n = true →
      s.portOf 0xA n = some port → 1 ≤ s.epCredit n → s.routeTo (s.txPeer n / 64) = q → Ready q s →
      Runs (.endpointTransmit n [(d, .clean)]) s fun t => SentKind q 1 s t ∧
        t.fld (F.SHR_EP_TX_SENT_CNT n) = (s.fld (F.SHR_EP_TX_SENT_CNT n) + 1) % 2 ^ 32 ∧
        t.fld (whole (F.EP_COUNT port)) = (s.fld (whole (F.EP_COUNT port)) + 1) % 2 ^ 32 ∧
        OnlyFields [whole (F.SHR_EP_TX_SENT n), whole (F.EP_COUNT port)] s t ∧ { t with regs := s.regs, link := s.link } = s) ∧
  (∀ (n : Fin 64) (q : Fin 4) (s : State), s.powered = true → s.formed = true → s.bit (F.SHR_EP_CFG_RX_EN n) = true → s.fld (F.SHR_EP_RX_TAKEN_CNT n) ≠ (s.endpointOf n).credited →
      s.gone (s.endpointOf n).advAt 4000 = true → s.routeTo (s.rxPeer n / 64) = q → Ready q s →
      Runs (.endpointCreditFrame n) s fun t => (t.endpointOf n).credited = s.fld (F.SHR_EP_RX_TAKEN_CNT n) ∧
        SentOn q (s.shrFrame 2 1 (s.rxPeer n) n 0 (padTo 16 (leBytes 4 (s.fld (F.SHR_EP_RX_RECV_CNT n)) ++ leBytes 4 (s.fld (F.SHR_EP_RX_TAKEN_CNT n)) ++ [0]))) s t ∧
        t.errs = s.errs) ∧
  (∀ (n : Fin 64) (q : Fin 4) (s : State), s.epSends n = true → s.epSent n ≠ (s.endpointOf n).recv → s.probeDue n = true → s.routeTo (s.txPeer n / 64) = q → Ready q s →
      Runs (.probe n) s fun t => (t.endpointOf n).probe = some (s.fld (F.SHR_EP_TX_SENT_CNT n)) ∧
        SentOn q (s.shrFrame 3 0 (s.txPeer n) n 0 (padTo 16 (leBytes 4 (s.fld (F.SHR_EP_TX_SENT_CNT n))))) s t ∧ t.errs = s.errs) ∧
  (∀ (n : Fin 64) (recv taken : Word) (sent l : Nat) (s : State), s.powered = true → s.formed = true → s.bit (F.SHR_EP_CFG_TX_EN n) = true →
      (s.endpointOf n).probe = some sent → sent < 2 ^ 32 → 0 < l → l < 65536 →
      (sent + 2 ^ 32 - s.fld (F.SHR_EP_TX_LOST_CNT n)) % 2 ^ 32 = (recv.toNat + l) % 2 ^ 32 →
      Runs (.probeReply n recv taken) s fun t => t.fld (F.SHR_EP_TX_LOST_CNT n) = (s.fld (F.SHR_EP_TX_LOST_CNT n) + l) % 2 ^ 32 ∧
        (t.endpointOf n).probe = none ∧ (t.endpointOf n).recv = recv.toNat ∧ (t.endpointOf n).taken = taken.toNat ∧ Logs 0x0C07 (n * 2 ^ 16 + l) s t ∧
        t.bit F.SHR_EVENT_LOST = true) ∧
  (∀ (n : Fin 64) (recv taken : Word) (sent : Nat) (s : State), s.powered = true → s.formed = true → s.bit (F.SHR_EP_CFG_TX_EN n) = true →
      (s.endpointOf n).probe = some sent → sent < 2 ^ 32 → (sent + 2 ^ 32 - s.fld (F.SHR_EP_TX_LOST_CNT n)) % 2 ^ 32 = recv.toNat →
      Runs (.probeReply n recv taken) s fun t => (t.endpointOf n).probe = none ∧ (t.endpointOf n).recv = recv.toNat ∧ t.errs = s.errs ∧
        t.fld (F.SHR_EP_TX_LOST_CNT n) = s.fld (F.SHR_EP_TX_LOST_CNT n)) ∧
  (∀ (p : Path) (n : Fin 64) (v : Word) (s : State), Open s → s.mirrorMask (F.SHR_EP_TX_PEER n) = 0 → s.epSent n = (s.endpointOf n).taken →
      Runs (.peerWrite p n false v) s fun t => t.txPeer n = v.toNat % 4096 ∧ t.reg (F.SHR_EP_TX_SENT n) = 0 ∧ t.reg (F.SHR_EP_TX_LOST n) = 0 ∧
        t.epCredit n = 32 ∧ (t.endpointOf n).probe = none ∧ t.errs = s.errs) ∧
  (∀ (p : Path) (n : Fin 64) (v : Word) (s : State), Open s → s.epSent n ≠ (s.endpointOf n).taken →
      Runs (.peerWrite p n false v) s fun t => Logs 0x0C0A (n * 2 ^ 16) s t ∧ t.bit F.SHR_EVENT_ERR = true ∧ OnlyAndLog [F.SHR_EVENT_ERR] s t) ∧
  (∀ (p : Path) (n : Fin 64) (v : Word) (s : State), Open s → (s.endpointOf n).held ≠ [] →
      Runs (.peerWrite p n true v) s fun t => Logs 0x0C0A (n * 2 ^ 16 + 1) s t ∧ t.bit F.SHR_EVENT_ERR = true ∧ OnlyAndLog [F.SHR_EVENT_ERR] s t)

/-- The stay's roles: heartbeats, ACT_IN, claim wait, takeover, contention, pairing, switchover.  A heartbeat sent advances HB_SEQ.
One received from a partner in the same role as before shows its flags. A first miss on a STANDBY is counted; the third in a row
with ACT_IN low takes over. ACT_IN falling on a STANDBY makes it ACTIVE and starts the takeover, whose completion stores its
instant, counts it and logs 0x0D04. The claim wait ends in ACTIVE. In a contention the member that is not PRIMARY demotes with
0x0D05. PAIR stores the partner's UID and signature and compares the signature. SWITCHOVER with a wrong KEY is refused with
0x0D08; the acknowledged handover makes the member STANDBY. A timed-out sample disqualifies its source. -/
def Obligations.StayRoles : Prop :=
  (∀ s : State, s.powered = true → s.stayUp = true →
      Runs .heartbeatSend s fun t => t = { s with stay := { s.stay with hbSeq := (s.stay.hbSeq + 1) % 65536 } }) ∧
  (∀ (flags : Byte) (s : State), s.powered = true → s.stayUp = true → s.role = 1 → s.fld F.STY_STATUS_PARTNER_ROLE = 2 → s.bit F.STY_STATUS_PARTNER_PRESENT = true →
      Runs (.heartbeat true 2 flags) s fun t => t.stay = { s.stay with partnerAligned := flags.toNat / 8 % 2 == 1, partnerWarm := flags.toNat / 16 % 2 == 1, misses := 0, hbAt := s.clock } ∧
        t.fld F.STY_STATUS_PARTNER_PRIMARY = flags.toNat % 2 ∧ t.fld F.STY_STATUS_PARTNER_REEFING = flags.toNat / 2 % 2 ∧
        OnlyFields [F.STY_STATUS_PARTNER_PRIMARY, F.STY_STATUS_PARTNER_REEFING] s t ∧ { t with regs := s.regs, stay := s.stay } = s) ∧
  (∀ s : State, s.powered = true → s.role = 1 → s.stay.misses ≠ 2 → s.gone s.stay.hbAt (24000 + 20000 * s.stay.misses) = true →
      Runs .heartbeatMiss s fun t => t.stay = { s.stay with misses := s.stay.misses + 1 } ∧
        t.fld (whole F.STY_HB_MISS) = min (2 ^ 32 - 1) (s.fld (whole F.STY_HB_MISS) + 1) ∧ OnlyFields [whole F.STY_HB_MISS] s t ∧
        { t with regs := s.regs, stay := s.stay } = s) ∧
  (∀ s : State, s.inSail = true → s.role = 1 → s.stay.misses = 2 → s.gone s.stay.hbAt 64000 = true → s.stay.actIn = false → s.bit F.MODE_STATUS_REEFING = false → s.stay.takeover = none →
      Runs .heartbeatMiss s fun t => t.role = 2 ∧ t.bit F.STY_STATUS_PARTNER_PRESENT = false ∧
        t.stay.takeover = some (s.now, 1 + 256 * s.fld F.STY_STATUS_WARM + 512 * s.stay.handed.toNat) ∧ t.stay.handed = false) ∧
  (∀ s : State, s.inSail = true → s.role = 1 → s.stay.actIn = true → s.bit F.MODE_STATUS_REEFING = false → s.stay.takeover = none →
      Runs (.actInChange false) s fun t => t.role = 2 ∧ t.stay.actIn = false ∧ t.bit F.STY_STATUS_WARM = false ∧ t.bit F.STY_EVENT_ROLE_CHG = true ∧
        t.stay.takeover = some (s.now, 2 + 256 * s.fld F.STY_STATUS_WARM + 512 * s.stay.handed.toNat)) ∧
  (∀ (t0 d : Nat) (s : State), s.powered = true → s.stay.takeover = some (t0, d) →
      Runs .takeoverComplete s fun t => t.wide F.STY_LAST_TO_LO = t0 % 2 ^ 64 ∧ t.stay.takeover = none ∧
        t.fld (whole F.STY_TAKEOVERS) = (s.fld (whole F.STY_TAKEOVERS) + 1) % 2 ^ 32 ∧ t.bit F.STY_EVENT_TAKEOVER = true ∧ Logs 0x0D04 d s t ∧
        OnlyAndLog (whole F.STY_TAKEOVERS :: F.STY_EVENT_TAKEOVER :: bothWords F.STY_LAST_TO_LO) s { t with stay := s.stay }) ∧
  (∀ s : State, s.inSail = true → s.stay.claim = true → s.gone s.stay.claimAt (s.fld F.STY_TIMING_CLAIM_US * 4000) = true → s.role ≠ 2 → s.stay.actIn = false →
      Runs .claimWaitEnd s fun t => t.role = 2 ∧ t.stay.claim = false ∧ t.bit F.STY_EVENT_ROLE_CHG = true ∧
        OnlyFields [F.STY_STATUS_ROLE, F.STY_STATUS_WARM, F.STY_STATUS_CONTEND, F.STY_EVENT_ROLE_CHG] s t ∧ { t with regs := s.regs, stay := s.stay } = s) ∧
  (∀ s : State, s.powered = true → s.role = 2 → s.stay.actIn = true → s.gone s.stay.contendAt 4000 = true → s.bit F.STY_STATUS_PAIRED = true → s.primary = false → s.bit F.STY_STATUS_PARTNER_PRIMARY = true →
      Runs .contention s fun t => t.role = 1 ∧ t.stay.slotOut = [] ∧ t.stay.slotIn = [] ∧ t.stay.takeover = none ∧ Logs 0x0D05 0 s t ∧
        OnlyAndLog [F.STY_STATUS_ROLE, F.STY_STATUS_WARM, F.STY_STATUS_CONTEND, whole F.STY_EVENT] s { t with stay := s.stay }) ∧
  (∀ (uid : BitVec 96) (s : State), s.powered = true → s.stayUp = true → s.role = 1 → s.primary = true →
      Runs (.pair uid false (s.reg F.STY_SIG)) s fun t => t.bit F.STY_STATUS_PAIRED = true ∧ t.bit F.STY_STATUS_SIG_MATCH = true ∧
        t.bit F.STY_STATUS_PARTNER_PRIMARY = false ∧ t.reg F.STY_SLOT_RX = 0 ∧ t.reg F.STY_PARTNER_SIG = s.reg F.STY_SIG ∧
        t.reg (F.STY_PARTNER_UID 0) = BitVec.ofNat 32 uid.toNat ∧ t.reg (F.STY_PARTNER_UID 2) = BitVec.ofNat 32 (uid.toNat / 2 ^ 64) ∧
        t.errs = s.errs) ∧
  (∀ (uid : BitVec 96) (sig : Word) (s : State), s.powered = true → s.stayUp = true → s.role = 1 → s.primary = true → sig ≠ s.reg F.STY_SIG →
      Runs (.pair uid false sig) s fun t => t.bit F.STY_STATUS_PAIRED = true ∧ t.bit F.STY_STATUS_SIG_MATCH = false ∧ Logs 0x0D03 sig.toNat s t ∧
        t.bit F.STY_EVENT_ERR = true) ∧
  (∀ (p : Path) (v : Word) (s : State), Open s → v.toNat / 2 ^ 16 ≠ 0x5354 →
      Runs (.switchover p v) s fun t => Logs 0x0D08 1 s t ∧ OnlyAndLog [F.STY_EVENT_ERR] s t) ∧
  (∀ (p : Path) (v : Word) (s : State), s.inSail = true → v.toNat / 2 ^ 16 = 0x5354 → s.role = 2 → s.fld F.STY_STATUS_PARTNER_ROLE = 1 →
      s.stay.partnerWarm = true → s.stay.partnerAligned = true → s.stayUp = true → s.bit F.STY_STATUS_SIG_MATCH = true → s.ledgerGrants (s.reg F.STY_PUSH_COST).toNat false = true →
      Runs (.switchover p v) s fun t => t.stay.handing = true ∧ t.role = 2 ∧ t.errs = s.errs) ∧
  (∀ s : State, s.powered = true → s.stay.handing = true → s.role = 2 →
      Runs .handoverAck s fun t => t.role = 1 ∧ t.stay.handing = false ∧ t.stay.slotOut = [] ∧ t.stay.slotIn = []) ∧
  (∀ s : State, s.inSail = true → s.gone s.dsc.partnerAt (3 * s.fld F.STY_TIMING_SYNC_US * 4000) = true →
      Runs (.syncSampleTimeout true) s fun t => t.bit (srcFld 4) = false ∧ t.dsc.partnerRun = 0) ∧
  (∀ s : State, s.inSail = true → s.gone s.dsc.coordAt (3 * s.fld F.SHR_TIMING_SYNC_US * 4000) = true →
      Runs (.syncSampleTimeout false) s fun t => t.bit (srcFld 3) = false ∧ t.dsc.coordRun = 0)

/-- What the pair mirrors: frames out of an ACTIVE, and their effect on a STANDBY.  An ACTIVE with nothing declared refreshes by a
DSC frame and an END; a changed compare goes out as its frame, a DSC frame when its mirror is on. A STANDBY applies a REG item
to the declared bits alone, a TIMER frame's PERIOD and MATCH, a COMPARE frame's settings, value and armed state once per
ARM_SEQ, a DSC frame's state and source, and adopts a good MODEL pair only under MIRROR_ADOPT; it counts each. A slot's snapshot
is offered and counted; END makes it WARM once every slot in use has arrived. On the ACTIVE the fourth token completes a
snapshot. SYNC_REQ and SYNC_RESP go out, and a symmetric exchange measures no offset. -/
def Obligations.StayMirror : Prop :=
  (∀ s : State, s.role = 2 → Ready 4 s → s.gone s.stay.refreshAt (s.fld F.STY_CFG_REFRESH_MS * 4000000) = true → s.stay.handing = false →
      s.stay.pushing = false → s.bit F.STY_STATUS_SIG_MATCH = false →
      Runs (.refresh none) s fun t => SentOn 4 (stayFrame 9 0 0 s.now []) s t ∧ t.stay = { s.stay with refreshAt := s.clock } ∧
        { t with link := s.link, stay := s.stay } = s) ∧
  (∀ (i : Fin 512) (n a m : Nat) (s : State), s.mirrors = true → Ready 4 s → s.stayEntries[i.val]? = some (3, n, a, m) →
      s.entryView i ≠ Table.get (fun _ => []) s.stay.sentEntry i →
      Runs (.mirrorChangeFrame i) s fun t => SentOn 4 (stayFrame 4 0 i s.now (s.compareData n)) s t ∧
        Table.get (fun _ => []) t.stay.sentEntry i = s.entryView i ∧ { t with link := s.link, stay := s.stay } = s) ∧
  (∀ s : State, s.mirrors = true → s.bit F.STY_CFG_DSC_MIRROR = true → Ready 4 s →
      Runs .dscFrameSend s fun t => SentKind 4 5 s t ∧ t.stay = { s.stay with dscSent := s.dscState } ∧ { t with link := s.link, stay := s.stay } = s) ∧
  (∀ (i : BitVec 16) (v : Word) (n a m : Nat) (s : State), s.applies = true → s.stayEntries[i.toNat]? = some (1, n, a, m) → a ≠ F.STY_MIRROR_RX →
      Runs (.mirrorReg [(i, v)]) s fun t =>
        t.reg a = (s.reg a &&& ~~~(BitVec.ofNat 32 m)) ||| (v &&& BitVec.ofNat 32 m) ∧
        t.fld (whole F.STY_MIRROR_RX) = (s.fld (whole F.STY_MIRROR_RX) + 1) % 2 ^ 32 ∧ Only [whole a, whole F.STY_MIRROR_RX] s t) ∧
  (∀ (i : Fin 512) (n : Nat) (data : List Byte) (s : State), s.applies = true → s.entryUnit 2 i = some n → n < 64 → u8 data 36 % 4 = 2 → data.length = 48 →
      Runs (.mirrorTimer i data) s fun t => t.timerPeriod n = leNat ((data.drop 8).take 6) ∧ t.wide (F.TMR_MATCH_LO n) = leNat ((data.drop 16).take 6) ∧
        t.reg (F.TMR_CTRL n) = BitVec.ofNat 32 (u32 data 24) ∧ t.reg (F.TMR_OACT n) = BitVec.ofNat 32 (u32 data 32) ∧ t.fld (F.TMR_STATUS_STATE n) = 2 ∧
        t.fld (whole F.STY_MIRROR_RX) = (s.fld (whole F.STY_MIRROR_RX) + 1) % 2 ^ 32 ∧ t.errs = s.errs ∧ t.mast = s.mast) ∧
  (∀ (i : Fin 512) (n : Nat) (data : List Byte) (s : State), s.applies = true → s.entryUnit 3 i = some n → n < 256 → (s.cmpOf n).applied ≠ some (u8 data 21) →
      data.length = 32 →
      Runs (.mirrorCompare i data) s fun t => t.wide (F.CMP_VAL_LO n) = leNat (data.take 8) ∧ t.reg (F.CMP_DELAY n) = BitVec.ofNat 32 (u32 data 8) ∧
        t.reg (F.CMP_ACT n) = BitVec.ofNat 32 (u32 data 16) ∧ t.bit (F.CMP_STATUS_ARMED n) = (u8 data 20 % 2 == 1) ∧
        (t.cmpOf n).applied = some (u8 data 21) ∧ (t.cmpOf n).commitAt = s.now) ∧
  (∀ (data : List Byte) (s : State), s.applies = true →
      Runs (.mirrorDsc data) s fun t => t.fld F.STY_PARTNER_DSC_STATE = u8 data 0 % 2 ^ F.STY_PARTNER_DSC_STATE.width ∧
        t.fld F.STY_PARTNER_DSC_SRC = u8 data 1 % 2 ^ F.STY_PARTNER_DSC_SRC.width ∧
        t.fld (whole F.STY_MIRROR_RX) = (s.fld (whole F.STY_MIRROR_RX) + 1) % 2 ^ 32 ∧ t.mast = s.mast) ∧
  (∀ (record : List Byte) (s : State), s.applies = true → s.bit F.DSC_MODEL_CFG_MIRROR_ADOPT = true → recordGood record = true →
      Runs (.mirrorModel record) s fun t => t.fld (whole F.STY_MIRROR_RX) = (s.fld (whole F.STY_MIRROR_RX) + 1) % 2 ^ 32 ∧ t.mast = s.mast) ∧
  (∀ (record : List Byte) (s : State), s.bit F.DSC_MODEL_CFG_MIRROR_ADOPT = false → Runs (.mirrorModel record) s fun t => t = s) ∧
  (∀ (n : Fin 32) (a b c d : Dword) (s : State), s.applies = true → (s.slotOf n).offered = none →
      Runs (.slot n a b c d) s fun t => t.slotOf n = { s.slotOf n with offered := some [a, b, c, d] } ∧ t.bit ⟨F.STY_SLOT_RX, n, 1⟩ = true ∧
        t.fld (whole F.STY_MIRROR_RX) = (s.fld (whole F.STY_MIRROR_RX) + 1) % 2 ^ 32 ∧
        OnlyFields [⟨F.STY_SLOT_RX, n, 1⟩, whole F.STY_MIRROR_RX] s t ∧ { t with regs := s.regs, stay := s.stay } = s) ∧
  (∀ s : State, s.inSail = true → s.role = 1 → s.bit F.STY_STATUS_PAIRED = true → s.bit F.STY_STATUS_WARM = false →
      s.reg F.STY_SLOT_RX &&& s.reg F.STY_SLOTS = s.reg F.STY_SLOTS →
      Runs .stayEnd s fun t => t.bit F.STY_STATUS_WARM = true ∧ t.bit F.STY_EVENT_WARM = true ∧ Only [F.STY_STATUS_WARM, F.STY_EVENT_WARM] s t) ∧
  (∀ (n : Fin 32) (port : Nat) (a b c d : Dword) (s : State), s.fabricAlive 0xC n = true → s.portOf 0xC n = some port → s.role = 2 →
      Table.get (fun _ => []) s.stay.slotOut n = [a, b, c] → s.mirrors = false → n.val ∉ s.stay.slotUnsent → (s.linkOf 4).waiting = [] →
      Runs (.mirrorSlotSnapshot n d) s fun t => t.slotLast n = some ([a, b, c, d], s.now) ∧ Table.get (fun _ => []) t.stay.slotOut n = [] ∧
        t.fld (whole (F.EP_COUNT port)) = (s.fld (whole (F.EP_COUNT port)) + 1) % 2 ^ 32 ∧ OnlyFields [whole (F.EP_COUNT port)] s t) ∧
  (∀ (ofs : Nat) (s : State), s.powered = true → Ready 4 s → s.role ≠ 2 → s.fld F.STY_STATUS_PARTNER_ROLE = 2 →
      Runs (.staySyncReq false ofs) s fun t => t.stay = { s.stay with sync := some ((s.now + ofs) % 2 ^ 64, s.mast.steps) } ∧
        SentOn 4 (stayFrame 7 0 0 s.now []) s t ∧ { t with stay := s.stay, link := s.link } = s) ∧
  (∀ (ofs : Nat) (s : State), s.powered = true → Ready 4 s →
      Runs (.staySyncReq true ofs) s fun t => SentKind 4 8 s t ∧ { t with link := s.link } = s) ∧
  (∀ (d t1 t3 ofs : Nat) (s : State), s.powered = true → s.stayUp = true → s.stay.sync = some (t1, s.mast.steps) → s.reg F.STY_ASYM = 0 → d < 2 ^ 31 → t1 < 2 ^ 64 → t3 < 2 ^ 64 →
      (s.now + ofs) % 2 ^ 64 = (t3 + d) % 2 ^ 64 →
      Runs (.staySyncResp (BitVec.ofNat 64 (t1 + d)) (BitVec.ofNat 64 t3) false ofs) s fun t => (t.reg F.STY_DELAY).toNat = d ∧ t.reg F.STY_LAST_ERR = 0 ∧
        t.bit F.STY_STATUS_ALIGNED = true ∧ t.stay.sync = none ∧ t.mast = s.mast ∧ t.errs = s.errs)

/-- AVSBus, the pace and the voltage target.  A poll stores the voltage and current, and after a fault clears it and writes the
target. A change of target is written unless AVS_FAULT is set. A failed frame sets AVS_FAULT and logs 0x0E01 with its CmdCode. A
sample period without a declared input and no pressure requests 800 mV and the target follows the floor, the ceiling and the
cap. Above POWER_CAP the cap falls by STEP_DN, not below 550 mV, and without a cap it is 950 mV. -/
def Obligations.VoltageLoop : Prop :=
  (∀ (mV mA : Nat) (s : State), s.powered = true → s.bit F.PWR_STATUS_CEILING_PRESSURE = false → s.bit F.PWR_STATUS_AVS_FAULT = false →
      Runs (.avsbusPoll mV mA) s fun t => t.fld F.PWR_VDDF_MEAS_MV = mV % 2 ^ F.PWR_VDDF_MEAS_MV.width ∧
        t.fld F.PWR_VDDF_MEAS_MA = mA % 2 ^ F.PWR_VDDF_MEAS_MA.width ∧ Only [F.PWR_VDDF_MEAS_MV, F.PWR_VDDF_MEAS_MA] s t) ∧
  (∀ (mV mA : Nat) (s : State), s.powered = true → s.bit F.PWR_STATUS_CEILING_PRESSURE = false → s.bit F.PWR_STATUS_AVS_FAULT = true →
      Runs (.avsbusPoll mV mA) s fun t => t.bit F.PWR_STATUS_AVS_FAULT = false ∧ t.pwr = { s.pwr with avsFailed := none, avsTarget := s.fld F.PWR_VDDF_TARGET_T } ∧
        OnlyFields [F.PWR_VDDF_MEAS_MV, F.PWR_VDDF_MEAS_MA, F.PWR_STATUS_AVS_FAULT] s t ∧ { t with regs := s.regs, pwr := s.pwr } = s) ∧
  (∀ s : State, s.powered = true → s.bit F.PWR_STATUS_AVS_FAULT = false →
      Runs .avsbusVoltageWrite s fun t => t = { s with pwr := { s.pwr with avsTarget := s.fld F.PWR_VDDF_TARGET_T } }) ∧
  (∀ (cmd : Fin 16) (s : State), s.powered = true → s.bit F.PWR_STATUS_AVS_FAULT = false →
      Runs (.avsbusFault cmd) s fun t => t.bit F.PWR_STATUS_AVS_FAULT = true ∧ t.bit F.PWR_EVENT_AVS = true ∧ Logs 0x0E01 cmd s t ∧
        t.pwr = { s.pwr with avsFailed := some cmd.val } ∧ OnlyAndLog [F.PWR_STATUS_AVS_FAULT, F.PWR_EVENT_AVS] s { t with pwr := s.pwr }) ∧
  (∀ s : State, s.bit F.PWR_STATUS_LOOP_RUN = true → s.gone s.pwr.paceAt (s.fld F.PWR_PACE_TIME_PACE_US * 4000) = true → s.win.found = [] → s.paceInputs = 0 → s.fld F.PWR_VDDF_FLOOR_MV ≤ 800 → 800 ≤ s.fld F.PWR_VDDF_CEIL_MV → s.pwr.capLim = 950 →
      Runs .paceSample s fun t => t.fld F.PWR_VDDF_TARGET_REQ = 800 ∧ t.fld F.PWR_VDDF_TARGET_T = 800 ∧ t.fld F.PWR_PACE_STATUS_N = 0 ∧
        t.bit F.PWR_STATUS_CEILING_PRESSURE = false ∧ t.errs = s.errs ∧
        t.pwr = { s.pwr with lowSpan := 0, pacePeak := s.pwr.paceNow, paceLoss := false, paceAt := s.clock }) ∧
  (∀ s : State, s.bit F.PWR_STATUS_LOOP_RUN = true → s.fld F.PWR_POWER_CAP_MW = 0 → s.fld F.PWR_VDDF_FLOOR_MV ≤ s.fld F.PWR_VDDF_CEIL_MV →
      s.fld F.PWR_VDDF_TARGET_REQ ≤ s.fld F.PWR_VDDF_CEIL_MV → s.fld F.PWR_VDDF_CEIL_MV ≤ 950 →
      Runs .powerCapCheck s fun t => t.pwr = { s.pwr with capLim := 950 } ∧ t.bit F.PWR_STATUS_CEILING_PRESSURE = false ∧ t.bit F.PWR_STATUS_CAP_LIMIT = false ∧
        OnlyFields [F.PWR_STATUS_CEILING_PRESSURE, F.PWR_STATUS_CAP_LIMIT] s t ∧ { t with regs := s.regs, pwr := s.pwr } = s) ∧
  (∀ s : State, s.bit F.PWR_STATUS_LOOP_RUN = true → 0 < s.fld F.PWR_POWER_CAP_MW →
      s.fld F.PWR_POWER_CAP_MW * 1000 < s.fld F.PWR_VDDF_MEAS_MV * s.fld F.PWR_VDDF_MEAS_MA →
      Runs .powerCapCheck s fun t => t.pwr.capLim = max 550 (s.pwr.capLim - s.fld F.PWR_PACE_CFG_STEP_DN))

/-- The reserve, the ledger and VBAT.  A sample below VSTOP less HYST and not above VLIM begins charging, with the usable energy of
its voltage; one above VLIM stops charging, raises RSV_OVER and logs 0x0E06 once. A charge that takes too long logs 0x0E07 once.
A write of RSV_VTGT recomputes VSTOP. With the energy for its cost and the margin the ledger grants a request and adds its cost;
without it the request is counted, shown and logged as 0x0E05 once. VBAT below 2.0 V sets VBAT_LOW and logs 0x0E0C once per
Hoist. -/
def Obligations.ReserveAndLedger : Prop :=
  (∀ (code : Fin 4096) (s : State), s.powered = true → s.pwr.rsvEn = true → s.pwr.rsvDiv = 4096 → code.val * 6000 % 1024 = 0 → code.val * 6000 / 1024 < 65536 →
      code.val * 6000 / 1024 * (code.val * 6000 / 1024) * s.fld F.PWR_RSV_C_VALUE ≤ s.twiceEcap → s.bit F.MODE_STATUS_REEFING = false → s.bit F.MODE_STATUS_PFI_PAUSED = false →
      code.val * 6000 / 1024 + s.fld F.PWR_RSV_CTRL_HYST < s.fld F.PWR_RSV_VSTOP_MV → s.bit F.PWR_STATUS_CHARGING = false →
      Runs (.reserveSample code) s fun t => t.fld F.PWR_RSV_V_MV = code.val * 6000 / 1024 ∧ t.bit F.PWR_STATUS_CHARGING = true ∧
        (t.reg F.PWR_RSV_E).toNat = s.energy (code.val * 6000 / 1024) ∧ t.pwr = { s.pwr with rsvExcursion := false, chargeLogged := false, chargeAt := s.clock } ∧
        OnlyFields [F.PWR_RSV_V_MV, whole F.PWR_RSV_E, F.PWR_STATUS_RSV_OK, F.PWR_STATUS_CHARGING] s t ∧ { t with regs := s.regs, pwr := s.pwr } = s) ∧
  (∀ (code : Fin 4096) (s : State), s.powered = true → s.pwr.rsvEn = true → s.pwr.rsvDiv = 4096 → code.val * 6000 % 1024 = 0 → code.val * 6000 / 1024 < 65536 →
      s.twiceEcap < code.val * 6000 / 1024 * (code.val * 6000 / 1024) * s.fld F.PWR_RSV_C_VALUE → s.pwr.rsvExcursion = false →
      Runs (.reserveSample code) s fun t => t.bit F.PWR_STATUS_CHARGING = false ∧ t.bit F.PWR_STATUS_RSV_OVER = true ∧ t.pwr.rsvExcursion = true ∧
        t.bit F.PWR_EVENT_RSV = true ∧ Logs 0x0E06 (code.val * 6000 / 1024) s t) ∧
  (∀ s : State, s.powered = true → s.bit F.PWR_STATUS_CHARGING = true → s.pwr.chargeLogged = false →
      s.gone s.pwr.chargeAt (s.fld F.PWR_RSV_CTRL_CHG_TO * 4000000000) = true →
      Runs .chargeTimeout s fun t => Logs 0x0E07 (s.fld F.PWR_RSV_V_MV) s t ∧ t.bit F.PWR_EVENT_RSV = true ∧ t.bit F.PWR_STATUS_CHARGING = true ∧
        t.pwr = { s.pwr with chargeLogged := true } ∧ OnlyAndLog [F.PWR_EVENT_RSV] s { t with pwr := s.pwr }) ∧
  (∀ (p : Path) (v : Word) (s : State), Open s → s.pwr.rsvEn = true →
      Runs (.rsvVtgtWrite p v) s fun t => t.fld F.PWR_RSV_VTGT_MV = v.toNat % 2 ^ F.PWR_RSV_VTGT_MV.width ∧
        t.fld F.PWR_RSV_VSTOP_MV ≤ t.fld F.PWR_RSV_VTGT_MV ∧ t.fld F.PWR_RSV_VSTOP_MV ≤ s.fld F.PWR_RSV_VRANGE_VMAX ∧
        Only [F.PWR_RSV_VTGT_MV, F.PWR_RSV_VSTOP_MV] s t) ∧
  (∀ (code : Fin 7) (cost : Nat) (reefOp : Bool) (s : State), s.powered = true → s.ledgerGrants cost reefOp = true →
      Runs (.ledgerRequest code cost reefOp) s fun t => t.pwr.grants = s.pwr.grants ++ [(code.val, cost)] ∧
        t.fld F.PWR_LEDGER_COMMIT_UJ = min (2 ^ 32 - 1) (s.fld F.PWR_LEDGER_COMMIT_UJ + cost) ∧ t.bit F.PWR_STATUS_LEDGER_BLIND = !s.pwr.rsvEn ∧
        OnlyFields [F.PWR_LEDGER_COMMIT_UJ, F.PWR_STATUS_LEDGER_BLIND] s t ∧ { t with regs := s.regs, pwr := s.pwr } = s) ∧
  (∀ (code : Fin 7) (cost : Nat) (s : State), s.powered = true → s.pwr.rsvEn = true →
      s.fld F.PWR_RSV_E_UJ < s.fld F.PWR_LEDGER_COMMIT_UJ + cost + s.fld F.PWR_LEDGER_MARGIN_UJ → cost < 2 ^ 24 → s.isQuiet F.PWR_LEDGER_REFUSED = false →
      Runs (.ledgerRequest code cost false) s fun t => t.fld (whole F.PWR_LEDGER_REFUSED) = min (2 ^ 32 - 1) (s.fld (whole F.PWR_LEDGER_REFUSED) + 1) ∧
        (t.reg F.PWR_LEDGER_LAST).toNat = code * 2 ^ 24 + cost ∧ Logs 0x0E05 (code * 2 ^ 24 + cost) s t ∧ t.bit F.PWR_EVENT_LEDGER = true ∧
        OnlyAndLog [whole F.PWR_LEDGER_REFUSED, whole F.PWR_LEDGER_LAST, F.PWR_EVENT_LEDGER] s { t with quiet := s.quiet }) ∧
  (∀ (mV : Nat) (s : State), s.inSail = true → 2000 ≤ mV →
      Runs (.vbatMeasure mV) s fun t => t.fld F.PWR_VBAT_MV = min mV 65535 ∧ Only [F.PWR_VBAT_MV] s t) ∧
  (∀ (mV : Nat) (s : State), s.inSail = true → mV < 2000 → s.pwr.vbatLogged = false →
      Runs (.vbatMeasure mV) s fun t => t.fld F.PWR_VBAT_MV = mV ∧ t.bit F.PWR_STATUS_VBAT_LOW = true ∧ t.bit F.PWR_EVENT_VBAT = true ∧ Logs 0x0E0C mV s t ∧
        t.pwr = { s.pwr with vbatLogged := true } ∧ OnlyAndLog [F.PWR_VBAT_MV, F.PWR_STATUS_VBAT_LOW, F.PWR_EVENT_VBAT] s { t with pwr := s.pwr })

/-- Bank supplies, static pins and event lines.  A bank within 10 % of its declared supply is marked good; one outside is marked bad
and logs 0x0F02 once. A write of OUT or OE changes the static pins' bits alone; a changed bit of a sheet's pin is refused with
0x0F01. A rising edge on an enabled rising-edge line counts, stores its instant and sets its pending bit. A write of EVn_CFG
stores the bank, TRIG and EN and starts the line afresh; the odd pin of an LVDS pair is refused with 0x0F04. -/
def Obligations.PinsAndEventLines : Prop :=
  (∀ (mV : Nat) (vs : List Nat) (s : State), s.inSail = true → vs.length = 15 → (∀ b : Fin 15, s.bankSupply (b + 1) = none) → s.bankSupply 0 = some 1800 → 1620 ≤ mV → mV ≤ 1980 → s.vioBad % 2 = 0 →
      Runs (.vioCheck (mV :: vs)) s fun t => t.bit ⟨F.GPIO_VIO_OK, 0, 1⟩ = true ∧ Only [⟨F.GPIO_VIO_OK, 0, 1⟩] s t) ∧
  (∀ (mV : Nat) (vs : List Nat) (s : State), s.inSail = true → vs.length = 15 → (∀ b : Fin 15, s.bankSupply (b + 1) = none) → s.bankSupply 0 = some 3300 → mV < 2970 → s.vioBad % 2 = 0 →
      Runs (.vioCheck (mV :: vs)) s fun t => t.bit ⟨F.GPIO_VIO_OK, 0, 1⟩ = false ∧ Logs 0x0F02 (mV * 2 ^ 16) s t ∧ t.vioBad = s.vioBad + 1 ∧
        OnlyAndLog [⟨F.GPIO_VIO_OK, 0, 1⟩] s { t with vioBad := s.vioBad }) ∧
  (∀ (p : Path) (b : Fin 16) (v : Word) (s : State), Open s → s.mirrorMask (F.GPIO_OUT b) = 0 → (s.reg (F.GPIO_OUT b)).toNat < 2 ^ 16 →
      (s.reg (F.GPIO_OUT b) ^^^ v) &&& BitVec.ofNat 32 (s.sheetOwned b) = 0 →
      Runs (.gpioStaticWrite p false b v) s fun t => t.reg (F.GPIO_OUT b) = v &&& 0xFFFF ∧ Only [whole (F.GPIO_OUT b)] s t) ∧
  (∀ (p : Path) (b : Fin 16) (v : Word) (s : State), Open s → s.mirrorMask (F.GPIO_OE b) = 0 →
      (s.reg (F.GPIO_OE b) ^^^ v) &&& BitVec.ofNat 32 (s.sheetOwned b) ≠ 0 →
      Runs (.gpioStaticWrite p true b v) s fun t =>
        t.reg (F.GPIO_OE b) = ((s.reg (F.GPIO_OE b) &&& BitVec.ofNat 32 (s.sheetOwned b)) ||| (v &&& ~~~(BitVec.ofNat 32 (s.sheetOwned b)))) &&& 0xFFFF ∧
        Logs 0x0F01 (b * 2 ^ 16 + ((s.reg (F.GPIO_OE b) ^^^ v) &&& BitVec.ofNat 32 (s.sheetOwned b)).toNat) s t ∧ OnlyAndLog [whole (F.GPIO_OE b)] s t) ∧
  (∀ (n : Fin 16) (fine : Fin 40) (s : State), s.inSail = true → s.bit (F.EV_CFG_EN n) = true → s.fld (F.EV_CFG_TRIG n) = 1 → (s.line n).lastEdge = none →
      (s.line n).owed = false → s.armedBy n = [] → s.portOf 9 n = none →
      Runs (.eventLineTrigger n true fine) s fun t => t.wide (F.EV_LAST_LO n) = (s.now + fine / 8) % 2 ^ 64 ∧ t.fld (whole (F.EV_COUNT n)) = (s.fld (whole (F.EV_COUNT n)) + 1) % 2 ^ 32 ∧
        t.bit ⟨F.EVL_PEND, n, 1⟩ = true ∧ t.bit ⟨F.GPIO_IN (s.linePin n / 16), s.linePin n % 16, 1⟩ = true ∧
        (t.line n).lastEdge = some (s.now * 8 + fine) ∧
        OnlyFields ([⟨F.EVL_PEND, n, 1⟩, whole (F.EV_COUNT n), ⟨F.GPIO_IN (s.linePin n / 16), s.linePin n % 16, 1⟩] ++ bothWords (F.EV_LAST_LO n)) s t ∧
        { t with regs := s.regs, evline := s.evline } = s) ∧
  (∀ (p : Path) (n : Fin 16) (v : Word) (s : State), Open s → s.lvdsOdd (16 * bits v.toNat 11 8 + n) = false → s.mirrorMask (F.EV_CFG n) = 0 → bits v.toNat 4 2 < 4 → (s.line n).owed = false →
      Runs (.evCfgWrite p n v) s fun t => t.fld (F.EV_CFG_BANK n) = bits v.toNat 11 8 ∧ t.fld (F.EV_CFG_TRIG n) = bits v.toNat 4 2 ∧
        t.fld (F.EV_CFG_EN n) = v.toNat % 2 ∧ (t.line n).lastEdge = none ∧ (t.line n).active = false ∧
        OnlyFields [whole (F.EV_CFG n)] s t ∧ { t with regs := s.regs, evline := s.evline } = s) ∧
  (∀ (p : Path) (n : Fin 16) (v : Word) (s : State), Open s → s.lvdsOdd (16 * bits v.toNat 11 8 + n) = true →
      Runs (.evCfgWrite p n v) s fun t => Logs 0x0F04 (n * 2 ^ 16 + v.toNat % 2 ^ 16) s t ∧ OnlyAndLog [] s t)

/-- The ROM flash routines that return at once, and refused accesses.  flash_info returns OK, the geometry, WARN_LEVEL and whether
an operation runs. flash_config stores WARN_LEVEL and the patrol interval, or returns BAD_ARG or BUSY and stores nothing.
flash_blank answers whether a range reads erased, and FLC_STATUS.BLANK shows it. flash_read of a clean range within one chunk
copies it to SRAM and nothing else of SRAM changes. flash_wait answers STARTED or TIMEOUT for a running operation and then the
operation's result, and OK the next time. An access to the FLC block that is not from ROM code logs 0x0301 with its offset, and
a read returns 0. -/
def Obligations.FlashCallsAtOnce : Prop :=
  (∀ (c : RoutineCall) (s : State), s.powered = true → NoCall s →
      Runs (.flashInfo c) s fun t => t = { s with returned := [0, 0x02102010, BitVec.ofNat 32 (s.fld F.FLC_WARN_LEVEL), if s.flash.op.isSome then 1 else 0] }) ∧
  (∀ (c : RoutineCall) (s : State), s.powered = true → NoCall s → 1 ≤ c.a0.toNat → c.a0.toNat ≤ 4 → c.a1.toNat ≤ 65535 → s.flash.op = none →
      Runs (.flashConfig c) s fun t => t.fld F.FLC_WARN_LEVEL = c.a0.toNat ∧ t.fld F.FLC_PATROL_CFG_MS = c.a1.toNat ∧ t.returned = [0] ∧
        Only [F.FLC_WARN_LEVEL, F.FLC_PATROL_CFG_MS] s { t with returned := s.returned, flash := { t.flash with patrolFrom := s.flash.patrolFrom } }) ∧
  (∀ (c : RoutineCall) (s : State), s.powered = true → NoCall s → c.a0.toNat < 1 ∨ 4 < c.a0.toNat ∨ 65535 < c.a1.toNat →
      Runs (.flashConfig c) s fun t => t = { s with returned := [3] }) ∧
  (∀ (c : RoutineCall) (s : State), s.powered = true → NoCall s → c.a0.toNat + c.a1.toNat ≤ 0x1000000 → s.rangeBusy c.a0.toNat c.a1.toNat = false →
      s.flashBytes c.a0.toNat c.a1.toNat = List.replicate c.a1.toNat 0xFF →
      Runs (.flashBlank c) s fun t => t.bit F.FLC_STATUS_BLANK = true ∧ t.returned = [0, 0xFFFFFFFF] ∧ Only [F.FLC_STATUS_BLANK] s { t with returned := s.returned }) ∧
  (∀ (c : RoutineCall) (s : State), s.powered = true → NoCall s → c.a0.toNat + c.a1.toNat ≤ 0x1000000 → s.rangeBusy c.a0.toNat c.a1.toNat = false →
      0 < c.a1.toNat → s.flashBytes c.a0.toNat 1 ≠ [0xFF] →
      Runs (.flashBlank c) s fun t => t.bit F.FLC_STATUS_BLANK = false ∧ t.returned = [6, c.a0] ∧ Only [F.FLC_STATUS_BLANK] s { t with returned := s.returned }) ∧
  (∀ (c : RoutineCall) (s : State), s.powered = true → NoCall s → s.flash.op = none → 1 ≤ c.a2.toNat → c.a1.toNat % 32 + c.a2.toNat ≤ 32 →
      c.a1.toNat + c.a2.toNat ≤ 0x1000000 → 0x20000000 ≤ c.a0.toNat → c.a0.toNat + c.a2.toNat ≤ 0x2003C000 → s.rangeBusy c.a1.toNat c.a2.toNat = false →
      Table.get (fun _ => false) s.flash.bad (c.a1.toNat / 32) = false → 1 ≤ s.fld F.FLC_WARN_LEVEL →
      Runs (.flashRead c []) s fun t => t.returned = [0, 0, 0xFFFFFFFF] ∧
        Memory.bytes zeroByte t.sram (c.a0.toNat - 0x20000000) c.a2.toNat = s.flashBytes c.a1.toNat c.a2.toNat ∧
        SramOnly (c.a0.toNat - 0x20000000) c.a2.toNat s t ∧ t.fld F.FLC_LAST_CE_COUNT = 0 ∧ t.fld F.FLC_LAST_CE_OFS = c.a1.toNat / 32 * 32 ∧
        Only [F.FLC_LAST_CE_COUNT, F.FLC_LAST_CE_OFS] s { t with returned := s.returned, sram := s.sram }) ∧
  (∀ (c : RoutineCall) (errs : List (Nat × Nat)) (s : State), s.powered = true → NoCall s → c.a2.toNat < 1 ∨ 262144 < c.a2.toNat ∨ 0x1000000 < c.a1.toNat + c.a2.toNat →
      Runs (.flashRead c errs) s fun t => t = { s with returned := [3, 0, 0xFFFFFFFF] }) ∧
  (∀ (c : RoutineCall) (op : FlashOp) (s : State), s.powered = true → NoCall s → s.flash.op = some op → op.caller = callerOf c →
      Runs (.flashWait c) s fun t => t = { s with returned := [if c.a0 = 0 then 1 else 12, 0, 0xFFFFFFFF] }) ∧
  (∀ (c : RoutineCall) (st n ofs : Word) (s : State), s.powered = true → NoCall s → s.flash.op = none → s.flash.results = [(callerOf c, [st, n, ofs])] →
      Runs (.flashWait c) s fun t => t = { s with returned := [st, n, ofs], flash := { s.flash with results := [(callerOf c, [0, n, ofs])] } }) ∧
  (∀ (p : Path) (ofs : Fin 65536) (write : Bool) (s : State), Open s → write = true ∨ p = .sup →
      Runs (.flcAccessRefused p ofs write) s fun t => Logs 0x0301 (0x30000 + ofs.val / 4 * 4) s t ∧ OnlyAndLog [] s t) ∧
  (∀ (p : Path) (ofs : Fin 65536) (s : State), Open s → p ≠ .sup →
      Runs (.flcAccessRefused p ofs false) s fun t => t.readData = 0 ∧ Logs 0x0301 (0x30000 + ofs.val / 4 * 4) s t ∧ OnlyAndLog [] s { t with readData := s.readData })

/-- A program of the on-chip flash: its call, its refusals and its end.  A call of flash_program within its arguments, over blank
units of sectors that the caller may write, with no operation, no PFI and the ledger's grant, returns STARTED, makes its bank
busy, clears DONE and shows its offset; with WAIT it returns only at the end. A misaligned call returns BAD_ARG, one that
touches a SYS sector DENIED, one under PFI PFI, one over a used unit NOT_ERASED with the unit, and each of these changes nothing
else. When every unit has passed the array holds the source bytes, every other byte reads as before, DONE is set and RESULT is
OK, and the grant ends. -/
def Obligations.FlashPrograms : Prop :=
  (∀ (c : RoutineCall) (s : State), s.powered = true → NoCall s → c.a0.toNat % 32 = 0 → c.a2.toNat % 32 = 0 → 32 ≤ c.a2.toNat → c.a2.toNat ≤ 4096 →
      c.a0.toNat + c.a2.toNat ≤ 0x1000000 → c.a3 = 0 → srcOk c c.a1.toNat c.a2.toNat = true → (sectorsOf c.a0.toNat c.a2.toNat).all (mayWrite false) = true →
      s.flash.op = none → s.writesBarred = false → inOwnBank c c.a0.toNat c.a2.toNat = false →
      ((List.range (c.a2.toNat / 32)).all fun k => s.unitBlank (c.a0.toNat / 32 + k)) = true → s.ledgerGrants (2 * (c.a2.toNat / 32)) false = true →
      Runs (.flashProgram c) s fun t => t.returned = [1, 0, 0xFFFFFFFF] ∧
        t.flash = { s.flash with op := some ⟨false, c.a0.toNat, c.a2.toNat / 32, 0, c.a1.toNat, s.supBytes c.a1.toNat 32, none, callerOf c, false, false⟩ } ∧
        t.bankBusy (decide (0x800000 ≤ c.a0.toNat)) = true ∧ t.bit F.FLC_STATUS_DONE = false ∧ t.fld F.FLC_ADDR_OFS = c.a0.toNat ∧ t.reg F.FLC_SRC = c.a1 ∧
        t.pwr = { s.pwr with grants := s.pwr.grants ++ [(1, 2 * (c.a2.toNat / 32))] } ∧
        OnlyFields [whole F.FLC_SRC, F.FLC_ADDR_OFS, F.FLC_STATUS_BUSY_A, F.FLC_STATUS_BUSY_B, F.FLC_STATUS_DONE, F.PWR_LEDGER_COMMIT_UJ, F.PWR_STATUS_LEDGER_BLIND] s t ∧
        { t with regs := s.regs, flash := s.flash, pwr := s.pwr, returned := s.returned, win := { t.win with flashCall := s.win.flashCall } } = s) ∧
  (∀ (c : RoutineCall) (s : State), s.powered = true → NoCall s → c.a0.toNat % 32 ≠ 0 →
      Runs (.flashProgram c) s fun t => t = { s with returned := [3, 0, 0xFFFFFFFF] }) ∧
  (∀ (c : RoutineCall) (s : State), s.powered = true → NoCall s → c.a0.toNat % 32 = 0 → c.a2.toNat % 32 = 0 → 32 ≤ c.a2.toNat → c.a2.toNat ≤ 4096 →
      c.a0.toNat < 0x20000 → c.a3.toNat < 8 → srcOk c c.a1.toNat c.a2.toNat = true →
      Runs (.flashProgram c) s fun t => t = { s with returned := [4, 0, 0xFFFFFFFF] }) ∧
  (∀ (c : RoutineCall) (s : State), s.powered = true → NoCall s → c.a0.toNat % 32 = 0 → c.a2.toNat % 32 = 0 → 32 ≤ c.a2.toNat → c.a2.toNat ≤ 4096 →
      c.a0.toNat + c.a2.toNat ≤ 0x1000000 → c.a3.toNat < 8 → srcOk c c.a1.toNat c.a2.toNat = true → (sectorsOf c.a0.toNat c.a2.toNat).all (mayWrite false) = true →
      s.flash.op = none → s.bit F.PWR_STATUS_PFI = true →
      Runs (.flashProgram c) s fun t => t = { s with returned := [8, 0, 0xFFFFFFFF] }) ∧
  (∀ (c : RoutineCall) (s : State), s.powered = true → NoCall s → c.a0.toNat % 32 = 0 → c.a2.toNat = 32 → c.a0.toNat + 32 ≤ 0x1000000 → c.a3 = 0 →
      srcOk c c.a1.toNat 32 = true → mayWrite false (c.a0.toNat / 65536) = true → s.flash.op = none → s.writesBarred = false →
      inOwnBank c c.a0.toNat 32 = false → s.flashBytes c.a0.toNat 32 ≠ List.replicate 32 0xFF →
      Runs (.flashProgram c) s fun t => t = { s with returned := [6, 0, c.a0] }) ∧
  (∀ (p : Nat) (op : FlashOp) (s : State), s.powered = true → s.flash.op = some op → op.erase = false → op.caller = 0 → op.waits = false →
      s.keys.massErase = none → s.flash.results = [] → s.upd.steps = [] → s.dsc.snapWait = [] → 1 ≤ p → p ≤ 16 → op.taken.length = 32 * op.total →
      Runs (.flashOperationComplete (.passed p)) s fun t => t.flash.op = none ∧ t.flashBytes op.ofs (32 * op.total) = op.taken ∧ FlashOnly op.ofs (32 * op.total) s t ∧
        t.flash.results = [(0, [0, BitVec.ofNat 32 (32 * op.total), 0xFFFFFFFF])] ∧ t.bit F.FLC_STATUS_DONE = true ∧ t.fld F.FLC_STATUS_RESULT = 0 ∧
        t.bankBusy false = false ∧ t.bankBusy true = false ∧ t.fld F.FLC_PULSES_N = p ∧ t.pwr = (s.ledgerEnd 1).pwr ∧
        OnlyFields [F.FLC_PULSES_N, F.FLC_STATUS_BUSY_A, F.FLC_STATUS_BUSY_B, F.FLC_STATUS_DONE, F.FLC_STATUS_RESULT, F.PWR_LEDGER_COMMIT_UJ] s t ∧
        { t with regs := s.regs, flash := s.flash, pwr := s.pwr } = s)

/-- An erase of the on-chip flash and the patrol.  A call of flash_erase that nothing refuses writes a START unit to the SYS
sector's next journal entry, makes its bank busy and returns STARTED; nothing else of the array changes. When the last sector
passes it reads erased, every byte outside it but its DONE unit reads as before, DONE is set and RESULT is OK. In Sail a patrol
read of a clean chunk moves on by 32 bytes; after the last chunk it starts again and counts a pass. A weak chunk is counted and
logs 0x0305; while the patrol's bank is busy, nothing is read. -/
def Obligations.FlashErasesAndPatrol : Prop :=
  (∀ (c : RoutineCall) (s : State), s.powered = true → NoCall s → c.a0.toNat % 65536 = 0 → 1 ≤ c.a1.toNat → c.a0.toNat + 65536 * c.a1.toNat ≤ 0x1000000 → c.a3 = 0 →
      (sectorsOf c.a0.toNat (65536 * c.a1.toNat)).all (mayWrite false) = true → s.flash.op = none → s.writesBarred = false →
      inOwnBank c c.a0.toNat (65536 * c.a1.toNat) = false → s.journalNext (s.fld F.FLC_SYS_ACTIVE) + c.a1.toNat ≤ 960 →
      s.ledgerGrants (2004 * c.a1.toNat) false = true →
      Runs (.flashErase c) s fun t => t.returned = [1, 0, 0xFFFFFFFF] ∧
        t.flash.op = some ⟨true, c.a0.toNat, c.a1.toNat, 0, 0, [], some (s.journalNext (s.fld F.FLC_SYS_ACTIVE)), callerOf c, false, false⟩ ∧
        t.flashBytes (65536 * s.fld F.FLC_SYS_ACTIVE + 0x800 + 64 * s.journalNext (s.fld F.FLC_SYS_ACTIVE)) 32 = startUnit 1 (c.a0.toNat / 65536) ∧
        FlashOnly (65536 * s.fld F.FLC_SYS_ACTIVE + 0x800 + 64 * s.journalNext (s.fld F.FLC_SYS_ACTIVE)) 32 s t ∧
        t.bankBusy (decide (0x800000 ≤ c.a0.toNat)) = true ∧ t.bit F.FLC_STATUS_DONE = false ∧ t.fld F.FLC_ADDR_OFS = c.a0.toNat ∧
        t.pwr = { s.pwr with grants := s.pwr.grants ++ [(2, 2004 * c.a1.toNat)] } ∧
        OnlyFields [F.FLC_ADDR_OFS, F.FLC_STATUS_BUSY_A, F.FLC_STATUS_BUSY_B, F.FLC_STATUS_DONE, F.PWR_LEDGER_COMMIT_UJ, F.PWR_STATUS_LEDGER_BLIND] s t ∧
        { t with regs := s.regs, flash := s.flash, pwr := s.pwr, returned := s.returned, win := { t.win with flashCall := s.win.flashCall } } = s) ∧
  (∀ (p : Nat) (op : FlashOp) (e : Nat) (s : State), s.powered = true → s.flash.op = some op → op.erase = true → op.caller = 0 → op.waits = false →
      op.done + 1 = op.total → op.entry = some e → s.keys.massErase = none → s.flash.results = [] → s.upd.steps = [] → s.dsc.snapWait = [] → 1 ≤ p → p ≤ 48 →
      2 ≤ op.ofs / 65536 + op.done → e < 992 →
      Runs (.flashOperationComplete (.passed p)) s fun t => t.flash.op = none ∧ t.sectorErased (op.ofs / 65536 + op.done) = t ∧
        t.flash.results = [(0, [0, BitVec.ofNat 32 op.total, 0xFFFFFFFF])] ∧ t.bit F.FLC_STATUS_DONE = true ∧ t.fld F.FLC_STATUS_RESULT = 0 ∧
        t.flashBytes (65536 * s.fld F.FLC_SYS_ACTIVE + 0x820 + 64 * e) 32 = List.replicate 32 0 ∧ t.bankBusy false = false ∧ t.bankBusy true = false ∧
        t.fld F.FLC_PULSES_N = p ∧ t.pwr = (s.ledgerEnd 2).pwr ∧
        OnlyFields [F.FLC_PULSES_N, F.FLC_STATUS_BUSY_A, F.FLC_STATUS_BUSY_B, F.FLC_STATUS_DONE, F.FLC_STATUS_RESULT, F.PWR_LEDGER_COMMIT_UJ] s t ∧
        { t with regs := s.regs, flash := s.flash, pwr := s.pwr } = s) ∧
  (∀ (errs : List (Nat × Nat)) (s : State), s.inSail = true → s.fld F.FLC_PATROL_CFG_MS ≠ 0 → s.gone s.flash.patrolFrom (s.fld F.FLC_PATROL_CFG_MS * 4000000) = true →
      s.bankBusy (decide (0x800000 ≤ s.fld F.FLC_PATROL_POS_OFS)) = false →
      s.chunkCount errs (s.fld F.FLC_PATROL_POS_OFS / 32) = 0 → 1 ≤ s.fld F.FLC_WARN_LEVEL → s.fld F.FLC_PATROL_POS_OFS % 32 = 0 → s.fld F.FLC_PATROL_POS_OFS < 0xFFFFE0 →
      Runs (.patrolRead errs) s fun t => t.fld F.FLC_PATROL_POS_OFS = s.fld F.FLC_PATROL_POS_OFS + 32 ∧ t.fld F.FLC_LAST_CE_COUNT = 0 ∧
        t.fld F.FLC_LAST_CE_OFS = s.fld F.FLC_PATROL_POS_OFS ∧ t.flash = { s.flash with patrolFrom := s.clock } ∧
        Only [F.FLC_PATROL_POS_OFS, F.FLC_LAST_CE_COUNT, F.FLC_LAST_CE_OFS] s { t with flash := s.flash }) ∧
  (∀ (errs : List (Nat × Nat)) (s : State), s.inSail = true → s.fld F.FLC_PATROL_CFG_MS ≠ 0 → s.gone s.flash.patrolFrom (s.fld F.FLC_PATROL_CFG_MS * 4000000) = true →
      s.bankBusy true = false → s.fld F.FLC_PATROL_POS_OFS = 0xFFFFE0 →
      s.chunkCount errs 0x7FFFF = 0 → 1 ≤ s.fld F.FLC_WARN_LEVEL →
      Runs (.patrolRead errs) s fun t => t.fld F.FLC_PATROL_POS_OFS = 0 ∧ t.fld F.FLC_PATROL_STATUS_WARNS = 0 ∧
        t.fld F.FLC_PATROL_STATUS_PASSES = (s.fld F.FLC_PATROL_STATUS_PASSES + 1) % 2 ^ F.FLC_PATROL_STATUS_PASSES.width ∧ t.errs = s.errs ∧
        t.flash = { s.flash with patrolLogged := 0, patrolFrom := s.clock }) ∧
  (∀ (errs : List (Nat × Nat)) (s : State), s.inSail = true → s.fld F.FLC_PATROL_CFG_MS ≠ 0 → s.gone s.flash.patrolFrom (s.fld F.FLC_PATROL_CFG_MS * 4000000) = true →
      s.bankBusy (decide (0x800000 ≤ s.fld F.FLC_PATROL_POS_OFS)) = false →
      s.fld F.FLC_WARN_LEVEL ≤ s.chunkCount errs (s.fld F.FLC_PATROL_POS_OFS / 32) → s.chunkCount errs (s.fld F.FLC_PATROL_POS_OFS / 32) ≤ 4 →
      s.fld F.FLC_PATROL_POS_OFS % 32 = 0 → s.fld F.FLC_PATROL_POS_OFS < 0xFFFFE0 → s.flash.patrolLogged < 8 →
      Runs (.patrolRead errs) s fun t => t.fld F.FLC_PATROL_POS_OFS = s.fld F.FLC_PATROL_POS_OFS + 32 ∧
        t.fld F.FLC_PATROL_STATUS_WARNS = min (s.fld F.FLC_PATROL_STATUS_WARNS + 1) (2 ^ F.FLC_PATROL_STATUS_WARNS.width - 1) ∧
        Logs 0x0305 (2 * 2 ^ 28 + s.chunkCount errs (s.fld F.FLC_PATROL_POS_OFS / 32) * 2 ^ 24 + s.fld F.FLC_PATROL_POS_OFS) s t ∧
        t.flash = { s.flash with patrolLogged := s.flash.patrolLogged + 1, patrolFrom := s.clock }) ∧
  (∀ (errs : List (Nat × Nat)) (s : State), s.bankBusy (decide (0x800000 ≤ s.fld F.FLC_PATROL_POS_OFS)) = true → Runs (.patrolRead errs) s fun t => t = s)

/-- A directory entry reads back as it was written.  For every entry whose fields fit their places, the entry that the 64 programmed
bytes hold is that entry: no field is dropped and its CRC-32 is right. -/
def Obligations.DirectoryEntriesRoundTrip : Prop :=
  ∀ e : DirEntry, e.slot < 2 ^ 8 → e.state < 2 ^ 8 → e.seq < 2 ^ 32 → e.addr < 2 ^ 32 → e.len < 2 ^ 32 → e.svn < 2 ^ 16 → e.attempt < 2 ^ 8 → e.reason < 2 ^ 8 →
      e.build < 2 ^ 32 → e.nonce < 2 ^ 64 → e.trialId < 2 ^ 32 → e.bytes.length = 64 ∧ entryOf e.bytes = some e

/-- The update routines that write the directory.  With a directory that has room and the ledger's grant, upd_finish on a WRITING
slot starts the program of a WRITTEN entry, upd_retire on a VERIFIED slot of a RETIRED entry with REASON 0xF, upd_confirm on the
running trial in its window of a CONFIRMED entry, upd_activate of a VERIFIED slot with nothing to snapshot of a TRIAL entry with
its own SEQ as TRIAL_ID and ATTEMPT 0 before the rehoist, and upd_begin of a WRITING entry before the erase of its blocks. Each
entry goes to the next free position of copy 0 and then of copy 1, with SEQ one higher. A slot that is EMPTY is refused with
BAD_STATE. -/
def Obligations.UpdateRoutinesAppend : Prop :=
  (∀ (c : RoutineCall) (e : DirEntry) (s : State), UpdFree s → DirRoom s → c.a0.toNat < 2 → s.slotEntry c.a0.toNat = some e → e.state = 1 →
      Runs (.updFinish c) s fun t => Appends { e with state := 2 } [.answer [0]] s t ∧ t.upd.kind = 3 ∧ t.upd.waits = !callFromRom c ∧ UpdFrame s t) ∧
  (∀ (c : RoutineCall) (e : DirEntry) (s : State), UpdFree s → DirRoom s → c.a0.toNat < 2 → s.slotEntry c.a0.toNat = some e → e.state = 3 → s.runningSlot c.a0.toNat = false →
      Runs (.updRetire c) s fun t => Appends { e with state := 6, reason := 0xF, attempt := 0, trialId := 0 } [.answer [0]] s t ∧ t.upd.kind = 7 ∧ UpdFrame s t) ∧
  (∀ (c : RoutineCall) (e : DirEntry) (w : Nat) (s : State), UpdFree s → DirRoom s → s.fld F.UPD_STATUS_RUN < 2 → s.slotEntry (s.fld F.UPD_STATUS_RUN) = some e → e.state = 4 →
      s.bit F.UPD_STATUS_TRIAL = true → s.upd.window = some w →
      Runs (.updConfirm c) s fun t => Appends { e with state := 5, attempt := 0 } [.closeWindow, .dropTrial, .answer [0]] s t ∧ t.upd.window = some w ∧ UpdFrame s t) ∧
  (∀ (c : RoutineCall) (e : DirEntry) (s : State), UpdFree s → DirRoom s → c.a0.toNat < 2 → c.a3 = 8 → s.slotEntry c.a0.toNat = some e → e.state = 3 →
      s.slotState (1 - c.a0.toNat) ≠ 4 → s.swSteers = false → s.dsc.dirty = false → s.dsc.snapBusy = none → s.dsc.snapWait = [] → s.bit F.SUP_STATUS_HALTED = false →
      s.journalUsed s.journalSector < 240 →
      Runs (.updActivate c) s fun t => Appends { e with state := 4, attempt := 0, trialId := (s.topSeq + 1) % 2 ^ 32 } [.rehoist] s t ∧
        t.fld F.DSC_SNAP_STATUS_REASON = 3 ∧ t.fld F.DSC_SNAP_STATUS_RESULT = 1 ∧
        OnlyFields [F.UPD_STATUS_BUSY, F.PWR_LEDGER_COMMIT_UJ, F.PWR_STATUS_LEDGER_BLIND, F.DSC_SNAP_STATUS_REASON, F.DSC_SNAP_STATUS_RESULT] s t ∧
        { t with regs := s.regs, upd := s.upd, pwr := s.pwr } = s) ∧
  (∀ (c : RoutineCall) (s : State), UpdFree s → DirRoom s → s.beginBad c.a0.toNat c.a1.toNat c.a2.toNat = false → s.runningSlot c.a0.toNat = false →
      s.ledgerGrants (s.fld F.UPD_COST_ERASE_UJ) false = true → (s.ledgerTake 6 (s.fld F.UPD_COST_ERASE_UJ)).ledgerGrants (s.fld F.UPD_COST_PAGE_UJ) false = true →
      Runs (.updBegin c) s fun t => Appends { slot := c.a0.toNat, state := 1, seq := 0, addr := c.a1.toNat, len := c.a2.toNat } ((List.range ((c.a2.toNat + 65535) / 65536)).map (fun k => .erase (c.a1.toNat + 65536 * k)) ++ [.answer [0]]) (s.ledgerTake 6 (s.fld F.UPD_COST_ERASE_UJ)) t ∧
        t.upd.begun = some c.a0.toNat ∧ t.upd.kind = 1 ∧ UpdFrame s t) ∧
  (∀ (c : RoutineCall) (s : State), UpdFree s → c.a0.toNat < 2 → s.slotEntry c.a0.toNat = none →
      Runs (.updFinish c) s fun t => t.returned = [0x10] ∧ t.fld F.UPD_STATUS_LAST = 0x10 ∧ Only [F.UPD_STATUS_LAST] s { t with returned := s.returned })

/-- The update routines that write, verify and report.  upd_info returns UPD_STATUS and UPD_WIN_LEFT. upd_write of bytes within one
page of the begun slot starts that page's program from SRAM. upd_verify of a WRITTEN slot starts its reading and returns
STARTED. upd_golden of a CONFIRMED slot, while a CONFIRMED image runs, starts the erase of the golden image's sectors and
returns STARTED. upd_wait returns STARTED while the operation runs, then what it returned. -/
def Obligations.UpdateRoutinesOnImages : Prop :=
  (∀ (c : RoutineCall) (s : State), s.inSail = true → NoCall s →
      Runs (.updInfo c) s fun t => t.returned = [0, s.reg F.UPD_STATUS, BitVec.ofNat 32 s.windowLeft] ∧ t.fld F.UPD_STATUS_LAST = 0 ∧
        Only [F.UPD_STATUS_LAST] s { t with returned := s.returned }) ∧
  (∀ (c : RoutineCall) (e : DirEntry) (k : Nat) (s : State), UpdFree s → s.upd.begun = some k → s.slotEntry k = some e → e.state = 1 → e.slot = k →
      c.a0.toNat % 4 = 0 → c.a2.toNat % 4 = 0 → 4 ≤ c.a2.toNat → (e.addr + c.a0.toNat) % 256 + c.a2.toNat ≤ 256 → c.a0.toNat + c.a2.toNat ≤ e.len →
      dstOk c c.a1.toNat c.a2.toNat = true → (s.xflashBytes (e.addr + c.a0.toNat) c.a2.toNat).all (· == 0xFF) = true →
      s.ledgerGrants (s.fld F.UPD_COST_PAGE_UJ) false = true →
      Runs (.updWrite c) s fun t => t.upd.steps = [.prog (e.addr + c.a0.toNat) (s.supBytes c.a1.toNat c.a2.toNat), .answer [0, c.a2.toNat]] ∧ t.upd.going = true ∧
        t.upd.kind = 2 ∧ t.bit F.UPD_STATUS_BUSY = true ∧ t.pwr.grants = s.pwr.grants ++ [(5, s.fld F.UPD_COST_PAGE_UJ)] ∧ UpdFrame s t) ∧
  (∀ (c : RoutineCall) (e : DirEntry) (s : State), UpdFree s → c.a0.toNat < 2 → c.a3 = 0 → s.slotEntry c.a0.toNat = some e → e.state = 2 →
      Runs (.updVerify c) s fun t => t.upd.steps = [.verify c.a0.toNat] ∧ t.upd.going = true ∧ t.upd.kind = 4 ∧ t.upd.waits = false ∧ t.returned = [1, 0] ∧
        t.fld F.UPD_STATUS_LAST = 1 ∧ t.bit F.UPD_STATUS_BUSY = true ∧ OnlyFields [F.UPD_STATUS_BUSY, F.UPD_STATUS_LAST] s t ∧
        { t with regs := s.regs, upd := s.upd, returned := s.returned } = s) ∧
  (∀ (c : RoutineCall) (e : DirEntry) (s : State), UpdFree s → c.a0.toNat < 2 → c.a3 = 0 → s.slotEntry c.a0.toNat = some e → e.state = 5 → s.fld F.UPD_STATUS_RUN < 2 →
      s.slotState (s.fld F.UPD_STATUS_RUN) = 5 → 0 < e.len → e.len ≤ 6291456 → u8 (s.xflashBytes e.addr 16) 14 / 2 % 2 = 0 →
      s.journalNext (s.fld F.FLC_SYS_ACTIVE) + (e.len + 65535) / 65536 ≤ 960 → s.ledgerGrants (2004 * ((e.len + 65535) / 65536)) false = true →
      Runs (.updGolden c) s fun t => t.upd.going = true ∧ t.upd.kind = 8 ∧
        t.upd.steps = [.goldenErase ((e.len + 65535) / 65536), .goldenProg c.a0.toNat 32, .goldenVerify c.a0.toNat, .goldenFirst c.a0.toNat, .goldenOk, .answer [0, 0]] ∧
        t.flash.op = some { goldenOp true 0x20000 ((e.len + 65535) / 65536) [] with entry := some (s.journalNext (s.fld F.FLC_SYS_ACTIVE)) } ∧
        t.returned = [1, 0] ∧ t.fld F.UPD_STATUS_LAST = 1 ∧ t.bit F.UPD_STATUS_BUSY = true ∧ t.bit F.FLC_STATUS_BUSY_A = true) ∧
  (∀ (c : RoutineCall) (s : State), s.inSail = true → NoCall s → s.upd.steps ≠ [] → s.upd.own = false → s.upd.caller = callerOf c → s.upd.kind = 4 →
      Runs (.updWait c) s fun t => t.returned = [1, 0] ∧ t.fld F.UPD_STATUS_LAST = 1 ∧ Only [F.UPD_STATUS_LAST] s { t with returned := s.returned }) ∧
  (∀ (c : RoutineCall) (st code : Word) (s : State), s.inSail = true → NoCall s → s.upd.steps = [] → s.upd.results = [(callerOf c, [st, code])] →
      Runs (.updWait c) s fun t => t.returned = [st, code] ∧ t.fld F.UPD_STATUS_LAST = st.toNat % 2 ^ F.UPD_STATUS_LAST.width ∧
        Only [F.UPD_STATUS_LAST] s { t with returned := s.returned })

/-- The ends of update operations, the service at entry into Sail and the confirmation window.  A page that programs well holds its
bytes, nothing else of the external flash changes, and upd_write returns OK with its length; a page that fails logs 0x0117 with
its address and returns XFLASH. A slot's image that verifies gets a VERIFIED entry with its SVN, BUILD and NONCE; one that does
not gets a RETIRED entry with the fault's REASON, and the fault is logged. At entry into Sail the service counts the attempt of
a running trial in its entry, and where no directory was read it only checks the golden image. A write that the ledger refused
starts when it is tried again. When the window passes, 0x0116 is logged and a Hoist of CAUSE 0x4 begins; a write of UPD_CFG
stores at least 1 s. -/
def Obligations.UpdateOperationsEnd : Prop :=
  (∀ (a n cost : Nat) (bs : List Byte) (s : State), s.inSail = true → s.upd.steps = [.prog a bs, .answer [0, n]] → s.upd.going = true → s.upd.own = false →
      s.upd.kind = 2 → s.upd.caller = 0 → s.upd.waits = true → s.upd.refused = false → 0x20000 ≤ a → bs.length = n → s.pwr.grants = [(5, cost)] →
      Runs (.updateOperationComplete true [] []) s fun t => t.xflashBytes a n = bs ∧ XflashOnly a n s t ∧ t.returned = [0, BitVec.ofNat 32 n] ∧ t.upd.steps = [] ∧
        t.upd.going = false ∧ t.upd.waits = false ∧ t.pwr = { s.pwr with grants := [] } ∧ t.bit F.UPD_STATUS_BUSY = false ∧ t.fld F.UPD_STATUS_LAST = 0 ∧
        OnlyFields [F.UPD_STATUS_BUSY, F.UPD_STATUS_LAST, F.PWR_LEDGER_COMMIT_UJ] s t ∧
        { t with regs := s.regs, upd := s.upd, pwr := s.pwr, xflash := s.xflash, returned := s.returned } = s) ∧
  (∀ (a n cost : Nat) (bs : List Byte) (s : State), s.inSail = true → s.upd.steps = [.prog a bs, .answer [0, n]] → s.upd.going = true → s.upd.own = false →
      s.upd.kind = 2 → s.upd.caller = 0 → s.upd.waits = true → s.upd.refused = false → s.upd.done = 0 → 0x20000 ≤ a → s.pwr.grants = [(5, cost)] →
      Runs (.updateOperationComplete false [] []) s fun t => Logs 0x0117 a s t ∧ t.returned = [0x16, 0] ∧ t.upd.steps = [] ∧ t.bit F.UPD_STATUS_BUSY = false ∧
        t.fld F.UPD_STATUS_LAST = 0x16 ∧ t.pwr = { s.pwr with grants := [] } ∧ XflashOnly a bs.length s t) ∧
  (∀ (e : DirEntry) (s : State), s.inSail = true → s.upd.steps = [.verify e.slot] → s.upd.going = true → s.upd.own = false → s.upd.refused = false → s.slotEntry e.slot = some e → e.state = 2 →
      DirRoom s → s.writesBarred = false → s.partialBusy = false →
      Runs (.updateOperationComplete true [] []) s fun t =>
        match (s.verifyImage (s.slotBytes e.addr [])).1 with
        | .inr h => t.upd.steps.head? = some (.prog (entryAddr 0 (s.firstBlank 0)) { e with state := 3, svn := h.svn, build := h.build, nonce := leNat h.nonce, seq := (s.topSeq + 1) % 2 ^ 32 }.bytes) ∧
            t.upd.going = true ∧ t.upd.steps.getLast? = some (.answer [0, 0])
        | .inl f => t.upd.steps.head? = some (.prog (entryAddr 0 (s.firstBlank 0)) { e with state := 6, reason := f.reason, seq := (s.topSeq + 1) % 2 ^ 32 }.bytes) ∧
            t.upd.going = true ∧ t.upd.steps.getLast? = some (.answer [0x12, f.code]) ∧ FirstLog f.code f.detail s t) ∧
  (∀ s : State, s.inSail = true → s.upd.served = false → s.upd.steps = [] → s.writesBarred = false → s.upd.readDir = false → s.flash.bad = [] → s.pwr.grants = [] →
      1 ≤ s.fld F.FLC_WARN_LEVEL →
      Runs (.updateServiceAtSail []) s fun t => t.upd.served = true ∧ t.upd.steps = [] ∧ t.bit F.UPD_STATUS_BUSY = false ∧ t.pwr = s.pwr ∧
        match ((s.readGolden [] 512).verifyHeader (s.flashBytes 0x20000 512) false false).1 with
        | .inr _ => t.bit F.UPD_STATUS_GOLDEN_OK = true ∧ t.errs = s.errs
        | .inl f => t.bit F.UPD_STATUS_GOLDEN_OK = s.bit F.UPD_STATUS_GOLDEN_OK ∧ FirstLog f.code f.detail s t) ∧
  (∀ (e : DirEntry) (s : State), s.inSail = true → s.upd.served = false → s.upd.steps = [] → s.writesBarred = false → s.upd.readDir = true → s.upd.trials = [] →
      s.upd.trial = none → s.bit F.UPD_STATUS_TRIAL = true → s.slotEntry (s.fld F.UPD_STATUS_RUN) = some e → e.state = 4 → DirRoom s → s.partialBusy = false →
      Runs (.updateServiceAtSail []) s fun t => Appends { e with attempt := e.attempt + 1, trialId := if e.trialId = 0 then (s.topSeq + 1) % 2 ^ 32 else e.trialId } [.say 0x0113 (e.attempt + 1), .openWindow, .repairs, .goldenCheck, .answer []] s t ∧
        t.upd.own = true ∧ t.upd.served = true ∧ UpdFrame s t) ∧
  (∀ (a : Nat) (bs : List Byte) (rest : List UpdStep) (s : State), s.inSail = true → s.upd.own = true → s.upd.going = false → s.retryDue = true → s.upd.steps = .prog a bs :: rest →
      s.writesBarred = false → s.partialBusy = false → s.ledgerGrants (s.fld F.UPD_COST_PAGE_UJ) false = true →
      Runs .directoryWriteRetry s fun t => t.upd = { s.upd with going := true, refused := false } ∧ t.pwr = { s.pwr with grants := s.pwr.grants ++ [(5, s.fld F.UPD_COST_PAGE_UJ)] } ∧
        OnlyFields [F.PWR_LEDGER_COMMIT_UJ, F.PWR_STATUS_LEDGER_BLIND] s t ∧ { t with regs := s.regs, upd := s.upd, pwr := s.pwr } = s) ∧
  (∀ (w : Nat) (s : State), s.inSail = true → s.upd.window = some w → w + s.fld F.UPD_CFG_CONFIRM_S * 4000000000 * 2 ^ 38 ≤ s.mast.ran → s.writesBarred = false → s.upd.steps = [] →
      Runs .confirmWindowClose s fun t => FirstLog 0x0116 (s.fld F.UPD_STATUS_ATTEMPT) s t ∧ t.dev.mode = .hoist ∧ t.dev.cause = 4) ∧
  (∀ s : State, s.windowOver = false → Runs .confirmWindowClose s fun t => t = s) ∧
  (∀ (p : Path) (v : Word) (s : State), Open s → s.upd.window = none →
      Runs (.confirmSWrite p v) s fun t => t.fld F.UPD_CFG_CONFIRM_S = max 1 (v.toNat % 65536) ∧ t.fld F.UPD_CFG_HO_GUARD = v.toNat / 65536 % 2 ∧
        Only [F.UPD_CFG_CONFIRM_S, F.UPD_CFG_HO_GUARD] s t)

/-- Zeroisation, the battery-backed key, the debug challenge and its token.  ZEROISE destroys the battery-backed key and its check
value and logs 0x0209. BBK_LOAD takes the key from IMG_BBK_DATA, which reads 0 after it, and shows its check value; it is
refused while a key is valid. DBG_CHAL makes a challenge of 16 bytes, clears the token count and ends an unlock. DBG_UNLOCK at
PL1 ends the challenge, and unlocks and logs 0x020F with the slot when the token proves it, else it is refused with cause 6; at
another level with cause 2. A token word is stored until there are 48. A command without the KEY is refused with cause 1. -/
def Obligations.KeysAndChallenge : Prop :=
  (∀ (p : Path) (v : Word) (s : State), Open s → ImgCommand 0 v → NoImgYet s → s.loadUsesBbk = false → s.keys.busyCmd = none →
      Runs (.zeroise p v) s fun t => t.keys = { s.keys with bbk := [], bbkZeroised := true } ∧ t.bit F.IMG_STATUS_BBK_VALID = false ∧
        t.wide F.IMG_BBK_KCV_LO = 0 ∧ t.bit F.IMG_EVENT_ZEROISED = true ∧ t.bit F.IMG_EVENT_DONE = true ∧ t.bit F.IMG_STATUS_BUSY = false ∧ Logs 0x0209 1 s t ∧
        OnlyAndLog ([F.IMG_STATUS_BBK_VALID, F.IMG_EVENT_ZEROISED, F.IMG_EVENT_DONE, F.IMG_STATUS_BUSY] ++ bothWords F.IMG_BBK_KCV_LO) s { t with keys := s.keys, win := unmarkImg s t }) ∧
  (∀ (p : Path) (v : Word) (s : State), Open s → bits v.toNat 31 16 ≠ 0x494D → v.toNat % 2 = 1 →
      Runs (.zeroise p v) s fun t => t.bit F.IMG_EVENT_REFUSED = true ∧ Logs 0x020A 0x100 s t ∧ OnlyAndLog [F.IMG_EVENT_REFUSED] s t) ∧
  (∀ (p : Path) (v : Word) (s : State), Open s → ImgCommand 3 v → NoImgYet s → s.keys.busyCmd = none → s.bit F.IMG_STATUS_BBK_VALID = false →
      Runs (.bbkLoad p v) s fun t => t.keys = { s.keys with bbk := (List.range 8).flatMap (fun k => leBytes 4 (s.reg (F.IMG_BBK_DATA k)).toNat), bbkZeroised := false } ∧
        t.bit F.IMG_STATUS_BBK_VALID = true ∧ (∀ k : Fin 8, t.reg (F.IMG_BBK_DATA k) = 0) ∧ t.wide F.IMG_BBK_KCV_LO = leNat (keyCheck t.keys.bbk) ∧
        t.bit F.IMG_EVENT_DONE = true ∧ t.bit F.IMG_STATUS_BUSY = false ∧ t.errs = s.errs ∧ { t with regs := s.regs, keys := s.keys, win := unmarkImg s t } = s) ∧
  (∀ (p : Path) (v : Word) (s : State), Open s → ImgCommand 3 v → NoImgYet s → s.keys.busyCmd = none → s.bit F.IMG_STATUS_BBK_VALID = true →
      Runs (.bbkLoad p v) s fun t => t.bit F.IMG_EVENT_REFUSED = true ∧ Logs 0x020A 0x503 s t ∧ OnlyAndLog [F.IMG_EVENT_REFUSED] s { t with win := unmarkImg s t }) ∧
  (∀ (p : Path) (v : Word) (s : State), Open s → ImgCommand 1 v → NoImgYet s → s.keys.busyCmd = none →
      Runs (.dbgChal p v) s fun t => t.keys.token = [] ∧ t.fld F.IMG_DBG_TOKEN_CNT_N = 0 ∧ t.bit F.IMG_STATUS_DBG_UNLOCKED = false ∧ t.bit F.IMG_EVENT_DONE = true ∧
        (t.keys.challenge.any fun c => c.length == 16 && c == (List.range 4).flatMap fun k => leBytes 4 (t.reg (F.IMG_DBG_CHAL k)).toNat) = true ∧
        t.errs = s.errs ∧ { t with regs := s.regs, keys := s.keys, fresh := s.fresh, win := unmarkImg s t } = s) ∧
  (∀ (p : Path) (v : Word) (s : State), Open s → ImgCommand 2 v → NoImgYet s → s.keys.busyCmd = none → s.protLevel = 1 →
      Runs (.dbgUnlock p v) s fun t => t.keys = { s.keys with challenge := none } ∧
        match s.keys.challenge.bind s.tokenSlot with
        | some k => t.bit F.IMG_STATUS_DBG_UNLOCKED = true ∧ t.bit F.IMG_EVENT_UNLOCK = true ∧ t.bit F.IMG_EVENT_DONE = true ∧ Logs 0x020F k s t
        | none => t.bit F.IMG_STATUS_DBG_UNLOCKED = false ∧ t.bit F.IMG_EVENT_REFUSED = true ∧ Logs 0x020A 0x602 s t) ∧
  (∀ (p : Path) (v : Word) (s : State), Open s → ImgCommand 2 v → NoImgYet s → s.keys.busyCmd = none → s.protLevel ≠ 1 →
      Runs (.dbgUnlock p v) s fun t => t.keys = { s.keys with challenge := none } ∧ t.bit F.IMG_STATUS_DBG_UNLOCKED = false ∧ Logs 0x020A 0x202 s t) ∧
  (∀ (p : Path) (w : Word) (s : State), Open s → s.keys.token.length < 48 →
      Runs (.dbgTokenWrite p w) s fun t => t.keys = { s.keys with token := s.keys.token ++ [w] } ∧ t.fld F.IMG_DBG_TOKEN_CNT_N = s.keys.token.length + 1 ∧
        Only [F.IMG_DBG_TOKEN_CNT_N] s { t with keys := s.keys }) ∧
  (∀ (p : Path) (w : Word) (s : State), 48 ≤ s.keys.token.length → Runs (.dbgTokenWrite p w) s fun t => t = s)

/-- Protection levels, fuse programs and readback.  PL_RAISE at PL0 with a public key OK starts the program of a protection record,
and at its end the level is 1. PL_LOWER at PL1, unlocked, journals a mass erase, destroys the battery-backed key and starts the
erase of its first sector. FUSE_PROG in Sail of bits that nothing forbids, and SVN_COMMIT above MIN_SVN, start a fuse program;
at its end the bits are set in that word and no other word changes, or 0x020E is logged. SVN_COMMIT not above MIN_SVN is done at
once. A readback that the path may make returns the four bytes and advances IMG_RB_ADDR. -/
def Obligations.LevelsFusesAndReadback : Prop :=
  (∀ (p : Path) (v : Word) (s : State), Open s → ImgCommand 4 v → NoImgYet s → s.levelBusy = false → s.protLevel = 0 → s.slotOk 0 = true → s.ledgerGrants 2 false = true →
      s.protNext (s.fld F.FLC_SYS_ACTIVE) < 64 →
      Runs (.plRaise p v) s fun t => t.keys = { s.keys with busyCmd := some 4 } ∧ t.bit F.IMG_STATUS_BUSY = true ∧
        t.flash.op = some ⟨false, 65536 * s.fld F.FLC_SYS_ACTIVE + 32 * s.protNext (s.fld F.FLC_SYS_ACTIVE), 1, 0, 0, protRecord 1, none, 4, false, false⟩ ∧
        t.bit F.FLC_STATUS_BUSY_A = true ∧ t.pwr.grants = s.pwr.grants ++ [(1, 2)] ∧ t.errs = s.errs) ∧
  (∀ (ofs : Nat) (s : State), s.inSail = true → s.keys.massErase = none → s.keys.busyCmd = some 4 → s.flash.op = some ⟨false, ofs, 1, 0, 0, protRecord 1, none, 4, false, false⟩ →
      s.flash.results = [] → s.upd.steps = [] → s.dsc.snapWait = [] → s.bit F.SUP_STATUS_HALTED = false →
      Runs (.flashOperationComplete (.passed 1)) s fun t => t.fld F.FLC_SYS_LEVEL = 1 ∧ t.keys = { s.keys with busyCmd := none } ∧ t.bit F.IMG_STATUS_BUSY = false ∧
        t.bit F.IMG_EVENT_DONE = true ∧ t.flashBytes ofs 32 = protRecord 1 ∧ FlashOnly ofs 32 s t ∧ t.flash.op = none ∧ t.flash.results = []) ∧
  (∀ (p : Path) (v : Word) (s : State), Open s → ImgCommand 4 v → NoImgYet s → s.levelBusy = false → s.protLevel ≠ 0 →
      Runs (.plRaise p v) s fun t => t.bit F.IMG_EVENT_REFUSED = true ∧ Logs 0x020A 0x204 s t ∧ OnlyAndLog [F.IMG_EVENT_REFUSED] s { t with win := unmarkImg s t }) ∧
  (∀ (p : Path) (v : Word) (s : State), Open s → ImgCommand 5 v → NoImgYet s → s.levelBusy = false → s.protLevel = 1 → s.bit F.IMG_STATUS_DBG_UNLOCKED = true →
      s.ledgerGrants (2000 * 255 + 4) false = true → s.loadUsesBbk = false → s.journalNext (s.fld F.FLC_SYS_ACTIVE) < 960 →
      Runs (.plLower p v) s fun t => t.keys = { s.keys with massErase := some (s.fld F.FLC_SYS_ACTIVE, s.journalNext (s.fld F.FLC_SYS_ACTIVE), 0), busyCmd := some 5, bbk := [], bbkZeroised := true } ∧
        t.flashBytes (65536 * s.fld F.FLC_SYS_ACTIVE + 0x800 + 64 * s.journalNext (s.fld F.FLC_SYS_ACTIVE)) 32 = startUnit 2 0 ∧
        FlashOnly (65536 * s.fld F.FLC_SYS_ACTIVE + 0x800 + 64 * s.journalNext (s.fld F.FLC_SYS_ACTIVE)) 32 s t ∧
        t.flash.op = some ⟨true, if s.fld F.FLC_SYS_ACTIVE = 0 then 65536 else 0, 1, 0, 0, [], none, 4, false, false⟩ ∧
        t.bit F.IMG_STATUS_BUSY = true ∧ t.bit F.IMG_STATUS_BBK_VALID = false ∧ Logs 0x0209 2 s t) ∧
  (∀ (p : Path) (v : Word) (s : State), s.inSail = true → ImgCommand 6 v → NoImgYet s → s.bit F.PWR_STATUS_PFI = false → s.keys.busyCmd = none → s.protLevel ≠ 2 →
      s.fuseForbids (s.fld F.IMG_FUSE_ADDR_WORD) (s.reg F.IMG_FUSE_DATA).toNat = false →
      Runs (.fuseProg p v) s fun t => t.keys = { s.keys with fuseOp := some (s.fld F.IMG_FUSE_ADDR_WORD, (s.reg F.IMG_FUSE_DATA).toNat), busyCmd := some 6 } ∧
        t.bit F.IMG_STATUS_BUSY = true ∧ Only [F.IMG_STATUS_BUSY] s { t with keys := s.keys, win := unmarkImg s t }) ∧
  (∀ (p : Path) (v : Word) (s : State), s.inSail = true → ImgCommand 6 v → NoImgYet s → s.bit F.PWR_STATUS_PFI = false → s.keys.busyCmd = none → s.protLevel ≠ 2 →
      s.fuseForbids (s.fld F.IMG_FUSE_ADDR_WORD) (s.reg F.IMG_FUSE_DATA).toNat = true →
      Runs (.fuseProg p v) s fun t => t.bit F.IMG_EVENT_REFUSED = true ∧ Logs 0x020A 0x506 s t ∧ OnlyAndLog [F.IMG_EVENT_REFUSED] s { t with win := unmarkImg s t }) ∧
  (∀ (p : Path) (v : Word) (s : State), s.inSail = true → ImgCommand 7 v → NoImgYet s → s.bit F.PWR_STATUS_PFI = false → s.keys.busyCmd = none → s.minSvn < s.fld F.IMG_SVN_SVN →
      Runs (.svnCommit p v) s fun t => t.keys = { s.keys with busyCmd := some 7 } ∧ t.bit F.IMG_STATUS_BUSY = true ∧ Only [F.IMG_STATUS_BUSY] s { t with keys := s.keys, win := unmarkImg s t }) ∧
  (∀ (p : Path) (v : Word) (s : State), s.inSail = true → ImgCommand 7 v → NoImgYet s → s.bit F.PWR_STATUS_PFI = false → s.keys.busyCmd = none → s.fld F.IMG_SVN_SVN ≤ s.minSvn →
      Runs (.svnCommit p v) s fun t => t.bit F.IMG_EVENT_DONE = true ∧ t.bit F.IMG_STATUS_BUSY = false ∧ Only [F.IMG_EVENT_DONE, F.IMG_STATUS_BUSY] s { t with win := unmarkImg s t }) ∧
  (∀ (k d : Nat) (s : State), s.powered = true → s.keys.busyCmd = some 6 → s.keys.fuseOp = some (k, d) →
      Runs (.imgCmdComplete true) s fun t => t.fuseWord k = s.fuseWord k ||| d ∧ FusesOnly k s t ∧ t.keys.busyCmd = none ∧ t.keys.fuseOp = none ∧
        t.bit F.IMG_STATUS_BUSY = false ∧ t.bit F.IMG_EVENT_DONE = true ∧ Only [F.IMG_STATUS_BUSY, F.IMG_EVENT_DONE] s { t with keys := s.keys }) ∧
  (∀ (k d : Nat) (s : State), s.powered = true → s.keys.busyCmd = some 6 → s.keys.fuseOp = some (k, d) →
      Runs (.imgCmdComplete false) s fun t => FusesOnly k s t ∧ s.fuseWord k &&& t.fuseWord k = s.fuseWord k ∧ t.fuseWord k ||| (s.fuseWord k ||| d) = s.fuseWord k ||| d ∧
        Logs 0x020E k s t ∧ t.keys.busyCmd = none ∧ t.bit F.IMG_EVENT_DONE = true) ∧
  (∀ (p : Path) (errs : List (Nat × Nat)) (s : State), Open s → s.protLevel = 0 → (s.reg F.IMG_RB_ADDR).toNat < 0x1000000 →
      s.rangeBusy ((s.reg F.IMG_RB_ADDR).toNat / 4 * 4) 4 = false → s.chunkCount errs ((s.reg F.IMG_RB_ADDR).toNat / 32) = 0 → 1 ≤ s.fld F.FLC_WARN_LEVEL →
      Runs (.rbDataRead p errs) s fun t => t.readData = BitVec.ofNat 32 (leNat (s.flashBytes (s.reg F.IMG_RB_ADDR).toNat 4)) ∧ t.reg F.IMG_RB_ADDR = s.reg F.IMG_RB_ADDR + 4 ∧
        Only [whole F.IMG_RB_ADDR, F.FLC_LAST_CE_COUNT, F.FLC_LAST_CE_OFS] s { t with readData := s.readData })

/-- A refused readback.  Whenever a readback is refused (a path other than the supervisor's at a level other than PL0, a space other
than 0x0 and 0x1, or an offset at or beyond the extent of its space), the read returns 0, leaves IMG_RB_ADDR and every other
register but the collector's and IMG_EVENT.REFUSED unchanged, and logs 0x020B with IMG_RB_ADDR. -/
def Obligations.RefusedReadback : Prop :=
  ∀ (p : Path) (errs : List (Nat × Nat)) (s : State), Open s →
      (p ≠ .sup ∧ s.protLevel ≠ 0) ∨ 2 ≤ (s.reg F.IMG_RB_ADDR).toNat / 2 ^ 28 ∨
        ((s.reg F.IMG_RB_ADDR).toNat / 2 ^ 28 = 0 ∧ 0x1000000 ≤ (s.reg F.IMG_RB_ADDR).toNat) ∨
        ((s.reg F.IMG_RB_ADDR).toNat / 2 ^ 28 = 1 ∧ 24 * 491536 ≤ (s.reg F.IMG_RB_ADDR).toNat % 2 ^ 28) →
      Runs (.rbDataRead p errs) s fun t => t.readData = 0 ∧ t.reg F.IMG_RB_ADDR = s.reg F.IMG_RB_ADDR ∧ t.bit F.IMG_EVENT_REFUSED = true ∧
        Logs 0x020B (s.reg F.IMG_RB_ADDR).toNat s t ∧ OnlyAndLog [F.IMG_EVENT_REFUSED] s { t with readData := s.readData }

/-- The JTAG instructions and CFG_IN.  IDCODE shifts out 0x1368A2C9; BYPASS, CLAMP and HIGHZ a single 0; SAMPLE/PRELOAD and EXTEST
take the shifted bits into the boundary register and shift out as many. CFG_STATUS shifts out BOOT_STATUS, twelve bits of
MODE_STATUS and the last Hoist or image code; PL_QUERY the level and the key bits with MIN_SVN; MAST_PEEK the whole Mast with
SET, PLL_LOCK and DOMAIN. CFG_IN captures HST_HOST_STATUS: in Sail its word is only taken as the start of a full-device load
(CAUSE 0x5); in a Hoist from JTAG it is buffered as an image word. Each leaves its code in the instruction register and nothing
else changes. -/
def Obligations.JtagInstructions : Prop :=
  (∀ s : State, Open s → Runs .idcode s fun t => Shifts 0x001 [0xC9, 0xA2, 0x68, 0x13] s t) ∧
  (∀ s : State, Open s → Runs .bypass s fun t => Shifts 0x3FF [0] s t) ∧
  (∀ (bs : List Bool) (s : State), Open s →
      Runs (.samplePreload bs) s fun t => t.jtag = ⟨0x002, bs⟩ ∧ t.reply.length = (bs.length + 7) / 8 ∧ { t with jtag := s.jtag, reply := s.reply, fresh := s.fresh } = s) ∧
  (∀ (bs : List Bool) (s : State), Open s →
      Runs (.extest bs) s fun t => t.jtag = ⟨0x003, bs⟩ ∧ t.reply.length = (bs.length + 7) / 8 ∧ { t with jtag := s.jtag, reply := s.reply, fresh := s.fresh } = s) ∧
  (∀ s : State, Open s → Runs .clamp s fun t => Shifts 0x004 [0] s t) ∧
  (∀ s : State, Open s → Runs .highz s fun t => Shifts 0x005 [0] s t) ∧
  (∀ s : State, Open s → Runs .cfgStatus s fun t =>
      Shifts 0x0C1 (leBytes 4 (s.reg F.BOOT_STATUS).toNat ++ leBytes 2 ((s.reg F.MODE_STATUS).toNat % 2 ^ 12) ++ leBytes 2 s.bootCode) s t) ∧
  (∀ s : State, Open s → Runs .plQuery s fun t => t.reply.length = 4 ∧ leNat t.reply % 4 = s.protLevel % 4 ∧ leNat t.reply / 2 ^ 16 = s.minSvn ∧
      (leNat t.reply / 4 % 2 == 1) = s.fuseFlag 5 ∧ (leNat t.reply / 8 % 2 == 1) = s.bit F.IMG_STATUS_DBG_UNLOCKED ∧ (leNat t.reply / 32 % 2 == 1) = s.slotOk 0 ∧
      (leNat t.reply / 64 % 2 == 1) = s.slotOk 1 ∧ (leNat t.reply / 256 % 2 == 1) = s.bit F.IMG_STATUS_BBK_VALID ∧ { t with jtag := s.jtag, reply := s.reply } = s) ∧
  (∀ s : State, Open s → Runs .mastPeek s fun t => t.reply.length = 9 ∧ leNat (t.reply.take 8) = s.now ∧
      leNat (t.reply.drop 8) = s.fld F.MAST_STATUS_SET + 2 * s.fld F.MAST_STATUS_PLL_LOCK + 4 * s.fld F.MAST_STATUS_DOMAIN ∧ { t with jtag := s.jtag, reply := s.reply } = s) ∧
  (∀ (w : Word) (s : State), s.inSail = true → w ≠ 0x4D494754 →
      Runs (.cfgIn w) s fun t => Shifts 0x0C0 (leBytes 4 (s.reg F.HST_HOST_STATUS).toNat) s t) ∧
  (∀ (w : Word) (s : State), s.inSail = true → w = 0x4D494754 →
      Runs (.cfgIn w) s fun t => t.dev.mode = .hoist ∧ t.dev.cause = 5 ∧ t.hoist.path = some 4 ∧ t.hoist.first = some w ∧ t.mast.acc = s.mast.acc ∧ t.jtag.ir = 0x0C0) ∧
  (∀ (w : Word) (s : State), Open s → s.inHoist = true → s.hoist.src = 4 → s.hoist.booted = true → 5 ≤ s.hoistStep → s.bit F.MODE_STATUS_PFI_PAUSED = false →
      s.bit F.MODE_STATUS_PARKED = false → s.bit F.HST_HOST_STATUS_WAITING = false → s.load.ended = false → s.hbuf.length < 64 →
      Runs (.cfgIn w) s fun t => t.hbuf = s.hbuf ++ [w] ∧ t.fld F.HST_HOST_STATUS_HBUF_FREE = 63 - s.hbuf.length ∧ t.jtag.ir = 0x0C0 ∧
        OnlyFields [F.HST_HOST_STATUS_HBUF_FREE] s t ∧ { t with regs := s.regs, hbuf := s.hbuf, jtag := s.jtag, reply := s.reply } = s)

/-- Halt, resume, system bus access, the debug transport and the default trap handler.  In Sail, with debug authenticated, a halt
request halts running user firmware with its pc in dpc; without authentication it is ignored, and in Hoist it is held. A resume
request lets a halted core run on from dpc. A system bus access acts as a JTAG access to the register space; a misaligned
address sets sberror to 3 and does nothing else. DTMCS shifts out version 1 and 7 address bits; a DMI scan shifts out the scan
before it and then reads or writes data0 or reads authenticated in dmstatus (layout and numbers are the model's, log entry 33).
A trap at the ROM default handler stores mcause and mepc, logs 0x1008 and holds user firmware. -/
def Obligations.DebugModule : Prop :=
  (∀ s : State, s.inSail = true → s.dbgOpen = true → s.bit F.SUP_STATUS_HALTED = false → s.haltHeld = false → s.userRuns = true →
      (∀ n : Fin 64, s.bit (F.TMR_CTRL_FRZ_ON_HALT n) = false) →
      Runs .debugHalt s fun t => t.bit F.SUP_STATUS_HALTED = true ∧ t.csr csrDpc = s.sup.pc ∧ (t.csr csrDcsr).toNat / 64 % 8 = 3 ∧ t.sup.haltReq = false ∧ t.sup.pc = s.sup.pc ∧
        t.sup.x = s.sup.x ∧ Only [F.SUP_STATUS_HALTED] s { t with sup := s.sup }) ∧
  (∀ s : State, s.inSail = true → s.dbgOpen = false → Runs .debugHalt s fun t => t = s) ∧
  (∀ s : State, Open s → s.inSail = false → Runs .debugHalt s fun t => t = { s with sup := { s.sup with haltReq := true } }) ∧
  (∀ s : State, Open s → s.bit F.SUP_STATUS_HALTED = true → s.userRuns = true → (s.csr csrDcsr).getLsbD 2 = false →
      (∀ n : Fin 64, s.bit (F.TMR_CTRL_FRZ_ON_HALT n) = false) →
      Runs .debugResume s fun t => t.bit F.SUP_STATUS_HALTED = false ∧ t.sup = { s.sup with pc := s.csr csrDpc } ∧ t.dbg = { s.dbg with resumeAck := true } ∧
        Only [F.SUP_STATUS_HALTED] s { t with sup := s.sup, dbg := s.dbg }) ∧
  (∀ s : State, s.bit F.SUP_STATUS_HALTED = false → Runs .debugResume s fun t => t = s) ∧
  (∀ (write : Bool) (addr data : Word) (s : State), Open s → s.dbg.sbError = 0 → addr.toNat % 4 ≠ 0 →
      Runs (.systemBusAccess write addr data) s fun t => t.dbg.sbError = 3 ∧ t.dbg.sbAddr = addr ∧ { t with dbg := s.dbg } = s) ∧
  (∀ (data : Word) (s : State), Open s → s.dbg.sbError = 0 → s.standby = false →
      Runs (.systemBusAccess true 0x20068 data) s fun t => t.reg F.IMG_RB_ADDR = data ∧ t.dbg.sbError = 0 ∧ Only [whole F.IMG_RB_ADDR] s { t with dbg := s.dbg }) ∧
  (∀ (data : Word) (s : State), Open s → s.dbg.sbError = 0 →
      Runs (.systemBusAccess false 0x20068 data) s fun t => t.dbg.sbData = s.reg F.IMG_RB_ADDR ∧ t.dbg.sbError = 0 ∧ { t with dbg := s.dbg, readData := s.readData } = s) ∧
  (∀ (v : Word) (s : State), Open s →
      Runs (.dtmcs v) s fun t => t.jtag.ir = 0x010 ∧ t.reply.length = 4 ∧ leNat t.reply % 2 ^ 10 = 0x71 ∧ { t with jtag := s.jtag, reply := s.reply, fresh := s.fresh } = s) ∧
  (∀ (addr : Fin 128) (data : Word) (s : State), Open s →
      Runs (.dmi 0 addr data) s fun t => Shifts 0x011 (leBytes 6 (s.dbg.address * 2 ^ 34 + s.dbg.result.toNat * 4)) s t) ∧
  (∀ (data : Word) (s : State), Open s → s.dbg.active = true →
      Runs (.dmi 2 4 data) s fun t => t.dbg = { s.dbg with data0 := data, address := 4, result := data } ∧ t.jtag.ir = 0x011 ∧
        { t with dbg := s.dbg, jtag := s.jtag, reply := s.reply } = s) ∧
  (∀ (data : Word) (s : State), Open s → s.dbg.active = true →
      Runs (.dmi 1 0x11 data) s fun t => t.dbg.address = 0x11 ∧ t.dbg.result.getLsbD 7 = s.dbgOpen ∧ t.dbg.result.getLsbD 9 = s.bit F.SUP_STATUS_HALTED ∧
        { t with dbg := s.dbg, jtag := s.jtag, reply := s.reply } = s) ∧
  (∀ (cause epc tval : Word) (s : State), s.inSail = true → s.bit F.SUP_STATUS_USER = true → s.bit F.SUP_STATUS_TRAPPED = false → s.bit F.SUP_STATUS_HALTED = false →
      Runs (.defaultTrap cause epc tval) s fun t => t.reg F.SUP_LAST_CAUSE = cause ∧ t.reg F.SUP_LAST_EPC = epc ∧ t.bit F.SUP_STATUS_TRAPPED = true ∧ t.bit F.SUP_EVENT_TRAP = true ∧
        t.csr 0x342 = cause ∧ t.csr 0x341 = epc ∧ t.csr 0x343 = tval ∧ t.sup.pc = s.sup.handler ∧ t.sup.x = s.sup.x ∧ Logs 0x1008 cause.toNat s t ∧
        OnlyAndLog [whole F.SUP_LAST_CAUSE, whole F.SUP_LAST_EPC, F.SUP_STATUS_TRAPPED, F.SUP_EVENT_TRAP] s { t with sup := s.sup })

/-- The write frames of the host SPI target and posted writes.  A frame sends the status byte and clears CRCERR and WOVF. WRITE
posts each word, least significant byte first, at its address, four further on for the next; WRITE_FIXED posts each at one
address. The CRC commands post a word whose CRC-8 is right; a wrong one logs cause 3, sets CRCERR and is not posted. A
misaligned address is cause 2, a plain write under SPI_CRC_ONLY cause 4, a command byte of no command cause 1. A ninth word
waiting is discarded, logs 0x1004 and sets WOVF. The oldest posted write is performed as a write of its register. -/
def Obligations.SpiWriteFrames : Prop :=
  (∀ s : State, Open s → Runs .spiStatus s fun t => t = { s with reply := [s.statusByte], host := { s.host with crcErr := false, wovf := false } }) ∧
  (∀ (a : BitVec 24) (v w : Word) (s : State), Open s → a.toNat % 4 = 0 → s.feature 0 = false → s.host.spiPosted.length ≤ 6 →
      Runs (.spiWrite a (leBytes 4 v.toNat ++ leBytes 4 w.toNat) []) s fun t =>
        t = { s with reply := s.statusByte :: List.replicate 11 0xFF, host := { s.host with crcErr := false, wovf := false, spiPosted := s.host.spiPosted ++ [(a.toNat, v), ((a.toNat + 4) % 2 ^ 24, w)] } }) ∧
  (∀ (a : BitVec 24) (v w : Word) (s : State), Open s → a.toNat % 4 = 0 → s.feature 0 = false → s.host.spiPosted.length ≤ 6 →
      Runs (.spiWriteFixed a (leBytes 4 v.toNat ++ leBytes 4 w.toNat) []) s fun t =>
        t = { s with reply := s.statusByte :: List.replicate 11 0xFF, host := { s.host with crcErr := false, wovf := false, spiPosted := s.host.spiPosted ++ [(a.toNat, v), (a.toNat, w)] } }) ∧
  (∀ (a : BitVec 24) (v w : Word) (s : State), Open s → a.toNat % 4 = 0 → s.host.spiPosted.length ≤ 6 →
      Runs (.spiWriteCrc a (leBytes 4 v.toNat ++ [crc8 (addrBytes a.toNat ++ leBytes 4 v.toNat)] ++ leBytes 4 w.toNat ++ [crc8 (addrBytes ((a.toNat + 4) % 2 ^ 24) ++ leBytes 4 w.toNat)]) []) s fun t =>
        t = { s with reply := s.statusByte :: List.replicate 13 0xFF, host := { s.host with crcErr := false, wovf := false, spiPosted := s.host.spiPosted ++ [(a.toNat, v), ((a.toNat + 4) % 2 ^ 24, w)] } }) ∧
  (∀ (a : BitVec 24) (v w : Word) (s : State), Open s → a.toNat % 4 = 0 → s.host.spiPosted.length ≤ 6 →
      Runs (.spiWriteFixedCrc a (leBytes 4 v.toNat ++ [crc8 (addrBytes a.toNat ++ leBytes 4 v.toNat)] ++ leBytes 4 w.toNat ++ [crc8 (addrBytes a.toNat ++ leBytes 4 w.toNat)]) []) s fun t =>
        t = { s with reply := s.statusByte :: List.replicate 13 0xFF, host := { s.host with crcErr := false, wovf := false, spiPosted := s.host.spiPosted ++ [(a.toNat, v), (a.toNat, w)] } }) ∧
  (∀ (a : BitVec 24) (v : Word) (c : Byte) (s : State), Open s → a.toNat % 4 = 0 → c ≠ crc8 (addrBytes a.toNat ++ leBytes 4 v.toNat) →
      Runs (.spiWriteCrc a (leBytes 4 v.toNat ++ [c]) []) s fun t => t.host = { s.host with crcErr := true, wovf := false } ∧
        Logs 0x1003 (3 * 2 ^ 24 + a.toNat) s t ∧ t.bit F.SUP_EVENT_HOST = true ∧ OnlyAndLog [F.SUP_EVENT_HOST] s { t with host := s.host, reply := s.reply }) ∧
  (∀ (a : BitVec 24) (bs : List Byte) (ds : List Nat) (s : State), Open s → a.toNat % 4 ≠ 0 →
      Runs (.spiWriteFixed a bs ds) s fun t => t.host = { s.host with crcErr := false, wovf := false } ∧
        Logs 0x1003 (2 * 2 ^ 24 + a.toNat) s t ∧ t.bit F.SUP_EVENT_HOST = true ∧ OnlyAndLog [F.SUP_EVENT_HOST] s { t with host := s.host, reply := s.reply }) ∧
  (∀ (a : BitVec 24) (bs : List Byte) (ds : List Nat) (s : State), Open s → a.toNat % 4 = 0 → s.feature 0 = true →
      Runs (.spiWrite a bs ds) s fun t => t.host = { s.host with crcErr := false, wovf := false } ∧
        Logs 0x1003 (4 * 2 ^ 24 + a.toNat) s t ∧ t.bit F.SUP_EVENT_HOST = true ∧ OnlyAndLog [F.SUP_EVENT_HOST] s { t with host := s.host, reply := s.reply }) ∧
  (∀ (a : BitVec 24) (v : Word) (s : State), Open s → a.toNat % 4 = 0 → s.feature 0 = false → 8 ≤ s.host.spiPosted.length →
      Runs (.spiWrite a (leBytes 4 v.toNat) []) s fun t => t.host = { s.host with crcErr := false, wovf := true } ∧
        Logs 0x1004 a.toNat s t ∧ t.bit F.SUP_EVENT_HOST = true ∧ OnlyAndLog [F.SUP_EVENT_HOST] s { t with host := s.host, reply := s.reply }) ∧
  (∀ (cmd : Byte) (s : State), Open s → spiCommands.contains cmd.toNat = false →
      Runs (.spiUnknownCommand cmd) s fun t => (QuietLog s → s.errs.length < 64 → (t.errs.getLast?.any fun e => e.code == 0x1003 && e.detail.toNat / 2 ^ 24 == 1) = true) ∧
        t.host = { s.host with crcErr := false, wovf := false } ∧ OnlyAndLog [F.SUP_EVENT_HOST] s { t with host := s.host, reply := s.reply, fresh := s.fresh }) ∧
  (∀ (v : Word) (rest : List (Nat × Word)) (s : State), Open s → s.host.spiPosted = (F.IMG_RB_ADDR, v) :: rest → s.standby = false →
      Runs (.postedWrite false) s fun t => t.reg F.IMG_RB_ADDR = v ∧ t.host = { s.host with spiPosted := rest } ∧ Only [whole F.IMG_RB_ADDR] s { t with host := s.host }) ∧
  (∀ (i2c : Bool) (s : State), s.posted i2c = [] → Runs (.postedWrite i2c) s fun t => t = s)

/-- The read frames of the host SPI target.  With nothing posted, a read frame sends the status byte, the wait bytes, 0x5A and the
word that a read of its register on the SPI path returns, least significant byte first, under a CRC command with the CRC-8 of
address and word; the second word is read at the next address, under READ_FIXED at the same. A word not ready after 32 wait
bytes is sent as 0xE1 and logs 0x1005 with its address. A misaligned address logs cause 2 and reads nothing. -/
def Obligations.SpiReadFrames : Prop :=
  (∀ (a : BitVec 24) (k : Fin 33) (s : State), Open s → a.toNat % 4 = 0 → s.host.spiPosted = [] →
      Runs (.spiRead a [k] (k + 5)) s fun t => t = { (spiOpened s).readReg .spi a.toNat with reply := (spiOpened s).reply ++ wordSent k ((spiOpened s).readReg .spi a.toNat) }) ∧
  (∀ (s : State), Open s → s.host.spiPosted = [] →
      Runs (.spiRead 0x20068 [0, 32] 42) s fun t => t.reply = [s.statusByte, 0xFF, 0xFF, 0xFF, 0x5A] ++ leBytes 4 (s.reg F.IMG_RB_ADDR).toNat ++ wordSent 32 ((spiOpened s).readReg .spi 0x2006C)) ∧
  (∀ (s : State), Open s → s.host.spiPosted = [] →
      Runs (.spiReadFixed 0x20068 [0, 1] 11) s fun t => t = { spiOpened s with reply := [s.statusByte, 0xFF, 0xFF, 0xFF, 0x5A] ++ leBytes 4 (s.reg F.IMG_RB_ADDR).toNat ++ [0xFF, 0x5A] ++ leBytes 4 (s.reg F.IMG_RB_ADDR).toNat, readData := s.reg F.IMG_RB_ADDR }) ∧
  (∀ (a : BitVec 24) (k : Fin 33) (s : State), Open s → a.toNat % 4 = 0 → s.host.spiPosted = [] →
      Runs (.spiReadFixed a [k] (k + 5)) s fun t => t = { (spiOpened s).readReg .spi a.toNat with reply := (spiOpened s).reply ++ wordSent k ((spiOpened s).readReg .spi a.toNat) }) ∧
  (∀ (a : BitVec 24) (k : Fin 33) (s : State), Open s → a.toNat % 4 = 0 → s.host.spiPosted = [] →
      Runs (.spiReadCrc a [k] (k + 6)) s fun t => t = { (spiOpened s).readReg .spi a.toNat with reply := (spiOpened s).reply ++ wordSent k ((spiOpened s).readReg .spi a.toNat) ++ [crc8 (addrBytes a.toNat ++ leBytes 4 ((spiOpened s).readReg .spi a.toNat).readData.toNat)] }) ∧
  (∀ (a : BitVec 24) (k : Fin 33) (s : State), Open s → a.toNat % 4 = 0 → s.host.spiPosted = [] →
      Runs (.spiReadFixedCrc a [k] (k + 6)) s fun t => t = { (spiOpened s).readReg .spi a.toNat with reply := (spiOpened s).reply ++ wordSent k ((spiOpened s).readReg .spi a.toNat) ++ [crc8 (addrBytes a.toNat ++ leBytes 4 ((spiOpened s).readReg .spi a.toNat).readData.toNat)] }) ∧
  (∀ (a : BitVec 24) (ws : List (Fin 33)) (n : Nat) (s : State), Open s → a.toNat % 4 ≠ 0 →
      Runs (.spiReadFixedCrc a ws n) s fun t => t.reply = [s.statusByte, 0xFF, 0xFF, 0xFF] ++ List.replicate n 0xFF ∧ Logs 0x1003 (2 * 2 ^ 24 + a.toNat) s t ∧
        t.bit F.SUP_EVENT_HOST = true ∧ t.host = { s.host with crcErr := false, wovf := false } ∧ OnlyAndLog [F.SUP_EVENT_HOST] s { t with host := s.host, reply := s.reply }) ∧
  (∀ (fixed crc : Bool) (a : BitVec 24) (s : State), Open s → a.toNat % 4 = 0 → s.host.spiPosted = [] →
      Runs (.spiReadNotReady fixed crc a []) s fun t => t.reply = [s.statusByte, 0xFF, 0xFF, 0xFF] ++ List.replicate 32 0xFF ++ [0xE1] ∧
        Logs 0x1005 a.toNat ((spiOpened s).readReg .spi a.toNat) t ∧ t.bit F.SUP_EVENT_HOST = true ∧ t.readData = ((spiOpened s).readReg .spi a.toNat).readData)

/-- The transfers of the host I2C target.  A write transfer to the target's address sets the pointer from its three bytes, posts
each word at it and moves it on by 4, or not under FIXED; a pointer that is misaligned or has a reserved bit makes the target
ignore the rest up to a STOP. A read transfer returns the word at the pointer, least significant byte first. A STOP discards the
bytes of an unfinished word and logs 0x1006 with the pointer; so does a timeout under I2C_TIMEOUT, after which the target
ignores all up to the STOP. Another address changes nothing. -/
def Obligations.I2cTransfers : Prop :=
  (∀ (dev : BitVec 7) (hi mid lo : Byte) (v : Word) (s : State), Open s → s.host.i2cOpen = false → s.i2cAnswers dev = true → s.host.i2cPosted.length ≤ 7 →
      hi.toNat < 0x20 → lo.toNat % 4 = 0 →
      Runs (.i2cWrite dev ([hi, mid, lo] ++ leBytes 4 v.toNat) []) s fun t => t.host.i2cPosted = s.host.i2cPosted ++ [(hi.toNat * 65536 + mid.toNat * 256 + lo.toNat, v)] ∧
        t.host.i2cPtr = (hi.toNat * 65536 + mid.toNat * 256 + lo.toNat + 4) % 2 ^ 21 ∧ t.host.i2cFixed = false ∧ t.host.i2cOpen = true ∧ t.host.i2cIgnores = false ∧ { t with host := s.host } = s) ∧
  (∀ (dev : BitVec 7) (hi mid lo : Byte) (v : Word) (s : State), Open s → s.host.i2cOpen = false → s.i2cAnswers dev = true → s.host.i2cPosted.length ≤ 7 →
      0x80 ≤ hi.toNat → hi.toNat < 0xA0 → lo.toNat % 4 = 0 →
      Runs (.i2cWrite dev ([hi, mid, lo] ++ leBytes 4 v.toNat) []) s fun t => t.host.i2cPosted = s.host.i2cPosted ++ [((hi.toNat - 0x80) * 65536 + mid.toNat * 256 + lo.toNat, v)] ∧
        t.host.i2cPtr = (hi.toNat - 0x80) * 65536 + mid.toNat * 256 + lo.toNat ∧ t.host.i2cFixed = true ∧ t.host.i2cOpen = true ∧ { t with host := s.host } = s) ∧
  (∀ (dev : BitVec 7) (hi mid lo : Byte) (bs : List Byte) (s : State), Open s → s.host.i2cOpen = false → s.i2cAnswers dev = true →
      lo.toNat % 4 ≠ 0 ∨ hi.toNat / 32 % 4 ≠ 0 →
      Runs (.i2cWrite dev ([hi, mid, lo] ++ bs) []) s fun t => t.host.i2cIgnores = true ∧ t.host.i2cPosted = s.host.i2cPosted ∧ t.host.i2cPtr = s.host.i2cPtr ∧ { t with host := s.host } = s) ∧
  (∀ (dev : BitVec 7) (bs : List Byte) (ds : List Nat) (s : State), s.host.i2cOpen = false → s.host.i2cPart = [] → s.host.i2cIgnores = false → s.i2cAnswers dev = false →
      Runs (.i2cWrite dev bs ds) s fun t => t = s) ∧
  (∀ (dev : BitVec 7) (s : State), Open s → s.host.i2cOpen = false → s.i2cAnswers dev = true → s.host.i2cPosted = [] → s.host.i2cPtr = F.IMG_RB_ADDR → s.host.i2cFixed = false →
      Runs (.i2cRead dev 4) s fun t => t.reply = leBytes 4 (s.reg F.IMG_RB_ADDR).toNat ∧ t.host.i2cPtr = 0x2006C ∧ t.host.i2cOpen = true ∧
        { t with host := s.host, reply := s.reply, readData := s.readData } = s) ∧
  (∀ (restart : Bool) (s : State), Open s → s.host.i2cOpen = true → s.host.i2cPart ≠ [] →
      Runs (.i2cStop restart) s fun t => t.host = { s.host with i2cOpen := false, i2cPart := [], i2cIgnores := s.host.i2cIgnores && restart } ∧ t.bit F.SUP_EVENT_HOST = true ∧
        Logs 0x1006 s.host.i2cPtr s t ∧ OnlyAndLog [F.SUP_EVENT_HOST] s { t with host := s.host }) ∧
  (∀ (restart : Bool) (s : State), Open s → s.host.i2cPart = [] →
      Runs (.i2cStop restart) s fun t => t = { s with host := { s.host with i2cOpen := false, i2cIgnores := s.host.i2cIgnores && restart } }) ∧
  (∀ s : State, Open s → s.host.i2cOpen = true → s.host.i2cTimed = true → s.host.i2cIgnores = false →
      Runs .i2cTimeout s fun t => t.host = { s.host with i2cOpen := false, i2cPart := [], i2cIgnores := true } ∧ t.bit F.SUP_EVENT_HOST = true ∧
        Logs 0x1006 s.host.i2cPtr s t ∧ OnlyAndLog [F.SUP_EVENT_HOST] s { t with host := s.host })

/-- The ROM service mailbox and service episodes.  A write of MBOX_CMD with its KEY that names a routine in Sail while the mailbox
is idle sets BUSY and requests the routine with the arguments; one that names none is refused with cause 4, counted nowhere else
and logged as 0x1009. A service episode calls it: flash_info returns its three words in MBOX_RET0 to 2, BUSY clears and
SUP_EVENT.MBOX is set, while every integer register and CSR of user firmware stays. No episode begins while the core is halted.
The result of an operation that ran on is loaded when it has ended. MBOX_BUF_DATA reads and writes the buffer word by word; a
write while BUSY is refused with cause 2. -/
def Obligations.MailboxAndEpisodes : Prop :=
  (∀ (p : Path) (v : Word) (s : State), s.inSail = true → bits v.toNat 31 16 = 0x4D42 → s.bit F.MBOX_STATUS_BUSY = false → bits v.toNat 8 8 = 1 →
      bits v.toNat 3 0 < 9 → bits v.toNat 3 0 ≠ 2 →
      Runs (.mboxCmd p v) s fun t => t.bit F.MBOX_STATUS_BUSY = true ∧ t.mbox.running = none ∧
        t.mbox.call = some (1, bits v.toNat 3 0, ⟨s.reg (F.MBOX_ARG 0), s.reg (F.MBOX_ARG 1), s.reg (F.MBOX_ARG 2), s.reg (F.MBOX_ARG 3) &&& ~~~3#32, 0x10000000, s.csr csrMtvec⟩) ∧
        Only [F.MBOX_STATUS_BUSY] s { t with mbox := s.mbox }) ∧
  (∀ (p : Path) (v : Word) (s : State), s.inSail = true → bits v.toNat 31 16 = 0x4D42 → s.bit F.MBOX_STATUS_BUSY = false → bits v.toNat 8 8 = 1 → 9 ≤ bits v.toNat 3 0 →
      Runs (.mboxCmd p v) s fun t => t.fld F.MBOX_STATUS_REFUSE = 4 ∧ t.bit F.SUP_EVENT_MBOX_REF = true ∧ Logs 0x1009 4 s t ∧ OnlyAndLog [F.MBOX_STATUS_REFUSE, F.SUP_EVENT_MBOX_REF] s t) ∧
  (∀ (errs : List (Nat × Nat)) (c : RoutineCall) (s : State), s.inSail = true → s.noEpisode = false → s.bit F.MODE_STATUS_REEFING = false → s.dsc.snapWait = [] → s.upd.steps = [] →
      s.flash.op = none → s.mbox.call = some (0, 0, c) →
      Runs (.serviceEpisode errs) s fun t => t.reg (F.MBOX_RET 0) = 0 ∧ t.reg (F.MBOX_RET 1) = 0x02102010 ∧ t.reg (F.MBOX_RET 2) = BitVec.ofNat 32 (s.fld F.FLC_WARN_LEVEL) ∧
        t.bit F.MBOX_STATUS_BUSY = false ∧ t.bit F.SUP_EVENT_MBOX = true ∧ t.mbox = {} ∧ t.sup = s.sup ∧ t.errs = s.errs ∧
        OnlyFields [whole (F.MBOX_RET 0), whole (F.MBOX_RET 1), whole (F.MBOX_RET 2), F.MBOX_STATUS_BUSY, F.SUP_EVENT_MBOX] s t) ∧
  (∀ (errs : List (Nat × Nat)) (s : State), s.bit F.SUP_STATUS_HALTED = true → Runs (.serviceEpisode errs) s fun t => t = s) ∧
  (∀ (st n ofs : Word) (s : State), s.inSail = true → s.noEpisode = false → s.mbox.running = some 0 → s.flash.results = [(1, [st, n, ofs])] →
      Runs .mboxResult s fun t => t.reg (F.MBOX_RET 0) = st ∧ t.reg (F.MBOX_RET 1) = n ∧ t.reg (F.MBOX_RET 2) = ofs ∧ t.bit F.MBOX_STATUS_BUSY = false ∧
        t.bit F.SUP_EVENT_MBOX = true ∧ t.mbox = {} ∧ OnlyFields [whole (F.MBOX_RET 0), whole (F.MBOX_RET 1), whole (F.MBOX_RET 2), F.MBOX_STATUS_BUSY, F.SUP_EVENT_MBOX] s t ∧
        { t with regs := s.regs, mbox := s.mbox, fresh := s.fresh } = s) ∧
  (∀ (p : Path) (v : Word) (s : State), Open s → s.bit F.MBOX_STATUS_BUSY = false → s.flash.op = none →
      Runs (.mboxBufDataAccess p (some v)) s fun t => Memory.bytes zeroByte t.sram (0x3C000 + 4 * s.fld F.MBOX_BUF_ADDR_WORD) 4 = leBytes 4 v.toNat ∧
        SramOnly (0x3C000 + 4 * s.fld F.MBOX_BUF_ADDR_WORD) 4 s t ∧ t.fld F.MBOX_BUF_ADDR_WORD = (s.fld F.MBOX_BUF_ADDR_WORD + 1) % 1024 ∧
        Only [F.MBOX_BUF_ADDR_WORD] s { t with sram := s.sram }) ∧
  (∀ (p : Path) (v : Word) (s : State), Open s → s.bit F.MBOX_STATUS_BUSY = true →
      Runs (.mboxBufDataAccess p (some v)) s fun t => t.fld F.MBOX_STATUS_REFUSE = 2 ∧ t.bit F.SUP_EVENT_MBOX_REF = true ∧ Logs 0x1009 2 s t ∧
        OnlyAndLog [F.MBOX_STATUS_REFUSE, F.SUP_EVENT_MBOX_REF] s t) ∧
  (∀ (p : Path) (s : State), Open s →
      Runs (.mboxBufDataAccess p none) s fun t => t.readData = BitVec.ofNat 32 (leNat (Memory.bytes zeroByte s.sram (0x3C000 + 4 * s.fld F.MBOX_BUF_ADDR_WORD) 4)) ∧
        t.fld F.MBOX_BUF_ADDR_WORD = (s.fld F.MBOX_BUF_ADDR_WORD + 1) % 1024 ∧ Only [F.MBOX_BUF_ADDR_WORD] s { t with readData := s.readData })

/-- Registers at reset hold their Reset column.  After reset the registers with a Reset column other than 0 hold it, as the
identity, Mast, discipline, flash, update, power, monitor and fabric registers named here show; nothing is logged, nothing waits
in any queue, every memory lists nothing, and the device is in a Hoist of CAUSE 0x1 whose firmware has not started. -/
def Obligations.ResetValues : Prop :=
  (State.reset.reg F.DEV_ID = 0x74368001 ∧ State.reset.reg F.REV_ID = 0xA1 ∧ State.reset.reg (F.FEAT_OFFER 0) = 7 ∧ State.reset.reg F.MAST_SLEW_LIMIT = 0x64 ∧
      State.reset.wide F.MAST_RCAL_LO = 0x1DCD6500000 ∧ State.reset.reg F.DSC_BW = 0x353 ∧ State.reset.fld F.FLC_WARN_LEVEL = 2 ∧ State.reset.fld F.FLC_PATROL_CFG_MS = 100 ∧
      State.reset.fld F.UPD_CFG_CONFIRM_S = 600 ∧ State.reset.reg F.UPD_COST_ERASE = 40000 ∧ State.reset.reg F.UPD_COST_PAGE = 80 ∧ State.reset.fld F.PWR_VDDF_FLOOR_MV = 550 ∧
      State.reset.fld F.PWR_VDDF_CEIL_MV = 950 ∧ State.reset.reg F.PWR_LEDGER_MARGIN = 50000 ∧ State.reset.reg F.MON_TEMP_LIM = 0x6E006400 ∧ State.reset.bit F.FAB_STATUS_GSR = true ∧
      State.reset.reg (F.SHR_ROUTE 0) = 0xFFFFFFFF) ∧
  (State.reset.errs = [] ∧ State.reset.pending = [] ∧ State.reset.hbuf = [] ∧ State.reset.upd.steps = [] ∧ State.reset.host.spiPosted = [] ∧ State.reset.host.i2cPosted = [] ∧
      State.reset.pcfg = [] ∧ State.reset.sram = [] ∧ State.reset.flash.mem = [] ∧ State.reset.xflash = [] ∧ State.reset.bit F.SUP_STATUS_USER = false ∧ State.reset.dev.mode = .hoist ∧ State.reset.dev.cause = 1)
end

