-- ==== Sys2Proof/Laws/Table.lean ====
section
/-! SUPPORT. Reads after writes of a sparse table, and its canonical form. -/

namespace Sys2Proof.Machine

variable {α : Type}

theorem Table.get_erase_self (d : Nat → α) (t : Table α) (k : Nat) : Table.get d (Table.erase t k) k = d k := by
  induction t with
  | nil => rfl
  | cons p t ih =>
    obtain ⟨j, w⟩ := p
    by_cases h : j = k <;> simp [Table.erase, Table.get, h, ih]

theorem Table.get_erase_ne (d : Nat → α) (t : Table α) {j k : Nat} (h : j ≠ k) :
    Table.get d (Table.erase t k) j = Table.get d t j := by
  induction t with
  | nil => rfl
  | cons p t ih =>
    obtain ⟨i, w⟩ := p
    by_cases h1 : i = k
    · subst h1
      have : ¬ i = j := fun e => h e.symm
      simp [Table.erase, Table.get, ih, this]
    · rw [Table.erase, if_neg h1]
      by_cases h2 : i = j <;> simp [Table.get, h2, ih]

theorem Table.get_insert_ne (d : Nat → α) (t : Table α) {j k : Nat} (v : α) (h : j ≠ k) :
    Table.get d (Table.insert t k v) j = Table.get d t j := by
  induction t with
  | nil => simp [Table.insert, Table.get, Ne.symm h]
  | cons p t ih =>
    obtain ⟨i, w⟩ := p
    by_cases h1 : k < i
    · simp [Table.insert, Table.get, h1, Ne.symm h]
    · rw [Table.insert, if_neg h1]
      by_cases h2 : i = j <;> simp [Table.get, h2, ih]

theorem Table.get_insert_erase (d : Nat → α) (t : Table α) (k : Nat) (v : α) :
    Table.get d (Table.insert (Table.erase t k) k v) k = v := by
  induction t with
  | nil => simp [Table.insert, Table.erase, Table.get]
  | cons p t ih =>
    obtain ⟨i, w⟩ := p
    by_cases h1 : i = k
    · simpa [Table.erase, h1] using ih
    · by_cases h2 : k < i <;> simp [Table.erase, Table.insert, Table.get, h1, h2, ih]

/-- A key reads as what was last written to it. -/
theorem Table.get_put_self [DecidableEq α] (d : Nat → α) (t : Table α) (k : Nat) (v : α) :
    Table.get d (Table.put d t k v) k = v := by
  unfold Table.put
  split
  next h => rw [Table.get_erase_self, h]
  next => exact Table.get_insert_erase d t k v

/-- Every other key reads as before. -/
theorem Table.get_put_ne [DecidableEq α] (d : Nat → α) (t : Table α) {j k : Nat} (v : α) (h : j ≠ k) :
    Table.get d (Table.put d t k v) j = Table.get d t j := by
  unfold Table.put
  split
  next => exact Table.get_erase_ne d t h
  next => rw [Table.get_insert_ne d _ v h, Table.get_erase_ne d t h]

theorem Table.get_put [DecidableEq α] (d : Nat → α) (t : Table α) (j k : Nat) (v : α) :
    Table.get d (Table.put d t k v) j = if j = k then v else Table.get d t j := by
  split
  next h => rw [h, Table.get_put_self]
  next h => exact Table.get_put_ne d t v h

/-! ### The canonical form -/

/-- Every key of a table lies above a bound. -/
def Table.above (b : Nat) (t : Table α) : Prop := ∀ p ∈ t, b < p.1

theorem Table.rising_cons {j : Nat} {w : α} {t : Table α} :
    Table.rising ((j, w) :: t) = true ↔ Table.above j t ∧ Table.rising t = true := by
  induction t generalizing j w with
  | nil => simp [Table.rising, Table.above]
  | cons p t ih =>
    obtain ⟨k, v⟩ := p
    simp only [Table.rising, Bool.and_eq_true, decide_eq_true_eq, Table.above, List.forall_mem_cons]
    constructor
    · rintro ⟨h, r⟩
      exact ⟨⟨h, fun q hq => Nat.lt_trans h ((ih.mp r).1 q hq)⟩, r⟩
    · rintro ⟨⟨h, -⟩, r⟩
      exact ⟨h, r⟩

theorem Table.mem_erase {t : Table α} {k : Nat} {p : Nat × α} (h : p ∈ Table.erase t k) : p ∈ t ∧ p.1 ≠ k := by
  induction t with
  | nil => cases h
  | cons q t ih =>
    obtain ⟨j, w⟩ := q
    by_cases hj : j = k
    · rw [Table.erase, if_pos hj] at h
      exact ⟨List.mem_cons_of_mem _ (ih h).1, (ih h).2⟩
    · rw [Table.erase, if_neg hj, List.mem_cons] at h
      rcases h with rfl | h
      · exact ⟨List.mem_cons_self, hj⟩
      · exact ⟨List.mem_cons_of_mem _ (ih h).1, (ih h).2⟩

theorem Table.rising_erase {t : Table α} (k : Nat) (h : Table.rising t = true) : Table.rising (Table.erase t k) = true := by
  induction t with
  | nil => rfl
  | cons q t ih =>
    obtain ⟨j, w⟩ := q
    obtain ⟨ha, hr⟩ := Table.rising_cons.mp h
    by_cases hj : j = k
    · simpa [Table.erase, hj] using ih hr
    · rw [Table.erase, if_neg hj]
      exact Table.rising_cons.mpr ⟨fun p hp => ha p (Table.mem_erase hp).1, ih hr⟩

theorem Table.mem_insert {t : Table α} {k : Nat} {v : α} {p : Nat × α} (h : p ∈ Table.insert t k v) : p = (k, v) ∨ p ∈ t := by
  induction t with
  | nil => exact .inl (by simpa [Table.insert] using h)
  | cons q t ih =>
    obtain ⟨j, w⟩ := q
    by_cases hk : k < j
    · simpa [Table.insert, hk] using h
    · rw [Table.insert, if_neg hk, List.mem_cons] at h
      rcases h with rfl | h
      · exact .inr List.mem_cons_self
      · exact (ih h).imp id (List.mem_cons_of_mem _)

theorem Table.rising_insert {t : Table α} {k : Nat} (v : α) (h : Table.rising t = true) (hk : ∀ p ∈ t, p.1 ≠ k) :
    Table.rising (Table.insert t k v) = true := by
  induction t with
  | nil => rfl
  | cons q t ih =>
    obtain ⟨j, w⟩ := q
    obtain ⟨ha, hr⟩ := Table.rising_cons.mp h
    have hj : j ≠ k := hk (j, w) List.mem_cons_self
    by_cases hlt : k < j
    · rw [Table.insert, if_pos hlt]
      refine Table.rising_cons.mpr ⟨fun p hp => ?_, h⟩
      rcases List.mem_cons.mp hp with rfl | hp
      · exact hlt
      · exact Nat.lt_trans hlt (ha p hp)
    · rw [Table.insert, if_neg hlt]
      refine Table.rising_cons.mpr ⟨fun p hp => ?_, ih hr fun p hp => hk p (List.mem_cons_of_mem _ hp)⟩
      rcases Table.mem_insert hp with rfl | hp
      · omega
      · exact ha p hp

/-- A write keeps the canonical form. -/
theorem Table.wf_put [DecidableEq α] (d : Nat → α) {t : Table α} (k : Nat) (v : α) (h : Table.wf d t = true) :
    Table.wf d (Table.put d t k v) = true := by
  simp only [Table.wf, Bool.and_eq_true, List.all_eq_true, bne_iff_ne, ne_eq] at h ⊢
  obtain ⟨hr, hd⟩ := h
  unfold Table.put
  split
  next => exact ⟨Table.rising_erase k hr, fun p hp => hd p (Table.mem_erase hp).1⟩
  next hv =>
    refine ⟨Table.rising_insert v (Table.rising_erase k hr) fun p hp => (Table.mem_erase hp).2, fun p hp => ?_⟩
    rcases Table.mem_insert hp with rfl | hp
    · exact hv
    · exact hd p (Table.mem_erase hp).1

theorem Table.rising_filter {t : Table α} (f : Nat × α → Bool) (h : Table.rising t = true) :
    Table.rising (t.filter f) = true := by
  induction t with
  | nil => rfl
  | cons q t ih =>
    obtain ⟨j, w⟩ := q
    obtain ⟨ha, hr⟩ := Table.rising_cons.mp h
    by_cases hf : f (j, w) = true
    · rw [List.filter_cons_of_pos hf]
      exact Table.rising_cons.mpr ⟨fun p hp => ha p (List.mem_filter.mp hp).1, ih hr⟩
    · rw [List.filter_cons_of_neg hf]
      exact ih hr

/-- A filter of entries keeps the canonical form. -/
theorem Table.wf_filter [DecidableEq α] (d : Nat → α) {t : Table α} (f : Nat × α → Bool) (h : Table.wf d t = true) :
    Table.wf d (t.filter f) = true := by
  simp only [Table.wf, Bool.and_eq_true, List.all_eq_true, bne_iff_ne, ne_eq] at h ⊢
  exact ⟨Table.rising_filter f h.1, fun p hp => h.2 p (List.mem_filter.mp hp).1⟩

/-! ### Byte memories -/

theorem Memory.wf_nil (d : Nat → Byte) : Memory.wf d [] = true := rfl

/-- Writing bytes keeps the canonical form. -/
theorem Memory.wf_putBytes (d : Nat → Byte) {m : Memory} (a : Nat) (bs : List Byte) (h : Memory.wf d m = true) :
    Memory.wf d (Memory.putBytes d m a bs) = true := by
  induction bs generalizing m a with
  | nil => exact h
  | cons b bs ih => exact ih (a + 1) (Table.wf_put d a b h)

/-- Clearing a range keeps the canonical form. -/
theorem Memory.wf_clear (d : Nat → Byte) {m : Memory} (a n : Nat) (h : Memory.wf d m = true) :
    Memory.wf d (Memory.clear m a n) = true := Table.wf_filter d _ h

/-- Writing bytes leaves every byte outside them as it was. -/
theorem Memory.get_putBytes_outside (d : Nat → Byte) (m : Memory) (a : Nat) (bs : List Byte) {k : Nat}
    (h : k < a ∨ a + bs.length ≤ k) : Table.get d (Memory.putBytes d m a bs) k = Table.get d m k := by
  induction bs generalizing m a with
  | nil => rfl
  | cons b bs ih =>
    rw [List.length_cons] at h
    rw [Memory.putBytes, ih _ (a + 1) (by omega), Table.get_put_ne d m b (by omega)]

/-- Each byte written reads back. -/
theorem Memory.get_putBytes_inside (d : Nat → Byte) (m : Memory) (a : Nat) (bs : List Byte) {i : Nat} (h : i < bs.length) :
    Table.get d (Memory.putBytes d m a bs) (a + i) = bs[i] := by
  induction bs generalizing m a i with
  | nil => cases h
  | cons b bs ih =>
    cases i with
    | zero => rw [Memory.putBytes, Memory.get_putBytes_outside d _ (a + 1) bs (by omega), Nat.add_zero, Table.get_put_self]; rfl
    | succ i =>
      have := ih (Table.put d m a b) (a + 1) (i := i) (by simpa using h)
      rw [show a + 1 + i = a + (i + 1) by omega] at this
      simpa [Memory.putBytes] using this

/-- The bytes written read back as they were. -/
theorem Memory.bytes_putBytes (d : Nat → Byte) (m : Memory) (a : Nat) (bs : List Byte) :
    Memory.bytes d (Memory.putBytes d m a bs) a bs.length = bs := by
  induction bs generalizing m a with
  | nil => rfl
  | cons b bs ih =>
    rw [List.length_cons, Memory.bytes, Memory.putBytes, ih, Memory.get_putBytes_outside d _ (a + 1) bs (by omega),
      Table.get_put_self]

end Sys2Proof.Machine
end

