-- ==== Sys2Proof/Laws/Registers.lean ====
section
/-! SUPPORT. Reads of registers and fields after writes of them. -/

namespace Sys2Proof.Machine

open Sys2Proof

/-! ### Whole registers -/

theorem State.reg_setReg (s : State) (a b : Nat) (v : Word) : (s.setReg a v).reg b = if b = a then v else s.reg b :=
  Table.get_put resetWord s.regs b a v

@[simp] theorem State.reg_setReg_self (s : State) (a : Nat) (v : Word) : (s.setReg a v).reg a = v :=
  Table.get_put_self resetWord s.regs a v

theorem State.reg_setReg_ne (s : State) {a b : Nat} (v : Word) (h : b ≠ a) : (s.setReg a v).reg b = s.reg b :=
  Table.get_put_ne resetWord s.regs v h

theorem State.reg_setFld_ne (s : State) {f : Fld} {a : Nat} (v : Nat) (h : a ≠ f.addr) : (s.setFld f v).reg a = s.reg a :=
  s.reg_setReg_ne _ h

theorem State.reg_setFld_self (s : State) (f : Fld) (v : Nat) : (s.setFld f v).reg f.addr = putField (s.reg f.addr) f v :=
  s.reg_setReg_self f.addr _

/-! ### Fields of a word -/

/-- A number split at a field: what lies above, the field, what lies below. -/
theorem Nat.split_field (x lo w : Nat) :
    x = x / 2 ^ (lo + w) * 2 ^ (lo + w) + x / 2 ^ lo % 2 ^ w * 2 ^ lo + x % 2 ^ lo := by
  have h1 := Nat.div_add_mod x (2 ^ lo)
  have h2 := Nat.div_add_mod (x / 2 ^ lo) (2 ^ w)
  rw [Nat.div_div_eq_div_mul, ← Nat.pow_add] at h2
  have h3 : 2 ^ lo * (x / 2 ^ lo) = x / 2 ^ (lo + w) * 2 ^ (lo + w) + x / 2 ^ lo % 2 ^ w * 2 ^ lo := by
    conv => lhs; rw [← h2]
    rw [Nat.pow_add]; ring
  omega

/-- What putField stores, as a number: the parts above and below stay. -/
theorem putField_parts (x lo w v : Nat) :
    x - x / 2 ^ lo % 2 ^ w * 2 ^ lo + v % 2 ^ w * 2 ^ lo
      = x / 2 ^ (lo + w) * 2 ^ (lo + w) + v % 2 ^ w * 2 ^ lo + x % 2 ^ lo := by
  have h := Nat.split_field x lo w
  omega

theorem field_lt (w v lo : Nat) : v % 2 ^ w * 2 ^ lo + (2 ^ lo - 1) < 2 ^ (lo + w) := by
  have h : v % 2 ^ w + 1 ≤ 2 ^ w := Nat.mod_lt v (Nat.two_pow_pos w)
  have h2 : (v % 2 ^ w + 1) * 2 ^ lo ≤ 2 ^ w * 2 ^ lo := Nat.mul_le_mul_right _ h
  have h3 := Nat.two_pow_pos lo
  rw [Nat.pow_add, Nat.mul_comm (2 ^ lo)]
  rw [Nat.add_mul, Nat.one_mul] at h2
  omega

/-- A field put into a word leaves a number below 2^32. -/
theorem putField_lt {x lo w : Nat} (v : Nat) (hx : x < 2 ^ 32) (h : lo + w ≤ 32) :
    x / 2 ^ (lo + w) * 2 ^ (lo + w) + v % 2 ^ w * 2 ^ lo + x % 2 ^ lo < 2 ^ 32 := by
  have h1 := field_lt w v lo
  have h2 : x % 2 ^ lo < 2 ^ lo := Nat.mod_lt _ (Nat.two_pow_pos lo)
  have h3 : x / 2 ^ (lo + w) < 2 ^ (32 - (lo + w)) := by
    rw [Nat.div_lt_iff_lt_mul (Nat.two_pow_pos _), ← Nat.pow_add]
    rwa [show 32 - (lo + w) + (lo + w) = 32 by omega]
  have h4 : (x / 2 ^ (lo + w) + 1) * 2 ^ (lo + w) ≤ 2 ^ (32 - (lo + w)) * 2 ^ (lo + w) := Nat.mul_le_mul_right _ h3
  rw [← Nat.pow_add, show 32 - (lo + w) + (lo + w) = 32 by omega, Nat.add_mul, Nat.one_mul] at h4
  omega

theorem putField_toNat (x : Word) {f : Fld} (v : Nat) (h : f.lo + f.width ≤ 32) :
    (putField x f v).toNat
      = x.toNat / 2 ^ (f.lo + f.width) * 2 ^ (f.lo + f.width) + v % 2 ^ f.width * 2 ^ f.lo + x.toNat % 2 ^ f.lo := by
  rw [putField, putField_parts, BitVec.toNat_ofNat, Nat.mod_eq_of_lt]
  exact putField_lt v x.isLt h

/-- The field reads as what was put into it. -/
theorem putField_self (x : Word) {f : Fld} (v : Nat) (h : f.lo + f.width ≤ 32) :
    (putField x f v).toNat / 2 ^ f.lo % 2 ^ f.width = v % 2 ^ f.width := by
  rw [putField_toNat x v h]
  have h2 : x.toNat % 2 ^ f.lo < 2 ^ f.lo := Nat.mod_lt _ (Nat.two_pow_pos _)
  have e : x.toNat / 2 ^ (f.lo + f.width) * 2 ^ (f.lo + f.width) + v % 2 ^ f.width * 2 ^ f.lo + x.toNat % 2 ^ f.lo
      = x.toNat % 2 ^ f.lo + 2 ^ f.lo * (v % 2 ^ f.width + 2 ^ f.width * (x.toNat / 2 ^ (f.lo + f.width))) := by
    rw [Nat.pow_add]; ring
  rw [e, Nat.add_mul_div_left _ _ (Nat.two_pow_pos _), Nat.div_eq_of_lt h2, Nat.zero_add, Nat.add_mul_mod_self_left,
    Nat.mod_mod]

/-- A field that lies below or above it reads as before. -/
theorem putField_other (x : Word) {f g : Fld} (v : Nat) (hf : f.lo + f.width ≤ 32)
    (h : g.lo + g.width ≤ f.lo ∨ f.lo + f.width ≤ g.lo) :
    (putField x f v).toNat / 2 ^ g.lo % 2 ^ g.width = x.toNat / 2 ^ g.lo % 2 ^ g.width := by
  rw [putField_toNat x v hf]
  rcases h with h | h
  · have low : ∀ n : Nat, n / 2 ^ g.lo % 2 ^ g.width = n % 2 ^ (g.lo + g.width) / 2 ^ g.lo := by
      intro n; rw [Nat.pow_add, Nat.mod_mul_right_div_self]
    rw [low, low x.toNat]
    congr 1
    obtain ⟨k, hk⟩ : ∃ k, f.lo = g.lo + g.width + k := ⟨f.lo - (g.lo + g.width), by omega⟩
    have hx : x.toNat % 2 ^ (g.lo + g.width) = x.toNat % 2 ^ f.lo % 2 ^ (g.lo + g.width) := by
      rw [hk, Nat.pow_add 2 (g.lo + g.width) k, Nat.mod_mul_right_mod]
    rw [hx]
    have e : x.toNat / 2 ^ (f.lo + f.width) * 2 ^ (f.lo + f.width) + v % 2 ^ f.width * 2 ^ f.lo + x.toNat % 2 ^ f.lo
        = x.toNat % 2 ^ f.lo + 2 ^ (g.lo + g.width)
          * (2 ^ k * (v % 2 ^ f.width + 2 ^ f.width * (x.toNat / 2 ^ (f.lo + f.width)))) := by
      have hp : 2 ^ f.lo = 2 ^ (g.lo + g.width) * 2 ^ k := by rw [hk, Nat.pow_add]
      have hm : x.toNat / 2 ^ (f.lo + f.width) * 2 ^ (f.lo + f.width)
          = 2 ^ (g.lo + g.width) * (2 ^ k * (2 ^ f.width * (x.toNat / 2 ^ (f.lo + f.width)))) := by
        rw [Nat.mul_comm, Nat.pow_add 2 f.lo, Nat.mul_assoc, hp, Nat.mul_assoc, Nat.mul_assoc]
      have hv : v % 2 ^ f.width * 2 ^ f.lo = 2 ^ (g.lo + g.width) * (2 ^ k * (v % 2 ^ f.width)) := by
        rw [Nat.mul_comm, hp, Nat.mul_assoc]
      rw [hm, hv, Nat.mul_add, Nat.mul_add]; omega
    rw [e, Nat.add_mul_mod_self_left]
  · obtain ⟨k, hk⟩ : ∃ k, g.lo = f.lo + f.width + k := ⟨g.lo - (f.lo + f.width), by omega⟩
    have h1 := field_lt f.width v f.lo
    have h2 : x.toNat % 2 ^ f.lo < 2 ^ f.lo := Nat.mod_lt _ (Nat.two_pow_pos _)
    have e : x.toNat / 2 ^ (f.lo + f.width) * 2 ^ (f.lo + f.width) + v % 2 ^ f.width * 2 ^ f.lo + x.toNat % 2 ^ f.lo
        = (v % 2 ^ f.width * 2 ^ f.lo + x.toNat % 2 ^ f.lo) + 2 ^ (f.lo + f.width) * (x.toNat / 2 ^ (f.lo + f.width)) := by ring
    have hq : (v % 2 ^ f.width * 2 ^ f.lo + x.toNat % 2 ^ f.lo) / 2 ^ (f.lo + f.width) = 0 := Nat.div_eq_of_lt (by omega)
    rw [hk, Nat.pow_add 2 (f.lo + f.width) k, ← Nat.div_div_eq_div_mul, ← Nat.div_div_eq_div_mul, e,
      Nat.add_mul_div_left _ _ (Nat.two_pow_pos _), hq, Nat.zero_add]

/-! ### Fields of the state -/

/-- The field that a write names reads as the low bits of the value. -/
theorem State.fld_setFld_self (s : State) {f : Fld} (v : Nat) (h : f.lo + f.width ≤ 32) :
    (s.setFld f v).fld f = v % 2 ^ f.width := by
  rw [State.fld, s.reg_setFld_self, putField_self _ v h]

/-- A field of another register reads as before. -/
theorem State.fld_setFld_ne (s : State) {f g : Fld} (v : Nat) (h : g.addr ≠ f.addr) : (s.setFld f v).fld g = s.fld g := by
  rw [State.fld, s.reg_setFld_ne v h, State.fld]

/-- A field of the same register with no bit in common reads as before. -/
theorem State.fld_setFld_disjoint (s : State) {f g : Fld} (v : Nat) (hf : f.lo + f.width ≤ 32)
    (h : g.lo + g.width ≤ f.lo ∨ f.lo + f.width ≤ g.lo) : (s.setFld f v).fld g = s.fld g := by
  by_cases ha : g.addr = f.addr
  · rw [State.fld, ha, s.reg_setFld_self, putField_other _ v hf h, State.fld, ha]
  · exact s.fld_setFld_ne v ha

theorem State.fld_setReg_ne (s : State) {a : Nat} {g : Fld} (v : Word) (h : g.addr ≠ a) : (s.setReg a v).fld g = s.fld g := by
  rw [State.fld, s.reg_setReg_ne v h, State.fld]

theorem State.fld_setReg_self (s : State) {a : Nat} {g : Fld} (v : Word) (h : g.addr = a) :
    (s.setReg a v).fld g = v.toNat / 2 ^ g.lo % 2 ^ g.width := by
  rw [State.fld, h, s.reg_setReg_self]

theorem State.fld_lt (s : State) (f : Fld) : s.fld f < 2 ^ f.width := Nat.mod_lt _ (Nat.two_pow_pos _)

/-! ### The named writes in terms of setFld -/

@[simp] theorem State.raise_eq (s : State) (f : Fld) : s.raise f = s.setFld f 1 := (rfl)
@[simp] theorem State.clear_eq (s : State) (f : Fld) : s.clear f = s.setFld f 0 := (rfl)
@[simp] theorem State.setBit_eq (s : State) (f : Fld) (b : Bool) : s.setBit f b = s.setFld f b.toNat := (rfl)
@[simp] theorem State.raiseBit_eq (s : State) (a i : Nat) : s.raiseBit a i = s.setFld ⟨a, i, 1⟩ 1 := (rfl)
@[simp] theorem State.pendBit_eq (s : State) (a i : Nat) : s.pendBit a i = s.setFld ⟨a + 4 * (i / 32), i % 32, 1⟩ 1 := (rfl)
@[simp] theorem State.bit_eq (s : State) (f : Fld) : s.bit f = (s.fld f != 0) := (rfl)

/-- A wide register that a write does not touch. -/
theorem State.wide_setReg_ne (s : State) {a b : Nat} (v : Word) (h : b ≠ a) (h4 : b + 4 ≠ a) :
    (s.setReg a v).wide b = s.wide b := by
  rw [State.wide, s.reg_setReg_ne v h, s.reg_setReg_ne v h4, State.wide]

/-- A wide register reads as the low 64 bits of what was written. -/
theorem State.wide_setWide_self (s : State) (a v : Nat) : (s.setWide a v).wide a = v % 2 ^ 64 := by
  rw [State.wide, State.setWide, State.reg_setReg_ne _ _ (by omega), State.reg_setReg_self, State.reg_setReg_self,
    BitVec.toNat_ofNat, BitVec.toNat_ofNat]
  omega

theorem State.reg_setWide_ne (s : State) {a b : Nat} (v : Nat) (h : b ≠ a) (h4 : b ≠ a + 4) :
    (s.setWide a v).reg b = s.reg b := by
  rw [State.setWide, State.reg_setReg_ne _ _ h4, State.reg_setReg_ne _ _ h]

/-! ### Equal words field by field -/

/-- The register frame of a list of addresses: every other register of two states agrees. -/
theorem State.fld_of_reg {s t : State} {f : Fld} (h : t.reg f.addr = s.reg f.addr) : t.fld f = s.fld f := by
  rw [State.fld, h, State.fld]

end Sys2Proof.Machine
end

