-- ==== Sys2Proof/Laws/State.lean ====
section
/-! SUPPORT. The parts of the state that each named update leaves as they are, one lemma per part and update, and what logging a
code does. -/

namespace Sys2Proof.Machine

open Sys2Proof

/-! ### A register write touches the registers alone -/

@[simp] theorem State.setReg_paths (s : State) (a : Nat) (v : Word) : (s.setReg a v).paths = s.paths := (rfl)
@[simp] theorem State.setReg_mast (s : State) (a : Nat) (v : Word) : (s.setReg a v).mast = s.mast := (rfl)
@[simp] theorem State.setReg_win (s : State) (a : Nat) (v : Word) : (s.setReg a v).win = s.win := (rfl)
@[simp] theorem State.setReg_errs (s : State) (a : Nat) (v : Word) : (s.setReg a v).errs = s.errs := (rfl)
@[simp] theorem State.setReg_unkept (s : State) (a : Nat) (v : Word) : (s.setReg a v).unkept = s.unkept := (rfl)
@[simp] theorem State.setReg_readData (s : State) (a : Nat) (v : Word) : (s.setReg a v).readData = s.readData := (rfl)
@[simp] theorem State.setReg_reply (s : State) (a : Nat) (v : Word) : (s.setReg a v).reply = s.reply := (rfl)
@[simp] theorem State.setReg_dev (s : State) (a : Nat) (v : Word) : (s.setReg a v).dev = s.dev := (rfl)
@[simp] theorem State.setReg_dsc (s : State) (a : Nat) (v : Word) : (s.setReg a v).dsc = s.dsc := (rfl)
@[simp] theorem State.setReg_cmp (s : State) (a : Nat) (v : Word) : (s.setReg a v).cmp = s.cmp := (rfl)
@[simp] theorem State.setReg_frozenSince (s : State) (a : Nat) (v : Word) : (s.setReg a v).frozenSince = s.frozenSince := (rfl)
@[simp] theorem State.setReg_cap (s : State) (a : Nat) (v : Word) : (s.setReg a v).cap = s.cap := (rfl)
@[simp] theorem State.setReg_teq (s : State) (a : Nat) (v : Word) : (s.setReg a v).teq = s.teq := (rfl)
@[simp] theorem State.setReg_sheet (s : State) (a : Nat) (v : Word) : (s.setReg a v).sheet = s.sheet := (rfl)
@[simp] theorem State.setReg_stamp (s : State) (a : Nat) (v : Word) : (s.setReg a v).stamp = s.stamp := (rfl)
@[simp] theorem State.setReg_panel (s : State) (a : Nat) (v : Word) : (s.setReg a v).panel = s.panel := (rfl)
@[simp] theorem State.setReg_fences (s : State) (a : Nat) (v : Word) : (s.setReg a v).fences = s.fences := (rfl)
@[simp] theorem State.setReg_fenceHeld (s : State) (a : Nat) (v : Word) : (s.setReg a v).fenceHeld = s.fenceHeld := (rfl)
@[simp] theorem State.setReg_icpLast (s : State) (a : Nat) (v : Word) : (s.setReg a v).icpLast = s.icpLast := (rfl)
@[simp] theorem State.setReg_icpStatus (s : State) (a : Nat) (v : Word) : (s.setReg a v).icpStatus = s.icpStatus := (rfl)
@[simp] theorem State.setReg_xng (s : State) (a : Nat) (v : Word) : (s.setReg a v).xng = s.xng := (rfl)
@[simp] theorem State.setReg_fifo (s : State) (a : Nat) (v : Word) : (s.setReg a v).fifo = s.fifo := (rfl)
@[simp] theorem State.setReg_hoist (s : State) (a : Nat) (v : Word) : (s.setReg a v).hoist = s.hoist := (rfl)
@[simp] theorem State.setReg_load (s : State) (a : Nat) (v : Word) : (s.setReg a v).load = s.load := (rfl)
@[simp] theorem State.setReg_hbuf (s : State) (a : Nat) (v : Word) : (s.setReg a v).hbuf = s.hbuf := (rfl)
@[simp] theorem State.setReg_pcfg (s : State) (a : Nat) (v : Word) : (s.setReg a v).pcfg = s.pcfg := (rfl)
@[simp] theorem State.setReg_fab (s : State) (a : Nat) (v : Word) : (s.setReg a v).fab = s.fab := (rfl)
@[simp] theorem State.setReg_keys (s : State) (a : Nat) (v : Word) : (s.setReg a v).keys = s.keys := (rfl)
@[simp] theorem State.setReg_bootCode (s : State) (a : Nat) (v : Word) : (s.setReg a v).bootCode = s.bootCode := (rfl)
@[simp] theorem State.setReg_jtag (s : State) (a : Nat) (v : Word) : (s.setReg a v).jtag = s.jtag := (rfl)
@[simp] theorem State.setReg_stayEntries (s : State) (a : Nat) (v : Word) : (s.setReg a v).stayEntries = s.stayEntries := (rfl)
@[simp] theorem State.setReg_flash (s : State) (a : Nat) (v : Word) : (s.setReg a v).flash = s.flash := (rfl)
@[simp] theorem State.setReg_sram (s : State) (a : Nat) (v : Word) : (s.setReg a v).sram = s.sram := (rfl)
@[simp] theorem State.setReg_returned (s : State) (a : Nat) (v : Word) : (s.setReg a v).returned = s.returned := (rfl)
@[simp] theorem State.setReg_xflash (s : State) (a : Nat) (v : Word) : (s.setReg a v).xflash = s.xflash := (rfl)
@[simp] theorem State.setReg_xopen (s : State) (a : Nat) (v : Word) : (s.setReg a v).xopen = s.xopen := (rfl)
@[simp] theorem State.setReg_upd (s : State) (a : Nat) (v : Word) : (s.setReg a v).upd = s.upd := (rfl)
@[simp] theorem State.setReg_txsrc (s : State) (a : Nat) (v : Word) : (s.setReg a v).txsrc = s.txsrc := (rfl)
@[simp] theorem State.setReg_lane (s : State) (a : Nat) (v : Word) : (s.setReg a v).lane = s.lane := (rfl)
@[simp] theorem State.setReg_link (s : State) (a : Nat) (v : Word) : (s.setReg a v).link = s.link := (rfl)
@[simp] theorem State.setReg_shroud (s : State) (a : Nat) (v : Word) : (s.setReg a v).shroud = s.shroud := (rfl)
@[simp] theorem State.setReg_endpoint (s : State) (a : Nat) (v : Word) : (s.setReg a v).endpoint = s.endpoint := (rfl)
@[simp] theorem State.setReg_stay (s : State) (a : Nat) (v : Word) : (s.setReg a v).stay = s.stay := (rfl)
@[simp] theorem State.setReg_pwr (s : State) (a : Nat) (v : Word) : (s.setReg a v).pwr = s.pwr := (rfl)
@[simp] theorem State.setReg_quiet (s : State) (a : Nat) (v : Word) : (s.setReg a v).quiet = s.quiet := (rfl)
@[simp] theorem State.setReg_evline (s : State) (a : Nat) (v : Word) : (s.setReg a v).evline = s.evline := (rfl)
@[simp] theorem State.setReg_vioBad (s : State) (a : Nat) (v : Word) : (s.setReg a v).vioBad = s.vioBad := (rfl)
@[simp] theorem State.setReg_sup (s : State) (a : Nat) (v : Word) : (s.setReg a v).sup = s.sup := (rfl)
@[simp] theorem State.setReg_dbg (s : State) (a : Nat) (v : Word) : (s.setReg a v).dbg = s.dbg := (rfl)
@[simp] theorem State.setReg_host (s : State) (a : Nat) (v : Word) : (s.setReg a v).host = s.host := (rfl)
@[simp] theorem State.setReg_mbox (s : State) (a : Nat) (v : Word) : (s.setReg a v).mbox = s.mbox := (rfl)
@[simp] theorem State.setReg_mon (s : State) (a : Nat) (v : Word) : (s.setReg a v).mon = s.mon := (rfl)
@[simp] theorem State.setReg_fresh (s : State) (a : Nat) (v : Word) : (s.setReg a v).fresh = s.fresh := (rfl)
@[simp] theorem State.setReg_pending (s : State) (a : Nat) (v : Word) : (s.setReg a v).pending = s.pending := (rfl)

/-! ### A field write -/

@[simp] theorem State.setFld_paths (s : State) (g : Fld) (v : Nat) : (s.setFld g v).paths = s.paths := (rfl)
@[simp] theorem State.setFld_mast (s : State) (g : Fld) (v : Nat) : (s.setFld g v).mast = s.mast := (rfl)
@[simp] theorem State.setFld_win (s : State) (g : Fld) (v : Nat) : (s.setFld g v).win = s.win := (rfl)
@[simp] theorem State.setFld_errs (s : State) (g : Fld) (v : Nat) : (s.setFld g v).errs = s.errs := (rfl)
@[simp] theorem State.setFld_unkept (s : State) (g : Fld) (v : Nat) : (s.setFld g v).unkept = s.unkept := (rfl)
@[simp] theorem State.setFld_readData (s : State) (g : Fld) (v : Nat) : (s.setFld g v).readData = s.readData := (rfl)
@[simp] theorem State.setFld_reply (s : State) (g : Fld) (v : Nat) : (s.setFld g v).reply = s.reply := (rfl)
@[simp] theorem State.setFld_dev (s : State) (g : Fld) (v : Nat) : (s.setFld g v).dev = s.dev := (rfl)
@[simp] theorem State.setFld_dsc (s : State) (g : Fld) (v : Nat) : (s.setFld g v).dsc = s.dsc := (rfl)
@[simp] theorem State.setFld_cmp (s : State) (g : Fld) (v : Nat) : (s.setFld g v).cmp = s.cmp := (rfl)
@[simp] theorem State.setFld_frozenSince (s : State) (g : Fld) (v : Nat) : (s.setFld g v).frozenSince = s.frozenSince := (rfl)
@[simp] theorem State.setFld_cap (s : State) (g : Fld) (v : Nat) : (s.setFld g v).cap = s.cap := (rfl)
@[simp] theorem State.setFld_teq (s : State) (g : Fld) (v : Nat) : (s.setFld g v).teq = s.teq := (rfl)
@[simp] theorem State.setFld_sheet (s : State) (g : Fld) (v : Nat) : (s.setFld g v).sheet = s.sheet := (rfl)
@[simp] theorem State.setFld_stamp (s : State) (g : Fld) (v : Nat) : (s.setFld g v).stamp = s.stamp := (rfl)
@[simp] theorem State.setFld_panel (s : State) (g : Fld) (v : Nat) : (s.setFld g v).panel = s.panel := (rfl)
@[simp] theorem State.setFld_fences (s : State) (g : Fld) (v : Nat) : (s.setFld g v).fences = s.fences := (rfl)
@[simp] theorem State.setFld_fenceHeld (s : State) (g : Fld) (v : Nat) : (s.setFld g v).fenceHeld = s.fenceHeld := (rfl)
@[simp] theorem State.setFld_icpLast (s : State) (g : Fld) (v : Nat) : (s.setFld g v).icpLast = s.icpLast := (rfl)
@[simp] theorem State.setFld_icpStatus (s : State) (g : Fld) (v : Nat) : (s.setFld g v).icpStatus = s.icpStatus := (rfl)
@[simp] theorem State.setFld_xng (s : State) (g : Fld) (v : Nat) : (s.setFld g v).xng = s.xng := (rfl)
@[simp] theorem State.setFld_fifo (s : State) (g : Fld) (v : Nat) : (s.setFld g v).fifo = s.fifo := (rfl)
@[simp] theorem State.setFld_hoist (s : State) (g : Fld) (v : Nat) : (s.setFld g v).hoist = s.hoist := (rfl)
@[simp] theorem State.setFld_load (s : State) (g : Fld) (v : Nat) : (s.setFld g v).load = s.load := (rfl)
@[simp] theorem State.setFld_hbuf (s : State) (g : Fld) (v : Nat) : (s.setFld g v).hbuf = s.hbuf := (rfl)
@[simp] theorem State.setFld_pcfg (s : State) (g : Fld) (v : Nat) : (s.setFld g v).pcfg = s.pcfg := (rfl)
@[simp] theorem State.setFld_fab (s : State) (g : Fld) (v : Nat) : (s.setFld g v).fab = s.fab := (rfl)
@[simp] theorem State.setFld_keys (s : State) (g : Fld) (v : Nat) : (s.setFld g v).keys = s.keys := (rfl)
@[simp] theorem State.setFld_bootCode (s : State) (g : Fld) (v : Nat) : (s.setFld g v).bootCode = s.bootCode := (rfl)
@[simp] theorem State.setFld_jtag (s : State) (g : Fld) (v : Nat) : (s.setFld g v).jtag = s.jtag := (rfl)
@[simp] theorem State.setFld_stayEntries (s : State) (g : Fld) (v : Nat) : (s.setFld g v).stayEntries = s.stayEntries := (rfl)
@[simp] theorem State.setFld_flash (s : State) (g : Fld) (v : Nat) : (s.setFld g v).flash = s.flash := (rfl)
@[simp] theorem State.setFld_sram (s : State) (g : Fld) (v : Nat) : (s.setFld g v).sram = s.sram := (rfl)
@[simp] theorem State.setFld_returned (s : State) (g : Fld) (v : Nat) : (s.setFld g v).returned = s.returned := (rfl)
@[simp] theorem State.setFld_xflash (s : State) (g : Fld) (v : Nat) : (s.setFld g v).xflash = s.xflash := (rfl)
@[simp] theorem State.setFld_xopen (s : State) (g : Fld) (v : Nat) : (s.setFld g v).xopen = s.xopen := (rfl)
@[simp] theorem State.setFld_upd (s : State) (g : Fld) (v : Nat) : (s.setFld g v).upd = s.upd := (rfl)
@[simp] theorem State.setFld_txsrc (s : State) (g : Fld) (v : Nat) : (s.setFld g v).txsrc = s.txsrc := (rfl)
@[simp] theorem State.setFld_lane (s : State) (g : Fld) (v : Nat) : (s.setFld g v).lane = s.lane := (rfl)
@[simp] theorem State.setFld_link (s : State) (g : Fld) (v : Nat) : (s.setFld g v).link = s.link := (rfl)
@[simp] theorem State.setFld_shroud (s : State) (g : Fld) (v : Nat) : (s.setFld g v).shroud = s.shroud := (rfl)
@[simp] theorem State.setFld_endpoint (s : State) (g : Fld) (v : Nat) : (s.setFld g v).endpoint = s.endpoint := (rfl)
@[simp] theorem State.setFld_stay (s : State) (g : Fld) (v : Nat) : (s.setFld g v).stay = s.stay := (rfl)
@[simp] theorem State.setFld_pwr (s : State) (g : Fld) (v : Nat) : (s.setFld g v).pwr = s.pwr := (rfl)
@[simp] theorem State.setFld_quiet (s : State) (g : Fld) (v : Nat) : (s.setFld g v).quiet = s.quiet := (rfl)
@[simp] theorem State.setFld_evline (s : State) (g : Fld) (v : Nat) : (s.setFld g v).evline = s.evline := (rfl)
@[simp] theorem State.setFld_vioBad (s : State) (g : Fld) (v : Nat) : (s.setFld g v).vioBad = s.vioBad := (rfl)
@[simp] theorem State.setFld_sup (s : State) (g : Fld) (v : Nat) : (s.setFld g v).sup = s.sup := (rfl)
@[simp] theorem State.setFld_dbg (s : State) (g : Fld) (v : Nat) : (s.setFld g v).dbg = s.dbg := (rfl)
@[simp] theorem State.setFld_host (s : State) (g : Fld) (v : Nat) : (s.setFld g v).host = s.host := (rfl)
@[simp] theorem State.setFld_mbox (s : State) (g : Fld) (v : Nat) : (s.setFld g v).mbox = s.mbox := (rfl)
@[simp] theorem State.setFld_mon (s : State) (g : Fld) (v : Nat) : (s.setFld g v).mon = s.mon := (rfl)
@[simp] theorem State.setFld_fresh (s : State) (g : Fld) (v : Nat) : (s.setFld g v).fresh = s.fresh := (rfl)
@[simp] theorem State.setFld_pending (s : State) (g : Fld) (v : Nat) : (s.setFld g v).pending = s.pending := (rfl)

/-! ### A wide write -/

@[simp] theorem State.setWide_paths (s : State) (a v : Nat) : (s.setWide a v).paths = s.paths := (rfl)
@[simp] theorem State.setWide_mast (s : State) (a v : Nat) : (s.setWide a v).mast = s.mast := (rfl)
@[simp] theorem State.setWide_win (s : State) (a v : Nat) : (s.setWide a v).win = s.win := (rfl)
@[simp] theorem State.setWide_errs (s : State) (a v : Nat) : (s.setWide a v).errs = s.errs := (rfl)
@[simp] theorem State.setWide_unkept (s : State) (a v : Nat) : (s.setWide a v).unkept = s.unkept := (rfl)
@[simp] theorem State.setWide_readData (s : State) (a v : Nat) : (s.setWide a v).readData = s.readData := (rfl)
@[simp] theorem State.setWide_reply (s : State) (a v : Nat) : (s.setWide a v).reply = s.reply := (rfl)
@[simp] theorem State.setWide_dev (s : State) (a v : Nat) : (s.setWide a v).dev = s.dev := (rfl)
@[simp] theorem State.setWide_dsc (s : State) (a v : Nat) : (s.setWide a v).dsc = s.dsc := (rfl)
@[simp] theorem State.setWide_cmp (s : State) (a v : Nat) : (s.setWide a v).cmp = s.cmp := (rfl)
@[simp] theorem State.setWide_frozenSince (s : State) (a v : Nat) : (s.setWide a v).frozenSince = s.frozenSince := (rfl)
@[simp] theorem State.setWide_cap (s : State) (a v : Nat) : (s.setWide a v).cap = s.cap := (rfl)
@[simp] theorem State.setWide_teq (s : State) (a v : Nat) : (s.setWide a v).teq = s.teq := (rfl)
@[simp] theorem State.setWide_sheet (s : State) (a v : Nat) : (s.setWide a v).sheet = s.sheet := (rfl)
@[simp] theorem State.setWide_stamp (s : State) (a v : Nat) : (s.setWide a v).stamp = s.stamp := (rfl)
@[simp] theorem State.setWide_panel (s : State) (a v : Nat) : (s.setWide a v).panel = s.panel := (rfl)
@[simp] theorem State.setWide_fences (s : State) (a v : Nat) : (s.setWide a v).fences = s.fences := (rfl)
@[simp] theorem State.setWide_fenceHeld (s : State) (a v : Nat) : (s.setWide a v).fenceHeld = s.fenceHeld := (rfl)
@[simp] theorem State.setWide_icpLast (s : State) (a v : Nat) : (s.setWide a v).icpLast = s.icpLast := (rfl)
@[simp] theorem State.setWide_icpStatus (s : State) (a v : Nat) : (s.setWide a v).icpStatus = s.icpStatus := (rfl)
@[simp] theorem State.setWide_xng (s : State) (a v : Nat) : (s.setWide a v).xng = s.xng := (rfl)
@[simp] theorem State.setWide_fifo (s : State) (a v : Nat) : (s.setWide a v).fifo = s.fifo := (rfl)
@[simp] theorem State.setWide_hoist (s : State) (a v : Nat) : (s.setWide a v).hoist = s.hoist := (rfl)
@[simp] theorem State.setWide_load (s : State) (a v : Nat) : (s.setWide a v).load = s.load := (rfl)
@[simp] theorem State.setWide_hbuf (s : State) (a v : Nat) : (s.setWide a v).hbuf = s.hbuf := (rfl)
@[simp] theorem State.setWide_pcfg (s : State) (a v : Nat) : (s.setWide a v).pcfg = s.pcfg := (rfl)
@[simp] theorem State.setWide_fab (s : State) (a v : Nat) : (s.setWide a v).fab = s.fab := (rfl)
@[simp] theorem State.setWide_keys (s : State) (a v : Nat) : (s.setWide a v).keys = s.keys := (rfl)
@[simp] theorem State.setWide_bootCode (s : State) (a v : Nat) : (s.setWide a v).bootCode = s.bootCode := (rfl)
@[simp] theorem State.setWide_jtag (s : State) (a v : Nat) : (s.setWide a v).jtag = s.jtag := (rfl)
@[simp] theorem State.setWide_stayEntries (s : State) (a v : Nat) : (s.setWide a v).stayEntries = s.stayEntries := (rfl)
@[simp] theorem State.setWide_flash (s : State) (a v : Nat) : (s.setWide a v).flash = s.flash := (rfl)
@[simp] theorem State.setWide_sram (s : State) (a v : Nat) : (s.setWide a v).sram = s.sram := (rfl)
@[simp] theorem State.setWide_returned (s : State) (a v : Nat) : (s.setWide a v).returned = s.returned := (rfl)
@[simp] theorem State.setWide_xflash (s : State) (a v : Nat) : (s.setWide a v).xflash = s.xflash := (rfl)
@[simp] theorem State.setWide_xopen (s : State) (a v : Nat) : (s.setWide a v).xopen = s.xopen := (rfl)
@[simp] theorem State.setWide_upd (s : State) (a v : Nat) : (s.setWide a v).upd = s.upd := (rfl)
@[simp] theorem State.setWide_txsrc (s : State) (a v : Nat) : (s.setWide a v).txsrc = s.txsrc := (rfl)
@[simp] theorem State.setWide_lane (s : State) (a v : Nat) : (s.setWide a v).lane = s.lane := (rfl)
@[simp] theorem State.setWide_link (s : State) (a v : Nat) : (s.setWide a v).link = s.link := (rfl)
@[simp] theorem State.setWide_shroud (s : State) (a v : Nat) : (s.setWide a v).shroud = s.shroud := (rfl)
@[simp] theorem State.setWide_endpoint (s : State) (a v : Nat) : (s.setWide a v).endpoint = s.endpoint := (rfl)
@[simp] theorem State.setWide_stay (s : State) (a v : Nat) : (s.setWide a v).stay = s.stay := (rfl)
@[simp] theorem State.setWide_pwr (s : State) (a v : Nat) : (s.setWide a v).pwr = s.pwr := (rfl)
@[simp] theorem State.setWide_quiet (s : State) (a v : Nat) : (s.setWide a v).quiet = s.quiet := (rfl)
@[simp] theorem State.setWide_evline (s : State) (a v : Nat) : (s.setWide a v).evline = s.evline := (rfl)
@[simp] theorem State.setWide_vioBad (s : State) (a v : Nat) : (s.setWide a v).vioBad = s.vioBad := (rfl)
@[simp] theorem State.setWide_sup (s : State) (a v : Nat) : (s.setWide a v).sup = s.sup := (rfl)
@[simp] theorem State.setWide_dbg (s : State) (a v : Nat) : (s.setWide a v).dbg = s.dbg := (rfl)
@[simp] theorem State.setWide_host (s : State) (a v : Nat) : (s.setWide a v).host = s.host := (rfl)
@[simp] theorem State.setWide_mbox (s : State) (a v : Nat) : (s.setWide a v).mbox = s.mbox := (rfl)
@[simp] theorem State.setWide_mon (s : State) (a v : Nat) : (s.setWide a v).mon = s.mon := (rfl)
@[simp] theorem State.setWide_fresh (s : State) (a v : Nat) : (s.setWide a v).fresh = s.fresh := (rfl)
@[simp] theorem State.setWide_pending (s : State) (a v : Nat) : (s.setWide a v).pending = s.pending := (rfl)

/-! ### What a path holds -/

@[simp] theorem State.setPath_regs (s : State) (p : Path) (x : PathState) : (s.setPath p x).regs = s.regs := (rfl)
@[simp] theorem State.setPath_mast (s : State) (p : Path) (x : PathState) : (s.setPath p x).mast = s.mast := (rfl)
@[simp] theorem State.setPath_win (s : State) (p : Path) (x : PathState) : (s.setPath p x).win = s.win := (rfl)
@[simp] theorem State.setPath_errs (s : State) (p : Path) (x : PathState) : (s.setPath p x).errs = s.errs := (rfl)
@[simp] theorem State.setPath_unkept (s : State) (p : Path) (x : PathState) : (s.setPath p x).unkept = s.unkept := (rfl)
@[simp] theorem State.setPath_readData (s : State) (p : Path) (x : PathState) : (s.setPath p x).readData = s.readData := (rfl)
@[simp] theorem State.setPath_reply (s : State) (p : Path) (x : PathState) : (s.setPath p x).reply = s.reply := (rfl)
@[simp] theorem State.setPath_dev (s : State) (p : Path) (x : PathState) : (s.setPath p x).dev = s.dev := (rfl)
@[simp] theorem State.setPath_dsc (s : State) (p : Path) (x : PathState) : (s.setPath p x).dsc = s.dsc := (rfl)
@[simp] theorem State.setPath_cmp (s : State) (p : Path) (x : PathState) : (s.setPath p x).cmp = s.cmp := (rfl)
@[simp] theorem State.setPath_frozenSince (s : State) (p : Path) (x : PathState) : (s.setPath p x).frozenSince = s.frozenSince := (rfl)
@[simp] theorem State.setPath_cap (s : State) (p : Path) (x : PathState) : (s.setPath p x).cap = s.cap := (rfl)
@[simp] theorem State.setPath_teq (s : State) (p : Path) (x : PathState) : (s.setPath p x).teq = s.teq := (rfl)
@[simp] theorem State.setPath_sheet (s : State) (p : Path) (x : PathState) : (s.setPath p x).sheet = s.sheet := (rfl)
@[simp] theorem State.setPath_stamp (s : State) (p : Path) (x : PathState) : (s.setPath p x).stamp = s.stamp := (rfl)
@[simp] theorem State.setPath_panel (s : State) (p : Path) (x : PathState) : (s.setPath p x).panel = s.panel := (rfl)
@[simp] theorem State.setPath_fences (s : State) (p : Path) (x : PathState) : (s.setPath p x).fences = s.fences := (rfl)
@[simp] theorem State.setPath_fenceHeld (s : State) (p : Path) (x : PathState) : (s.setPath p x).fenceHeld = s.fenceHeld := (rfl)
@[simp] theorem State.setPath_icpLast (s : State) (p : Path) (x : PathState) : (s.setPath p x).icpLast = s.icpLast := (rfl)
@[simp] theorem State.setPath_icpStatus (s : State) (p : Path) (x : PathState) : (s.setPath p x).icpStatus = s.icpStatus := (rfl)
@[simp] theorem State.setPath_xng (s : State) (p : Path) (x : PathState) : (s.setPath p x).xng = s.xng := (rfl)
@[simp] theorem State.setPath_fifo (s : State) (p : Path) (x : PathState) : (s.setPath p x).fifo = s.fifo := (rfl)
@[simp] theorem State.setPath_hoist (s : State) (p : Path) (x : PathState) : (s.setPath p x).hoist = s.hoist := (rfl)
@[simp] theorem State.setPath_load (s : State) (p : Path) (x : PathState) : (s.setPath p x).load = s.load := (rfl)
@[simp] theorem State.setPath_hbuf (s : State) (p : Path) (x : PathState) : (s.setPath p x).hbuf = s.hbuf := (rfl)
@[simp] theorem State.setPath_pcfg (s : State) (p : Path) (x : PathState) : (s.setPath p x).pcfg = s.pcfg := (rfl)
@[simp] theorem State.setPath_fab (s : State) (p : Path) (x : PathState) : (s.setPath p x).fab = s.fab := (rfl)
@[simp] theorem State.setPath_keys (s : State) (p : Path) (x : PathState) : (s.setPath p x).keys = s.keys := (rfl)
@[simp] theorem State.setPath_bootCode (s : State) (p : Path) (x : PathState) : (s.setPath p x).bootCode = s.bootCode := (rfl)
@[simp] theorem State.setPath_jtag (s : State) (p : Path) (x : PathState) : (s.setPath p x).jtag = s.jtag := (rfl)
@[simp] theorem State.setPath_stayEntries (s : State) (p : Path) (x : PathState) : (s.setPath p x).stayEntries = s.stayEntries := (rfl)
@[simp] theorem State.setPath_flash (s : State) (p : Path) (x : PathState) : (s.setPath p x).flash = s.flash := (rfl)
@[simp] theorem State.setPath_sram (s : State) (p : Path) (x : PathState) : (s.setPath p x).sram = s.sram := (rfl)
@[simp] theorem State.setPath_returned (s : State) (p : Path) (x : PathState) : (s.setPath p x).returned = s.returned := (rfl)
@[simp] theorem State.setPath_xflash (s : State) (p : Path) (x : PathState) : (s.setPath p x).xflash = s.xflash := (rfl)
@[simp] theorem State.setPath_xopen (s : State) (p : Path) (x : PathState) : (s.setPath p x).xopen = s.xopen := (rfl)
@[simp] theorem State.setPath_upd (s : State) (p : Path) (x : PathState) : (s.setPath p x).upd = s.upd := (rfl)
@[simp] theorem State.setPath_txsrc (s : State) (p : Path) (x : PathState) : (s.setPath p x).txsrc = s.txsrc := (rfl)
@[simp] theorem State.setPath_lane (s : State) (p : Path) (x : PathState) : (s.setPath p x).lane = s.lane := (rfl)
@[simp] theorem State.setPath_link (s : State) (p : Path) (x : PathState) : (s.setPath p x).link = s.link := (rfl)
@[simp] theorem State.setPath_shroud (s : State) (p : Path) (x : PathState) : (s.setPath p x).shroud = s.shroud := (rfl)
@[simp] theorem State.setPath_endpoint (s : State) (p : Path) (x : PathState) : (s.setPath p x).endpoint = s.endpoint := (rfl)
@[simp] theorem State.setPath_stay (s : State) (p : Path) (x : PathState) : (s.setPath p x).stay = s.stay := (rfl)
@[simp] theorem State.setPath_pwr (s : State) (p : Path) (x : PathState) : (s.setPath p x).pwr = s.pwr := (rfl)
@[simp] theorem State.setPath_quiet (s : State) (p : Path) (x : PathState) : (s.setPath p x).quiet = s.quiet := (rfl)
@[simp] theorem State.setPath_evline (s : State) (p : Path) (x : PathState) : (s.setPath p x).evline = s.evline := (rfl)
@[simp] theorem State.setPath_vioBad (s : State) (p : Path) (x : PathState) : (s.setPath p x).vioBad = s.vioBad := (rfl)
@[simp] theorem State.setPath_sup (s : State) (p : Path) (x : PathState) : (s.setPath p x).sup = s.sup := (rfl)
@[simp] theorem State.setPath_dbg (s : State) (p : Path) (x : PathState) : (s.setPath p x).dbg = s.dbg := (rfl)
@[simp] theorem State.setPath_host (s : State) (p : Path) (x : PathState) : (s.setPath p x).host = s.host := (rfl)
@[simp] theorem State.setPath_mbox (s : State) (p : Path) (x : PathState) : (s.setPath p x).mbox = s.mbox := (rfl)
@[simp] theorem State.setPath_mon (s : State) (p : Path) (x : PathState) : (s.setPath p x).mon = s.mon := (rfl)
@[simp] theorem State.setPath_fresh (s : State) (p : Path) (x : PathState) : (s.setPath p x).fresh = s.fresh := (rfl)
@[simp] theorem State.setPath_pending (s : State) (p : Path) (x : PathState) : (s.setPath p x).pending = s.pending := (rfl)

/-! ### A value left open -/

@[simp] theorem State.open_regs (s : State) : s.open_.2.regs = s.regs := (rfl)
@[simp] theorem State.open_paths (s : State) : s.open_.2.paths = s.paths := (rfl)
@[simp] theorem State.open_mast (s : State) : s.open_.2.mast = s.mast := (rfl)
@[simp] theorem State.open_win (s : State) : s.open_.2.win = s.win := (rfl)
@[simp] theorem State.open_errs (s : State) : s.open_.2.errs = s.errs := (rfl)
@[simp] theorem State.open_unkept (s : State) : s.open_.2.unkept = s.unkept := (rfl)
@[simp] theorem State.open_readData (s : State) : s.open_.2.readData = s.readData := (rfl)
@[simp] theorem State.open_reply (s : State) : s.open_.2.reply = s.reply := (rfl)
@[simp] theorem State.open_dev (s : State) : s.open_.2.dev = s.dev := (rfl)
@[simp] theorem State.open_dsc (s : State) : s.open_.2.dsc = s.dsc := (rfl)
@[simp] theorem State.open_cmp (s : State) : s.open_.2.cmp = s.cmp := (rfl)
@[simp] theorem State.open_frozenSince (s : State) : s.open_.2.frozenSince = s.frozenSince := (rfl)
@[simp] theorem State.open_cap (s : State) : s.open_.2.cap = s.cap := (rfl)
@[simp] theorem State.open_teq (s : State) : s.open_.2.teq = s.teq := (rfl)
@[simp] theorem State.open_sheet (s : State) : s.open_.2.sheet = s.sheet := (rfl)
@[simp] theorem State.open_stamp (s : State) : s.open_.2.stamp = s.stamp := (rfl)
@[simp] theorem State.open_panel (s : State) : s.open_.2.panel = s.panel := (rfl)
@[simp] theorem State.open_fences (s : State) : s.open_.2.fences = s.fences := (rfl)
@[simp] theorem State.open_fenceHeld (s : State) : s.open_.2.fenceHeld = s.fenceHeld := (rfl)
@[simp] theorem State.open_icpLast (s : State) : s.open_.2.icpLast = s.icpLast := (rfl)
@[simp] theorem State.open_icpStatus (s : State) : s.open_.2.icpStatus = s.icpStatus := (rfl)
@[simp] theorem State.open_xng (s : State) : s.open_.2.xng = s.xng := (rfl)
@[simp] theorem State.open_fifo (s : State) : s.open_.2.fifo = s.fifo := (rfl)
@[simp] theorem State.open_hoist (s : State) : s.open_.2.hoist = s.hoist := (rfl)
@[simp] theorem State.open_load (s : State) : s.open_.2.load = s.load := (rfl)
@[simp] theorem State.open_hbuf (s : State) : s.open_.2.hbuf = s.hbuf := (rfl)
@[simp] theorem State.open_pcfg (s : State) : s.open_.2.pcfg = s.pcfg := (rfl)
@[simp] theorem State.open_fab (s : State) : s.open_.2.fab = s.fab := (rfl)
@[simp] theorem State.open_keys (s : State) : s.open_.2.keys = s.keys := (rfl)
@[simp] theorem State.open_bootCode (s : State) : s.open_.2.bootCode = s.bootCode := (rfl)
@[simp] theorem State.open_jtag (s : State) : s.open_.2.jtag = s.jtag := (rfl)
@[simp] theorem State.open_stayEntries (s : State) : s.open_.2.stayEntries = s.stayEntries := (rfl)
@[simp] theorem State.open_flash (s : State) : s.open_.2.flash = s.flash := (rfl)
@[simp] theorem State.open_sram (s : State) : s.open_.2.sram = s.sram := (rfl)
@[simp] theorem State.open_returned (s : State) : s.open_.2.returned = s.returned := (rfl)
@[simp] theorem State.open_xflash (s : State) : s.open_.2.xflash = s.xflash := (rfl)
@[simp] theorem State.open_xopen (s : State) : s.open_.2.xopen = s.xopen := (rfl)
@[simp] theorem State.open_upd (s : State) : s.open_.2.upd = s.upd := (rfl)
@[simp] theorem State.open_txsrc (s : State) : s.open_.2.txsrc = s.txsrc := (rfl)
@[simp] theorem State.open_lane (s : State) : s.open_.2.lane = s.lane := (rfl)
@[simp] theorem State.open_link (s : State) : s.open_.2.link = s.link := (rfl)
@[simp] theorem State.open_shroud (s : State) : s.open_.2.shroud = s.shroud := (rfl)
@[simp] theorem State.open_endpoint (s : State) : s.open_.2.endpoint = s.endpoint := (rfl)
@[simp] theorem State.open_stay (s : State) : s.open_.2.stay = s.stay := (rfl)
@[simp] theorem State.open_pwr (s : State) : s.open_.2.pwr = s.pwr := (rfl)
@[simp] theorem State.open_quiet (s : State) : s.open_.2.quiet = s.quiet := (rfl)
@[simp] theorem State.open_evline (s : State) : s.open_.2.evline = s.evline := (rfl)
@[simp] theorem State.open_vioBad (s : State) : s.open_.2.vioBad = s.vioBad := (rfl)
@[simp] theorem State.open_sup (s : State) : s.open_.2.sup = s.sup := (rfl)
@[simp] theorem State.open_dbg (s : State) : s.open_.2.dbg = s.dbg := (rfl)
@[simp] theorem State.open_host (s : State) : s.open_.2.host = s.host := (rfl)
@[simp] theorem State.open_mbox (s : State) : s.open_.2.mbox = s.mbox := (rfl)
@[simp] theorem State.open_mon (s : State) : s.open_.2.mon = s.mon := (rfl)
@[simp] theorem State.open_pending (s : State) : s.open_.2.pending = s.pending := (rfl)

/-! ### Logging a code (spec/19_supervisor_and_host.md R974-R976) -/


@[simp] theorem State.log_paths (s : State) (c d : Nat) : (s.log c d).paths = s.paths := by
  unfold State.log State.fillErrs; dsimp only [State.holdErrs]; repeat' (first | rfl | split)
@[simp] theorem State.log_mast (s : State) (c d : Nat) : (s.log c d).mast = s.mast := by
  unfold State.log State.fillErrs; dsimp only [State.holdErrs]; repeat' (first | rfl | split)
@[simp] theorem State.log_readData (s : State) (c d : Nat) : (s.log c d).readData = s.readData := by
  unfold State.log State.fillErrs; dsimp only [State.holdErrs]; repeat' (first | rfl | split)
@[simp] theorem State.log_reply (s : State) (c d : Nat) : (s.log c d).reply = s.reply := by
  unfold State.log State.fillErrs; dsimp only [State.holdErrs]; repeat' (first | rfl | split)
@[simp] theorem State.log_dev (s : State) (c d : Nat) : (s.log c d).dev = s.dev := by
  unfold State.log State.fillErrs; dsimp only [State.holdErrs]; repeat' (first | rfl | split)
@[simp] theorem State.log_dsc (s : State) (c d : Nat) : (s.log c d).dsc = s.dsc := by
  unfold State.log State.fillErrs; dsimp only [State.holdErrs]; repeat' (first | rfl | split)
@[simp] theorem State.log_cmp (s : State) (c d : Nat) : (s.log c d).cmp = s.cmp := by
  unfold State.log State.fillErrs; dsimp only [State.holdErrs]; repeat' (first | rfl | split)
@[simp] theorem State.log_frozenSince (s : State) (c d : Nat) : (s.log c d).frozenSince = s.frozenSince := by
  unfold State.log State.fillErrs; dsimp only [State.holdErrs]; repeat' (first | rfl | split)
@[simp] theorem State.log_cap (s : State) (c d : Nat) : (s.log c d).cap = s.cap := by
  unfold State.log State.fillErrs; dsimp only [State.holdErrs]; repeat' (first | rfl | split)
@[simp] theorem State.log_teq (s : State) (c d : Nat) : (s.log c d).teq = s.teq := by
  unfold State.log State.fillErrs; dsimp only [State.holdErrs]; repeat' (first | rfl | split)
@[simp] theorem State.log_sheet (s : State) (c d : Nat) : (s.log c d).sheet = s.sheet := by
  unfold State.log State.fillErrs; dsimp only [State.holdErrs]; repeat' (first | rfl | split)
@[simp] theorem State.log_stamp (s : State) (c d : Nat) : (s.log c d).stamp = s.stamp := by
  unfold State.log State.fillErrs; dsimp only [State.holdErrs]; repeat' (first | rfl | split)
@[simp] theorem State.log_panel (s : State) (c d : Nat) : (s.log c d).panel = s.panel := by
  unfold State.log State.fillErrs; dsimp only [State.holdErrs]; repeat' (first | rfl | split)
@[simp] theorem State.log_fences (s : State) (c d : Nat) : (s.log c d).fences = s.fences := by
  unfold State.log State.fillErrs; dsimp only [State.holdErrs]; repeat' (first | rfl | split)
@[simp] theorem State.log_fenceHeld (s : State) (c d : Nat) : (s.log c d).fenceHeld = s.fenceHeld := by
  unfold State.log State.fillErrs; dsimp only [State.holdErrs]; repeat' (first | rfl | split)
@[simp] theorem State.log_icpLast (s : State) (c d : Nat) : (s.log c d).icpLast = s.icpLast := by
  unfold State.log State.fillErrs; dsimp only [State.holdErrs]; repeat' (first | rfl | split)
@[simp] theorem State.log_icpStatus (s : State) (c d : Nat) : (s.log c d).icpStatus = s.icpStatus := by
  unfold State.log State.fillErrs; dsimp only [State.holdErrs]; repeat' (first | rfl | split)
@[simp] theorem State.log_xng (s : State) (c d : Nat) : (s.log c d).xng = s.xng := by
  unfold State.log State.fillErrs; dsimp only [State.holdErrs]; repeat' (first | rfl | split)
@[simp] theorem State.log_fifo (s : State) (c d : Nat) : (s.log c d).fifo = s.fifo := by
  unfold State.log State.fillErrs; dsimp only [State.holdErrs]; repeat' (first | rfl | split)
@[simp] theorem State.log_hoist (s : State) (c d : Nat) : (s.log c d).hoist = s.hoist := by
  unfold State.log State.fillErrs; dsimp only [State.holdErrs]; repeat' (first | rfl | split)
@[simp] theorem State.log_load (s : State) (c d : Nat) : (s.log c d).load = s.load := by
  unfold State.log State.fillErrs; dsimp only [State.holdErrs]; repeat' (first | rfl | split)
@[simp] theorem State.log_hbuf (s : State) (c d : Nat) : (s.log c d).hbuf = s.hbuf := by
  unfold State.log State.fillErrs; dsimp only [State.holdErrs]; repeat' (first | rfl | split)
@[simp] theorem State.log_pcfg (s : State) (c d : Nat) : (s.log c d).pcfg = s.pcfg := by
  unfold State.log State.fillErrs; dsimp only [State.holdErrs]; repeat' (first | rfl | split)
@[simp] theorem State.log_fab (s : State) (c d : Nat) : (s.log c d).fab = s.fab := by
  unfold State.log State.fillErrs; dsimp only [State.holdErrs]; repeat' (first | rfl | split)
@[simp] theorem State.log_keys (s : State) (c d : Nat) : (s.log c d).keys = s.keys := by
  unfold State.log State.fillErrs; dsimp only [State.holdErrs]; repeat' (first | rfl | split)
@[simp] theorem State.log_jtag (s : State) (c d : Nat) : (s.log c d).jtag = s.jtag := by
  unfold State.log State.fillErrs; dsimp only [State.holdErrs]; repeat' (first | rfl | split)
@[simp] theorem State.log_stayEntries (s : State) (c d : Nat) : (s.log c d).stayEntries = s.stayEntries := by
  unfold State.log State.fillErrs; dsimp only [State.holdErrs]; repeat' (first | rfl | split)
@[simp] theorem State.log_flash (s : State) (c d : Nat) : (s.log c d).flash = s.flash := by
  unfold State.log State.fillErrs; dsimp only [State.holdErrs]; repeat' (first | rfl | split)
@[simp] theorem State.log_sram (s : State) (c d : Nat) : (s.log c d).sram = s.sram := by
  unfold State.log State.fillErrs; dsimp only [State.holdErrs]; repeat' (first | rfl | split)
@[simp] theorem State.log_returned (s : State) (c d : Nat) : (s.log c d).returned = s.returned := by
  unfold State.log State.fillErrs; dsimp only [State.holdErrs]; repeat' (first | rfl | split)
@[simp] theorem State.log_xflash (s : State) (c d : Nat) : (s.log c d).xflash = s.xflash := by
  unfold State.log State.fillErrs; dsimp only [State.holdErrs]; repeat' (first | rfl | split)
@[simp] theorem State.log_xopen (s : State) (c d : Nat) : (s.log c d).xopen = s.xopen := by
  unfold State.log State.fillErrs; dsimp only [State.holdErrs]; repeat' (first | rfl | split)
@[simp] theorem State.log_upd (s : State) (c d : Nat) : (s.log c d).upd = s.upd := by
  unfold State.log State.fillErrs; dsimp only [State.holdErrs]; repeat' (first | rfl | split)
@[simp] theorem State.log_txsrc (s : State) (c d : Nat) : (s.log c d).txsrc = s.txsrc := by
  unfold State.log State.fillErrs; dsimp only [State.holdErrs]; repeat' (first | rfl | split)
@[simp] theorem State.log_lane (s : State) (c d : Nat) : (s.log c d).lane = s.lane := by
  unfold State.log State.fillErrs; dsimp only [State.holdErrs]; repeat' (first | rfl | split)
@[simp] theorem State.log_link (s : State) (c d : Nat) : (s.log c d).link = s.link := by
  unfold State.log State.fillErrs; dsimp only [State.holdErrs]; repeat' (first | rfl | split)
@[simp] theorem State.log_shroud (s : State) (c d : Nat) : (s.log c d).shroud = s.shroud := by
  unfold State.log State.fillErrs; dsimp only [State.holdErrs]; repeat' (first | rfl | split)
@[simp] theorem State.log_endpoint (s : State) (c d : Nat) : (s.log c d).endpoint = s.endpoint := by
  unfold State.log State.fillErrs; dsimp only [State.holdErrs]; repeat' (first | rfl | split)
@[simp] theorem State.log_stay (s : State) (c d : Nat) : (s.log c d).stay = s.stay := by
  unfold State.log State.fillErrs; dsimp only [State.holdErrs]; repeat' (first | rfl | split)
@[simp] theorem State.log_pwr (s : State) (c d : Nat) : (s.log c d).pwr = s.pwr := by
  unfold State.log State.fillErrs; dsimp only [State.holdErrs]; repeat' (first | rfl | split)
@[simp] theorem State.log_quiet (s : State) (c d : Nat) : (s.log c d).quiet = s.quiet := by
  unfold State.log State.fillErrs; dsimp only [State.holdErrs]; repeat' (first | rfl | split)
@[simp] theorem State.log_evline (s : State) (c d : Nat) : (s.log c d).evline = s.evline := by
  unfold State.log State.fillErrs; dsimp only [State.holdErrs]; repeat' (first | rfl | split)
@[simp] theorem State.log_vioBad (s : State) (c d : Nat) : (s.log c d).vioBad = s.vioBad := by
  unfold State.log State.fillErrs; dsimp only [State.holdErrs]; repeat' (first | rfl | split)
@[simp] theorem State.log_sup (s : State) (c d : Nat) : (s.log c d).sup = s.sup := by
  unfold State.log State.fillErrs; dsimp only [State.holdErrs]; repeat' (first | rfl | split)
@[simp] theorem State.log_dbg (s : State) (c d : Nat) : (s.log c d).dbg = s.dbg := by
  unfold State.log State.fillErrs; dsimp only [State.holdErrs]; repeat' (first | rfl | split)
@[simp] theorem State.log_host (s : State) (c d : Nat) : (s.log c d).host = s.host := by
  unfold State.log State.fillErrs; dsimp only [State.holdErrs]; repeat' (first | rfl | split)
@[simp] theorem State.log_mbox (s : State) (c d : Nat) : (s.log c d).mbox = s.mbox := by
  unfold State.log State.fillErrs; dsimp only [State.holdErrs]; repeat' (first | rfl | split)
@[simp] theorem State.log_mon (s : State) (c d : Nat) : (s.log c d).mon = s.mon := by
  unfold State.log State.fillErrs; dsimp only [State.holdErrs]; repeat' (first | rfl | split)
@[simp] theorem State.log_fresh (s : State) (c d : Nat) : (s.log c d).fresh = s.fresh := by
  unfold State.log State.fillErrs; dsimp only [State.holdErrs]; repeat' (first | rfl | split)
@[simp] theorem State.log_pending (s : State) (c d : Nat) : (s.log c d).pending = s.pending := by
  unfold State.log State.fillErrs; dsimp only [State.holdErrs]; repeat' (first | rfl | split)
/-- Of the window only what it logged changes. -/
theorem State.log_win (s : State) (c d : Nat) :
    { (s.log c d).win with logged := s.win.logged, pushed := s.win.pushed } = s.win := by
  unfold State.log State.fillErrs; dsimp only [State.holdErrs]; repeat' (first | rfl | split)

theorem State.reg_showErrs_ne (s : State) {a : Nat} (h : a ≠ F.ERR_STATUS) : s.showErrs.reg a = s.reg a := by
  simp only [State.showErrs, State.setBit_eq]
  rw [State.reg_setFld_ne _ _ h, State.reg_setFld_ne _ _ h]

theorem State.reg_errLost_ne (s : State) {a : Nat} (h3 : a ≠ F.ERR_DROPPED) : s.errLost.reg a = s.reg a := by
  simp only [State.errLost, State.addSat]
  rw [State.reg_setFld_ne _ _ h3]; rfl

theorem State.reg_fillErrs_ne (s : State) (b e : List ErrEntry) {a : Nat} (h2 : a ≠ F.ERR_STATUS) (h4 : a ≠ F.MON_EVENT) :
    (s.fillErrs b e).reg a = s.reg a := by
  have h0 : (s.holdErrs b e).reg a = s.reg a := rfl
  unfold State.fillErrs
  dsimp only
  split <;> split <;> (try simp only [State.raise_eq]) <;> repeat (first | exact h0 | rw [State.reg_setFld_ne _ _ h4] | rw [State.reg_showErrs_ne _ h2])

theorem State.reg_seqNext_ne (s : State) (c : Nat) {a : Nat} (h1 : a ≠ F.ERR_NEXT_SEQ) : (s.seqNext c).reg a = s.reg a :=
  s.reg_setFld_ne _ h1

/-- Every other register reads as before. -/
theorem State.reg_log (s : State) (c d : Nat) {a : Nat} (h : a ∉ collectorRegs) : (s.log c d).reg a = s.reg a := by
  simp only [collectorRegs, List.mem_cons, List.not_mem_nil, or_false, not_or] at h
  obtain ⟨h1, h2, h3, h4⟩ := h
  unfold State.log
  dsimp only
  split
  · rw [State.reg_errLost_ne _ h3, State.reg_fillErrs_ne _ _ _ h2 h4, State.reg_seqNext_ne _ _ h1]
  · rw [State.reg_fillErrs_ne _ _ _ h2 h4, State.reg_seqNext_ne _ _ h1]

theorem State.fld_log (s : State) (c d : Nat) {f : Fld} (h : f.addr ∉ collectorRegs) : (s.log c d).fld f = s.fld f :=
  State.fld_of_reg (s.reg_log c d h)

theorem State.wide_log (s : State) (c d : Nat) {a : Nat} (h : a ∉ collectorRegs) (h4 : a + 4 ∉ collectorRegs) :
    (s.log c d).wide a = s.wide a := by
  rw [State.wide, s.reg_log c d h, s.reg_log c d h4, State.wide]

/-- Nothing has been logged in this window. -/
abbrev State.quietWindow (s : State) : Prop := s.win.logged = [] ∧ s.win.pushed = []

/-- The errs of a log. -/
theorem State.errs_log (s : State) (c d : Nat) :
    (s.log c d).errs = keptErrs (s.seqNext c).overwrites (s.errsBefore ++ insertErr s.win.logged (s.entryFor c d)) := by
  unfold State.log State.fillErrs; dsimp only [State.holdErrs]; repeat' (first | rfl | split)

/-- In a quiet window the collector's entries are those before, then the new one. -/
theorem State.errsBefore_quiet (s : State) (q : s.quietWindow) : s.errsBefore = s.errs := by
  simp [State.errsBefore, q.1, q.2]

theorem insertErr_nil (e : ErrEntry) : insertErr [] e = [e] := (rfl)

/-- With room in the collector the new entry is the youngest (R974). -/
theorem State.errs_log_room (s : State) (c d : Nat) (q : s.quietWindow) (h : s.errs.length < 64) :
    (s.log c d).errs = s.errs ++ [s.entryFor c d] := by
  rw [State.errs_log, State.errsBefore_quiet _ q, q.1, insertErr_nil]
  unfold keptErrs
  split
  · have k : (s.errs ++ [s.entryFor c d]).length - 64 = 0 := by simp only [List.length_append, List.length_singleton]; omega
    rw [k]; rfl
  · exact List.take_of_length_le (by simp; omega)

/-- A full collector keeps its oldest entries, unless ERR_OVERWRITE is in force (R974, R976). -/
theorem State.errs_log_full (s : State) (c d : Nat) (q : s.quietWindow) (h : s.errs.length = 64) (hf : (s.seqNext c).overwrites = false) :
    (s.log c d).errs = s.errs := by
  rw [State.errs_log, State.errsBefore_quiet _ q, q.1, insertErr_nil, hf]
  exact List.take_left' h

/-- ERR_NEXT_SEQ counts every code, kept or not (R976). -/
theorem State.seq_log (s : State) (c d : Nat) :
    (s.log c d).fld F.ERR_NEXT_SEQ_SEQ = (s.fld F.ERR_NEXT_SEQ_SEQ + 1) % 2 ^ 16 := by
  have h0 : (s.log c d).reg F.ERR_NEXT_SEQ = (s.seqNext c).reg F.ERR_NEXT_SEQ := by
    unfold State.log
    dsimp only
    split
    · rw [State.reg_errLost_ne _ (by decide), State.reg_fillErrs_ne _ _ _ (by decide) (by decide)]
    · rw [State.reg_fillErrs_ne _ _ _ (by decide) (by decide)]
  rw [State.fld_of_reg (s := s.seqNext c) h0]
  exact s.fld_setFld_self _ (by decide)

end Sys2Proof.Machine
end

