-- ==== Sys2Proof/Laws/Frames.lean ====
section
/-! SUPPORT. How a frame is walked: what each write of the register file, and a log, does to the fields outside a list; and how a command
that answers is shown to run. -/

namespace Sys2Proof

open Sys2Proof.Machine

/-- With the register space open a command of it acts. -/
theorem whenOpen_of_open {s : State} (h : Open s) (t : State) : whenOpen s t = .next t := by
  unfold whenOpen
  rw [if_pos h]

/-- A command that answers a state runs with all that holds of it. -/
theorem Runs.intro {c : Instr} {s t : State} {post : State → Prop} (h : exec c s = .next t) (k : post t) : Runs c s post := ⟨t, h, k⟩

theorem OnlyFields.refl (fs : List Fld) (s : State) : OnlyFields fs s s := fun _ _ => rfl

theorem OnlyFields.trans {fs : List Fld} {s t u : State} (h : OnlyFields fs s t) (k : OnlyFields fs t u) : OnlyFields fs s u :=
  fun g hg => (k g hg).trans (h g hg)

/-- More fields may change. -/
theorem OnlyFields.mono {fs gs : List Fld} {s t : State} (h : OnlyFields fs s t) (hs : ∀ f ∈ fs, f ∈ gs) : OnlyFields gs s t :=
  fun g hg => h g fun f hf => hg f (hs f hf)

/-- A write of a field that lies within one of the list. -/
theorem OnlyFields.setFld {fs : List Fld} {s t : State} {f : Fld} {v : Nat} (h : OnlyFields fs s t) (hf : f.lo + f.width ≤ 32)
    (hm : ∃ e ∈ fs, e.addr = f.addr ∧ e.lo ≤ f.lo ∧ f.lo + f.width ≤ e.lo + e.width) : OnlyFields fs s (t.setFld f v) := by
  intro g hg
  obtain ⟨e, he, ha, h1, h2⟩ := hm
  rw [← h g hg]
  rcases hg e he with k | k | k
  · exact t.fld_setFld_ne v (by omega)
  · exact t.fld_setFld_disjoint v hf (by omega)
  · exact t.fld_setFld_disjoint v hf (by omega)

/-- A field of no bits, or past bit 31, reads 0 of every word. -/
theorem fld_of_whole {g : Fld} {a : Nat} {s t : State} (h : g.addr = a) (k : g.lo + g.width ≤ 0 ∨ 32 ≤ g.lo ∨ t.reg a = s.reg a) :
    t.fld g = s.fld g := by
  subst h
  rcases k with k | k | k
  · have : g.width = 0 := by omega
    simp [State.fld, this, Nat.mod_one]
  · have z : ∀ w : Word, w.toNat / 2 ^ g.lo = 0 := fun w =>
      Nat.div_eq_of_lt (lt_of_lt_of_le w.isLt (Nat.pow_le_pow_right (by decide) k))
    simp [State.fld, z]
  · exact State.fld_of_reg k

/-- A write of a register that the list holds whole. -/
theorem OnlyFields.setReg {fs : List Fld} {s t : State} {a : Nat} {v : Word} (h : OnlyFields fs s t) (hm : whole a ∈ fs) :
    OnlyFields fs s (t.setReg a v) := by
  intro g hg
  rw [← h g hg]
  by_cases ha : g.addr = a
  · refine fld_of_whole ha ?_
    rcases hg _ hm with k | k | k
    · exact absurd ha k
    · exact .inl k
    · exact .inr (.inl (by simpa [whole] using k))
  · exact t.fld_setReg_ne v ha

/-- A write of a wide register that the list holds whole. -/
theorem OnlyFields.setWide {fs : List Fld} {s t : State} {a v : Nat} (h : OnlyFields fs s t) (hl : whole a ∈ fs)
    (hh : whole (a + 4) ∈ fs) : OnlyFields fs s (t.setWide a v) := (h.setReg hl).setReg hh

/-- A log, where the list holds the collector's registers. -/
theorem OnlyFields.log {fs : List Fld} {s t : State} {c d : Nat} (h : OnlyFields fs s t) (hm : ∀ f ∈ collectorFields, f ∈ fs) :
    OnlyFields fs s (t.log c d) := by
  intro g hg
  rw [← h g hg]
  by_cases hc : g.addr ∈ collectorRegs
  · refine fld_of_whole rfl ?_
    have hw : whole g.addr ∈ collectorFields := List.mem_map.2 ⟨_, hc, rfl⟩
    rcases hg _ (hm _ hw) with k | k | k
    · exact absurd rfl k
    · exact .inl k
    · exact .inr (.inl (by simpa [whole] using k))
  · exact t.fld_log c d hc

/-- A change of state that leaves the register file. -/
theorem OnlyFields.of_regs {fs : List Fld} {s t u : State} (h : OnlyFields fs s t) (e : u.regs = t.regs) : OnlyFields fs s u := by
  intro g hg
  rw [← h g hg]
  exact State.fld_of_reg (by rw [State.reg, e, State.reg])

end Sys2Proof
end

