-- ==== Sys2Proof/Laws/KeepsOps.lean ====
section
/-! SUPPORT. What the definitions of Ops leave as they are: the waiting commands and the fuse words. -/

namespace Sys2Proof.Machine

open Sys2Proof

set_option simprocs false
set_option linter.unusedSimpArgs false
set_option linter.all false

/-- A property of the waiting commands and the fuse words. -/
abbrev Parts := List Instr → Table Nat → Prop

/-- A property of the two parts, of a state. -/
def At (Q : Parts) (t : State) : Prop := Q t.pending t.keys.fuse

/-- A property of the two parts, of parts given. -/
def AtParts (Q : Parts) (p : List Instr) (f : Table Nat) : Prop := Q p f

/-- A state that agrees with another in the two parts can stand for it. -/
theorem at_congr (Q : Parts) (t u : State) (h : u.pending = t.pending) (k : u.keys.fuse = t.keys.fuse) : At Q u = At Q t := by
  unfold At; rw [h, k]

/-- A state given part by part. -/
theorem same_mk (Q : Parts)
    (v0 : Table Word) (v1 : Table PathState) (v2 : MastUnit) (v3 : WindowUnit) (v4 : List ErrEntry) (v5 : Nat) (v6 :
    Word) (v7 : List Byte) (v8 : DeviceUnit) (v9 : DscUnit) (v10 : Table CmpUnit) (v11 : Table (Option Nat)) (v12 :
    Table CapUnit) (v13 : Table (List Dword)) (v14 : Table SheetUnit) (v15 : Table StampUnit) (v16 : Table
    PanelUnit) (v17 : List Fence) (v18 : Table (Option Dword)) (v19 : Option Nat) (v20 : List Dword) (v21 : Table
    Crossing) (v22 : Table FifoEngine) (v23 : HoistUnit) (v24 : LoadUnit) (v25 : List Word) (v26 : Memory) (v27 :
    FabUnit) (v28 : KeyUnit) (v29 : Nat) (v30 : JtagUnit) (v31 : List (Nat × Nat × Nat × Nat)) (v32 : FlashUnit)
    (v33 : Memory) (v34 : List Word) (v35 : Memory) (v36 : Table (Option Nat)) (v37 : UpdateUnit) (v38 : Table
    TxSource) (v39 : Table LaneUnit) (v40 : Table LinkUnit) (v41 : ShroudUnit) (v42 : Table EndpointUnit) (v43 :
    StayUnit) (v44 : PowerUnit) (v45 : Table Bool) (v46 : Table EventLine) (v47 : Nat) (v48 : SupUnit) (v49 :
    DebugUnit) (v50 : HostUnit) (v51 : MboxUnit) (v52 : MonUnit) (v53 : Nat) (v54 : List Instr) :
    At Q (State.mk
      v0 v1 v2 v3 v4 v5 v6 v7 v8 v9 v10 v11 v12 v13 v14 v15 v16 v17 v18 v19 v20 v21 v22 v23 v24 v25 v26 v27 v28
      v29 v30 v31 v32 v33 v34 v35 v36 v37 v38 v39 v40 v41 v42 v43 v44 v45 v46 v47 v48 v49 v50 v51 v52 v53 v54)
      = AtParts Q v54 v28.fuse := (rfl)

theorem same_fold (Q : Parts) (s : State) : AtParts Q s.pending s.keys.fuse = At Q s := (rfl)

theorem same_ite {c : Prop} [Decidable c] (Q : Parts) (a b : State) : At Q (if c then a else b) = if c then At Q a else At Q b :=
  apply_ite (At Q) c a b

theorem ite_fst {α β : Type} {c : Prop} [Decidable c] (a b : α × β) : (if c then a else b).1 = if c then a.1 else b.1 :=
  apply_ite Prod.fst c a b

theorem ite_snd {α β : Type} {c : Prop} [Decidable c] (a b : α × β) : (if c then a else b).2 = if c then a.2 else b.2 :=
  apply_ite Prod.snd c a b

theorem same_foldl {β : Type} (Q : Parts) (l : List β) (g : State → β → State) (s : State) (h : ∀ t b, At Q (g t b) = At Q t) :
    At Q (l.foldl g s) = At Q s := by
  induction l generalizing s with
  | nil => rfl
  | cons b l ih => rw [List.foldl_cons, ih, h s b]

theorem same_foldl_snd {α β : Type} (Q : Parts) (l : List β) (g : α × State → β → α × State) (p : α × State)
    (h : ∀ t b, At Q (g t b).2 = At Q t.2) : At Q (l.foldl g p).2 = At Q p.2 := by
  induction l generalizing p with
  | nil => rfl
  | cons b l ih => rw [List.foldl_cons, ih, h p b]

theorem same_foldl_fst {α β : Type} (Q : Parts) (l : List β) (g : State × α → β → State × α) (p : State × α)
    (h : ∀ t b, At Q (g t b).1 = At Q t.1) : At Q (l.foldl g p).1 = At Q p.1 := by
  induction l generalizing p with
  | nil => rfl
  | cons b l ih => rw [List.foldl_cons, ih, h p b]

/-- An outcome whose next state has the property. -/
structure Keeps (Q : Parts) (o : Out) : Prop where
  next : ∀ t, o = .next t → At Q t

theorem keeps_next (Q : Parts) (t : State) : Keeps Q (.next t) = At Q t := by
  apply propext
  constructor
  · intro h; exact h.next t rfl
  · intro h; exact ⟨by rintro u ⟨⟩; exact h⟩

theorem keeps_ite {c : Prop} [Decidable c] (Q : Parts) (a b : Out) :
    Keeps Q (if c then a else b) = if c then Keeps Q a else Keeps Q b := apply_ite (Keeps Q) c a b

theorem keeps_whenOpen (Q : Parts) (s t : State) (h : At Q s) (k : At Q t) : Keeps Q (whenOpen s t) := by
  constructor
  intro u hu
  unfold whenOpen at hu
  cases hu
  split
  · exact k
  · exact h

/-- A state that may be, with the property. -/
structure KeepsO (Q : Parts) (o : Option State) : Prop where
  next : ∀ t, o = some t → At Q t

theorem keepsO_none (Q : Parts) : KeepsO Q none := ⟨fun t h => absurd h.symm (Option.some_ne_none t)⟩

theorem keepsO_some (Q : Parts) (t : State) : KeepsO Q (some t) = At Q t :=
  propext ⟨fun h => h.next t rfl, fun h => ⟨fun _ hu => Option.some.inj hu ▸ h⟩⟩

theorem keepsO_ite {c : Prop} [Decidable c] (Q : Parts) (a b : Option State) :
    KeepsO Q (if c then a else b) = if c then KeepsO Q a else KeepsO Q b := apply_ite (KeepsO Q) c a b

/-- A state and a result that may be, with the property. -/
structure KeepsP {α : Type} (Q : Parts) (o : Option (State × α)) : Prop where
  next : ∀ t, o = some t → At Q t.1

theorem keepsP_none {α : Type} (Q : Parts) : KeepsP (α := α) Q none := ⟨fun t h => absurd h.symm (Option.some_ne_none t)⟩

theorem keepsP_some {α : Type} (Q : Parts) (t : State × α) : KeepsP Q (some t) = At Q t.1 :=
  propext ⟨fun h => h.next t rfl, fun h => ⟨fun _ hu => Option.some.inj hu ▸ h⟩⟩

theorem keepsP_ite {α : Type} {c : Prop} [Decidable c] (Q : Parts) (a b : Option (State × α)) :
    KeepsP Q (if c then a else b) = if c then KeepsP Q a else KeepsP Q b := apply_ite (KeepsP Q) c a b

theorem keepsP_map {α β : Type} (Q : Parts) (o : Option (State × α)) (f : State × α → State × β) (h : KeepsP Q o)
    (k : ∀ r, At Q r.1 → At Q (f r).1) : KeepsP Q (o.map f) := by
  cases o with
  | none => exact keepsP_none Q
  | some r => rw [Option.map_some, keepsP_some]; exact k r (h.next r rfl)

theorem keepsPO_map {α : Type} (Q : Parts) (o : Option State) (a : α) (h : KeepsO Q o) :
    KeepsP Q (o.map fun t => (t, a)) := by
  cases o with
  | none => exact keepsP_none Q
  | some r => rw [Option.map_some, keepsP_some]; exact h.next r rfl

theorem keepsOP_map {α : Type} (Q : Parts) (o : Option (State × α)) (f : State × α → State) (h : KeepsP Q o)
    (k : ∀ r, At Q r.1 → At Q (f r)) : KeepsO Q (o.map f) := by
  cases o with
  | none => exact keepsO_none Q
  | some r => rw [Option.map_some, keepsO_some]; exact k r (h.next r rfl)

/-- A property that programming more fuse bits keeps. -/
def Grow (Q : Parts) : Prop := ∀ p f k d, Q p f → Q p (f.put (fun _ => 0) k (f.get (fun _ => 0) k ||| d))

theorem grow_foldl {β : Type} (Q : Parts) (l : List β) (g : State → β → State) (s : State) (k : At Q s)
    (h : ∀ t b, At Q t → At Q (g t b)) : At Q (l.foldl g s) := by
  induction l generalizing s with
  | nil => exact k
  | cons b l ih => rw [List.foldl_cons]; exact ih _ (h s b k)

theorem State.setReg_keeps (Q : Parts) (s : State) (a : Nat) (v : Word) : At Q (s.setReg a v) = At Q s := at_congr Q s (s.setReg a v) (rfl) (rfl)
theorem State.setFld_keeps (Q : Parts) (s : State) (f : Fld) (v : Nat) : At Q (s.setFld f v) = At Q s := at_congr Q s (s.setFld f v) (rfl) (rfl)
theorem State.setWide_keeps (Q : Parts) (s : State) (a v : Nat) : At Q (s.setWide a v) = At Q s := at_congr Q s (s.setWide a v) (rfl) (rfl)
theorem State.setPath_keeps (Q : Parts) (s : State) (p : Path) (x : PathState) : At Q (s.setPath p x) = At Q s := at_congr Q s (s.setPath p x) (rfl) (rfl)
theorem State.open_keeps (Q : Parts) (s : State) : At Q s.open_.2 = At Q s := at_congr Q s s.open_.2 (rfl) (rfl)
theorem State.log_keeps (Q : Parts) (s : State) (c d : Nat) : At Q (s.log c d) = At Q s :=
  at_congr Q s (s.log c d) (s.log_pending c d) (congrArg KeyUnit.fuse (s.log_keys c d))

theorem State.setBit_keeps (Q : Parts) (s : State) (f : Fld) (b : Bool) : At Q (State.setBit s f b) = At Q s := by
  unfold State.setBit; (repeat' (first | (simp only [State.setFld_keeps]; done) | split))

theorem State.raise_keeps (Q : Parts) (s : State) (f : Fld) : At Q (State.raise s f) = At Q s := by
  unfold State.raise; (repeat' (first | (simp only [State.setFld_keeps]; done) | split))

theorem State.clear_keeps (Q : Parts) (s : State) (f : Fld) : At Q (State.clear s f) = At Q s := by
  unfold State.clear; (repeat' (first | (simp only [State.setFld_keeps]; done) | split))

theorem State.raiseBit_keeps (Q : Parts) (s : State) (a i : Nat) : At Q (State.raiseBit s a i) = At Q s := by
  unfold State.raiseBit; (repeat' (first | (simp only [State.setFld_keeps]; done) | split))

theorem State.pendBit_keeps (Q : Parts) (s : State) (a i : Nat) : At Q (State.pendBit s a i) = At Q s := by
  unfold State.pendBit; simp only [State.raiseBit_keeps]

theorem State.addSat_keeps (Q : Parts) (s : State) (f : Fld) (n : Nat) : At Q (State.addSat s f n) = At Q s := by
  unfold State.addSat; (repeat' (first | (simp only [State.setFld_keeps]; done) | split))

theorem State.addWrap_keeps (Q : Parts) (s : State) (f : Fld) (n : Nat) : At Q (State.addWrap s f n) = At Q s := by
  unfold State.addWrap; (repeat' (first | (simp only [State.setFld_keeps]; done) | split))

theorem State.countSat_keeps (Q : Parts) (s : State) (a n : Nat) : At Q (State.countSat s a n) = At Q s := by
  unfold State.countSat; simp only [State.addSat_keeps]

theorem State.countWrap_keeps (Q : Parts) (s : State) (a n : Nat) : At Q (State.countWrap s a n) = At Q s := by
  unfold State.countWrap; simp only [State.addWrap_keeps]

theorem State.roundOpen_keeps (Q : Parts) (s : State) (num : Int) (den : Nat) : At Q (State.roundOpen s num den).2 = At Q s := by
  unfold State.roundOpen; (repeat' (first | (simp only [same_ite, ite_snd, ite_self, State.open_keeps]; done) | split))

theorem State.showErrs_keeps (Q : Parts) (s : State) : At Q (State.showErrs s) = At Q s := by
  unfold State.showErrs; simp only [State.setFld_keeps, State.setBit_keeps]

theorem State.markFound_keeps (Q : Parts) (s : State) (a : Nat) : At Q (State.markFound s a) = At Q s := by
  unfold State.markFound; simp only [same_mk, same_fold, same_ite, ite_self]

theorem State.holdErrs_keeps (Q : Parts) (s : State) (b c : List ErrEntry) : At Q (State.holdErrs s b c) = At Q s := by
  unfold State.holdErrs; simp only [same_mk, same_fold]

theorem State.fillErrs_keeps (Q : Parts) (s : State) (b c : List ErrEntry) : At Q (State.fillErrs s b c) = At Q s := by
  unfold State.fillErrs; simp only [same_ite, ite_self, State.holdErrs_keeps, State.raise_keeps, State.showErrs_keeps]

theorem State.errLost_keeps (Q : Parts) (s : State) : At Q (State.errLost s) = At Q s := by
  unfold State.errLost; simp only [same_mk, same_fold, State.addSat_keeps]

theorem State.seqNext_keeps (Q : Parts) (s : State) (code : Nat) : At Q (State.seqNext s code) = At Q s := by
  unfold State.seqNext; simp only [same_mk, same_fold, State.addWrap_keeps]

theorem State.commitWide_keeps (Q : Parts) (s : State) (p : Path) (a : Nat) (lo : Word) : At Q
  (State.commitWide s p a lo).2 = At Q s := by
  unfold State.commitWide; (repeat' (first | (simp only [keepsO_none, keepsP_none, State.setPath_keeps]; done) | split))

theorem State.mirrorRefused_keeps (Q : Parts) (s : State) (a : Nat) : At Q (State.mirrorRefused s a) = At Q s := by
  unfold State.mirrorRefused; simp only [State.log_keeps, State.raise_keeps]

theorem State.mirrorMerge_keeps (Q : Parts) (s : State) (a : Nat) (v : Word) : At Q (State.mirrorMerge s a v).2 = At Q s := by
  unfold State.mirrorMerge; simp only [same_ite, ite_snd, ite_self, State.mirrorRefused_keeps]

end Sys2Proof.Machine
end

