-- ==== Sys2Proof/Laws/KeepsMast.lean ====
section
/-! SUPPORT. What the definitions of Mast leave as they are: the waiting commands and the fuse words. -/

namespace Sys2Proof.Machine

open Sys2Proof

set_option simprocs false
set_option linter.unusedSimpArgs false
set_option linter.all false

theorem State.advanceMast_keeps (Q : Parts) (s : State) (d : Nat) : At Q (State.advanceMast s d) = At Q s := by
  unfold State.advanceMast; simp only [same_mk, same_fold]

theorem State.startWindow_keeps (Q : Parts) (s : State) : At Q (State.startWindow s) = At Q s := by
  unfold State.startWindow; simp only [same_mk, same_fold, keepsO_none, keepsP_none]

theorem State.cutWindow_keeps (Q : Parts) (s : State) : At Q (State.cutWindow s) = At Q s := by
  unfold State.cutWindow; simp only [same_mk, same_fold, keepsO_none, keepsP_none]

theorem State.dueWindow_keeps (Q : Parts) (s : State) : At Q (State.dueWindow s) = At Q s := by
  unfold State.dueWindow; (try simp only [same_mk, same_fold, same_ite, ite_fst, ite_snd, ite_self, keepsO_none, keepsO_some, keepsO_ite, keepsP_none, keepsP_some, keepsP_ite, implies_true, State.startWindow_keeps]); repeat' (first | (simp only [same_mk, same_fold, same_ite, ite_fst, ite_snd, ite_self, keepsO_none, keepsO_some, keepsO_ite, keepsP_none, keepsP_some, keepsP_ite, implies_true, State.startWindow_keeps]; done) | split)

theorem State.newWindow_keeps (Q : Parts) (s : State) : At Q (State.newWindow s) = At Q s := by
  unfold State.newWindow; simp only [same_mk, same_fold, same_ite, ite_fst, ite_snd, ite_self, implies_true]

theorem State.markSetWas_keeps (Q : Parts) (s : State) (p : Option Path) : At Q (State.markSetWas s p) = At Q s := by
  unfold State.markSetWas; simp only [same_mk, same_fold, same_ite, ite_fst, ite_snd, ite_self, keepsO_none,
  keepsO_some, keepsO_ite, keepsP_none, keepsP_some, keepsP_ite, implies_true]

theorem State.addSlew_keeps (Q : Parts) (s : State) (qn : Int) : At Q (State.addSlew s qn) = At Q s := by
  unfold State.addSlew; simp only [same_mk, same_fold, same_ite, ite_self, State.log_keeps, State.raise_keeps]

theorem State.markSlew_keeps (Q : Parts) (s : State) (p : Option Path) (qn : Int) : At Q (State.markSlew s p qn) = At Q
  s := by
  unfold State.markSlew; (try simp only [same_mk, same_fold, same_ite, ite_fst, ite_snd, ite_self, keepsO_none, keepsO_some, keepsO_ite, keepsP_none, keepsP_some, keepsP_ite, implies_true]); repeat' (first | (simp only [same_mk, same_fold, same_ite, ite_fst, ite_snd, ite_self, keepsO_none, keepsO_some, keepsO_ite, keepsP_none, keepsP_some, keepsP_ite, implies_true]; done) | split)

theorem State.requestSlew_keeps (Q : Parts) (s : State) (qn : Int) : At Q (State.requestSlew s qn) = At Q s := by
  unfold State.requestSlew; simp only [same_mk, same_fold, same_ite, ite_fst, ite_snd, ite_self, keepsO_none,
  keepsO_some, keepsO_ite, keepsP_none, keepsP_some, keepsP_ite, implies_true, State.addSlew_keeps]

theorem State.sumSlews_keeps (Q : Parts) (s : State) : At Q (State.sumSlews s) = At Q s := by
  unfold State.sumSlews; (try simp only [same_mk, same_fold, same_ite, ite_fst, ite_snd, ite_self, keepsO_none, keepsO_some, keepsO_ite, keepsP_none, keepsP_some, keepsP_ite, implies_true, State.addSlew_keeps]); repeat' (first | (simp only [same_mk, same_fold, same_ite, ite_fst, ite_snd, ite_self, keepsO_none, keepsO_some, keepsO_ite, keepsP_none, keepsP_some, keepsP_ite, implies_true, State.addSlew_keeps]; done) | split)

theorem State.becomeSet_keeps (Q : Parts) (s : State) : At Q (State.becomeSet s) = At Q s := by
  unfold State.becomeSet; simp only [same_ite, ite_self, State.setWide_keeps, State.raise_keeps]

theorem State.applyStep_keeps (Q : Parts) (s : State) (qn : Int) : At Q (State.applyStep s qn) = At Q s := by
  unfold State.applyStep; simp only [same_mk, same_fold, keepsO_none, keepsP_none, State.setWide_keeps, State.addSlew_keeps,
    State.becomeSet_keeps, State.startWindow_keeps]

theorem State.applyPending_keeps (Q : Parts) (s : State) : At Q (State.applyPending s) = At Q s := by
  unfold State.applyPending; (split <;> simp only [keepsO_none, keepsP_none, State.applyStep_keeps])

theorem State.phaseRequest_keeps (Q : Parts) (s : State) (p : Option Path) (qn : Int) (asStep : Bool) : At Q
  (State.phaseRequest s p qn asStep) = At Q s := by
  unfold State.phaseRequest; simp only [same_mk, same_fold, same_ite, ite_fst, ite_snd, ite_self, keepsO_none,
  keepsO_some, keepsO_ite, keepsP_none, keepsP_some, keepsP_ite, implies_true, State.applyPending_keeps,
  State.log_keeps, State.markSlew_keeps, State.raise_keeps, State.requestSlew_keeps]

theorem State.refuseSteer_keeps (Q : Parts) (s : State) (a : Nat) : At Q (State.refuseSteer s a) = At Q s := by
  unfold State.refuseSteer; simp only [State.log_keeps, State.raise_keeps]

theorem execPhaseCommit_keeps (Q : Parts) (p : Path) (lo : Word) (s : State) (h : At Q s) : Keeps Q (execPhaseCommit p
  lo s) := by
  unfold execPhaseCommit; simp only [same_mk, same_fold, same_ite, ite_fst, ite_snd, ite_self, keeps_next, keeps_ite,
  keepsO_none, keepsO_some, keepsO_ite, keepsP_none, keepsP_some, keepsP_ite, implies_true, State.commitWide_keeps,
  State.mirrorRefused_keeps, State.phaseRequest_keeps, State.refuseSteer_keeps, State.setWide_keeps, keeps_whenOpen, h]

theorem execStepApply_keeps (Q : Parts) (s : State) (h : At Q s) : Keeps Q (execStepApply s) := by
  unfold execStepApply; simp only [same_mk, same_fold, same_ite, ite_fst, ite_snd, ite_self, keeps_next, keeps_ite,
  implies_true, State.applyPending_keeps, State.newWindow_keeps, h]

theorem State.rampOnce_keeps (Q : Parts) (s : State) : At Q (State.rampOnce s) = At Q s := by
  unfold State.rampOnce; simp only [State.setFld_keeps]

theorem State.rampBeat_keeps (Q : Parts) (s : State) (set : Bool) : At Q (State.rampBeat s set) = At Q s := by
  unfold State.rampBeat; simp only [same_mk, same_fold, same_ite, ite_fst, ite_snd, ite_self, implies_true,
  State.rampOnce_keeps, State.setFld_keeps]

theorem execFreqRampUpdate_keeps (Q : Parts) (s : State) (h : At Q s) : Keeps Q (execFreqRampUpdate s) := by
  unfold execFreqRampUpdate; simp only [same_mk, same_fold, same_ite, ite_fst, ite_snd, ite_self, keeps_next, keeps_ite,
  implies_true, State.rampBeat_keeps, h]

theorem State.slewBeat_keeps (Q : Parts) (s : State) : At Q (State.slewBeat s) = At Q s := by
  unfold State.slewBeat; simp only [same_mk, same_fold, same_ite, ite_self, State.raise_keeps]

theorem State.beginBeat_keeps (Q : Parts) (s : State) : At Q (State.beginBeat s) = At Q s := by
  unfold State.beginBeat; simp only [same_mk, same_fold, same_ite, ite_fst, ite_snd, ite_self, implies_true,
  State.newWindow_keeps]

theorem State.windowSlews_keeps (Q : Parts) (s : State) : At Q (State.windowSlews s) = At Q s := by
  unfold State.windowSlews; simp only [same_mk, same_fold, same_ite, ite_fst, ite_snd, ite_self, implies_true,
  State.sumSlews_keeps]

theorem State.beat_keeps (Q : Parts) (s : State) : At Q (State.beat s) = At Q s := by
  unfold State.beat; simp only [same_mk, same_fold, same_ite, ite_fst, ite_snd, ite_self, implies_true,
  State.advanceMast_keeps, State.applyPending_keeps, State.beginBeat_keeps, State.dueWindow_keeps, State.rampBeat_keeps,
  State.slewBeat_keeps, State.windowSlews_keeps]

theorem State.tick_keeps (Q : Parts) (s : State) : At Q (State.tick s) = At Q s := by
  unfold State.tick; simp only [same_mk, same_fold, same_ite, ite_fst, ite_snd, ite_self, implies_true,
  State.advanceMast_keeps, State.applyPending_keeps, State.beginBeat_keeps]

theorem State.passTime_keeps (Q : Parts) (s : State) : At Q (State.passTime s) = At Q s := by
  unfold State.passTime; simp only [same_ite, ite_self, State.beat_keeps, State.tick_keeps]

theorem execMastFreqWrite_keeps (Q : Parts) (_p : Path) (v : Word) (s : State) (h : At Q s) : Keeps Q
  (execMastFreqWrite _p v s) := by
  unfold execMastFreqWrite; simp only [same_ite, ite_self, keeps_ite, keeps_whenOpen, State.setReg_keeps,
    State.mirrorMerge_keeps, State.refuseSteer_keeps, h]

theorem State.cancelSlew_keeps (Q : Parts) (s : State) (p : Option Path) : At Q (State.cancelSlew s p) = At Q s := by
  unfold State.cancelSlew; simp only [same_mk, same_fold, same_ite, ite_fst, ite_snd, ite_self, keepsO_none,
  keepsO_some, keepsO_ite, keepsP_none, keepsP_some, keepsP_ite, implies_true]

theorem execSlewCancel_keeps (Q : Parts) (s : State) (h : At Q s) : Keeps Q (execSlewCancel s) := by
  unfold execSlewCancel; simp only [same_mk, same_fold, same_ite, ite_fst, ite_snd, ite_self, keeps_next, keeps_ite,
  keepsO_none, keepsO_some, keepsO_ite, keepsP_none, keepsP_some, keepsP_ite, implies_true, State.cancelSlew_keeps,
  keeps_whenOpen, h]

theorem State.markSet_keeps (Q : Parts) (s : State) (p : Option Path) : At Q (State.markSet s p) = At Q s := by
  unfold State.markSet; simp only [same_mk, same_fold, same_ite, ite_fst, ite_snd, ite_self, implies_true,
  State.becomeSet_keeps, State.markSetWas_keeps]

theorem execMarkSet_keeps (Q : Parts) (s : State) (h : At Q s) : Keeps Q (execMarkSet s) := by
  unfold execMarkSet; simp only [same_mk, same_fold, same_ite, ite_fst, ite_snd, ite_self, keeps_next, keeps_ite,
  keepsO_none, keepsO_some, keepsO_ite, keepsP_none, keepsP_some, keepsP_ite, implies_true, State.markSet_keeps,
  keeps_whenOpen, h]

theorem State.unset_keeps (Q : Parts) (s : State) (p : Option Path) : At Q (State.unset s p) = At Q s := by
  unfold State.unset; simp only [same_mk, same_fold, same_ite, ite_fst, ite_snd, ite_self, implies_true,
  State.clear_keeps, State.log_keeps, State.markSetWas_keeps, State.raise_keeps]

theorem execUnset_keeps (Q : Parts) (s : State) (h : At Q s) : Keeps Q (execUnset s) := by
  unfold execUnset; simp only [same_mk, same_fold, same_ite, ite_fst, ite_snd, ite_self, keeps_next, keeps_ite,
  keepsO_none, keepsO_some, keepsO_ite, keepsP_none, keepsP_some, keepsP_ite, implies_true, State.unset_keeps,
  keeps_whenOpen, h]

theorem State.refinLoses_keeps (Q : Parts) (s : State) : At Q (State.refinLoses s) = At Q s := by
  unfold State.refinLoses; simp only [same_ite, ite_self, State.log_keeps, State.clear_keeps, State.raise_keeps]

theorem State.refinComes_keeps (Q : Parts) (s : State) : At Q (State.refinComes s) = At Q s := by
  unfold State.refinComes; simp only [same_ite, ite_self, State.raise_keeps]

theorem execMastPllLock_keeps (Q : Parts) (s : State) (h : At Q s) : Keeps Q (execMastPllLock s) := by
  unfold execMastPllLock; simp only [same_mk, same_fold, same_ite, ite_self, keeps_next, State.setFld_keeps, State.clear_keeps,
    State.raise_keeps, State.startWindow_keeps, h]

theorem execXt32Stop_keeps (Q : Parts) (s : State) (h : At Q s) : Keeps Q (execXt32Stop s) := by
  unfold execXt32Stop; simp only [same_ite, ite_self, keeps_next, State.log_keeps, State.clear_keeps, State.cutWindow_keeps,
    State.raise_keeps, h]

theorem execXt32Resume_keeps (Q : Parts) (s : State) (h : At Q s) : Keeps Q (execXt32Resume s) := by
  unfold execXt32Resume; simp only [same_mk, same_fold, same_ite, ite_fst, ite_snd, ite_self, keeps_next, keeps_ite,
  keepsO_none, keepsO_some, keepsO_ite, keepsP_none, keepsP_some, keepsP_ite, implies_true, State.open_keeps,
  State.raise_keeps, State.tick_keeps, h]

theorem execRcalWindowComplete_keeps (Q : Parts) (s : State) (h : At Q s) : Keeps Q (execRcalWindowComplete s) := by
  unfold execRcalWindowComplete; (split <;> simp only [same_mk, same_fold, ite_self, keeps_next, keeps_ite, keepsO_none, keepsP_none, State.setReg_keeps, State.setWide_keeps, State.log_keeps, State.raise_keeps, State.roundOpen_keeps, State.startWindow_keeps, h])

theorem State.toReefDomain_keeps (Q : Parts) (s : State) : At Q (State.toReefDomain s) = At Q s := by
  unfold State.toReefDomain; simp only [same_mk, same_fold, keepsO_none, keepsP_none, State.clear_keeps, State.raise_keeps]

theorem State.loadRefinSel_keeps (Q : Parts) (s : State) (sel : Nat) : At Q (State.loadRefinSel s sel) = At Q s := by
  unfold State.loadRefinSel; simp only [same_ite, ite_self, State.setReg_keeps, State.setFld_keeps, State.toReefDomain_keeps]

end Sys2Proof.Machine
end

