-- ==== Sys2Proof/Laws/KeepsPower.lean ====
section
/-! SUPPORT. What the definitions of Power leave as they are: the waiting commands and the fuse words. -/

namespace Sys2Proof.Machine

open Sys2Proof

set_option simprocs false
set_option linter.unusedSimpArgs false
set_option linter.all false

theorem State.setQuiet_keeps (Q : Parts) (s : State) (a : Nat) (b : Bool) : At Q (State.setQuiet s a b) = At Q s := by
  unfold State.setQuiet; simp only [same_mk, same_fold]

theorem State.logOnce_keeps (Q : Parts) (s : State) (counter code detail : Nat) : At Q
  (State.logOnce s counter code detail) = At Q s := by
  unfold State.logOnce; simp only [same_ite, ite_self, State.log_keeps, State.setQuiet_keeps]

theorem State.ledgerTake_keeps (Q : Parts) (s : State) (code cost : Nat) : At Q (State.ledgerTake s code cost) = At Q s := by
  unfold State.ledgerTake; simp only [same_mk, same_fold, State.addSat_keeps, State.setBit_keeps]

theorem State.ledgerRefuse_keeps (Q : Parts) (s : State) (code cost : Nat) : At Q (State.ledgerRefuse s code cost) = At Q s := by
  unfold State.ledgerRefuse; simp only [same_ite, ite_self, State.setReg_keeps, State.countSat_keeps, State.logOnce_keeps,
    State.raise_keeps]

theorem State.ledgerAsk_keeps (Q : Parts) (s : State) (code cost : Nat) (reefOp : Bool) : At Q
  (State.ledgerAsk s code cost reefOp).2 = At Q s := by
  unfold State.ledgerAsk; simp only [same_ite, ite_snd, ite_self, State.ledgerRefuse_keeps, State.ledgerTake_keeps]

theorem State.ledgerEnd_keeps (Q : Parts) (s : State) (code : Nat) : At Q (State.ledgerEnd s code) = At Q s := by
  unfold State.ledgerEnd; (split <;> simp only [same_mk, same_fold, keepsO_none, keepsP_none, State.setFld_keeps])

theorem execLedgerRequest_keeps (Q : Parts) (code : Fin 7) (cost : Nat) (reefOp : Bool) (s : State) (h : At Q s) : Keeps Q
  (execLedgerRequest code cost reefOp s) := by
  unfold execLedgerRequest; simp only [same_ite, ite_self, keeps_next, State.ledgerAsk_keeps, h]

theorem State.pressure_keeps (Q : Parts) (s : State) : At Q (State.pressure s) = At Q s := by
  unfold State.pressure; simp only [same_ite, ite_self, State.log_keeps, State.raise_keeps, State.setBit_keeps]

theorem State.noteFill_keeps (Q : Parts) (s : State) (input fill : Nat) : At Q (State.noteFill s input fill) = At Q s := by
  unfold State.noteFill; simp only [same_mk, same_fold]

theorem State.noteLoss_keeps (Q : Parts) (s : State) : At Q (State.noteLoss s) = At Q s := by
  unfold State.noteLoss; simp only [same_mk, same_fold]

theorem State.paceSample_keeps (Q : Parts) (s : State) : At Q (State.paceSample s) = At Q s := by
  unfold State.paceSample; simp only [same_mk, same_fold, same_ite, ite_fst, ite_snd, ite_self, implies_true,
  State.pressure_keeps, State.setFld_keeps]

theorem execPaceSample_keeps (Q : Parts) (s : State) (h : At Q s) : Keeps Q (execPaceSample s) := by
  unfold execPaceSample; simp only [same_mk, same_fold, same_ite, same_foldl, same_foldl_snd, same_foldl_fst, ite_fst,
  ite_snd, ite_self, keeps_next, keeps_ite, implies_true, State.paceSample_keeps, State.setReg_keeps, h]

theorem execPowerCapCheck_keeps (Q : Parts) (s : State) (h : At Q s) : Keeps Q (execPowerCapCheck s) := by
  unfold execPowerCapCheck; simp only [same_mk, same_fold, ite_self, keeps_next, keeps_ite, State.pressure_keeps, h]

theorem State.avsWritten_keeps (Q : Parts) (s : State) : At Q (State.avsWritten s) = At Q s := by
  unfold State.avsWritten; simp only [same_mk, same_fold]

theorem execAvsbusPoll_keeps (Q : Parts) (mV mA : Nat) (s : State) (h : At Q s) : Keeps Q (execAvsbusPoll mV mA s) := by
  unfold execAvsbusPoll; simp only [same_mk, same_fold, same_ite, ite_self, keeps_next, keeps_ite, keepsO_none, keepsP_none,
    State.setFld_keeps, State.avsWritten_keeps, State.clear_keeps, State.countSat_keeps, h]

theorem execAvsbusVoltageWrite_keeps (Q : Parts) (s : State) (h : At Q s) : Keeps Q (execAvsbusVoltageWrite s) := by
  unfold execAvsbusVoltageWrite; simp only [same_ite, ite_self, keeps_next, State.avsWritten_keeps, h]

theorem execAvsbusFault_keeps (Q : Parts) (cmd : Fin 16) (s : State) (h : At Q s) : Keeps Q (execAvsbusFault cmd s) := by
  unfold execAvsbusFault; simp only [same_mk, same_fold, ite_self, keeps_next, keeps_ite, State.log_keeps, State.raise_keeps, h]

theorem State.reserveOver_keeps (Q : Parts) (s : State) (v : Nat) : At Q (State.reserveOver s v) = At Q s := by
  unfold State.reserveOver; simp only [same_mk, same_fold, same_ite, ite_self, State.log_keeps, State.clear_keeps,
    State.raise_keeps]

theorem State.reserveCharge_keeps (Q : Parts) (s : State) (v : Nat) : At Q (State.reserveCharge s v) = At Q s := by
  unfold State.reserveCharge; simp only [same_mk, same_fold, same_ite, ite_self, State.clear_keeps, State.raise_keeps]

theorem execReserveSample_keeps (Q : Parts) (code : Fin 4096) (s : State) (h : At Q s) : Keeps Q (execReserveSample code s) := by
  unfold execReserveSample; simp only [same_ite, ite_self, keeps_next, keeps_ite, State.setFld_keeps,
    State.reserveCharge_keeps, State.reserveOver_keeps, State.roundOpen_keeps, State.setBit_keeps, h]

theorem execChargeTimeout_keeps (Q : Parts) (s : State) (h : At Q s) : Keeps Q (execChargeTimeout s) := by
  unfold execChargeTimeout; simp only [same_mk, same_fold, ite_self, keeps_next, keeps_ite, State.log_keeps, State.raise_keeps, h]

theorem execRsvVtgtWrite_keeps (Q : Parts) (_p : Path) (v : Word) (s : State) (h : At Q s) : Keeps Q
  (execRsvVtgtWrite _p v s) := by
  unfold execRsvVtgtWrite; simp only [same_ite, ite_self, keeps_whenOpen, State.setFld_keeps, h]

theorem execVbatMeasure_keeps (Q : Parts) (mV : Nat) (s : State) (h : At Q s) : Keeps Q (execVbatMeasure mV s) := by
  unfold execVbatMeasure; simp only [same_mk, same_fold, same_ite, ite_self, keeps_next, keeps_ite, State.setFld_keeps,
    State.log_keeps, State.raise_keeps, h]

end Sys2Proof.Machine
end

