-- ==== Sys2Proof/Laws/KeepsCrossing.lean ====
section
/-! SUPPORT. What the definitions of Crossing leave as they are: the waiting commands and the fuse words. -/

namespace Sys2Proof.Machine

open Sys2Proof

set_option simprocs false
set_option linter.unusedSimpArgs false
set_option linter.all false

theorem State.portCount_keeps (Q : Parts) (s : State) (cls idx : Nat) : At Q (State.portCount s cls idx) = At Q s := by
  unfold State.portCount; (split <;> simp only [keepsO_none, keepsP_none, State.countWrap_keeps])

theorem State.setCrossing_keeps (Q : Parts) (s : State) (n : Nat) (x : Crossing) : At Q (State.setCrossing s n x) = At Q s := by
  unfold State.setCrossing; simp only [same_mk, same_fold, same_ite, ite_self, State.setFld_keeps, State.noteFill_keeps,
    State.setBit_keeps]

theorem State.xngOverrun_keeps (Q : Parts) (s : State) (n : Nat) : At Q (State.xngOverrun s n) = At Q s := by
  unfold State.xngOverrun; simp only [same_ite, ite_self, State.log_keeps, State.countSat_keeps, State.noteLoss_keeps,
    State.pendBit_keeps, State.raise_keeps]

theorem State.xngUnderrun_keeps (Q : Parts) (s : State) (n : Nat) : At Q (State.xngUnderrun s n) = At Q s := by
  unfold State.xngUnderrun; simp only [same_ite, ite_self, State.log_keeps, State.raise_keeps]

theorem State.xngDiscard_keeps (Q : Parts) (s : State) (n k : Nat) : At Q (State.xngDiscard s n k) = At Q s := by
  unfold State.xngDiscard; simp only [State.countSat_keeps]

theorem State.xngDelivered_keeps (Q : Parts) (s : State) (n : Nat) (w : Dword) : At Q (State.xngDelivered s n w).2 = At Q s := by
  unfold State.xngDelivered; simp only [same_ite, ite_snd, ite_self, State.open_keeps]

theorem State.mailboxLoad_keeps (Q : Parts) (s : State) (n : Nat) : At Q (State.mailboxLoad s n) = At Q s := by
  unfold State.mailboxLoad; ((try simp only [same_ite, ite_self, State.setWide_keeps, State.raise_keeps, State.setCrossing_keeps, State.xngDelivered_keeps]); repeat' (first | (simp only [same_ite, ite_self, State.setWide_keeps, State.raise_keeps, State.setCrossing_keeps, State.xngDelivered_keeps]; done) | split))

theorem State.xngStore_keeps (Q : Parts) (s : State) (n : Nat) (w : Dword) : At Q (State.xngStore s n w) = At Q s := by
  unfold State.xngStore; simp only [same_mk, same_fold, same_ite, ite_fst, ite_snd, ite_self, implies_true,
  State.open_keeps, State.setCrossing_keeps]

theorem State.xngWrite_keeps (Q : Parts) (s : State) (n : Nat) (w : Dword) : At Q (State.xngWrite s n w) = At Q s := by
  unfold State.xngWrite; simp only [same_mk, same_fold, same_ite, ite_fst, ite_snd, ite_self, implies_true,
  State.setCrossing_keeps, State.xngDiscard_keeps, State.xngOverrun_keeps, State.xngStore_keeps]

theorem State.xngTake_keeps (Q : Parts) (s : State) (n : Nat) : At Q (State.xngTake s n) = At Q s := by
  unfold State.xngTake; ((try simp only [same_ite, ite_self, State.clear_keeps, State.portCount_keeps, State.setCrossing_keeps, State.xngDelivered_keeps]); repeat' (first | (simp only [same_ite, ite_self, State.clear_keeps, State.portCount_keeps, State.setCrossing_keeps, State.xngDelivered_keeps]; done) | split))

theorem State.xngPush_keeps (Q : Parts) (s : State) (n : Nat) (w : Dword) : At Q (State.xngPush s n w) = At Q s := by
  unfold State.xngPush; simp only [same_mk, same_fold, same_ite, ite_fst, ite_snd, ite_self, implies_true,
  State.mailboxLoad_keeps, State.portCount_keeps, State.xngDiscard_keeps, State.xngStore_keeps]

theorem State.xngPull_keeps (Q : Parts) (s : State) (n : Nat) : At Q (State.xngPull s n).2 = At Q s := by
  unfold State.xngPull; ((try simp only [same_ite, ite_snd, keepsO_none, keepsP_none, State.setCrossing_keeps, State.xngDelivered_keeps, State.xngUnderrun_keeps]); repeat' (first | (simp only [same_ite, ite_snd, keepsO_none, keepsP_none, State.setCrossing_keeps, State.xngDelivered_keeps, State.xngUnderrun_keeps]; done) | split))

theorem State.xngEnterReset_keeps (Q : Parts) (s : State) (n : Nat) (fabric : Bool) : At Q
  (State.xngEnterReset s n fabric) = At Q s := by
  unfold State.xngEnterReset; simp only [same_ite, ite_self, State.clear_keeps, State.raise_keeps, State.setCrossing_keeps,
    State.xngDiscard_keeps]

theorem State.xngLeaveReset_keeps (Q : Parts) (s : State) (n : Nat) (fabric : Bool) : At Q
  (State.xngLeaveReset s n fabric) = At Q s := by
  unfold State.xngLeaveReset; simp only [same_ite, ite_self, State.log_keeps, State.clear_keeps, State.pendBit_keeps,
    State.raise_keeps, State.setCrossing_keeps]

theorem State.xngResetClocked_keeps (Q : Parts) (s : State) (n : Nat) : At Q (State.xngResetClocked s n) = At Q s := by
  unfold State.xngResetClocked; simp only [State.xngEnterReset_keeps, State.xngLeaveReset_keeps]

theorem execCrossingPulseEvent_keeps (Q : Parts) (n : Fin 96) (acknowledge : Bool) (s : State) (h : At Q s) : Keeps Q
  (execCrossingPulseEvent n acknowledge s) := by
  unfold execCrossingPulseEvent; simp only [same_ite, ite_self, keeps_next, keeps_ite, State.portCount_keeps,
    State.setCrossing_keeps, State.xngDiscard_keeps, State.xngOverrun_keeps, h]

theorem State.xngSample_keeps (Q : Parts) (s : State) (n : Nat) (level : Nat) : At Q (State.xngSample s n level).2 = At
  Q s := by
  unfold State.xngSample; simp only [same_mk, same_fold, same_ite, same_foldl, same_foldl_snd, same_foldl_fst, ite_fst,
  ite_snd, ite_self, implies_true, State.open_keeps]

theorem State.xngLevelSeen_keeps (Q : Parts) (s : State) (n : Nat) (level : Nat) : At Q (State.xngLevelSeen s n level) =
  At Q s := by
  unfold State.xngLevelSeen; simp only [same_mk, same_fold, same_ite, ite_fst, ite_snd, ite_self, implies_true,
  State.setCrossing_keeps, State.setReg_keeps, State.xngSample_keeps]

theorem execCrossingLevelTransfer_keeps (Q : Parts) (n : Fin 96) (level : Dword) (s : State) (h : At Q s) : Keeps Q
  (execCrossingLevelTransfer n level s) := by
  unfold execCrossingLevelTransfer; simp only [same_mk, same_fold, same_ite, ite_fst, ite_snd, ite_self, keeps_next,
  keeps_ite, keepsO_none, keepsO_some, keepsO_ite, keepsP_none, keepsP_some, keepsP_ite, implies_true,
  State.portCount_keeps, State.setCrossing_keeps, State.xngDiscard_keeps, State.xngOverrun_keeps, State.xngSample_keeps,
  h]

theorem State.crossingBeat_keeps (Q : Parts) (s : State) (n : Nat) : At Q (State.crossingBeat s n) = At Q s := by
  unfold State.crossingBeat; (try simp only [same_mk, same_fold, same_ite, ite_fst, ite_snd, ite_self, keepsO_none, keepsO_some, keepsO_ite, keepsP_none, keepsP_some, keepsP_ite, implies_true, State.setCrossing_keeps, State.xngLevelSeen_keeps]); repeat' (first | (simp only [same_mk, same_fold, same_ite, ite_fst, ite_snd, ite_self, keepsO_none, keepsO_some, keepsO_ite, keepsP_none, keepsP_some, keepsP_ite, implies_true, State.setCrossing_keeps, State.xngLevelSeen_keeps]; done) | split)

theorem State.crossingsBeat_keeps (Q : Parts) (s : State) : At Q (State.crossingsBeat s) = At Q s := by
  unfold State.crossingsBeat; simp only [same_mk, same_fold, same_ite, same_foldl, same_foldl_snd, same_foldl_fst,
  ite_fst, ite_snd, ite_self, implies_true, State.crossingBeat_keeps]

theorem execCrossingWordTransfer_keeps (Q : Parts) (n : Fin 96) (w : Option Dword) (s : State) (h : At Q s) : Keeps Q
  (execCrossingWordTransfer n w s) := by
  unfold execCrossingWordTransfer; (repeat' (first | (simp only [same_ite, ite_self, keeps_next, keepsO_none, keepsP_none, State.mailboxLoad_keeps, State.xngPull_keeps, State.xngPush_keeps, State.xngTake_keeps, State.xngWrite_keeps, h]; done) | split))

theorem execCrossingRequest_keeps (Q : Parts) (n : Fin 96) (s : State) (h : At Q s) : Keeps Q (execCrossingRequest n s)
  := by
  unfold execCrossingRequest; simp only [same_mk, same_fold, same_ite, ite_fst, ite_snd, ite_self, keeps_next,
  keeps_ite, implies_true, State.portCount_keeps, State.xngDiscard_keeps, State.xngOverrun_keeps, State.xngWrite_keeps,
  h]

theorem execCrossingStreamWrite_keeps (Q : Parts) (n : Fin 96) (w : Dword) (s : State) (h : At Q s) : Keeps Q
  (execCrossingStreamWrite n w s) := by
  unfold execCrossingStreamWrite; simp only [same_ite, ite_self, keeps_next, State.xngWrite_keeps, h]

theorem execCrossingStreamTake_keeps (Q : Parts) (n : Fin 96) (s : State) (h : At Q s) : Keeps Q
  (execCrossingStreamTake n s) := by
  unfold execCrossingStreamTake; simp only [same_ite, ite_self, keeps_next, State.xngTake_keeps, h]

theorem execCrossingStreamPush_keeps (Q : Parts) (n : Fin 96) (w : Dword) (s : State) (h : At Q s) : Keeps Q
  (execCrossingStreamPush n w s) := by
  unfold execCrossingStreamPush; simp only [same_ite, ite_self, keeps_next, State.xngPush_keeps, h]

theorem execCrossingWatchdogExpiry_keeps (Q : Parts) (n : Fin 96) (s : State) (h : At Q s) : Keeps Q
  (execCrossingWatchdogExpiry n s) := by
  unfold execCrossingWatchdogExpiry; simp only [ite_self, keeps_next, keeps_ite, State.log_keeps, State.pendBit_keeps,
    State.raise_keeps, h]

theorem State.xngUnpark_keeps (Q : Parts) (s : State) (n : Nat) : At Q (State.xngUnpark s n) = At Q s := by
  unfold State.xngUnpark; simp only [State.clear_keeps, State.xngResetClocked_keeps]

theorem execUnpark_keeps (Q : Parts) (n : Fin 96) (edges : Bool) (s : State) (h : At Q s) : Keeps Q (execUnpark n edges s) := by
  unfold execUnpark; simp only [same_ite, ite_self, keeps_whenOpen, State.log_keeps, State.xngUnpark_keeps, h]

theorem execRstC_keeps (Q : Parts) (n : Fin 96) (s : State) (h : At Q s) : Keeps Q (execRstC n s) := by
  unfold execRstC; simp only [keeps_whenOpen, State.xngResetClocked_keeps, h]

theorem execCrossingResetExit_keeps (Q : Parts) (n : Fin 96) (clocked : Bool) (s : State) (h : At Q s) : Keeps Q
  (execCrossingResetExit n clocked s) := by
  unfold execCrossingResetExit; simp only [same_ite, ite_self, keeps_next, State.xngLeaveReset_keeps, h]

theorem execCrossingResyncDone_keeps (Q : Parts) (n : Fin 96) (s : State) (h : At Q s) : Keeps Q
  (execCrossingResyncDone n s) := by
  unfold execCrossingResyncDone; simp only [same_ite, ite_self, keeps_next, State.clear_keeps, h]

theorem execCrossingClrHwm_keeps (Q : Parts) (n : Fin 96) (s : State) (h : At Q s) : Keeps Q (execCrossingClrHwm n s) := by
  unfold execCrossingClrHwm; simp only [keeps_whenOpen, State.setFld_keeps, h]

theorem execMailboxPop_keeps (Q : Parts) (n : Fin 96) (s : State) (h : At Q s) : Keeps Q (execMailboxPop n s) := by
  unfold execMailboxPop; simp only [same_ite, ite_self, keeps_whenOpen, State.clear_keeps, State.mailboxLoad_keeps, h]

theorem State.mailboxLevel_keeps (Q : Parts) (s : State) (n : Nat) (v : Nat) : At Q (State.mailboxLevel s n v) = At Q s := by
  unfold State.mailboxLevel; simp only [same_ite, ite_self, State.setReg_keeps, State.xngOverrun_keeps]

theorem execMailboxCommit_keeps (Q : Parts) (p : Path) (n : Fin 96) (lo : Word) (s : State) (h : At Q s) : Keeps Q
  (execMailboxCommit p n lo s) := by
  unfold execMailboxCommit; simp only [same_ite, ite_self, keeps_next, keeps_ite, keeps_whenOpen, State.setWide_keeps,
    State.log_keeps, State.mirrorRefused_keeps, State.commitWide_keeps, State.mailboxLevel_keeps, State.raise_keeps,
    State.xngWrite_keeps, h]

end Sys2Proof.Machine
end

