-- ==== Sys2Proof/Laws/KeepsFifo.lean ====
section
/-! SUPPORT. What the definitions of Fifo leave as they are: the waiting commands and the fuse words. -/

namespace Sys2Proof.Machine

open Sys2Proof

set_option simprocs false
set_option linter.unusedSimpArgs false
set_option linter.all false

theorem State.setEngine_keeps (Q : Parts) (s : State) (n : Nat) (e : FifoEngine) : At Q (State.setEngine s n e) = At Q s := by
  unfold State.setEngine; simp only [same_mk, same_fold, same_ite, ite_self, State.setFld_keeps, State.noteFill_keeps,
    State.pendBit_keeps, State.setBit_keeps]

theorem State.fifoFlag_keeps (Q : Parts) (s : State) (n : Nat) (f : Fld) (code detail : Nat) : At Q
  (State.fifoFlag s n f code detail) = At Q s := by
  unfold State.fifoFlag; simp only [same_ite, ite_self, State.log_keeps, State.pendBit_keeps, State.raise_keeps]

theorem State.fifoDrop_keeps (Q : Parts) (s : State) (n k : Nat) : At Q (State.fifoDrop s n k) = At Q s := by
  unfold State.fifoDrop; simp only [State.countSat_keeps]

theorem State.fifoAborted_keeps (Q : Parts) (s : State) (n why : Nat) : At Q (State.fifoAborted s n why) = At Q s := by
  unfold State.fifoAborted; simp only [State.setFld_keeps, State.countSat_keeps, State.fifoFlag_keeps]

theorem State.fifoEndFrame_keeps (Q : Parts) (s : State) (n why : Nat) : At Q (State.fifoEndFrame s n why) = At Q s := by
  unfold State.fifoEndFrame; simp only [same_ite, ite_self, State.fifoAborted_keeps, State.fifoDrop_keeps, State.setEngine_keeps]

theorem State.fifoStored_keeps (Q : Parts) (s : State) (n : Nat) (data : Dword) (tag : Byte) : At Q
  (State.fifoStored s n data tag).2 = At Q s := by
  unfold State.fifoStored; simp only [same_ite, ite_snd, ite_self, State.fifoFlag_keeps]

theorem State.fifoStoreCt_keeps (Q : Parts) (s : State) (n : Nat) (w : FifoWord) : At Q (State.fifoStoreCt s n w) = At Q s := by
  unfold State.fifoStoreCt; simp only [same_ite, ite_self, State.countWrap_keeps, State.fifoAborted_keeps, State.setEngine_keeps]

theorem State.fifoStoreLp_keeps (Q : Parts) (s : State) (n : Nat) (w : FifoWord) : At Q (State.fifoStoreLp s n w) = At Q s := by
  unfold State.fifoStoreLp; simp only [same_ite, ite_self, State.countWrap_keeps, State.fifoEndFrame_keeps, State.setEngine_keeps]

theorem State.fifoStore_keeps (Q : Parts) (s : State) (n : Nat) (data : Dword) (tag : Byte) : At Q
  (State.fifoStore s n data tag) = At Q s := by
  unfold State.fifoStore; ((try simp only [State.fifoStoreCt_keeps, State.fifoStoreLp_keeps, State.fifoStored_keeps, State.setEngine_keeps]); repeat' (first | (simp only [State.fifoStoreCt_keeps, State.fifoStoreLp_keeps, State.fifoStored_keeps, State.setEngine_keeps]; done) | split))

theorem State.fifoNoRoom_keeps (Q : Parts) (s : State) (n : Nat) : At Q (State.fifoNoRoom s n) = At Q s := by
  unfold State.fifoNoRoom; simp only [same_ite, ite_self, State.fifoDrop_keeps, State.fifoEndFrame_keeps, State.fifoFlag_keeps,
    State.noteLoss_keeps, State.setEngine_keeps]

theorem State.fifoPushWord_keeps (Q : Parts) (s : State) (n : Nat) (data : Dword) (tag : Byte) (canWait : Bool) : At Q
  (State.fifoPushWord s n data tag canWait).2 = At Q s := by
  unfold State.fifoPushWord; simp only [same_ite, ite_snd, ite_self, State.fifoDrop_keeps, State.fifoEndFrame_keeps,
    State.fifoFlag_keeps, State.fifoNoRoom_keeps, State.fifoStore_keeps, State.setEngine_keeps]

theorem State.fifoPush_keeps (Q : Parts) (s : State) (n : Nat) (data : Dword) (tag : Byte) (canWait : Bool) : At Q
  (State.fifoPush s n data tag canWait).2 = At Q s := by
  unfold State.fifoPush; simp only [same_ite, ite_snd, ite_self, State.fifoPushWord_keeps]

theorem State.fifoRead_keeps (Q : Parts) (s : State) (n : Nat) (w : FifoWord) (ecc : Ecc) : At Q
  (State.fifoRead s n w ecc).2 = At Q s := by
  unfold State.fifoRead; (split <;> simp only [State.countSat_keeps, State.fifoFlag_keeps])

theorem State.fifoPop_keeps (Q : Parts) (s : State) (n : Nat) (ecc : Ecc) : At Q (State.fifoPop s n ecc).2 = At Q s := by
  unfold State.fifoPop; ((try simp only [same_ite, ite_self, State.fifoRead_keeps, State.raise_keeps, State.setEngine_keeps]); repeat' (first | (simp only [same_ite, ite_self, State.fifoRead_keeps, State.raise_keeps, State.setEngine_keeps]; done) | split))

theorem State.fifoFlush_keeps (Q : Parts) (s : State) (n : Nat) : At Q (State.fifoFlush s n) = At Q s := by
  unfold State.fifoFlush; simp only [same_ite, ite_self, State.fifoAborted_keeps, State.fifoDrop_keeps, State.setEngine_keeps]

theorem State.fifosBeat_keeps (Q : Parts) (s : State) : At Q (State.fifosBeat s) = At Q s := by
  unfold State.fifosBeat; simp only [same_mk, same_fold, same_ite, ite_fst, ite_snd, ite_self, implies_true]

theorem execFifoRegisterPush_keeps (Q : Parts) (p : Path) (n : Fin 64) (lo : Word) (s : State) (h : At Q s) : Keeps Q
  (execFifoRegisterPush p n lo s) := by
  unfold execFifoRegisterPush; simp only [ite_self, keeps_ite, keeps_whenOpen, State.log_keeps, State.commitWide_keeps,
    State.fifoPush_keeps, h]

theorem State.popLatch_keeps (Q : Parts) (s : State) (p : Path) (n : Nat) (r : Dword × Byte) : At Q (State.popLatch s p
  n r) = At Q s := by
  unfold State.popLatch; simp only [same_mk, same_fold, same_ite, ite_fst, ite_snd, ite_self, keepsO_none, keepsO_some,
  keepsO_ite, keepsP_none, keepsP_some, keepsP_ite, implies_true, State.setPath_keeps]

theorem execFifoRegisterPop_keeps (Q : Parts) (p : Path) (n : Fin 64) (ecc : Ecc) (s : State) (h : At Q s) : Keeps Q
  (execFifoRegisterPop p n ecc s) := by
  unfold execFifoRegisterPop; simp only [same_mk, same_fold, same_ite, ite_fst, ite_snd, ite_self, keeps_next,
  keeps_ite, implies_true, State.fifoPop_keeps, State.log_keeps, State.popLatch_keeps, keeps_whenOpen, h]

theorem execFifoFlush_keeps (Q : Parts) (n : Fin 64) (s : State) (h : At Q s) : Keeps Q (execFifoFlush n s) := by
  unfold execFifoFlush; simp only [keeps_whenOpen, State.fifoFlush_keeps, h]

theorem execFifoClrHwm_keeps (Q : Parts) (n : Fin 64) (s : State) (h : At Q s) : Keeps Q (execFifoClrHwm n s) := by
  unfold execFifoClrHwm; simp only [keeps_whenOpen, State.setFld_keeps, h]

theorem State.scrubWord_keeps (Q : Parts) (s : State) (n i a : Nat) (ecc : Ecc) (touched : Bool) : At Q
  (State.scrubWord s n i a ecc touched) = At Q s := by
  unfold State.scrubWord; (split <;> simp only [same_ite, ite_self, State.addSat_keeps, State.countSat_keeps, State.fifoFlag_keeps, State.setEngine_keeps])

theorem execScrubVisit_keeps (Q : Parts) (ecc : Ecc) (touched : Bool) (s : State) (h : At Q s) : Keeps Q
  (execScrubVisit ecc touched s) := by
  unfold execScrubVisit; ((try simp only [same_ite, ite_self, keeps_next, keeps_ite, keepsO_none, keepsP_none, State.setFld_keeps, State.addWrap_keeps, State.scrubWord_keeps, h]); repeat' (first | (simp only [same_ite, ite_self, keeps_next, keeps_ite, keepsO_none, keepsP_none, State.setFld_keeps, State.addWrap_keeps, State.scrubWord_keeps, h]; done) | split))

end Sys2Proof.Machine
end

