-- ==== Sys2Proof/Laws/KeepsSources.lean ====
section
/-! SUPPORT. What the definitions of Sources leave as they are: the waiting commands and the fuse words. -/

namespace Sys2Proof.Machine

open Sys2Proof

set_option simprocs false
set_option linter.unusedSimpArgs false
set_option linter.all false

theorem State.setSource_keeps (Q : Parts) (s : State) (x : Nat) (u : TxSource) : At Q (State.setSource s x u) = At Q s := by
  unfold State.setSource; simp only [same_mk, same_fold]

end Sys2Proof.Machine
end

