-- ==== Sys2Proof/Laws/KeepsSheets.lean ====
section
/-! SUPPORT. What the definitions of Sheets leave as they are: the waiting commands and the fuse words. -/

namespace Sys2Proof.Machine

open Sys2Proof

set_option simprocs false
set_option linter.unusedSimpArgs false
set_option linter.all false

theorem State.setSheet_keeps (Q : Parts) (s : State) (i : Nat) (u : SheetUnit) : At Q (State.setSheet s i u) = At Q s := by
  unfold State.setSheet; simp only [same_mk, same_fold, same_ite, ite_self, State.setFld_keeps, State.setWide_keeps]

theorem State.levelAfter_keeps (Q : Parts) (s : State) (lvl v : Nat) : At Q (State.levelAfter s lvl v).2 = At Q s := by
  unfold State.levelAfter; simp only [same_ite, ite_snd, ite_self, State.open_keeps]

theorem State.levelAfterAll_keeps (Q : Parts) (s : State) (x0 : Nat) (x1 : List Nat) :
    At Q (State.levelAfterAll s x0 x1).2 = At Q s := by
  induction x1 generalizing s x0 with
  | nil => rfl
  | cons v vs ih => simp only [State.levelAfterAll, ih, State.levelAfter_keeps]

theorem State.edgeOffset_keeps (Q : Parts) (s : State) (at_ : Nat) : At Q (State.edgeOffset s at_).2 = At Q s := by
  unfold State.edgeOffset; simp only [same_ite, ite_snd, ite_self, State.open_keeps]

theorem State.placeCode_keeps (Q : Parts) (s : State) (i at_ skew cal : Nat) : At Q
  (State.placeCode s i at_ skew cal).1 = At Q s := by
  unfold State.placeCode; simp only [same_ite, ite_self, State.setFld_keeps, State.log_keeps, State.edgeOffset_keeps]

theorem State.launchEdge_keeps (Q : Parts) (s : State) (i : Nat) (at_ : Nat) : At Q (State.launchEdge s i at_) = At Q s
  := by
  unfold State.launchEdge; simp only [same_mk, same_fold, same_ite, ite_fst, ite_snd, ite_self, implies_true,
  State.placeCode_keeps, State.setFld_keeps]

theorem State.placeEdge_keeps (Q : Parts) (s : State) (i : Nat) (at_ : Nat) : At Q (State.placeEdge s i at_) = At Q s :=
  by
  unfold State.placeEdge; (try simp only [same_mk, same_fold, same_ite, ite_fst, ite_snd, ite_self, keepsO_none, keepsO_some, keepsO_ite, keepsP_none, keepsP_some, keepsP_ite, implies_true, State.launchEdge_keeps, State.log_keeps, State.raise_keeps, State.setSheet_keeps]); repeat' (first | (simp only [same_mk, same_fold, same_ite, ite_fst, ite_snd, ite_self, keepsO_none, keepsO_some, keepsO_ite, keepsP_none, keepsP_some, keepsP_ite, implies_true, State.launchEdge_keeps, State.log_keeps, State.raise_keeps, State.setSheet_keeps]; done) | split)

theorem State.pinEdge_keeps (Q : Parts) (s : State) (i : Nat) (lvl : Nat) (at_ : Nat) : At Q (State.pinEdge s i lvl at_)
  = At Q s := by
  unfold State.pinEdge; simp only [same_mk, same_fold, same_ite, ite_fst, ite_snd, ite_self, implies_true,
  State.placeEdge_keeps, State.setFld_keeps]

theorem State.applyValues_keeps (Q : Parts) (s : State) (i : Nat) (vs : List Nat) (at_ : Nat) : At Q (State.applyValues
  s i vs at_) = At Q s := by
  unfold State.applyValues; simp only [same_mk, same_fold, same_ite, ite_fst, ite_snd, ite_self, implies_true,
  State.levelAfterAll_keeps, State.pinEdge_keeps]

theorem State.launchPlaced_keeps (Q : Parts) (s : State) (i : Nat) : At Q (State.launchPlaced s i) = At Q s := by
  unfold State.launchPlaced; simp only [same_mk, same_fold, same_ite, same_foldl, same_foldl_snd, same_foldl_fst,
  ite_fst, ite_snd, ite_self, implies_true, State.launchEdge_keeps, State.setSheet_keeps]

theorem State.laneRelease_keeps (Q : Parts) (s : State) (i : Nat) : At Q (State.laneRelease s i) = At Q s := by
  unfold State.laneRelease; simp only [same_ite, ite_self, State.log_keeps, State.countSat_keeps, State.raise_keeps,
    State.setSheet_keeps]

theorem State.releaseTokens_keeps (Q : Parts) (s : State) (i : Nat) (vs : List Nat) (at_ : Nat) : At Q
  (State.releaseTokens s i vs at_) = At Q s := by
  unfold State.releaseTokens; simp only [same_ite, same_foldl, ite_self, implies_true, State.applyValues_keeps,
    State.countWrap_keeps, State.laneRelease_keeps]

theorem State.markLate_keeps (Q : Parts) (s : State) (i k : Nat) : At Q (State.markLate s i k) = At Q s := by
  unfold State.markLate; simp only [same_ite, ite_self, State.countSat_keeps, State.pendBit_keeps, State.raise_keeps,
    State.raiseBit_keeps]

theorem State.emitTokens_keeps (Q : Parts) (s : State) (i : Nat) (vs : List Nat) : At Q (State.emitTokens s i vs) = At Q s := by
  unfold State.emitTokens; simp only [same_ite, same_foldl, ite_self, implies_true, State.laneRelease_keeps, State.setSheet_keeps]

theorem State.lateToken_keeps (Q : Parts) (s : State) (i : Nat) (value : Nat) (lateness : Nat) : At Q (State.lateToken s
  i value lateness) = At Q s := by
  unfold State.lateToken; simp only [same_mk, same_fold, same_ite, ite_fst, ite_snd, ite_self, implies_true,
  State.emitTokens_keeps, State.logOnce_keeps, State.markLate_keeps]

theorem State.newHead_keeps (Q : Parts) (s : State) (i : Nat) (beat : Nat) (x0 : Nat) : At Q (State.newHead s i beat x0)
  = At Q s := by
  induction x0 generalizing s  with
  | zero => first | rfl | assumption | (rw [State.newHead.eq_def]; simp only [same_mk, same_fold, same_ite, ite_fst, ite_snd, ite_self, keepsO_none, keepsO_some, keepsO_ite, keepsP_none, keepsP_some, keepsP_ite, implies_true, State.lateToken_keeps, State.setSheet_keeps]; done) | simpa only [State.newHead] using h
  | succ n ih =>
    rw [State.newHead.eq_def]
    dsimp only
    repeat' (first | (simp only [same_mk, same_fold, same_ite, ite_fst, ite_snd, ite_self, keepsO_none, keepsO_some, keepsO_ite, keepsP_none, keepsP_some, keepsP_ite, implies_true, State.lateToken_keeps, State.setSheet_keeps, ih]; done) | rfl | split)

theorem State.steppedTokens_keeps (Q : Parts) (s : State) (i : Nat) : At Q (State.steppedTokens s i) = At Q s := by
  unfold State.steppedTokens; simp only [same_mk, same_fold, same_ite, ite_fst, ite_snd, ite_self, implies_true,
  State.emitTokens_keeps, State.log_keeps, State.markLate_keeps, State.newHead_keeps, State.raise_keeps,
  State.setQuiet_keeps, State.setSheet_keeps]

theorem State.queueToken_keeps (Q : Parts) (s : State) (i : Nat) (due : Nat) (value : Nat) : At Q (State.queueToken s i
  due value) = At Q s := by
  unfold State.queueToken; simp only [same_mk, same_fold, same_ite, ite_fst, ite_snd, ite_self, keepsO_none,
  keepsO_some, keepsO_ite, keepsP_none, keepsP_some, keepsP_ite, implies_true, State.log_keeps, State.raise_keeps,
  State.setSheet_keeps]

theorem execSheetTokenAccept_keeps (Q : Parts) (i : Fin 288) (token : Dword) (s : State) (h : At Q s) : Keeps Q
  (execSheetTokenAccept i token s) := by
  unfold execSheetTokenAccept; simp only [same_mk, same_fold, same_ite, ite_fst, ite_snd, ite_self, keeps_next,
  keeps_ite, implies_true, State.lateToken_keeps, State.portCount_keeps, State.queueToken_keeps, h]

theorem State.releaseHead_keeps (Q : Parts) (s : State) (i : Nat) : At Q (State.releaseHead s i) = At Q s := by
  unfold State.releaseHead; (try simp only [same_mk, same_fold, same_ite, ite_fst, ite_snd, ite_self, implies_true, State.newHead_keeps, State.releaseTokens_keeps, State.setSheet_keeps]); repeat' (first | (simp only [same_mk, same_fold, same_ite, ite_fst, ite_snd, ite_self, implies_true, State.newHead_keeps, State.releaseTokens_keeps, State.setSheet_keeps]; done) | split)

theorem State.endPulse_keeps (Q : Parts) (s : State) (i : Nat) : At Q (State.endPulse s i) = At Q s := by
  unfold State.endPulse; (try simp only [same_mk, same_fold, same_ite, ite_fst, ite_snd, ite_self, implies_true, State.applyValues_keeps, State.setSheet_keeps]); repeat' (first | (simp only [same_mk, same_fold, same_ite, ite_fst, ite_snd, ite_self, implies_true, State.applyValues_keeps, State.setSheet_keeps]; done) | split)

theorem State.sheetRun_keeps (Q : Parts) (s : State) (i : Nat) (t : Nat) (x0 : Nat) : At Q (State.sheetRun s i t x0) =
  At Q s := by
  induction x0 generalizing s  with
  | zero => first | rfl | assumption | (rw [State.sheetRun.eq_def]; simp only [same_mk, same_fold, same_ite, ite_fst, ite_snd, ite_self, keepsO_none, keepsO_some, keepsO_ite, keepsP_none, keepsP_some, keepsP_ite, implies_true, State.endPulse_keeps, State.releaseHead_keeps]; done) | simpa only [State.sheetRun] using h
  | succ n ih =>
    rw [State.sheetRun.eq_def]
    dsimp only
    repeat' (first | (simp only [same_mk, same_fold, same_ite, ite_fst, ite_snd, ite_self, keepsO_none, keepsO_some, keepsO_ite, keepsP_none, keepsP_some, keepsP_ite, implies_true, State.endPulse_keeps, State.releaseHead_keeps, ih]; done) | rfl | split)

theorem State.sheetTo_keeps (Q : Parts) (s : State) (i : Nat) (t : Nat) : At Q (State.sheetTo s i t) = At Q s := by
  unfold State.sheetTo; simp only [same_mk, same_fold, same_ite, ite_fst, ite_snd, ite_self, implies_true,
  State.sheetRun_keeps]

theorem State.sheetAct_keeps (Q : Parts) (s : State) (i : Nat) (op : Nat) (at_ : Nat) (width : Nat) : At Q
  (State.sheetAct s i op at_ width) = At Q s := by
  unfold State.sheetAct; simp only [same_mk, same_fold, same_ite, ite_fst, ite_snd, ite_self, implies_true,
  State.applyValues_keeps, State.setSheet_keeps, State.sheetTo_keeps]

theorem execSheetRelease_keeps (Q : Parts) (i : Fin 288) (s : State) (h : At Q s) : Keeps Q (execSheetRelease i s) := by
  unfold execSheetRelease; (try simp only [same_mk, same_fold, same_ite, ite_fst, ite_snd, ite_self, keeps_next, keeps_ite, implies_true, State.sheetTo_keeps, State.steppedTokens_keeps, h]); repeat' (first | (simp only [same_mk, same_fold, same_ite, ite_fst, ite_snd, ite_self, keeps_next, keeps_ite, implies_true, State.sheetTo_keeps, State.steppedTokens_keeps, h]; done) | split)

theorem State.emitLate_keeps (Q : Parts) (s : State) (i : Nat) (vs : List Nat) : At Q (State.emitLate s i vs) = At Q s
  := by
  unfold State.emitLate; simp only [same_mk, same_fold, same_ite, same_foldl, same_foldl_snd, same_foldl_fst, ite_fst,
  ite_snd, ite_self, implies_true, State.applyValues_keeps, State.laneRelease_keeps]

theorem State.sheetBeat_keeps (Q : Parts) (s : State) (i : Nat) : At Q (State.sheetBeat s i) = At Q s := by
  unfold State.sheetBeat; (try simp only [same_mk, same_fold, same_ite, ite_fst, ite_snd, ite_self, implies_true, State.emitLate_keeps, State.launchPlaced_keeps, State.setSheet_keeps, State.sheetTo_keeps, State.steppedTokens_keeps]); repeat' (first | (simp only [same_mk, same_fold, same_ite, ite_fst, ite_snd, ite_self, implies_true, State.emitLate_keeps, State.launchPlaced_keeps, State.setSheet_keeps, State.sheetTo_keeps, State.steppedTokens_keeps]; done) | split)

theorem State.flushSheet_keeps (Q : Parts) (s : State) (i : Nat) : At Q (State.flushSheet s i) = At Q s := by
  unfold State.flushSheet; simp only [same_mk, same_fold, same_ite, ite_fst, ite_snd, ite_self, implies_true,
  State.log_keeps, State.raise_keeps, State.setFld_keeps, State.setSheet_keeps, State.sheetTo_keeps]

theorem State.flushSheetsOf_keeps (Q : Parts) (s : State) (k : Nat) : At Q (State.flushSheetsOf s k) = At Q s := by
  unfold State.flushSheetsOf; simp only [same_ite, same_foldl, ite_self, implies_true, State.flushSheet_keeps]

theorem State.outSheetsOf_keeps (Q : Parts) (s : State) (k : Nat) : At Q (State.outSheetsOf s k) = At Q s := by
  unfold State.outSheetsOf; simp only [same_ite, same_foldl, ite_self, implies_true, State.clear_keeps]

theorem State.setStamp_keeps (Q : Parts) (s : State) (n : Nat) (u : StampUnit) : At Q (State.setStamp s n u) = At Q s := by
  unfold State.setStamp; simp only [same_mk, same_fold, State.setFld_keeps]

theorem State.stampLost_keeps (Q : Parts) (s : State) (n : Nat) (quiet : Bool) : At Q (State.stampLost s n quiet) = At Q s := by
  unfold State.stampLost; simp only [same_ite, ite_self, State.countSat_keeps, State.logOnce_keeps, State.raise_keeps]

theorem execStampChannelEdge_keeps (Q : Parts) (n : Fin 256) (level : Bool) (fine : Fin 40) (s : State) (h : At Q s) : Keeps Q
  (execStampChannelEdge n level fine s) := by
  unfold execStampChannelEdge; simp only [same_ite, ite_self, keeps_next, keeps_ite, keepsO_none, keepsP_none, State.log_keeps,
    State.raise_keeps, State.setBit_keeps, State.setStamp_keeps, State.stampLost_keeps, h]

end Sys2Proof.Machine
end

