-- ==== Sys2Proof/Laws/KeepsTimers.lean ====
section
/-! SUPPORT. What the definitions of Timers leave as they are: the waiting commands and the fuse words. -/

namespace Sys2Proof.Machine

open Sys2Proof

set_option simprocs false
set_option linter.unusedSimpArgs false
set_option linter.all false

theorem State.setTeq_keeps (Q : Parts) (s : State) (q : Nat) (ws : List Dword) : At Q (State.setTeq s q ws) = At Q s := by
  unfold State.setTeq; simp only [same_mk, same_fold]

theorem State.teqDrain_keeps (Q : Parts) (s : State) (q : Nat) (x0 : Nat) : At Q (State.teqDrain s q x0) = At Q s := by
  induction x0 generalizing s with
  | zero => rfl
  | succ n ih =>
    rw [State.teqDrain.eq_def]
    dsimp only
    split
    · simp only [same_ite, ih, State.xngWrite_keeps, State.setTeq_keeps, ite_self]
    · rfl

theorem State.teqSend_keeps (Q : Parts) (s : State) (q : Nat) (w : Dword) : At Q (State.teqSend s q w) = At Q s := by
  unfold State.teqSend; (split <;> simp only [same_ite, ite_self, keepsO_none, keepsP_none, State.countSat_keeps, State.logOnce_keeps, State.setTeq_keeps, State.teqDrain_keeps, State.xngWrite_keeps])

theorem State.teqTake_keeps (Q : Parts) (s : State) (q : Nat) (w : Dword) (h : At Q s) : KeepsO Q (State.teqTake s q w)
  := by
  unfold State.teqTake; (try simp only [same_mk, same_fold, same_ite, ite_fst, ite_snd, ite_self, keeps_next, keeps_ite, keepsO_none, keepsO_some, keepsO_ite, keepsP_none, keepsP_some, keepsP_ite, implies_true, State.setCrossing_keeps, State.setTeq_keeps, h]); repeat' (first | (simp only [same_mk, same_fold, same_ite, ite_fst, ite_snd, ite_self, keeps_next, keeps_ite, keepsO_none, keepsO_some, keepsO_ite, keepsP_none, keepsP_some, keepsP_ite, implies_true, State.setCrossing_keeps, State.setTeq_keeps, h]; done) | split)

theorem State.teqRetract_keeps (Q : Parts) (s : State) (q : Nat) (w : Dword) (h : At Q s) : At Q (State.teqRetract s q
  w) := by
  unfold State.teqRetract; repeat' (first | assumption | (simp only [same_mk, same_fold, same_ite, ite_fst, ite_snd, ite_self, keepsO_none, keepsO_some, keepsO_ite, keepsP_none, keepsP_some, keepsP_ite, implies_true, State.teqTake_keeps, h, *]; done) | with_reducible apply State.did_keeps | with_reducible apply keeps_whenOpen | with_reducible apply grow_foldl | with_reducible apply keepsP_map | with_reducible apply keepsPO_map | with_reducible apply keepsOP_map | with_reducible apply State.teqTake_keeps | (split <;> ((try (have e := congrArg (fun p => At Q (Prod.snd p)) ‹_ = ((_, _) : _ × State)›; simp only [same_mk, same_fold, same_ite, ite_fst, ite_snd, ite_self, keepsO_none, keepsO_some, keepsO_ite, keepsP_none, keepsP_some, keepsP_ite, implies_true, State.teqTake_keeps, h] at e; (try simp only [same_mk, same_fold, same_ite, ite_fst, ite_snd, ite_self, keepsO_none, keepsO_some, keepsO_ite, keepsP_none, keepsP_some, keepsP_ite, implies_true, State.teqTake_keeps, h, ‹At Q _›] at e); (try replace e := Eq.mp e trivial))); (try (have e := congrArg (fun p => At Q (Prod.fst p)) ‹_ = ((_, _) : State × _)›; simp only [same_mk, same_fold, same_ite, ite_fst, ite_snd, ite_self, keepsO_none, keepsO_some, keepsO_ite, keepsP_none, keepsP_some, keepsP_ite, implies_true, State.teqTake_keeps, h] at e; (try simp only [same_mk, same_fold, same_ite, ite_fst, ite_snd, ite_self, keepsO_none, keepsO_some, keepsO_ite, keepsP_none, keepsP_some, keepsP_ite, implies_true, State.teqTake_keeps, h, ‹At Q _›] at e); (try replace e := Eq.mp e trivial))); (try (have e := congrArg (KeepsO Q) ‹_ = some _›; simp only [same_mk, same_fold, same_ite, ite_fst, ite_snd, ite_self, keepsO_none, keepsO_some, keepsO_ite, keepsP_none, keepsP_some, keepsP_ite, implies_true, State.teqTake_keeps, h] at e; (try simp only [same_mk, same_fold, same_ite, ite_fst, ite_snd, ite_self, keepsO_none, keepsO_some, keepsO_ite, keepsP_none, keepsP_some, keepsP_ite, implies_true, State.teqTake_keeps, h, ‹At Q _›] at e); (try replace e := Eq.mp e trivial))); (try (have e := congrArg (KeepsP Q) ‹_ = some _›; simp only [same_mk, same_fold, same_ite, ite_fst, ite_snd, ite_self, keepsO_none, keepsO_some, keepsO_ite, keepsP_none, keepsP_some, keepsP_ite, implies_true, State.teqTake_keeps, h] at e; (try simp only [same_mk, same_fold, same_ite, ite_fst, ite_snd, ite_self, keepsO_none, keepsO_some, keepsO_ite, keepsP_none, keepsP_some, keepsP_ite, implies_true, State.teqTake_keeps, h, ‹At Q _›] at e); (try replace e := Eq.mp e trivial))))) | (intro _) | (simp only [same_mk, same_fold, same_ite, ite_fst, ite_snd, ite_self, keepsO_none, keepsO_some, keepsO_ite, keepsP_none, keepsP_some, keepsP_ite, implies_true, State.teqTake_keeps, h]))

theorem State.teqBefore_keeps (Q : Parts) (s : State) (q : Nat) (w : Dword) (x0 : List Dword) (h : At Q s) : At Q
  (State.teqBefore s q w x0) := by
  induction x0 generalizing s  with
  | nil => first | rfl | assumption | (rw [State.teqBefore.eq_def]; simp only [same_mk, same_fold, same_ite, ite_fst, ite_snd, ite_self, keepsO_none, keepsO_some, keepsO_ite, keepsP_none, keepsP_some, keepsP_ite, implies_true, State.teqSend_keeps, State.teqTake_keeps, h]; done) | simpa only [State.teqBefore] using h
  | cons b l ih =>
    rw [State.teqBefore.eq_def]
    dsimp only
    repeat' (first | assumption | with_reducible apply ih | (simp only [same_mk, same_fold, same_ite, ite_fst, ite_snd, ite_self, keepsO_none, keepsO_some, keepsO_ite, keepsP_none, keepsP_some, keepsP_ite, implies_true, State.teqSend_keeps, State.teqTake_keeps, h, *]; done) | with_reducible apply State.did_keeps | with_reducible apply keeps_whenOpen | with_reducible apply grow_foldl | with_reducible apply keepsP_map | with_reducible apply keepsPO_map | with_reducible apply keepsOP_map | with_reducible apply State.teqTake_keeps | (split <;> ((try (have e := congrArg (fun p => At Q (Prod.snd p)) ‹_ = ((_, _) : _ × State)›; simp only [same_mk, same_fold, same_ite, ite_fst, ite_snd, ite_self, keepsO_none, keepsO_some, keepsO_ite, keepsP_none, keepsP_some, keepsP_ite, implies_true, State.teqSend_keeps, State.teqTake_keeps, h] at e; (try simp only [same_mk, same_fold, same_ite, ite_fst, ite_snd, ite_self, keepsO_none, keepsO_some, keepsO_ite, keepsP_none, keepsP_some, keepsP_ite, implies_true, State.teqSend_keeps, State.teqTake_keeps, h, ‹At Q _›] at e); (try replace e := Eq.mp e trivial))); (try (have e := congrArg (fun p => At Q (Prod.fst p)) ‹_ = ((_, _) : State × _)›; simp only [same_mk, same_fold, same_ite, ite_fst, ite_snd, ite_self, keepsO_none, keepsO_some, keepsO_ite, keepsP_none, keepsP_some, keepsP_ite, implies_true, State.teqSend_keeps, State.teqTake_keeps, h] at e; (try simp only [same_mk, same_fold, same_ite, ite_fst, ite_snd, ite_self, keepsO_none, keepsO_some, keepsO_ite, keepsP_none, keepsP_some, keepsP_ite, implies_true, State.teqSend_keeps, State.teqTake_keeps, h, ‹At Q _›] at e); (try replace e := Eq.mp e trivial))); (try (have e := congrArg (KeepsO Q) ‹_ = some _›; simp only [same_mk, same_fold, same_ite, ite_fst, ite_snd, ite_self, keepsO_none, keepsO_some, keepsO_ite, keepsP_none, keepsP_some, keepsP_ite, implies_true, State.teqSend_keeps, State.teqTake_keeps, h] at e; (try simp only [same_mk, same_fold, same_ite, ite_fst, ite_snd, ite_self, keepsO_none, keepsO_some, keepsO_ite, keepsP_none, keepsP_some, keepsP_ite, implies_true, State.teqSend_keeps, State.teqTake_keeps, h, ‹At Q _›] at e); (try replace e := Eq.mp e trivial))); (try (have e := congrArg (KeepsP Q) ‹_ = some _›; simp only [same_mk, same_fold, same_ite, ite_fst, ite_snd, ite_self, keepsO_none, keepsO_some, keepsO_ite, keepsP_none, keepsP_some, keepsP_ite, implies_true, State.teqSend_keeps, State.teqTake_keeps, h] at e; (try simp only [same_mk, same_fold, same_ite, ite_fst, ite_snd, ite_self, keepsO_none, keepsO_some, keepsO_ite, keepsP_none, keepsP_some, keepsP_ite, implies_true, State.teqSend_keeps, State.teqTake_keeps, h, ‹At Q _›] at e); (try replace e := Eq.mp e trivial))))) | (intro _) | (simp only [same_mk, same_fold, same_ite, ite_fst, ite_snd, ite_self, keepsO_none, keepsO_some, keepsO_ite, keepsP_none, keepsP_some, keepsP_ite, implies_true, State.teqSend_keeps, State.teqTake_keeps, h]))

theorem State.teqCapture_keeps (Q : Parts) (s : State) (q : Nat) (n : Nat) (w : Dword) (h : At Q s) : At Q
  (State.teqCapture s q n w) := by
  unfold State.teqCapture; simp only [same_mk, same_fold, same_ite, ite_fst, ite_snd, ite_self, implies_true,
  State.teqBefore_keeps, h]

theorem State.settleTimer_keeps (Q : Parts) (s : State) (n : Nat) : At Q (State.settleTimer s n) = At Q s := by
  unfold State.settleTimer; simp only [same_mk, same_fold, keepsO_none, keepsP_none, State.setWide_keeps, State.setBit_keeps]

theorem State.zeroFrozen_keeps (Q : Parts) (s : State) (n : Nat) : At Q (State.zeroFrozen s n) = At Q s := by
  unfold State.zeroFrozen; simp only [same_mk, same_fold, keepsO_none, keepsP_none, State.setWide_keeps]

theorem State.timerReset_keeps (Q : Parts) (s : State) (n : Nat) : At Q (State.timerReset s n) = At Q s := by
  unfold State.timerReset; simp only [same_ite, ite_self, State.setFld_keeps, State.setWide_keeps, State.clear_keeps,
    State.settleTimer_keeps, State.zeroFrozen_keeps]

theorem State.timerStart_keeps (Q : Parts) (s : State) (n : Nat) : At Q (State.timerStart s n) = At Q s := by
  unfold State.timerStart; simp only [same_ite, ite_self, State.setFld_keeps, State.settleTimer_keeps, State.timerReset_keeps]

theorem State.timerStop_keeps (Q : Parts) (s : State) (n : Nat) : At Q (State.timerStop s n) = At Q s := by
  unfold State.timerStop; simp only [same_ite, ite_self, State.setFld_keeps, State.settleTimer_keeps]

theorem State.timerCommand_keeps (Q : Parts) (s : State) (n : Nat) (reset stop start : Bool) : At Q
  (State.timerCommand s n reset stop start) = At Q s := by
  unfold State.timerCommand; simp only [same_ite, ite_self, State.timerReset_keeps, State.timerStart_keeps, State.timerStop_keeps]

theorem State.markActed_keeps (Q : Parts) (s : State) (n : Nat) : At Q (State.markActed s n) = At Q s := by
  unfold State.markActed; simp only [same_mk, same_fold, same_ite, ite_fst, ite_snd, ite_self, implies_true]

theorem State.markMoved_keeps (Q : Parts) (s : State) (n : Nat) : At Q (State.markMoved s n) = At Q s := by
  unfold State.markMoved; simp only [same_mk, same_fold, same_ite, ite_fst, ite_snd, ite_self, implies_true]

theorem State.linkAct_keeps (Q : Parts) (s : State) (n : Nat) (op : Nat) : At Q (State.linkAct s n op) = At Q s := by
  unfold State.linkAct; simp only [same_mk, same_fold, same_ite, ite_fst, ite_snd, ite_self, implies_true,
  State.markActed_keeps, State.markMoved_keeps, State.timerCommand_keeps]

theorem State.windowAct_keeps (Q : Parts) (s : State) (u : Nat) (op : Nat) : At Q (State.windowAct s u op) = At Q s :=
  by
  unfold State.windowAct; simp only [same_mk, same_fold, same_ite, ite_fst, ite_snd, ite_self, implies_true,
  State.clear_keeps, State.raise_keeps, State.setBit_keeps]

theorem State.actTimers_keeps (Q : Parts) (s : State) (f : Fire) : At Q (State.actTimers s f) = At Q s := by
  unfold State.actTimers; (try simp only [same_mk, same_fold, same_ite, ite_fst, ite_snd, ite_self, keepsO_none, keepsO_some, keepsO_ite, keepsP_none, keepsP_some, keepsP_ite, implies_true, State.linkAct_keeps]); repeat' (first | (simp only [same_mk, same_fold, same_ite, ite_fst, ite_snd, ite_self, keepsO_none, keepsO_some, keepsO_ite, keepsP_none, keepsP_some, keepsP_ite, implies_true, State.linkAct_keeps]; done) | split)

theorem State.actEvent_keeps (Q : Parts) (s : State) (f : Fire) : At Q (State.actEvent s f) = At Q s := by
  unfold State.actEvent; simp only [same_mk, same_fold, same_ite, ite_fst, ite_snd, ite_self, implies_true,
  State.teqSend_keeps]

theorem State.actSheet_keeps (Q : Parts) (s : State) (f : Fire) : At Q (State.actSheet s f) = At Q s := by
  unfold State.actSheet; simp only [same_mk, same_fold, same_ite, ite_fst, ite_snd, ite_self, implies_true,
  State.sheetAct_keeps]

theorem State.actWindow_keeps (Q : Parts) (s : State) (f : Fire) : At Q (State.actWindow s f) = At Q s := by
  unfold State.actWindow; simp only [same_mk, same_fold, same_ite, ite_fst, ite_snd, ite_self, implies_true,
  State.windowAct_keeps]

theorem State.applyFires_keeps (Q : Parts) (s : State) (fs : List Fire) : At Q (State.applyFires s fs) = At Q s := by
  unfold State.applyFires; simp only [same_mk, same_fold, same_ite, same_foldl, same_foldl_snd, same_foldl_fst, ite_fst,
  ite_snd, ite_self, implies_true, State.actEvent_keeps, State.actSheet_keeps, State.actTimers_keeps,
  State.actWindow_keeps]

theorem State.armCompare_keeps (Q : Parts) (s : State) (n v : Nat) : At Q (State.armCompare s n v) = At Q s := by
  unfold State.armCompare; simp only [same_mk, same_fold, same_ite, ite_self, State.setWide_keeps, State.raise_keeps]

theorem State.eventArm_keeps (Q : Parts) (s : State) (n : Nat) (stamp : Nat) : At Q (State.eventArm s n stamp) = At Q s
  := by
  unfold State.eventArm; simp only [same_mk, same_fold, same_ite, ite_fst, ite_snd, ite_self, implies_true,
  State.armCompare_keeps, State.raise_keeps]

theorem State.fireCompare_keeps (Q : Parts) (s : State) (n : Nat) : At Q (State.fireCompare s n) = At Q s := by
  unfold State.fireCompare; simp only [same_mk, same_fold, same_ite, ite_fst, ite_snd, ite_self, implies_true,
  State.clear_keeps, State.log_keeps, State.pendBit_keeps, State.setBit_keeps, State.setFld_keeps, State.setWide_keeps]

theorem State.evalCompare_keeps (Q : Parts) (s : State) (n : Nat) : At Q (State.evalCompare s n) = At Q s := by
  unfold State.evalCompare; simp only [same_mk, same_fold, same_ite, ite_fst, ite_snd, ite_self, implies_true,
  State.applyFires_keeps, State.fireCompare_keeps]

theorem execCompareFire_keeps (Q : Parts) (n : Fin 256) (s : State) (h : At Q s) : Keeps Q (execCompareFire n s) := by
  unfold execCompareFire; simp only [same_mk, same_fold, same_ite, ite_fst, ite_snd, ite_self, keeps_next, keeps_ite,
  implies_true, State.evalCompare_keeps, h]

theorem State.commitCompare_keeps (Q : Parts) (s : State) (n : Nat) (v : Nat) : At Q (State.commitCompare s n v) = At Q
  s := by
  unfold State.commitCompare; simp only [same_mk, same_fold, same_ite, ite_fst, ite_snd, ite_self, implies_true,
  State.armCompare_keeps, State.clear_keeps, State.evalCompare_keeps]

theorem execCmpValCommit_keeps (Q : Parts) (p : Path) (n : Fin 256) (lo : Word) (s : State) (h : At Q s) : Keeps Q
  (execCmpValCommit p n lo s) := by
  unfold execCmpValCommit; simp only [same_mk, same_fold, same_ite, ite_fst, ite_snd, ite_self, keeps_next, keeps_ite,
  implies_true, State.mirrorGuard, State.commitCompare_keeps, State.commitWide_keeps, State.mirrorRefused_keeps,
  keeps_whenOpen, h]

theorem State.timerWake_keeps (Q : Parts) (s : State) (n : Nat) : At Q (State.timerWake s n) = At Q s := by
  unfold State.timerWake; simp only [same_mk, same_fold, same_ite, ite_fst, ite_snd, ite_self, implies_true,
  State.raiseBit_keeps]

theorem State.overflowTimer_keeps (Q : Parts) (s : State) (n : Nat) : At Q (State.overflowTimer s n) = At Q s := by
  unfold State.overflowTimer; simp only [same_mk, same_fold, same_ite, ite_fst, ite_snd, ite_self, implies_true,
  State.clear_keeps, State.countSat_keeps, State.log_keeps, State.pendBit_keeps, State.setWide_keeps,
  State.timerWake_keeps]

theorem State.matchTimer_keeps (Q : Parts) (s : State) (n : Nat) : At Q (State.matchTimer s n) = At Q s := by
  unfold State.matchTimer; simp only [same_mk, same_fold, same_ite, ite_fst, ite_snd, ite_self, implies_true,
  State.pendBit_keeps, State.raise_keeps, State.timerWake_keeps]

theorem State.evalOverflow_keeps (Q : Parts) (s : State) (n : Nat) : At Q (State.evalOverflow s n) = At Q s := by
  unfold State.evalOverflow; simp only [same_mk, same_fold, same_ite, ite_fst, ite_snd, ite_self, implies_true,
  State.applyFires_keeps, State.overflowTimer_keeps]

theorem State.evalTimer_keeps (Q : Parts) (s : State) (n : Nat) : At Q (State.evalTimer s n) = At Q s := by
  unfold State.evalTimer; simp only [same_mk, same_fold, same_ite, ite_fst, ite_snd, ite_self, implies_true,
  State.applyFires_keeps, State.evalOverflow_keeps, State.markActed_keeps, State.matchTimer_keeps]

theorem execTimerOverflow_keeps (Q : Parts) (n : Fin 64) (s : State) (h : At Q s) : Keeps Q (execTimerOverflow n s) :=
  by
  unfold execTimerOverflow; simp only [same_mk, same_fold, same_ite, ite_fst, ite_snd, ite_self, keeps_next, keeps_ite,
  implies_true, State.evalOverflow_keeps, h]

theorem execTimerMatch_keeps (Q : Parts) (n : Fin 64) (s : State) (h : At Q s) : Keeps Q (execTimerMatch n s) := by
  unfold execTimerMatch; simp only [same_mk, same_fold, same_ite, ite_fst, ite_snd, ite_self, keeps_next, keeps_ite,
  implies_true, State.evalTimer_keeps, h]

theorem State.timerOrder_keeps (Q : Parts) (s : State) (n : Nat) (reset : Bool) (stop : Bool) (start : Bool) : At Q
  (State.timerOrder s n reset stop start) = At Q s := by
  unfold State.timerOrder; simp only [same_mk, same_fold, same_ite, ite_fst, ite_snd, ite_self, implies_true,
  State.timerSoftware, State.evalTimer_keeps, State.log_keeps, State.markActed_keeps, State.markMoved_keeps,
  State.mirrorRefused_keeps, State.timerCommand_keeps]

theorem State.settleHalted_keeps (Q : Parts) (s : State) : At Q (State.settleHalted s) = At Q s := by
  unfold State.settleHalted; simp only [same_mk, same_fold, same_ite, same_foldl, same_foldl_snd, same_foldl_fst,
  ite_fst, ite_snd, ite_self, implies_true, State.markMoved_keeps, State.settleTimer_keeps]

theorem State.fireCompares_keeps (Q : Parts) (s : State) (cs : List Nat) : At Q (State.fireCompares s cs) = At Q s := by
  unfold State.fireCompares; simp only [same_mk, same_fold, same_ite, same_foldl, same_foldl_snd, same_foldl_fst,
  ite_fst, ite_snd, ite_self, implies_true, State.applyFires_keeps, State.fireCompare_keeps]

theorem State.evalBeat_keeps (Q : Parts) (s : State) : At Q (State.evalBeat s) = At Q s := by
  unfold State.evalBeat; simp only [same_mk, same_fold, same_ite, same_foldl, same_foldl_snd, same_foldl_fst, ite_fst,
  ite_snd, ite_self, implies_true, State.applyFires_keeps, State.fireCompare_keeps, State.matchTimer_keeps,
  State.overflowTimer_keeps]

theorem execTimerStart_keeps (Q : Parts) (n : Fin 64) (s : State) (h : At Q s) : Keeps Q (execTimerStart n s) := by
  unfold execTimerStart; simp only [same_mk, same_fold, same_ite, ite_fst, ite_snd, ite_self, keeps_next, keeps_ite,
  implies_true, State.timerOrder_keeps, keeps_whenOpen, h]

theorem execTimerStop_keeps (Q : Parts) (n : Fin 64) (s : State) (h : At Q s) : Keeps Q (execTimerStop n s) := by
  unfold execTimerStop; simp only [same_mk, same_fold, same_ite, ite_fst, ite_snd, ite_self, keeps_next, keeps_ite,
  implies_true, State.timerOrder_keeps, keeps_whenOpen, h]

theorem execTimerReset_keeps (Q : Parts) (n : Fin 64) (s : State) (h : At Q s) : Keeps Q (execTimerReset n s) := by
  unfold execTimerReset; simp only [same_mk, same_fold, same_ite, ite_fst, ite_snd, ite_self, keeps_next, keeps_ite,
  implies_true, State.timerOrder_keeps, keeps_whenOpen, h]

theorem execTimerOriginCommit_keeps (Q : Parts) (p : Path) (n : Fin 64) (lo : Word) (s : State) (h : At Q s) : Keeps Q
  (execTimerOriginCommit p n lo s) := by
  unfold execTimerOriginCommit; simp only [same_mk, same_fold, same_ite, ite_fst, ite_snd, ite_self, keeps_next,
  keeps_ite, implies_true, State.mirrorGuard, State.commitWide_keeps, State.evalTimer_keeps, State.markActed_keeps,
  State.mirrorRefused_keeps, State.setWide_keeps, keeps_whenOpen, h]

theorem execTimerPeriodWrite_keeps (Q : Parts) (p : Path) (n : Fin 64) (lo : Word) (s : State) (h : At Q s) : Keeps Q
  (execTimerPeriodWrite p n lo s) := by
  unfold execTimerPeriodWrite; simp only [same_mk, same_fold, same_ite, ite_fst, ite_snd, ite_self, keeps_next,
  keeps_ite, implies_true, State.commitWide_keeps, State.evalTimer_keeps, State.log_keeps, State.markActed_keeps,
  State.mirrorRefused_keeps, State.setWide_keeps, keeps_whenOpen, h]

theorem State.gstartOne_keeps (Q : Parts) (s : State) (origin n : Nat) : At Q (State.gstartOne s origin n) = At Q s := by
  unfold State.gstartOne; simp only [State.setFld_keeps, State.setWide_keeps, State.clear_keeps, State.settleTimer_keeps,
    State.zeroFrozen_keeps]

theorem State.gstart_keeps (Q : Parts) (s : State) (origin : Nat) : At Q (State.gstart s origin) = At Q s := by
  unfold State.gstart; simp only [same_mk, same_fold, same_ite, same_foldl, same_foldl_snd, same_foldl_fst, ite_fst,
  ite_snd, ite_self, implies_true, State.timerSoftware, State.evalTimer_keeps, State.gstartOne_keeps, State.log_keeps,
  State.markActed_keeps, State.mirrorRefused_keeps]

theorem execGstartNow_keeps (Q : Parts) (s : State) (h : At Q s) : Keeps Q (execGstartNow s) := by
  unfold execGstartNow; simp only [keeps_whenOpen, State.gstart_keeps, h]

theorem execGstartAt_keeps (Q : Parts) (s : State) (h : At Q s) : Keeps Q (execGstartAt s) := by
  unfold execGstartAt; simp only [keeps_whenOpen, State.gstart_keeps, h]

theorem State.setCap_keeps (Q : Parts) (s : State) (n : Nat) (u : CapUnit) : At Q (State.setCap s n u) = At Q s := by
  unfold State.setCap; simp only [same_mk, same_fold]

theorem State.undoEdge_keeps (Q : Parts) (s : State) (n : Nat) (h : At Q s) : At Q (State.undoEdge s n) := by
  unfold State.undoEdge; (try simp only [same_mk, same_fold, same_ite, same_foldl, same_foldl_snd, same_foldl_fst, ite_fst, ite_snd, ite_self, keepsO_none, keepsO_some, keepsO_ite, keepsP_none, keepsP_some, keepsP_ite, implies_true, State.setFld_keeps, State.teqRetract_keeps, h]); repeat' (first | (simp only [same_mk, same_fold, same_ite, same_foldl, same_foldl_snd, same_foldl_fst, ite_fst, ite_snd, ite_self, keepsO_none, keepsO_some, keepsO_ite, keepsP_none, keepsP_some, keepsP_ite, implies_true, State.setFld_keeps, State.teqRetract_keeps, h]; done) | split)

theorem State.logOverrun_keeps (Q : Parts) (s : State) (n : Nat) : At Q (State.logOverrun s n) = At Q s := by
  unfold State.logOverrun; simp only [same_mk, same_fold, same_ite, ite_fst, ite_snd, ite_self, implies_true,
  State.logOnce_keeps, State.setCap_keeps]

theorem State.capGlitch_keeps (Q : Parts) (s : State) (n : Nat) : At Q (State.capGlitch s n) = At Q s := by
  unfold State.capGlitch; simp only [same_mk, same_fold, same_ite, ite_fst, ite_snd, ite_self, implies_true,
  State.log_keeps, State.raise_keeps]

theorem State.publishRise_keeps (Q : Parts) (s : State) (n at_ : Nat) (prev : Option (Nat × Nat)) : At Q
  (State.publishRise s n at_ prev) = At Q s := by
  unfold State.publishRise; (split <;> simp only [keepsO_none, keepsP_none, State.setFld_keeps, State.setWide_keeps, State.pendBit_keeps, State.raise_keeps, State.setBit_keeps])

theorem State.leadingEdge_keeps (Q : Parts) (s : State) (n : Nat) (at_ : Nat) (h : At Q s) : At Q (State.leadingEdge s n
  at_) := by
  unfold State.leadingEdge; simp only [same_mk, same_fold, same_ite, ite_fst, ite_snd, ite_self, keepsO_none,
  keepsO_some, keepsO_ite, keepsP_none, keepsP_some, keepsP_ite, implies_true, State.countSat_keeps,
  State.logOverrun_keeps, State.publishRise_keeps, State.raise_keeps, State.setCap_keeps, State.teqCapture_keeps, h]

theorem execCaptureLeadingEdge_keeps (Q : Parts) (n : Fin 64) (fine : Fin 40) (s : State) (h : At Q s) : Keeps Q
  (execCaptureLeadingEdge n fine s) := by
  unfold execCaptureLeadingEdge; (try simp only [same_mk, same_fold, same_ite, ite_fst, ite_snd, ite_self, keeps_next, keeps_ite, keepsO_none, keepsO_some, keepsO_ite, keepsP_none, keepsP_some, keepsP_ite, implies_true, State.capGlitch_keeps, State.leadingEdge_keeps, State.setCap_keeps, State.undoEdge_keeps, h]); repeat' (first | (simp only [same_mk, same_fold, same_ite, ite_fst, ite_snd, ite_self, keeps_next, keeps_ite, keepsO_none, keepsO_some, keepsO_ite, keepsP_none, keepsP_some, keepsP_ite, implies_true, State.capGlitch_keeps, State.leadingEdge_keeps, State.setCap_keeps, State.undoEdge_keeps, h]; done) | split)

theorem State.publishFall_keeps (Q : Parts) (s : State) (n at_ lead steps : Nat) : At Q
  (State.publishFall s n at_ lead steps) = At Q s := by
  unfold State.publishFall; simp only [same_ite, ite_self, State.setFld_keeps, State.setWide_keeps, State.clear_keeps,
    State.raise_keeps]

theorem State.trailingEdge_keeps (Q : Parts) (s : State) (n : Nat) (at_ : Nat) (lead : Nat) (steps : Nat) (h : At Q s) :
  At Q (State.trailingEdge s n at_ lead steps) := by
  unfold State.trailingEdge; simp only [same_mk, same_fold, same_ite, ite_fst, ite_snd, ite_self, keepsO_none,
  keepsO_some, keepsO_ite, keepsP_none, keepsP_some, keepsP_ite, implies_true, State.logOverrun_keeps,
  State.publishFall_keeps, State.setCap_keeps, State.teqCapture_keeps, h]

theorem State.uncountOverrun_keeps (Q : Parts) (s : State) (n : Nat) : At Q (State.uncountOverrun s n) = At Q s := by
  unfold State.uncountOverrun; simp only [same_mk, same_fold, same_ite, ite_fst, ite_snd, ite_self, implies_true,
  State.setFld_keeps]

theorem execCaptureTrailingEdge_keeps (Q : Parts) (n : Fin 64) (fine : Fin 40) (s : State) (h : At Q s) : Keeps Q
  (execCaptureTrailingEdge n fine s) := by
  unfold execCaptureTrailingEdge; (try simp only [same_mk, same_fold, same_ite, ite_fst, ite_snd, ite_self, keeps_next, keeps_ite, keepsO_none, keepsO_some, keepsO_ite, keepsP_none, keepsP_some, keepsP_ite, implies_true, State.capGlitch_keeps, State.setCap_keeps, State.trailingEdge_keeps, State.uncountOverrun_keeps, State.undoEdge_keeps, h]); repeat' (first | (simp only [same_mk, same_fold, same_ite, ite_fst, ite_snd, ite_self, keeps_next, keeps_ite, keepsO_none, keepsO_some, keepsO_ite, keepsP_none, keepsP_some, keepsP_ite, implies_true, State.capGlitch_keeps, State.setCap_keeps, State.trailingEdge_keeps, State.uncountOverrun_keeps, State.undoEdge_keeps, h]; done) | split)

theorem State.capturesBeat_keeps (Q : Parts) (s : State) : At Q (State.capturesBeat s) = At Q s := by
  unfold State.capturesBeat; simp only [same_mk, same_fold, same_ite, same_foldl, same_foldl_snd, same_foldl_fst,
  ite_fst, ite_snd, ite_self, keepsO_none, keepsO_some, keepsO_ite, keepsP_none, keepsP_some, keepsP_ite, implies_true,
  State.logOverrun_keeps]

theorem execCaptureRiseRead_keeps (Q : Parts) (p : Path) (n : Fin 64) (s : State) (h : At Q s) : Keeps Q
  (execCaptureRiseRead p n s) := by
  unfold execCaptureRiseRead; simp only [same_mk, same_fold, keeps_whenOpen, State.setPath_keeps, State.clear_keeps, h]

theorem execCaptureWinOpen_keeps (Q : Parts) (n : Fin 64) (s : State) (h : At Q s) : Keeps Q (execCaptureWinOpen n s) :=
  by
  unfold execCaptureWinOpen; simp only [same_mk, same_fold, same_ite, ite_fst, ite_snd, ite_self, keeps_next, keeps_ite,
  implies_true, State.raise_keeps, h]

theorem execCaptureWinClose_keeps (Q : Parts) (n : Fin 64) (s : State) (h : At Q s) : Keeps Q (execCaptureWinClose n s)
  := by
  unfold execCaptureWinClose; simp only [same_mk, same_fold, same_ite, ite_fst, ite_snd, ite_self, keeps_next,
  keeps_ite, implies_true, State.clear_keeps, h]

end Sys2Proof.Machine
end

