-- ==== Sys2Proof/Laws/KeepsCalibration.lean ====
section
/-! SUPPORT. What the definitions of Calibration leave as they are: the waiting commands and the fuse words. -/

namespace Sys2Proof.Machine

open Sys2Proof

set_option simprocs false
set_option linter.unusedSimpArgs false
set_option linter.all false

theorem State.adoptCal_keeps (Q : Parts) (s : State) (i : Nat) (code : Nat) : At Q (State.adoptCal s i code) = At Q s :=
  by
  unfold State.adoptCal; simp only [same_mk, same_fold, same_ite, ite_fst, ite_snd, ite_self, implies_true,
  State.clear_keeps, State.setFld_keeps]

theorem State.measure7_keeps (Q : Parts) (s : State) (x0 x1 : List Nat) : At Q (State.measure7 s x0 x1).2 = At Q s := by
  induction x0 generalizing s x1 with
  | nil => cases x1 <;> rfl
  | cons b l ih =>
    cases x1 with
    | nil => rw [State.measure7]; simp only [ih, State.open_keeps]
    | cons => rw [State.measure7]; simp only [ih]

theorem State.measured_keeps (Q : Parts) (s : State) (codes : List Nat) (h : At Q s) : At Q (State.measured s codes).2
  := by
  unfold State.measured; simp only [same_mk, same_fold, same_ite, ite_fst, ite_snd, ite_self, implies_true,
  State.measure7_keeps, h]

theorem State.calibrate_keeps (Q : Parts) (s : State) (codes : List Nat) (h : At Q s) : At Q (State.calibrate s codes)
  := by
  unfold State.calibrate; simp only [same_mk, same_fold, same_ite, same_foldl, same_foldl_snd, same_foldl_fst, ite_fst,
  ite_snd, ite_self, implies_true, State.adoptCal_keeps, State.measured_keeps, h]

theorem State.adoptAtGap_keeps (Q : Parts) (s : State) (i : Nat) : At Q (State.adoptAtGap s i) = At Q s := by
  unfold State.adoptAtGap; (try simp only [same_mk, same_fold, same_ite, ite_fst, ite_snd, ite_self, keepsO_none, keepsO_some, keepsO_ite, keepsP_none, keepsP_some, keepsP_ite, implies_true, State.adoptCal_keeps, State.setSheet_keeps]); repeat' (first | (simp only [same_mk, same_fold, same_ite, ite_fst, ite_snd, ite_self, keepsO_none, keepsO_some, keepsO_ite, keepsP_none, keepsP_some, keepsP_ite, implies_true, State.adoptCal_keeps, State.setSheet_keeps]; done) | split)

theorem State.calBusy_keeps (Q : Parts) (s : State) : At Q (State.calBusy s) = At Q s := by
  unfold State.calBusy; simp only [same_mk, same_fold, same_ite, ite_fst, ite_snd, ite_self, implies_true,
  State.setBit_keeps]

theorem execSheetRecal_keeps (Q : Parts) (codes : List Nat) (s : State) (h : At Q s) : Keeps Q (execSheetRecal codes s)
  := by
  unfold execSheetRecal; simp only [same_mk, same_fold, same_ite, same_foldl, same_foldl_snd, same_foldl_fst, ite_fst,
  ite_snd, ite_self, keeps_next, keeps_ite, keepsO_none, keepsO_some, keepsO_ite, keepsP_none, keepsP_some, keepsP_ite,
  implies_true, State.adoptAtGap_keeps, State.calBusy_keeps, State.measured_keeps, State.setSheet_keeps, keeps_whenOpen,
  h]

theorem State.trackPath_keeps (Q : Parts) (s : State) (i : Nat) (code : Nat) : At Q (State.trackPath s i code) = At Q s
  := by
  unfold State.trackPath; simp only [same_mk, same_fold, same_ite, ite_fst, ite_snd, ite_self, implies_true,
  State.setFld_keeps]

theorem execCalibrationTrack_keeps (Q : Parts) (codes : List Nat) (s : State) (h : At Q s) : Keeps Q
  (execCalibrationTrack codes s) := by
  unfold execCalibrationTrack; simp only [same_mk, same_fold, same_ite, same_foldl, same_foldl_snd, same_foldl_fst,
  ite_fst, ite_snd, ite_self, keeps_next, keeps_ite, implies_true, State.measured_keeps, State.trackPath_keeps, h]

theorem State.sheetsBeat_keeps (Q : Parts) (s : State) : At Q (State.sheetsBeat s) = At Q s := by
  unfold State.sheetsBeat; simp only [same_mk, same_fold, same_ite, same_foldl, same_foldl_snd, same_foldl_fst, ite_fst,
  ite_snd, ite_self, implies_true, State.adoptAtGap_keeps, State.calBusy_keeps, State.sheetBeat_keeps]

end Sys2Proof.Machine
end

