-- ==== Sys2Proof/Laws/KeepsPins.lean ====
section
/-! SUPPORT. What the definitions of Pins leave as they are: the waiting commands and the fuse words. -/

namespace Sys2Proof.Machine

open Sys2Proof

set_option simprocs false
set_option linter.unusedSimpArgs false
set_option linter.all false

theorem State.pinSees_keeps (Q : Parts) (s : State) (n : Nat) (level : Bool) : At Q (State.pinSees s n level) = At Q s := by
  unfold State.pinSees; simp only [State.setBit_keeps]

theorem State.vioCheckBank_keeps (Q : Parts) (s : State) (b mV : Nat) : At Q (State.vioCheckBank s b mV) = At Q s := by
  unfold State.vioCheckBank; (split <;> simp only [same_mk, same_fold, same_ite, ite_self, keepsO_none, keepsP_none, State.log_keeps, State.setBit_keeps])

theorem State.vioCheckAll_keeps (Q : Parts) (s : State) (mV : List Nat) : At Q (State.vioCheckAll s mV) = At Q s := by
  unfold State.vioCheckAll; simp only [same_foldl, implies_true, State.vioCheckBank_keeps]

theorem execVioCheck_keeps (Q : Parts) (mV : List Nat) (s : State) (h : At Q s) : Keeps Q (execVioCheck mV s) := by
  unfold execVioCheck; simp only [same_ite, ite_self, keeps_next, State.vioCheckAll_keeps, h]

theorem execGpioStaticWrite_keeps (Q : Parts) (_p : Path) (oe : Bool) (b : Fin 16) (v : Word) (s : State) (h : At Q s) :
  Keeps Q (execGpioStaticWrite _p oe b v s) := by
  unfold execGpioStaticWrite; simp only [same_ite, ite_self, keeps_whenOpen, State.setReg_keeps, State.log_keeps,
    State.mirrorMerge_keeps, h]

theorem State.setLine_keeps (Q : Parts) (s : State) (n : Nat) (e : EventLine) : At Q (State.setLine s n e) = At Q s := by
  unfold State.setLine; simp only [same_mk, same_fold]

theorem State.logLine_keeps (Q : Parts) (s : State) (n : Nat) : At Q (State.logLine s n) = At Q s := by
  unfold State.logLine; simp only [same_mk, same_fold, same_ite, ite_fst, ite_snd, ite_self, implies_true,
  State.log_keeps, State.setLine_keeps]

theorem State.lineToken_keeps (Q : Parts) (s : State) (n : Nat) (level : Bool) : At Q (State.lineToken s n level) = At Q s := by
  unfold State.lineToken; (repeat' (first | (simp only [same_ite, ite_self, keepsO_none, keepsP_none, State.log_keeps, State.raise_keeps, State.setLine_keeps]; done) | split))

theorem State.disarm_keeps (Q : Parts) (s : State) (k : ArmMark) : At Q (State.disarm s k) = At Q s := by
  unfold State.disarm; simp only [same_mk, same_fold, same_ite, ite_fst, ite_snd, ite_self, implies_true,
  State.setBit_keeps, State.setWide_keeps]

theorem State.lineTrigger_keeps (Q : Parts) (s : State) (n : Nat) (stamp : Nat) (level : Bool) (edgeMode : Bool) : At Q
  (State.lineTrigger s n stamp level edgeMode) = At Q s := by
  unfold State.lineTrigger; simp only [same_mk, same_fold, same_ite, same_foldl, same_foldl_snd, same_foldl_fst,
  ite_fst, ite_snd, ite_self, keepsO_none, keepsO_some, keepsO_ite, keepsP_none, keepsP_some, keepsP_ite, implies_true,
  State.countWrap_keeps, State.eventArm_keeps, State.lineToken_keeps, State.raise_keeps, State.setLine_keeps,
  State.setWide_keeps]

theorem State.undoTrigger_keeps (Q : Parts) (s : State) (n : Nat) : At Q (State.undoTrigger s n) = At Q s := by
  unfold State.undoTrigger; simp only [same_mk, same_fold, same_ite, same_foldl, same_foldl_snd, same_foldl_fst,
  ite_fst, ite_snd, ite_self, keepsO_none, keepsO_some, keepsO_ite, keepsP_none, keepsP_some, keepsP_ite, implies_true,
  State.disarm_keeps, State.setFld_keeps, State.setLine_keeps]

theorem execEventLineTrigger_keeps (Q : Parts) (n : Fin 16) (level : Bool) (fine : Fin 40) (s : State) (h : At Q s) :
  Keeps Q (execEventLineTrigger n level fine s) := by
  unfold execEventLineTrigger; simp only [same_mk, same_fold, same_ite, ite_fst, ite_snd, ite_self, keeps_next,
  keeps_ite, keepsO_none, keepsO_some, keepsO_ite, keepsP_none, keepsP_some, keepsP_ite, implies_true,
  State.lineTrigger_keeps, State.logLine_keeps, State.pinSees_keeps, State.setLine_keeps, State.undoTrigger_keeps, h]

theorem execEvCfgWrite_keeps (Q : Parts) (_p : Path) (n : Fin 16) (v : Word) (s : State) (h : At Q s) : Keeps Q
  (execEvCfgWrite _p n v s) := by
  unfold execEvCfgWrite; simp only [same_mk, same_fold, same_ite, ite_fst, ite_snd, ite_self, keeps_next, keeps_ite,
  keepsO_none, keepsO_some, keepsO_ite, keepsP_none, keepsP_some, keepsP_ite, implies_true, State.log_keeps,
  State.logLine_keeps, State.mirrorMerge_keeps, State.setLine_keeps, State.setReg_keeps, keeps_whenOpen, h]

theorem State.linesBeat_keeps (Q : Parts) (s : State) : At Q (State.linesBeat s) = At Q s := by
  unfold State.linesBeat; simp only [same_mk, same_fold, same_ite, same_foldl, same_foldl_snd, same_foldl_fst, ite_fst,
  ite_snd, ite_self, implies_true, State.logLine_keeps, State.raise_keeps]

end Sys2Proof.Machine
end

