-- ==== Sys2Proof/Laws/KeepsLanes.lean ====
section
/-! SUPPORT. What the definitions of Lanes leave as they are: the waiting commands and the fuse words. -/

namespace Sys2Proof.Machine

open Sys2Proof

set_option simprocs false
set_option linter.unusedSimpArgs false
set_option linter.all false

theorem State.setLane_keeps (Q : Parts) (s : State) (k : Nat) (u : LaneUnit) : At Q (State.setLane s k u) = At Q s := by
  unfold State.setLane; (split <;> simp only [same_mk, same_fold, State.setReg_keeps, State.setWide_keeps, State.setBit_keeps])

theorem State.laneLog_keeps (Q : Parts) (s : State) (k code detail : Nat) : At Q (State.laneLog s k code detail) = At Q s := by
  unfold State.laneLog; simp only [State.log_keeps, State.raise_keeps]

theorem State.laneLogOnce_keeps (Q : Parts) (s : State) (k counter code detail : Nat) : At Q
  (State.laneLogOnce s k counter code detail) = At Q s := by
  unfold State.laneLogOnce; simp only [same_ite, ite_self, State.logOnce_keeps, State.raise_keeps]

theorem State.setLaneState_keeps (Q : Parts) (s : State) (k st : Nat) : At Q (State.setLaneState s k st) = At Q s := by
  unfold State.setLaneState; simp only [same_ite, ite_self, State.setFld_keeps, State.raise_keeps]

theorem execLanePllLock_keeps (Q : Parts) (k : Fin 8) (s : State) (h : At Q s) : Keeps Q (execLanePllLock k s) := by
  unfold execLanePllLock; simp only [same_ite, ite_self, keeps_next, State.raise_keeps, State.setLaneState_keeps, h]

theorem execLaneCdrLock_keeps (Q : Parts) (k : Fin 8) (s : State) (h : At Q s) : Keeps Q (execLaneCdrLock k s) := by
  unfold execLaneCdrLock; simp only [same_ite, ite_self, keeps_next, State.raise_keeps, State.setLaneState_keeps, h]

theorem execLanePcsLock_keeps (Q : Parts) (k : Fin 8) (s : State) (h : At Q s) : Keeps Q (execLanePcsLock k s) := by
  unfold execLanePcsLock; simp only [same_ite, ite_self, keeps_next, State.raise_keeps, State.setBit_keeps,
    State.setLaneState_keeps, h]

theorem State.dropLocks_keeps (Q : Parts) (s : State) (k depth : Nat) : At Q (State.dropLocks s k depth) = At Q s := by
  unfold State.dropLocks; simp only [same_ite, ite_self, State.clear_keeps]

theorem State.laneLoses_keeps (Q : Parts) (s : State) (k : Nat) (what : LaneLock) : At Q (State.laneLoses s k what) = At Q s := by
  unfold State.laneLoses; simp only [same_ite, ite_self, State.dropLocks_keeps, State.laneLog_keeps, State.setLaneState_keeps]

theorem execLaneUp_keeps (Q : Parts) (k : Fin 8) (s : State) (h : At Q s) : Keeps Q (execLaneUp k s) := by
  unfold execLaneUp; simp only [same_ite, ite_self, keeps_whenOpen, State.setLaneState_keeps, h]

theorem State.laneOff_keeps (Q : Parts) (s : State) (k : Nat) : At Q (State.laneOff s k) = At Q s := by
  unfold State.laneOff; simp only [keepsO_none, keepsP_none, State.dropLocks_keeps, State.setLane_keeps, State.setLaneState_keeps]

theorem execLinkFaultSequence_keeps (Q : Parts) (k : Fin 8) (remote on : Bool) (s : State) (h : At Q s) : Keeps Q
  (execLinkFaultSequence k remote on s) := by
  unfold execLinkFaultSequence; simp only [same_ite, ite_self, keeps_next, State.setBit_keeps, h]

theorem State.writeWords_keeps (Q : Parts) (s : State) (n : Nat) (x0 : List Dword) :
    At Q (State.writeWords s n x0).2 = At Q s := by
  induction x0 generalizing s with
  | nil => rfl
  | cons w ws ih =>
    by_cases h : 96 ≤ n
    · simp only [State.writeWords, if_pos h]
    · simp only [State.writeWords, if_neg h, ih, State.xngWrite_keeps]

theorem State.writeDesc_keeps (Q : Parts) (s : State) (k : Nat) (w : Dword) : At Q (State.writeDesc s k w).2 = At Q s := by
  unfold State.writeDesc; simp only [same_ite, ite_snd, ite_self, State.xngWrite_keeps]

theorem State.rxToCrossing_keeps (Q : Parts) (s : State) (k : Nat) (bs : List Byte) (trunc perr : Bool) (stamp : Nat) : At Q
  (State.rxToCrossing s k bs trunc perr stamp) = At Q s := by
  unfold State.rxToCrossing; simp only [same_ite, ite_self, State.countSat_keeps, State.laneLogOnce_keeps,
    State.writeDesc_keeps, State.writeWords_keeps]

theorem State.pushWords_keeps (Q : Parts) (s : State) (n : Nat) (len : Nat) (err : Bool) (x0 : List Dword) :
    At Q (State.pushWords s n len err x0) = At Q s := by
  induction x0 generalizing s with
  | nil => rfl
  | cons w ws ih =>
    cases ws with
    | nil => simp only [State.pushWords, State.fifoPush_keeps]
    | cons v vs => rw [State.pushWords.eq_3 _ _ _ _ _ _ (by nofun)]; simp only [ih, State.fifoPush_keeps]

theorem State.rxToFifo_keeps (Q : Parts) (s : State) (n : Nat) (bs : List Byte) (err : Bool) (stamp : Nat) : At Q
  (State.rxToFifo s n bs err stamp) = At Q s := by
  unfold State.rxToFifo; simp only [State.fifoPush_keeps, State.pushWords_keeps]

theorem State.rxFec_keeps (Q : Parts) (s : State) (k : Nat) (f : RxFrame) : At Q (State.rxFec s k f) = At Q s := by
  unfold State.rxFec; simp only [same_ite, ite_self, State.countSat_keeps, State.laneLogOnce_keeps]

theorem State.rxFrame_keeps (Q : Parts) (s : State) (k : Nat) (f : RxFrame) : At Q (State.rxFrame s k f) = At Q s := by
  unfold State.rxFrame; (repeat' (first | (simp only [same_ite, ite_self, keepsO_none, keepsP_none, State.countSat_keeps, State.countWrap_keeps, State.laneLogOnce_keeps, State.rxFec_keeps, State.rxToCrossing_keeps, State.rxToFifo_keeps]; done) | split))

theorem State.rawStamp_keeps (Q : Parts) (s : State) (k kind : Nat) (w : Dword) : At Q (State.rawStamp s k kind w) = At Q s := by
  unfold State.rawStamp; simp only [same_ite, ite_self, State.countSat_keeps, State.laneLogOnce_keeps, State.writeDesc_keeps]

theorem State.rxRaw_keeps (Q : Parts) (s : State) (k : Nat) (bs : List Byte) : At Q (State.rxRaw s k bs) = At Q s := by
  unfold State.rxRaw; simp only [State.rawStamp_keeps, State.writeWords_keeps]

theorem execReceiveFrame_keeps (Q : Parts) (k : Fin 8) (f : RxFrame) (s : State) (h : At Q s) : Keeps Q
  (execReceiveFrame k f s) := by
  unfold execReceiveFrame; simp only [same_ite, ite_self, keeps_next, keeps_ite, State.rxFrame_keeps, State.rxRaw_keeps, h]

theorem State.srcTake_keeps (Q : Parts) (s : State) (x : Nat) (x0 : Nat) : At Q (State.srcTake s x x0) = At Q s := by
  induction x0 generalizing s with
  | zero => rfl
  | succ n ih =>
    rw [State.srcTake.eq_def]
    dsimp only
    split
    · split
      · rename_i h
        have k := State.xngPull_keeps Q s ‹Nat›
        rw [h] at k
        simp only [ih, State.setSource_keeps, k]
      · rfl
    · split
      · rfl
      · simp only [same_ite, ih, State.setSource_keeps, State.fifoPop_keeps, ite_self]
    · rfl

theorem State.finishFrame_keeps (Q : Parts) (s : State) (k : Nat) (f : TxFrame) : At Q (State.finishFrame s k f) = At Q s := by
  unfold State.finishFrame; simp only [same_ite, ite_self, keepsO_none, keepsP_none, State.laneLog_keeps, State.setLane_keeps]

theorem State.reportLost_keeps (Q : Parts) (s : State) (k : Nat) : At Q (State.reportLost s k) = At Q s := by
  unfold State.reportLost; simp only [same_ite, ite_self, State.laneLog_keeps, State.setLane_keeps]

theorem State.twoStep_keeps (Q : Parts) (s : State) (k : Nat) (f : TxFrame) : At Q (State.twoStep s k f) = At Q s := by
  unfold State.twoStep; (split <;> simp only [same_ite, ite_self, State.raise_keeps, State.reportLost_keeps, State.setLane_keeps, State.writeDesc_keeps])

theorem State.dropRest_keeps (Q : Parts) (s : State) (x n : Nat) : At Q (State.dropRest s x n) = At Q s := by
  unfold State.dropRest; simp only [State.setSource_keeps]

theorem State.useGate_keeps (Q : Parts) (s : State) (x : Nat) : At Q (State.useGate s x) = At Q s := by
  unfold State.useGate; simp only [same_mk, same_fold, same_ite, ite_fst, ite_snd, ite_self, implies_true,
  State.setSheet_keeps]

theorem State.txRefuse_keeps (Q : Parts) (s : State) (k : Nat) (x : Nat) (d : Dword) (n : Nat) : At Q (State.txRefuse s
  k x d n) = At Q s := by
  unfold State.txRefuse; simp only [same_mk, same_fold, same_ite, ite_fst, ite_snd, ite_self, implies_true,
  State.countSat_keeps, State.dropRest_keeps, State.laneLog_keeps, State.srcTake_keeps, State.useGate_keeps]

theorem State.txStart_keeps (Q : Parts) (s : State) (k : Nat) (j : Nat) (d : Dword) (lead : Nat) : At Q (State.txStart s
  k j d lead) = At Q s := by
  unfold State.txStart; simp only [same_mk, same_fold, same_ite, ite_fst, ite_snd, ite_self, keepsO_none, keepsO_some,
  keepsO_ite, keepsP_none, keepsP_some, keepsP_ite, implies_true, State.countWrap_keeps, State.finishFrame_keeps,
  State.setLane_keeps, State.setSource_keeps, State.srcTake_keeps, State.twoStep_keeps, State.useGate_keeps]

theorem State.txRaw_keeps (Q : Parts) (s : State) (k : Nat) (x : Nat) : At Q (State.txRaw s k x) = At Q s := by
  unfold State.txRaw; (try simp only [same_mk, same_fold, same_ite, ite_fst, ite_snd, ite_self, keepsO_none, keepsO_some, keepsO_ite, keepsP_none, keepsP_some, keepsP_ite, implies_true, State.rawStamp_keeps, State.setLane_keeps, State.setSource_keeps, State.srcTake_keeps, State.useGate_keeps]); repeat' (first | (simp only [same_mk, same_fold, same_ite, ite_fst, ite_snd, ite_self, keepsO_none, keepsO_some, keepsO_ite, keepsP_none, keepsP_some, keepsP_ite, implies_true, State.rawStamp_keeps, State.setLane_keeps, State.setSource_keeps, State.srcTake_keeps, State.useGate_keeps]; done) | split)

theorem execTransmitFrameStart_keeps (Q : Parts) (k : Fin 8) (j : Fin 4) (lead : Nat) (s : State) (h : At Q s) : Keeps Q
  (execTransmitFrameStart k j lead s) := by
  unfold execTransmitFrameStart; ((try simp only [ite_self, keeps_next, keeps_ite, keepsO_none, keepsP_none, State.txRaw_keeps, State.txRefuse_keeps, State.txStart_keeps, h]); repeat' (first | (simp only [ite_self, keeps_next, keeps_ite, keepsO_none, keepsP_none, State.txRaw_keeps, State.txRefuse_keeps, State.txStart_keeps, h]; done) | split))

theorem State.laneUnderrun_keeps (Q : Parts) (s : State) (k : Nat) : At Q (State.laneUnderrun s k) = At Q s := by
  unfold State.laneUnderrun; (split <;> simp only [keepsO_none, keepsP_none, State.countSat_keeps, State.dropRest_keeps, State.laneLogOnce_keeps, State.setLane_keeps])

theorem execTransmitUnderrun_keeps (Q : Parts) (k : Fin 8) (s : State) (h : At Q s) : Keeps Q (execTransmitUnderrun k s) := by
  unfold execTransmitUnderrun; simp only [same_ite, ite_self, keeps_next, State.laneUnderrun_keeps, h]

theorem State.laneWord_keeps (Q : Parts) (s : State) (x : Nat) (w : Dword × Byte) : At Q (State.laneWord s x w) = At Q s := by
  unfold State.laneWord; ((try simp only [same_ite, ite_self, keepsO_none, keepsP_none, State.finishFrame_keeps, State.setLane_keeps, State.setSource_keeps]); repeat' (first | (simp only [same_ite, ite_self, keepsO_none, keepsP_none, State.finishFrame_keeps, State.setLane_keeps, State.setSource_keeps]; done) | split))

theorem execTxtsPop_keeps (Q : Parts) (k : Fin 8) (s : State) (h : At Q s) : Keeps Q (execTxtsPop k s) := by
  unfold execTxtsPop; simp only [keeps_whenOpen, State.setLane_keeps, h]

end Sys2Proof.Machine
end

