-- ==== Sys2Proof/Laws/KeepsFlash.lean ====
section
/-! SUPPORT. What the definitions of Flash leave as they are: the waiting commands and the fuse words. -/

namespace Sys2Proof.Machine

open Sys2Proof

set_option simprocs false
set_option linter.unusedSimpArgs false
set_option linter.all false

theorem State.flashPut_keeps (Q : Parts) (s : State) (a : Nat) (bs : List Byte) : At Q (State.flashPut s a bs) = At Q s := by
  unfold State.flashPut; simp only [same_mk, same_fold]

theorem State.sectorErased_keeps (Q : Parts) (s : State) (k : Nat) : At Q (State.sectorErased s k) = At Q s := by
  unfold State.sectorErased; simp only [same_mk, same_fold, keepsO_none, keepsP_none]

theorem State.sectorOpen_keeps (Q : Parts) (s : State) (k : Nat) : At Q (State.sectorOpen s k) = At Q s := by
  unfold State.sectorOpen; simp only [same_mk, same_fold, keepsO_none, keepsP_none, State.sectorErased_keeps]

theorem State.unitCut_keeps (Q : Parts) (s : State) (a : Nat) (bs : List Byte) : At Q (State.unitCut s a bs) = At Q s := by
  unfold State.unitCut; simp only [same_mk, same_fold, same_ite, ite_self, State.open_keeps, State.flashPut_keeps]

theorem State.showBusy_keeps (Q : Parts) (s : State) (b on : Bool) : At Q (State.showBusy s b on) = At Q s := by
  unfold State.showBusy; simp only [State.setBit_keeps]

theorem State.readChunk_keeps (Q : Parts) (s : State) (errs : List (Nat × Nat)) (source c : Nat) (warn : Bool) : At Q
  (State.readChunk s errs source c warn) = At Q s := by
  unfold State.readChunk; simp only [same_ite, ite_self, State.setFld_keeps, State.log_keeps]

theorem State.flashBegins_keeps (Q : Parts) (s : State) : At Q (State.flashBegins s) = At Q s := by
  unfold State.flashBegins; (split <;> simp only [same_mk, same_fold, same_ite, ite_self, keepsO_none, keepsP_none, State.open_keeps])

theorem State.sramPut_keeps (Q : Parts) (s : State) (a : Nat) (bs : List Byte) : At Q (State.sramPut s a bs) = At Q s := by
  unfold State.sramPut; simp only [same_mk, same_fold, State.flashBegins_keeps]

theorem State.xflashPut_keeps (Q : Parts) (s : State) (a : Nat) (bs : List Byte) : At Q (State.xflashPut s a bs) = At Q s := by
  unfold State.xflashPut; simp only [same_mk, same_fold]

theorem State.xflashErased_keeps (Q : Parts) (s : State) (k : Nat) : At Q (State.xflashErased s k) = At Q s := by
  unfold State.xflashErased; simp only [same_mk, same_fold, keepsO_none, keepsP_none]

theorem State.sysBuild_keeps (Q : Parts) (s : State) (k seq level : Nat) : At Q (State.sysBuild s k seq level) = At Q s := by
  unfold State.sysBuild; simp only [State.flashPut_keeps, State.sectorErased_keeps]

theorem State.journalStart_keeps (Q : Parts) (s : State) (k e kind sector : Nat) : At Q
  (State.journalStart s k e kind sector) = At Q s := by
  unfold State.journalStart; simp only [State.flashPut_keeps]

theorem State.journalDone_keeps (Q : Parts) (s : State) (k e : Nat) (ok : Bool) : At Q (State.journalDone s k e ok) = At Q s := by
  unfold State.journalDone; simp only [State.flashPut_keeps]

theorem State.sysCompact_keeps (Q : Parts) (s : State) (k : Nat) : At Q (State.sysCompact s k) = At Q s := by
  unfold State.sysCompact; simp only [State.setFld_keeps, State.log_keeps, State.journalDone_keeps, State.journalStart_keeps,
    State.sectorErased_keeps, State.sysBuild_keeps]

theorem State.journalRoom_keeps (Q : Parts) (s : State) : At Q (State.journalRoom s).2 = At Q s := by
  unfold State.journalRoom; simp only [same_ite, ite_snd, ite_self, State.sysCompact_keeps]

theorem State.appendLevel_keeps (Q : Parts) (s : State) (level : Nat) : At Q (State.appendLevel s level) = At Q s := by
  unfold State.appendLevel; simp only [same_ite, ite_fst, ite_snd, ite_self, State.setFld_keeps, State.flashPut_keeps,
    State.sysCompact_keeps]

theorem State.returns_keeps (Q : Parts) (s : State) (vs : List Nat) : At Q (State.returns s vs) = At Q s := by
  unfold State.returns; simp only [same_mk, same_fold]

theorem State.callGate_keeps (Q : Parts) (s t : State) (h : At Q s) (k : At Q t) : Keeps Q (s.callGate t) := by
  unfold State.callGate
  simp only [keeps_ite, keeps_next, State.returns_keeps, h, k, ite_self]

theorem State.beginFlash_keeps (Q : Parts) (s : State) (op : FlashOp) : At Q (State.beginFlash s op) = At Q s := by
  unfold State.beginFlash; simp only [same_mk, same_fold, same_ite, ite_self, State.setFld_keeps, State.clear_keeps,
    State.returns_keeps, State.showBusy_keeps]

theorem State.markCall_keeps (Q : Parts) (s : State) : At Q (State.markCall s) = At Q s := by
  unfold State.markCall; simp only [same_mk, same_fold, same_ite, ite_fst, ite_snd, ite_self, keepsO_none, keepsO_some,
  keepsO_ite, keepsP_none, keepsP_some, keepsP_ite, implies_true]

theorem State.callMeetsPfi_keeps (Q : Parts) (s : State) : At Q (State.callMeetsPfi s) = At Q s := by
  unfold State.callMeetsPfi; (try simp only [same_mk, same_fold, same_ite, ite_fst, ite_snd, ite_self, keepsO_none, keepsO_some, keepsO_ite, keepsP_none, keepsP_some, keepsP_ite, implies_true, State.ledgerEnd_keeps, State.returns_keeps, State.setFld_keeps, State.showBusy_keeps]); repeat' (first | (simp only [same_mk, same_fold, same_ite, ite_fst, ite_snd, ite_self, keepsO_none, keepsO_some, keepsO_ite, keepsP_none, keepsP_some, keepsP_ite, implies_true, State.ledgerEnd_keeps, State.returns_keeps, State.setFld_keeps, State.showBusy_keeps]; done) | split)

theorem State.flashProgram_keeps (Q : Parts) (s : State) (c : RoutineCall) : At Q (State.flashProgram s c) = At Q s :=
  by
  unfold State.flashProgram; (try simp only [same_mk, same_fold, same_ite, ite_fst, ite_snd, ite_self, keepsO_none, keepsO_some, keepsO_ite, keepsP_none, keepsP_some, keepsP_ite, implies_true, State.beginFlash_keeps, State.ledgerAsk_keeps, State.markCall_keeps, State.returns_keeps, State.setReg_keeps]); repeat' (first | (simp only [same_mk, same_fold, same_ite, ite_fst, ite_snd, ite_self, keepsO_none, keepsO_some, keepsO_ite, keepsP_none, keepsP_some, keepsP_ite, implies_true, State.beginFlash_keeps, State.ledgerAsk_keeps, State.markCall_keeps, State.returns_keeps, State.setReg_keeps]; done) | split)

theorem execFlashProgram_keeps (Q : Parts) (c : RoutineCall) (s : State) (h : At Q s) : Keeps Q (execFlashProgram c s) := by
  unfold execFlashProgram; simp only [State.callGate_keeps, State.flashProgram_keeps, h]

theorem State.startSector_keeps (Q : Parts) (s : State) (op : FlashOp) : At Q (State.startSector s op) = At Q s := by
  unfold State.startSector; simp only [same_mk, same_fold, State.setFld_keeps, State.clear_keeps, State.journalRoom_keeps,
    State.journalStart_keeps, State.showBusy_keeps]

theorem State.flashErase_keeps (Q : Parts) (s : State) (c : RoutineCall) : At Q (State.flashErase s c) = At Q s := by
  unfold State.flashErase; (try simp only [same_mk, same_fold, same_ite, ite_fst, ite_snd, ite_self, keepsO_none, keepsO_some, keepsO_ite, keepsP_none, keepsP_some, keepsP_ite, implies_true, State.ledgerAsk_keeps, State.markCall_keeps, State.returns_keeps, State.startSector_keeps]); repeat' (first | (simp only [same_mk, same_fold, same_ite, ite_fst, ite_snd, ite_self, keepsO_none, keepsO_some, keepsO_ite, keepsP_none, keepsP_some, keepsP_ite, implies_true, State.ledgerAsk_keeps, State.markCall_keeps, State.returns_keeps, State.startSector_keeps]; done) | split)

theorem execFlashErase_keeps (Q : Parts) (c : RoutineCall) (s : State) (h : At Q s) : Keeps Q (execFlashErase c s) := by
  unfold execFlashErase; simp only [State.callGate_keeps, State.flashErase_keeps, h]

theorem State.endFlash_keeps (Q : Parts) (s : State) (op : FlashOp) (st n ofs : Nat) : At Q
  (State.endFlash s op st n ofs) = At Q s := by
  unfold State.endFlash; simp only [same_mk, same_fold, same_ite, ite_self, keepsO_none, keepsP_none, State.setFld_keeps,
    State.ledgerEnd_keeps, State.raise_keeps, State.returns_keeps, State.showBusy_keeps]

theorem State.endProgram_keeps (Q : Parts) (s : State) (op : FlashOp) (end_ : FlashEnd) : At Q
  (State.endProgram s op end_) = At Q s := by
  unfold State.endProgram; (split <;> simp only [State.setFld_keeps, State.log_keeps, State.endFlash_keeps, State.flashPut_keeps, State.unitCut_keeps])

theorem State.endSector_keeps (Q : Parts) (s : State) (op : FlashOp) (end_ : FlashEnd) : At Q (State.endSector s op
  end_) = At Q s := by
  unfold State.endSector; (try simp only [same_mk, same_fold, same_ite, ite_fst, ite_snd, ite_self, keepsO_none, keepsO_some, keepsO_ite, keepsP_none, keepsP_some, keepsP_ite, implies_true, State.endFlash_keeps, State.journalDone_keeps, State.log_keeps, State.sectorErased_keeps, State.sectorOpen_keeps, State.setFld_keeps, State.showBusy_keeps, State.startSector_keeps]); repeat' (first | (simp only [same_mk, same_fold, same_ite, ite_fst, ite_snd, ite_self, keepsO_none, keepsO_some, keepsO_ite, keepsP_none, keepsP_some, keepsP_ite, implies_true, State.endFlash_keeps, State.journalDone_keeps, State.log_keeps, State.sectorErased_keeps, State.sectorOpen_keeps, State.setFld_keeps, State.showBusy_keeps, State.startSector_keeps]; done) | split)

theorem State.flashCompletes_keeps (Q : Parts) (s : State) (end_ : FlashEnd) : At Q (State.flashCompletes s end_) = At Q s := by
  unfold State.flashCompletes; (split <;> simp only [same_ite, ite_self, keepsO_none, keepsP_none, State.endProgram_keeps, State.endSector_keeps])

theorem State.flashInterrupted_keeps (Q : Parts) (s : State) : At Q (State.flashInterrupted s) = At Q s := by
  unfold State.flashInterrupted; (try simp only [same_mk, same_fold, same_ite, ite_fst, ite_snd, ite_self, keepsO_none, keepsO_some, keepsO_ite, keepsP_none, keepsP_some, keepsP_ite, implies_true, State.endFlash_keeps, State.endProgram_keeps, State.log_keeps, State.open_keeps, State.sectorOpen_keeps]); repeat' (first | (simp only [same_mk, same_fold, same_ite, ite_fst, ite_snd, ite_self, keepsO_none, keepsO_some, keepsO_ite, keepsP_none, keepsP_some, keepsP_ite, implies_true, State.endFlash_keeps, State.endProgram_keeps, State.log_keeps, State.open_keeps, State.sectorOpen_keeps]; done) | split)

theorem State.flashCut_keeps (Q : Parts) (s : State) : At Q (State.flashCut s) = At Q s := by
  unfold State.flashCut; (split <;> simp only [same_mk, same_fold, same_ite, ite_self, keepsO_none, keepsP_none, State.flashPut_keeps, State.sectorOpen_keeps, State.unitCut_keeps])

theorem execFlashInfo_keeps (Q : Parts) (_c : RoutineCall) (s : State) (h : At Q s) : Keeps Q (execFlashInfo _c s) := by
  unfold execFlashInfo; simp only [State.callGate_keeps, State.returns_keeps, h]

theorem State.copyChunks_keeps (Q : Parts) (s : State) (errs : List (Nat × Nat)) (dst a n : Nat) (x0 : List Nat) (x1 : Nat)
  (x2 : Nat) :
    At Q (State.copyChunks s errs dst a n x0 x1 x2) = At Q s := by
  induction x0 generalizing s x1 x2 with
  | nil => simp only [State.copyChunks, State.returns_keeps]
  | cons c cs ih =>
    simp only [State.copyChunks, same_ite, ih, State.returns_keeps, State.sramPut_keeps, State.readChunk_keeps, ite_self]

theorem State.flashRead_keeps (Q : Parts) (s : State) (c : RoutineCall) (errs : List (Nat × Nat)) : At Q
  (State.flashRead s c errs) = At Q s := by
  unfold State.flashRead; simp only [same_ite, ite_self, State.copyChunks_keeps, State.returns_keeps]

theorem execFlashRead_keeps (Q : Parts) (c : RoutineCall) (errs : List (Nat × Nat)) (s : State) (h : At Q s) : Keeps Q
  (execFlashRead c errs s) := by
  unfold execFlashRead; simp only [State.callGate_keeps, State.flashRead_keeps, h]

theorem execFlashBlank_keeps (Q : Parts) (c : RoutineCall) (s : State) (h : At Q s) : Keeps Q (execFlashBlank c s) := by
  unfold execFlashBlank; ((try simp only [keepsO_none, keepsP_none, State.callGate_keeps, State.clear_keeps, State.raise_keeps, State.returns_keeps, h]); repeat' (first | (simp only [keepsO_none, keepsP_none, State.callGate_keeps, State.clear_keeps, State.raise_keeps, State.returns_keeps, h]; done) | split))

theorem State.patrolEvery_keeps (Q : Parts) (s : State) (ms : Nat) : At Q (State.patrolEvery s ms) = At Q s := by
  unfold State.patrolEvery; simp only [same_mk, same_fold, same_ite, ite_fst, ite_snd, ite_self, implies_true,
  State.setFld_keeps]

theorem execFlashConfig_keeps (Q : Parts) (c : RoutineCall) (s : State) (h : At Q s) : Keeps Q (execFlashConfig c s) :=
  by
  unfold execFlashConfig; simp only [same_mk, same_fold, same_ite, ite_fst, ite_snd, ite_self, keeps_next, keeps_ite,
  implies_true, State.callGate_keeps, State.patrolEvery_keeps, State.returns_keeps, State.setFld_keeps, h]

theorem execFlashWait_keeps (Q : Parts) (c : RoutineCall) (s : State) (h : At Q s) : Keeps Q (execFlashWait c s) := by
  unfold execFlashWait; (repeat' (first | (simp only [same_mk, same_fold, keepsO_none, keepsP_none, State.callGate_keeps, State.returns_keeps, h]; done) | split))

theorem State.patrol_keeps (Q : Parts) (s : State) (errs : List (Nat × Nat)) : At Q (State.patrol s errs) = At Q s := by
  unfold State.patrol; simp only [same_mk, same_fold, same_ite, ite_self, State.setFld_keeps, State.addSat_keeps,
    State.addWrap_keeps, State.clear_keeps, State.readChunk_keeps]

theorem execPatrolRead_keeps (Q : Parts) (errs : List (Nat × Nat)) (s : State) (h : At Q s) : Keeps Q
  (execPatrolRead errs s) := by
  unfold execPatrolRead; simp only [same_ite, ite_self, keeps_next, State.patrol_keeps, h]

theorem State.flcGo_keeps (Q : Parts) (s : State) (v : Word) : At Q (State.flcGo s v) = At Q s := by
  unfold State.flcGo; (try simp only [same_mk, same_fold, same_ite, ite_fst, ite_snd, ite_self, keepsO_none, keepsO_some, keepsO_ite, keepsP_none, keepsP_some, keepsP_ite, implies_true, State.clear_keeps, State.raise_keeps, State.setBit_keeps, State.setFld_keeps, State.showBusy_keeps]); repeat' (first | (simp only [same_mk, same_fold, same_ite, ite_fst, ite_snd, ite_self, keepsO_none, keepsO_some, keepsO_ite, keepsP_none, keepsP_some, keepsP_ite, implies_true, State.clear_keeps, State.raise_keeps, State.setBit_keeps, State.setFld_keeps, State.showBusy_keeps]; done) | split)

end Sys2Proof.Machine
end

