-- ==== Sys2Proof/Laws/KeepsDiscipline.lean ====
section
/-! SUPPORT. What the definitions of Discipline leave as they are: the waiting commands and the fuse words. -/

namespace Sys2Proof.Machine

open Sys2Proof

set_option simprocs false
set_option linter.unusedSimpArgs false
set_option linter.all false

theorem State.noteEpoch_keeps (Q : Parts) (s : State) : At Q (State.noteEpoch s) = At Q s := by
  unfold State.noteEpoch; simp only [same_mk, same_fold, same_ite, ite_self]

theorem State.showSynce_keeps (Q : Parts) (s : State) : At Q (State.showSynce s) = At Q s := by
  unfold State.showSynce; simp only [State.setBit_keeps]

theorem State.enterHoldover_keeps (Q : Parts) (s : State) : At Q (State.enterHoldover s) = At Q s := by
  unfold State.enterHoldover; simp only [same_mk, same_fold, State.setReg_keeps, State.log_keeps, State.raise_keeps,
    State.roundOpen_keeps]

theorem State.dscGo_keeps (Q : Parts) (s : State) (st acq : Nat) (aided flock : Bool) : At Q
  (State.dscGo s st acq aided flock) = At Q s := by
  unfold State.dscGo; simp only [same_mk, same_fold, same_ite, ite_self, keepsO_none, keepsP_none, State.setReg_keeps,
    State.setFld_keeps, State.log_keeps, State.enterHoldover_keeps, State.noteEpoch_keeps, State.raise_keeps,
    State.setBit_keeps, State.showSynce_keeps]

theorem State.dscRows_keeps (Q : Parts) (s : State) (was : Nat) : At Q (State.dscRows s was) = At Q s := by
  unfold State.dscRows; simp only [same_ite, ite_self, State.dscGo_keeps]

theorem State.dscEval_keeps (Q : Parts) (s : State) : At Q (State.dscEval s) = At Q s := by
  unfold State.dscEval; simp only [same_mk, same_fold, same_ite, ite_self, State.setFld_keeps, State.dscRows_keeps,
    State.setBit_keeps, State.showSynce_keeps]

theorem State.qualify_keeps (Q : Parts) (s : State) (src : Nat) : At Q (State.qualify s src) = At Q s := by
  unfold State.qualify; simp only [State.dscEval_keeps, State.raise_keeps]

theorem State.disqualify_keeps (Q : Parts) (s : State) (src : Nat) : At Q (State.disqualify s src) = At Q s := by
  unfold State.disqualify; simp only [same_ite, ite_self, State.log_keeps, State.clear_keeps, State.dscEval_keeps,
    State.raise_keeps]

theorem State.dscStart_keeps (Q : Parts) (s : State) : At Q (State.dscStart s) = At Q s := by
  unfold State.dscStart; simp only [same_mk, same_fold, State.setReg_keeps, State.setFld_keeps, State.dscEval_keeps,
    State.dscGo_keeps]

theorem State.loopFreq_keeps (Q : Parts) (s : State) (f : Int) : At Q (State.loopFreq s f) = At Q s := by
  unfold State.loopFreq; simp only [same_ite, ite_fst, ite_snd, ite_self, State.setReg_keeps, State.open_keeps]

theorem State.setInteg_keeps (Q : Parts) (s : State) (v : Int) : At Q (State.setInteg s v) = At Q s := by
  unfold State.setInteg; simp only [same_ite, ite_self, State.setReg_keeps, State.log_keeps, State.clear_keeps, State.raise_keeps]

theorem State.moveInteg_keeps (Q : Parts) (s : State) (num : Int) (den : Nat) : At Q (State.moveInteg s num den) = At Q s := by
  unfold State.moveInteg; simp only [State.roundOpen_keeps, State.setInteg_keeps]

theorem State.loopUpdate_keeps (Q : Parts) (s : State) (err : Int) (dt code : Nat) : At Q
  (State.loopUpdate s err dt code) = At Q s := by
  unfold State.loopUpdate; simp only [same_ite, ite_self, State.loopFreq_keeps, State.moveInteg_keeps, State.phaseRequest_keeps]

theorem State.acqTo_keeps (Q : Parts) (s : State) (ph : Nat) : At Q (State.acqTo s ph) = At Q s := by
  unfold State.acqTo; simp only [same_mk, same_fold, keepsO_none, keepsP_none, State.setFld_keeps]

theorem State.acqFreq_keeps (Q : Parts) (s : State) (src : Nat) (err : Int) (dt : Nat) : At Q
  (State.acqFreq s src err dt) = At Q s := by
  unfold State.acqFreq; (repeat' (first | (simp only [same_mk, same_fold, same_ite, ite_self, keepsO_none, keepsP_none, State.open_keeps, State.acqTo_keeps, State.loopFreq_keeps, State.moveInteg_keeps, State.setInteg_keeps]; done) | split))

theorem State.acqAlign_keeps (Q : Parts) (s : State) (err : Int) (full : Bool) : At Q (State.acqAlign s err full) = At Q s := by
  unfold State.acqAlign; simp only [same_ite, ite_self, State.acqTo_keeps, State.phaseRequest_keeps]

theorem State.acqTrack_keeps (Q : Parts) (s : State) (err : Int) (dt : Nat) : At Q (State.acqTrack s err dt) = At Q s := by
  unfold State.acqTrack; simp only [same_mk, same_fold, same_ite, ite_self, State.acqTo_keeps, State.dscGo_keeps,
    State.loopUpdate_keeps]

theorem State.lockedSample_keeps (Q : Parts) (s : State) (err : Int) (dt : Nat) : At Q
  (State.lockedSample s err dt) = At Q s := by
  unfold State.lockedSample; simp only [same_mk, same_fold, same_ite, ite_self, State.dscGo_keeps, State.loopUpdate_keeps]

theorem State.steer_keeps (Q : Parts) (s : State) (src : Nat) (e : Int) (dt : Nat) (full : Bool) : At Q
  (State.steer s src e dt full) = At Q s := by
  unfold State.steer; (repeat' (first | (simp only [same_mk, same_fold, State.acqAlign_keeps, State.acqFreq_keeps, State.acqTrack_keeps, State.lockedSample_keeps]; done) | split))

theorem State.measure_keeps (Q : Parts) (s : State) (src : Nat) (e : Int) : At Q (State.measure s src e).2 = At Q s := by
  unfold State.measure; ((try simp only [same_mk, same_fold, keepsO_none, keepsP_none, State.setWide_keeps, State.open_keeps, State.countWrap_keeps]); repeat' (first | (simp only [same_mk, same_fold, keepsO_none, keepsP_none, State.setWide_keeps, State.open_keeps, State.countWrap_keeps]; done) | split))

theorem State.ppsLapse_keeps (Q : Parts) (s : State) : At Q (State.ppsLapse s) = At Q s := by
  unfold State.ppsLapse; (split <;> simp only [same_mk, same_fold, same_ite, ite_self, keepsO_none, keepsP_none, State.disqualify_keeps])

theorem State.ppsOff_keeps (Q : Parts) (s : State) (stamp : Nat) (off : Int) : At Q (State.ppsOff s stamp off) = At Q s := by
  unfold State.ppsOff; simp only [same_mk, same_fold, same_ite, ite_self, State.log_keeps, State.roundOpen_keeps]

theorem State.ppsInterval_keeps (Q : Parts) (s : State) (stamp : Nat) : At Q (State.ppsInterval s stamp) = At Q s := by
  unfold State.ppsInterval; (split <;> simp only [same_mk, same_fold, keepsO_none, keepsP_none, State.ppsOff_keeps])

theorem State.ppsJudge_keeps (Q : Parts) (s : State) : At Q (State.ppsJudge s) = At Q s := by
  unfold State.ppsJudge; simp only [same_ite, ite_self, State.disqualify_keeps, State.qualify_keeps]

theorem execPpsInEdge_keeps (Q : Parts) (edge : PpsEdge) (s : State) (h : At Q s) : Keeps Q (execPpsInEdge
  edge s) := by
  unfold execPpsInEdge; simp only [same_mk, same_fold, same_ite, ite_fst, ite_snd, ite_self, keeps_next, keeps_ite,
  keepsO_none, keepsO_some, keepsO_ite, keepsP_none, keepsP_some, keepsP_ite, implies_true, State.dscEval_keeps,
  State.measure_keeps, State.ppsInterval_keeps, State.ppsJudge_keeps, State.ppsLapse_keeps, State.setWide_keeps,
  State.steer_keeps, h]

theorem execPpsTimeout_keeps (Q : Parts) (s : State) (h : At Q s) : Keeps Q (execPpsTimeout s) := by
  unfold execPpsTimeout; simp only [same_ite, ite_self, keeps_next, State.ppsLapse_keeps, h]

theorem State.todRefused_keeps (Q : Parts) (s : State) (age : Option Nat) : At Q (State.todRefused s age) = At Q s := by
  unfold State.todRefused; simp only [keepsO_none, keepsP_none, State.log_keeps, State.raise_keeps]

theorem State.todAccepted_keeps (Q : Parts) (s : State) (sec : Nat) : At Q (State.todAccepted s sec) = At Q s := by
  unfold State.todAccepted; ((try simp only [same_mk, same_fold, same_ite, ite_self, keepsO_none, keepsP_none, State.setWide_keeps, State.open_keeps, State.log_keeps, State.clear_keeps, State.dscEval_keeps, State.raise_keeps, State.setBit_keeps, State.steer_keeps]); repeat' (first | (simp only [same_mk, same_fold, same_ite, ite_self, keepsO_none, keepsP_none, State.setWide_keeps, State.open_keeps, State.log_keeps, State.clear_keeps, State.dscEval_keeps, State.raise_keeps, State.setBit_keeps, State.steer_keeps]; done) | split))

theorem execTodCommit_keeps (Q : Parts) (p : Path) (lo : Word) (s : State) (h : At Q s) : Keeps Q (execTodCommit p lo s) := by
  unfold execTodCommit; simp only [same_ite, ite_self, keeps_whenOpen, keepsO_none, keepsP_none, State.setWide_keeps,
    State.mirrorRefused_keeps, State.commitWide_keeps, State.todAccepted_keeps, State.todRefused_keeps, h]

theorem execPtpAtCommit_keeps (Q : Parts) (p : Path) (lo : Word) (s : State) (h : At Q s) : Keeps Q (execPtpAtCommit p lo s) := by
  unfold execPtpAtCommit; simp only [same_mk, same_fold, same_ite, ite_self, keeps_whenOpen, State.mirrorGuard,
    State.setWide_keeps, State.mirrorRefused_keeps, State.commitWide_keeps, h]

theorem State.ptpLapse_keeps (Q : Parts) (s : State) : At Q (State.ptpLapse s) = At Q s := by
  unfold State.ptpLapse; (split <;> simp only [same_mk, same_fold, same_ite, ite_self, keepsO_none, keepsP_none, State.disqualify_keeps])

theorem State.fullSample_keeps (Q : Parts) (s : State) (src : Nat) (e : Int) : At Q (State.fullSample s src e) = At Q s := by
  unfold State.fullSample; simp only [State.dscEval_keeps, State.measure_keeps, State.steer_keeps]

theorem State.ptpAccepted_keeps (Q : Parts) (s : State) (err : Int) : At Q (State.ptpAccepted s err) = At Q s := by
  unfold State.ptpAccepted; simp only [same_mk, same_fold, same_ite, ite_self, State.fullSample_keeps, State.ptpLapse_keeps,
    State.qualify_keeps, State.roundOpen_keeps]

theorem execPtpSampleCommit_keeps (Q : Parts) (p : Path) (lo : Word) (s : State) (h : At Q s) : Keeps Q
  (execPtpSampleCommit p lo s) := by
  unfold execPtpSampleCommit; simp only [same_ite, ite_self, keeps_whenOpen, State.setWide_keeps, State.log_keeps,
    State.mirrorRefused_keeps, State.commitWide_keeps, State.ptpAccepted_keeps, State.raise_keeps, State.roundOpen_keeps, h]

theorem execPtpTimeout_keeps (Q : Parts) (s : State) (h : At Q s) : Keeps Q (execPtpTimeout s) := by
  unfold execPtpTimeout; simp only [same_ite, ite_self, keeps_next, State.ptpLapse_keeps, h]

theorem execPtpDisq_keeps (Q : Parts) (s : State) (h : At Q s) : Keeps Q (execPtpDisq s) := by
  unfold execPtpDisq; simp only [same_mk, same_fold, same_ite, ite_self, keeps_whenOpen, keepsO_none, keepsP_none,
    State.disqualify_keeps, h]

theorem State.coordSample_keeps (Q : Parts) (s : State) (e : Int) : At Q (State.coordSample s e) = At Q s := by
  unfold State.coordSample; simp only [same_mk, same_fold, same_ite, ite_self, State.fullSample_keeps, State.qualify_keeps]

theorem State.coordLost_keeps (Q : Parts) (s : State) : At Q (State.coordLost s) = At Q s := by
  unfold State.coordLost; simp only [same_mk, same_fold, State.disqualify_keeps]

theorem State.partnerSample_keeps (Q : Parts) (s : State) (e : Int) : At Q (State.partnerSample s e) = At Q s := by
  unfold State.partnerSample; simp only [same_mk, same_fold, same_ite, ite_self, State.fullSample_keeps, State.qualify_keeps]

theorem State.partnerLost_keeps (Q : Parts) (s : State) : At Q (State.partnerLost s) = At Q s := by
  unfold State.partnerLost; simp only [same_mk, same_fold, State.disqualify_keeps]

theorem State.dscTakeover_keeps (Q : Parts) (s : State) : At Q (State.dscTakeover s) = At Q s := by
  unfold State.dscTakeover; simp only [same_mk, same_fold, same_ite, ite_fst, ite_snd, ite_self, implies_true,
  State.dscGo_keeps, State.partnerLost_keeps]

theorem State.synceLost_keeps (Q : Parts) (s : State) : At Q (State.synceLost s) = At Q s := by
  unfold State.synceLost; simp only [same_mk, same_fold, same_ite, ite_self, State.log_keeps, State.disqualify_keeps,
    State.roundOpen_keeps]

theorem State.syncePcs_keeps (Q : Parts) (s : State) (k : Nat) : At Q (State.syncePcs s k) = At Q s := by
  unfold State.syncePcs; simp only [same_ite, ite_self, State.synceLost_keeps]

theorem State.synceLocks_keeps (Q : Parts) (s : State) : At Q (State.synceLocks s) = At Q s := by
  unfold State.synceLocks; simp only [same_mk, same_fold, same_ite, ite_fst, ite_snd, ite_self, implies_true,
  State.dscGo_keeps]

theorem State.synceSteer_keeps (Q : Parts) (s : State) : At Q (State.synceSteer s) = At Q s := by
  unfold State.synceSteer; simp only [same_mk, same_fold, same_ite, ite_fst, ite_snd, ite_self, implies_true,
  State.loopFreq_keeps, State.moveInteg_keeps, State.synceLocks_keeps]

theorem execSynceMeasurement_keeps (Q : Parts) (meas : Word) (s : State) (h : At Q s) : Keeps Q
  (execSynceMeasurement meas s) := by
  unfold execSynceMeasurement; simp only [same_mk, same_fold, same_ite, ite_self, keeps_next, keeps_ite, State.setReg_keeps,
    State.qualify_keeps, State.synceLost_keeps, State.synceSteer_keeps, h]

theorem execLaneLockLoss_keeps (Q : Parts) (k : Fin 8) (what : LaneLock) (s : State) (h : At Q s) : Keeps Q
  (execLaneLockLoss k what s) := by
  unfold execLaneLockLoss; simp only [keeps_next, State.laneLoses_keeps, State.syncePcs_keeps, h]

theorem execLaneDown_keeps (Q : Parts) (k : Fin 8) (s : State) (h : At Q s) : Keeps Q (execLaneDown k s) := by
  unfold execLaneDown; simp only [keeps_whenOpen, State.laneOff_keeps, State.syncePcs_keeps, h]

theorem execRefinLoss_keeps (Q : Parts) (s : State) (h : At Q s) : Keeps Q (execRefinLoss s) := by
  unfold execRefinLoss; simp only [keeps_next, State.dscEval_keeps, State.refinLoses_keeps, h]

theorem execRefinReturn_keeps (Q : Parts) (s : State) (h : At Q s) : Keeps Q (execRefinReturn s) := by
  unfold execRefinReturn; simp only [keeps_next, State.dscEval_keeps, State.refinComes_keeps, h]

theorem execSteerAuthWrite_keeps (Q : Parts) (_p : Path) (auth : Fin 4) (s : State) (h : At Q s) : Keeps Q
  (execSteerAuthWrite _p auth s) := by
  unfold execSteerAuthWrite; simp only [same_ite, ite_self, keeps_whenOpen, State.setReg_keeps, State.setFld_keeps,
    State.setWide_keeps, State.log_keeps, State.mirrorRefused_keeps, State.dscEval_keeps, State.noteEpoch_keeps,
    State.raise_keeps, h]

theorem execInjClear_keeps (Q : Parts) (s : State) (h : At Q s) : Keeps Q (execInjClear s) := by
  unfold execInjClear; simp only [keeps_whenOpen, State.setWide_keeps, h]

theorem State.showCoef_keeps (Q : Parts) (s : State) (c : List Int) : At Q (State.showCoef s c) = At Q s := by
  unfold State.showCoef; simp only [same_mk, same_fold, State.setReg_keeps]

theorem State.setTerms_keeps (Q : Parts) (s : State) (v : Nat) : At Q (State.setTerms s v) = At Q s := by
  unfold State.setTerms; simp only [State.setFld_keeps, State.setBit_keeps]

theorem State.modelReset_keeps (Q : Parts) (s : State) : At Q (State.modelReset s) = At Q s := by
  unfold State.modelReset; simp only [same_mk, same_fold, State.setReg_keeps, State.setWide_keeps, State.setTerms_keeps,
    State.showCoef_keeps]

theorem State.dscRefused_keeps (Q : Parts) (s : State) (a : Nat) : At Q (State.dscRefused s a) = At Q s := by
  unfold State.dscRefused; simp only [State.log_keeps, State.raise_keeps]

theorem execModelReset_keeps (Q : Parts) (s : State) (h : At Q s) : Keeps Q (execModelReset s) := by
  unfold execModelReset; simp only [same_ite, ite_self, keeps_whenOpen, State.dscRefused_keeps, State.modelReset_keeps, h]

theorem execModelTrefWrite_keeps (Q : Parts) (_p : Path) (v : Word) (s : State) (h : At Q s) : Keeps Q
  (execModelTrefWrite _p v s) := by
  unfold execModelTrefWrite; simp only [same_ite, ite_self, keeps_whenOpen, State.setFld_keeps, State.dscRefused_keeps,
    State.mirrorMerge_keeps, State.modelReset_keeps, h]

theorem State.sampleInteg_keeps (Q : Parts) (s : State) : At Q (State.sampleInteg s) = At Q s := by
  unfold State.sampleInteg; simp only [same_mk, same_fold, same_ite, ite_fst, ite_snd, ite_self, keepsO_none,
  keepsO_some, keepsO_ite, keepsP_none, keepsP_some, keepsP_ite, implies_true]

theorem State.modelTemp_keeps (Q : Parts) (s : State) (t : Option Int) : At Q (State.modelTemp s t) = At Q s := by
  unfold State.modelTemp; (try simp only [same_mk, same_fold, same_ite, ite_fst, ite_snd, ite_self, keepsO_none, keepsO_some, keepsO_ite, keepsP_none, keepsP_some, keepsP_ite, implies_true, State.clear_keeps, State.log_keeps, State.raise_keeps, State.sampleInteg_keeps, State.setFld_keeps]); repeat' (first | (simp only [same_mk, same_fold, same_ite, ite_fst, ite_snd, ite_self, keepsO_none, keepsO_some, keepsO_ite, keepsP_none, keepsP_some, keepsP_ite, implies_true, State.clear_keeps, State.log_keeps, State.raise_keeps, State.sampleInteg_keeps, State.setFld_keeps]; done) | split)

theorem State.openInts_keeps (Q : Parts) (s : State) (x0 : Nat) : At Q (State.openInts s x0).2 = At Q s := by
  induction x0 generalizing s with
  | zero => rfl
  | succ n ih => simp only [State.openInts, ih, State.open_keeps]

theorem State.widenSpan_keeps (Q : Parts) (s : State) (temp : Int) : At Q (State.widenSpan s temp) = At Q s := by
  unfold State.widenSpan; simp only [same_ite, ite_self, State.setFld_keeps]

theorem State.epochMean_keeps (Q : Parts) (s : State) (vs : List Int) (other : Int) : At Q (State.epochMean s vs
  other).2 = At Q s := by
  unfold State.epochMean; (try simp only [same_mk, same_fold, same_ite, same_foldl, same_foldl_snd, same_foldl_fst, ite_fst, ite_snd, ite_self, implies_true, State.roundOpen_keeps]); repeat' (first | (simp only [same_mk, same_fold, same_ite, same_foldl, same_foldl_snd, same_foldl_fst, ite_fst, ite_snd, ite_self, implies_true, State.roundOpen_keeps]; done) | split)

theorem State.applyEpoch_keeps (Q : Parts) (s : State) : At Q (State.applyEpoch s) = At Q s := by
  unfold State.applyEpoch; simp only [same_mk, same_fold, same_ite, same_foldl, same_foldl_snd, same_foldl_fst, ite_fst,
  ite_snd, ite_self, implies_true, State.addSat_keeps, State.epochMean_keeps, State.setReg_keeps, State.setTerms_keeps,
  State.showCoef_keeps, State.widenSpan_keeps]

theorem State.endEpoch_keeps (Q : Parts) (s : State) : At Q (State.endEpoch s) = At Q s := by
  unfold State.endEpoch; simp only [same_mk, same_fold, same_ite, ite_self, State.applyEpoch_keeps]

theorem State.boundNow_keeps (Q : Parts) (s : State) : At Q (State.boundNow s) = At Q s := by
  unfold State.boundNow; simp only [State.setReg_keeps, State.open_keeps, State.roundOpen_keeps]

theorem execModelPrediction_keeps (Q : Parts) (s : State) (h : At Q s) : Keeps Q (execModelPrediction s) := by
  unfold execModelPrediction; simp only [same_ite, ite_self, keeps_next, keeps_ite, State.boundNow_keeps, State.dscEval_keeps,
    State.loopFreq_keeps, State.roundOpen_keeps, h]

theorem State.modelLoad_keeps (Q : Parts) (s : State) (bs : List Byte) (origin : Nat) : At Q
  (State.modelLoad s bs origin) = At Q s := by
  unfold State.modelLoad; simp only [same_mk, same_fold, State.setReg_keeps, State.setFld_keeps, State.setWide_keeps,
    State.setTerms_keeps, State.showCoef_keeps]

theorem State.modelAtHoist_keeps (Q : Parts) (s : State) (seed : Option (List Byte)) (force : Bool) : At Q
  (State.modelAtHoist s seed force) = At Q s := by
  unfold State.modelAtHoist; ((try simp only [same_mk, same_fold, keepsO_none, keepsP_none, State.log_keeps, State.modelLoad_keeps]); repeat' (first | (simp only [same_mk, same_fold, keepsO_none, keepsP_none, State.log_keeps, State.modelLoad_keeps]; done) | split))

theorem State.snapResult_keeps (Q : Parts) (s : State) (result reason : Nat) : At Q
  (State.snapResult s result reason) = At Q s := by
  unfold State.snapResult; simp only [State.setFld_keeps]

theorem State.snapSkip_keeps (Q : Parts) (s : State) (result reason : Nat) : At Q (State.snapSkip s result reason) = At Q s := by
  unfold State.snapSkip; simp only [State.log_keeps, State.raise_keeps, State.snapResult_keeps]

theorem State.journalFailed_keeps (Q : Parts) (s : State) (status : Nat) : At Q (State.journalFailed s status) = At Q s := by
  unfold State.journalFailed; simp only [State.log_keeps, State.raise_keeps]

theorem State.journalErase_keeps (Q : Parts) (s : State) : At Q (State.journalErase s) = At Q s := by
  unfold State.journalErase; simp only [same_ite, ite_self, keepsO_none, keepsP_none, State.journalFailed_keeps,
    State.ledgerAsk_keeps, State.ledgerEnd_keeps, State.startSector_keeps]

theorem State.snapProgram_keeps (Q : Parts) (s : State) (j r reason : Nat) : At Q (State.snapProgram s j r reason) = At Q s := by
  unfold State.snapProgram; ((try simp only [same_mk, same_fold, keepsO_none, keepsP_none, State.setFld_keeps, State.open_keeps, State.clear_keeps, State.showBusy_keeps]); repeat' (first | (simp only [same_mk, same_fold, keepsO_none, keepsP_none, State.setFld_keeps, State.open_keeps, State.clear_keeps, State.showBusy_keeps]; done) | split))

theorem State.snapshot_keeps (Q : Parts) (s : State) (reason : Nat) (reefOp : Bool) : At Q
  (State.snapshot s reason reefOp) = At Q s := by
  unfold State.snapshot; simp only [same_mk, same_fold, same_ite, ite_self, State.open_keeps, State.journalErase_keeps,
    State.journalFailed_keeps, State.ledgerAsk_keeps, State.ledgerEnd_keeps, State.snapProgram_keeps, State.snapResult_keeps,
    State.snapSkip_keeps]

theorem State.engineFlash_keeps (Q : Parts) (s : State) : At Q (State.engineFlash s) = At Q s := by
  unfold State.engineFlash; (repeat' (first | (simp only [same_mk, same_fold, same_ite, ite_self, keepsO_none, keepsP_none, State.setFld_keeps, State.journalErase_keeps, State.journalFailed_keeps, State.snapResult_keeps]; done) | split))

theorem State.snapNext_keeps (Q : Parts) (x0 : Nat) (x1 : State) : At Q (State.snapNext x0 x1) = At Q x1 := by
  induction x0 generalizing x1 with
  | zero => rfl
  | succ n ih =>
    rw [State.snapNext.eq_def]
    dsimp only
    split
    · rfl
    · simp only [same_ite, ih, State.snapshot_keeps, same_mk, same_fold, ite_self]

theorem State.snapRequest_keeps (Q : Parts) (s : State) (reason : Nat) : At Q (State.snapRequest s reason) = At Q s := by
  unfold State.snapRequest; simp only [same_mk, same_fold, same_ite, ite_self, State.snapshot_keeps]

theorem execSnapNow_keeps (Q : Parts) (s : State) (h : At Q s) : Keeps Q (execSnapNow s) := by
  unfold execSnapNow; simp only [same_ite, ite_self, keeps_whenOpen, State.snapRequest_keeps, h]

theorem execPeriodicSnapshot_keeps (Q : Parts) (s : State) (h : At Q s) : Keeps Q (execPeriodicSnapshot s) := by
  unfold execPeriodicSnapshot; simp only [same_mk, same_fold, same_ite, ite_fst, ite_snd, ite_self, keeps_next,
  keeps_ite, implies_true, State.snapRequest_keeps, h]

theorem State.ppsPulse_keeps (Q : Parts) (s : State) : At Q (State.ppsPulse s) = At Q s := by
  unfold State.ppsPulse; simp only [same_mk, same_fold, same_ite, ite_fst, ite_snd, ite_self, keepsO_none, keepsO_some,
  keepsO_ite, keepsP_none, keepsP_some, keepsP_ite, implies_true, State.placeCode_keeps, State.setSheet_keeps]

theorem execPpsOutPulse_keeps (Q : Parts) (s : State) (h : At Q s) : Keeps Q (execPpsOutPulse s) := by
  unfold execPpsOutPulse; simp only [same_mk, same_fold, same_ite, ite_fst, ite_snd, ite_self, keeps_next, keeps_ite,
  implies_true, State.ppsPulse_keeps, h]

theorem State.ppsBeat_keeps (Q : Parts) (s : State) : At Q (State.ppsBeat s) = At Q s := by
  unfold State.ppsBeat; simp only [same_mk, same_fold, same_ite, ite_fst, ite_snd, ite_self, implies_true,
  State.ppsPulse_keeps, State.setSheet_keeps]

end Sys2Proof.Machine
end

