-- ==== Sys2Proof/Laws/KeepsShell.lean ====
section
/-! SUPPORT. What the definitions of Shell leave as they are: the waiting commands and the fuse words. -/

namespace Sys2Proof.Machine

open Sys2Proof

set_option simprocs false
set_option linter.unusedSimpArgs false
set_option linter.all false

theorem State.noteLoaded_keeps (Q : Parts) (s : State) (a : Nat) : At Q (State.noteLoaded s a) = At Q s := by
  unfold State.noteLoaded; simp only [same_mk, same_fold, same_ite, ite_self]

theorem State.loadRegs_keeps (Q : Parts) (s : State) (i : Nat) (x0 : List (List Byte)) : At Q
  (State.loadRegs s i x0).1 = At Q s := by
  induction x0 generalizing s i with
  | nil => rfl
  | cons e es ih =>
    rw [State.loadRegs.eq_def]
    dsimp only
    split
    · rfl
    · simp only [ih, same_ite, same_mk, same_fold, State.loadRefinSel_keeps, State.setReg_keeps, State.noteLoaded_keeps, ite_self]

theorem State.loadBind_keeps (Q : Parts) (s : State) (xs bs : List (List Byte)) : At Q (State.loadBind s xs bs) = At Q s := by
  unfold State.loadBind; simp only [same_foldl, keepsO_none, keepsP_none, implies_true, State.setFld_keeps, State.raise_keeps]

theorem State.loadFence_keeps (Q : Parts) (s : State) (body : List Byte) : At Q (State.loadFence s body) = At Q s := by
  unfold State.loadFence; simp only [same_mk, same_fold, State.setReg_keeps, State.setFld_keeps]

theorem State.loadXng_keeps (Q : Parts) (s : State) (xs : List (List Byte)) : At Q (State.loadXng s xs) = At Q s := by
  unfold State.loadXng; simp only [same_foldl, implies_true, State.setReg_keeps, State.setFld_keeps]

theorem State.loadFifo_keeps (Q : Parts) (s : State) (fs : List (List Byte)) : At Q (State.loadFifo s fs) = At Q s := by
  unfold State.loadFifo; simp only [same_foldl, implies_true, State.setReg_keeps, State.setFld_keeps]

theorem State.loadLane_keeps (Q : Parts) (s : State) (ls : List (List Byte)) : At Q (State.loadLane s ls) = At Q s := by
  unfold State.loadLane; simp only [same_foldl, implies_true, State.setReg_keeps]

theorem State.loadShroud_keeps (Q : Parts) (s : State) (b : List Byte) : At Q (State.loadShroud s b) = At Q s := by
  unfold State.loadShroud; simp only [same_ite, same_foldl, ite_self, implies_true, State.setFld_keeps, State.raise_keeps]

theorem State.loadStay_keeps (Q : Parts) (s : State) (b : List Byte) : At Q (State.loadStay s b) = At Q s := by
  unfold State.loadStay; simp only [same_mk, same_fold, same_ite, ite_self, State.setReg_keeps, State.setFld_keeps]

theorem State.loadPower_keeps (Q : Parts) (s : State) (b : List Byte) : At Q (State.loadPower s b) = At Q s := by
  unfold State.loadPower; simp only [same_mk, same_fold, same_ite, ite_self, State.setReg_keeps, State.setFld_keeps,
    State.raise_keeps, State.setBit_keeps]

theorem State.loadPins_keeps (Q : Parts) (s : State) (b : List Byte) : At Q (State.loadPins s b) = At Q s := by
  unfold State.loadPins; simp only [same_ite, same_foldl, ite_self, implies_true, State.setReg_keeps]

theorem State.tablesBad_keeps (Q : Parts) (s : State) (secs : List (Nat × List Byte)) : At Q
  (State.tablesBad s secs).2 = At Q s := by
  unfold State.tablesBad; simp only [same_ite, ite_self, keepsO_none, keepsP_none, State.open_keeps]

theorem State.loadShell_keeps (Q : Parts) (s : State) (index : Nat) (payload : List Byte) :
    At Q (State.loadShell s index payload).1 = At Q s := by
  rw [State.loadShell.eq_def]
  split
  · rfl
  · rename_i secs _
    dsimp only
    have k := State.loadRegs_keeps Q s 0 (entries 8 (bodyOf secs 1))
    split
    · rename_i h; rw [h] at k; exact k
    · rename_i t h
      rw [h] at k
      have j := State.tablesBad_keeps Q t secs
      split
      · rename_i g; rw [g] at j; exact j.trans k
      · rename_i u g
        rw [g] at j
        split <;>
          simp only [State.loadBind_keeps, State.loadFence_keeps, State.loadXng_keeps, State.loadFifo_keeps, State.loadLane_keeps,
            State.loadShroud_keeps, State.loadStay_keeps, State.loadPower_keeps, State.loadPins_keeps, j, k]

end Sys2Proof.Machine
end

