-- ==== Sys2Proof/Laws/KeepsImage.lean ====
section
/-! SUPPORT. What the definitions of Image leave as they are: the waiting commands and the fuse words. -/

namespace Sys2Proof.Machine

open Sys2Proof

set_option simprocs false
set_option linter.unusedSimpArgs false
set_option linter.all false

theorem State.verifyHeader_keeps (Q : Parts) (s : State) (b : List Byte) (partial_ damaged : Bool) : At Q
  (State.verifyHeader s b partial_ damaged).2 = At Q s := by
  unfold State.verifyHeader; (repeat' (first | (simp only [keepsO_none, keepsP_none, State.raise_keeps]; done) | split))

theorem State.loadPanel_keeps (Q : Parts) (s : State) (k : Nat) (p : List Byte) : At Q (State.loadPanel s k p) = At Q s := by
  unfold State.loadPanel; simp only [same_mk, same_fold, State.setFld_keeps]

theorem State.loadParam_keeps (Q : Parts) (s : State) (p : List Byte) : At Q (State.loadParam s p) = At Q s := by
  unfold State.loadParam; simp only [same_ite, same_foldl, ite_self, implies_true, State.setReg_keeps, State.noteLoaded_keeps]

theorem State.recordEffect_keeps (Q : Parts) (s : State) (r : Record) (p : List Byte) : At Q
  (State.recordEffect s r p).1 = At Q s := by
  unfold State.recordEffect; (split <;> simp only [same_mk, same_fold, same_ite, ite_fst, ite_self, keepsO_none, keepsP_none, State.loadPanel_keeps, State.loadParam_keeps, State.loadShell_keeps, State.sramPut_keeps])

theorem State.unloadRegs_keeps (Q : Parts) (s : State) : At Q (State.unloadRegs s) = At Q s := by
  unfold State.unloadRegs; simp only [same_mk, same_fold]

theorem State.unload_keeps (Q : Parts) (s : State) : At Q (State.unload s) = At Q s := by
  unfold State.unload; simp only [same_mk, same_fold, same_foldl, keepsO_none, keepsP_none, implies_true, State.setReg_keeps,
    State.setFld_keeps, State.clear_keeps, State.unloadRegs_keeps]

theorem State.imageChunks_keeps (Q : Parts) (s : State) (errs : List (Nat × Nat)) (n : Nat) : At Q
  (State.imageChunks s errs n).2 = At Q s := by
  unfold State.imageChunks; simp only [same_ite, same_foldl, ite_snd, ite_self, implies_true, State.readChunk_keeps]

theorem State.imageTaken_keeps (Q : Parts) (s : State) (n : Nat) : At Q (State.imageTaken s n) = At Q s := by
  unfold State.imageTaken; simp only [same_mk, same_fold]

theorem State.endLoad_keeps (Q : Parts) (s : State) : At Q (State.endLoad s) = At Q s := by
  unfold State.endLoad; simp only [same_mk, same_fold]

theorem State.showImage_keeps (Q : Parts) (s : State) (h : ImageHeader) (rolls : Nat) : At Q
  (State.showImage s h rolls) = At Q s := by
  unfold State.showImage; simp only [same_ite, ite_self, State.setReg_keeps, State.setFld_keeps, State.setWide_keeps,
    State.setBit_keeps]

end Sys2Proof.Machine
end

