-- ==== Sys2Proof/Laws/KeepsFabric.lean ====
section
/-! SUPPORT. What the definitions of Fabric leave as they are: the waiting commands and the fuse words. -/

namespace Sys2Proof.Machine

open Sys2Proof

set_option simprocs false
set_option linter.unusedSimpArgs false
set_option linter.all false

theorem State.setFenceToken_keeps (Q : Parts) (s : State) (i : Nat) (d : Option Dword) : At Q
  (State.setFenceToken s i d) = At Q s := by
  unfold State.setFenceToken; simp only [same_mk, same_fold, keepsO_none, keepsP_none]

theorem State.setSite_keeps (Q : Parts) (s : State) (k : Nat) (u : FabSite) : At Q (State.setSite s k u) = At Q s := by
  unfold State.setSite; simp only [same_mk, same_fold, same_ite, ite_fst, ite_snd, ite_self, implies_true]

theorem State.setRamWord_keeps (Q : Parts) (s : State) (ram : Nat) (a : Nat) (v : Nat) : At Q (State.setRamWord s ram a
  v) = At Q s := by
  unfold State.setRamWord; simp only [same_mk, same_fold, same_ite, ite_fst, ite_snd, ite_self, keepsO_none,
  keepsO_some, keepsO_ite, keepsP_none, keepsP_some, keepsP_ite, implies_true]

theorem State.fenceCapture_keeps (Q : Parts) (s : State) (i : Nat) (v : Nat) : At Q (State.fenceCapture s i v) = At Q s
  := by
  unfold State.fenceCapture; (try simp only [same_mk, same_fold, same_ite, ite_fst, ite_snd, ite_self, keepsO_none, keepsO_some, keepsO_ite, keepsP_none, keepsP_some, keepsP_ite, implies_true, State.countSat_keeps, State.setFenceToken_keeps]); repeat' (first | (simp only [same_mk, same_fold, same_ite, ite_fst, ite_snd, ite_self, keepsO_none, keepsO_some, keepsO_ite, keepsP_none, keepsP_some, keepsP_ite, implies_true, State.countSat_keeps, State.setFenceToken_keeps]; done) | split)

theorem State.takeToken_keeps (Q : Parts) (s : State) (k : Nat) (v : Nat) : At Q (State.takeToken s k v) = At Q s := by
  unfold State.takeToken; simp only [same_mk, same_fold, same_ite, ite_fst, ite_snd, ite_self, keepsO_none, keepsO_some,
  keepsO_ite, keepsP_none, keepsP_some, keepsP_ite, implies_true, State.fenceCapture_keeps, State.setRamWord_keeps,
  State.setSite_keeps]

theorem State.giveToken_keeps (Q : Parts) (s : State) (k : Nat) (v : Nat) : At Q (State.giveToken s k v) = At Q s := by
  unfold State.giveToken; (try simp only [same_mk, same_fold, same_ite, ite_fst, ite_snd, ite_self, keepsO_none, keepsO_some, keepsO_ite, keepsP_none, keepsP_some, keepsP_ite, implies_true, State.countSat_keeps, State.setFenceToken_keeps, State.setSite_keeps]); repeat' (first | (simp only [same_mk, same_fold, same_ite, ite_fst, ite_snd, ite_self, keepsO_none, keepsO_some, keepsO_ite, keepsP_none, keepsP_some, keepsP_ite, implies_true, State.countSat_keeps, State.setFenceToken_keeps, State.setSite_keeps]; done) | split)

theorem State.fabMove_keeps (Q : Parts) (s : State) (m : FabMove) (k : Nat) : At Q (State.fabMove s m k) = At Q s := by
  unfold State.fabMove; (try simp only [same_mk, same_fold, same_ite, ite_fst, ite_snd, ite_self, keepsO_none, keepsO_some, keepsO_ite, keepsP_none, keepsP_some, keepsP_ite, implies_true, State.giveToken_keeps, State.setSite_keeps, State.takeToken_keeps]); repeat' (first | (simp only [same_mk, same_fold, same_ite, ite_fst, ite_snd, ite_self, keepsO_none, keepsO_some, keepsO_ite, keepsP_none, keepsP_some, keepsP_ite, implies_true, State.giveToken_keeps, State.setSite_keeps, State.takeToken_keeps]; done) | split)

theorem State.noteRams_keeps (Q : Parts) (s : State) : At Q (State.noteRams s) = At Q s := by
  unfold State.noteRams; simp only [same_mk, same_fold, same_ite, ite_fst, ite_snd, ite_self, implies_true,
  State.open_keeps]

theorem State.fabRun_keeps (Q : Parts) (x0 : Nat) (x1 : State) (h : At Q x1) : At Q (State.fabRun x0 x1) := by
  induction x0 generalizing x1 with
  | zero => exact h
  | succ n ih =>
    rw [State.fabRun]
    dsimp only
    split
    · exact ih _ (by simp only [State.fabMove_keeps, State.open_keeps, State.noteRams_keeps, h])
    · simp only [State.open_keeps, State.noteRams_keeps, h]

theorem State.fabTick_keeps (Q : Parts) (s : State) (h : At Q s) : At Q (State.fabTick s) := by
  unfold State.fabTick; simp only [same_mk, same_fold, same_ite, ite_fst, ite_snd, ite_self, implies_true,
  State.fabRun_keeps, State.open_keeps, h]

theorem State.fabReset_keeps (Q : Parts) (s : State) (p : Nat) : At Q (State.fabReset s p) = At Q s := by
  unfold State.fabReset; simp only [same_mk, same_fold, same_ite, ite_fst, ite_snd, ite_self, implies_true]

theorem State.fabTear_keeps (Q : Parts) (s : State) (p : Nat) : At Q (State.fabTear s p) = At Q s := by
  unfold State.fabTear; simp only [same_mk, same_fold, same_ite, same_foldl, same_foldl_snd, same_foldl_fst, ite_fst,
  ite_snd, ite_self, keepsO_none, keepsO_some, keepsO_ite, keepsP_none, keepsP_some, keepsP_ite, implies_true,
  State.open_keeps, State.setSite_keeps]

theorem State.fabJam_keeps (Q : Parts) (s : State) (loc : Nat) : At Q (State.fabJam s loc) = At Q s := by
  unfold State.fabJam; simp only [same_mk, same_fold, same_ite, ite_fst, ite_snd, ite_self, implies_true,
  State.setSite_keeps]

end Sys2Proof.Machine
end

