-- ==== Sys2Proof/Laws/KeepsPanels.lean ====
section
/-! SUPPORT. What the definitions of Panels leave as they are: the waiting commands and the fuse words. -/

namespace Sys2Proof.Machine

open Sys2Proof

set_option simprocs false
set_option linter.unusedSimpArgs false
set_option linter.all false

theorem State.setPanel_keeps (Q : Parts) (s : State) (k : Nat) (u : PanelUnit) : At Q (State.setPanel s k u) = At Q s := by
  unfold State.setPanel; simp only [same_mk, same_fold]

theorem State.setPanelState_keeps (Q : Parts) (s : State) (k st : Nat) : At Q (State.setPanelState s k st) = At Q s := by
  unfold State.setPanelState; simp only [State.setFld_keeps]

theorem execIllegalDualRail_keeps (Q : Parts) (loc : Word) (s : State) (h : At Q s) : Keeps Q (execIllegalDualRail loc
  s) := by
  unfold execIllegalDualRail; simp only [same_mk, same_fold, same_ite, ite_fst, ite_snd, ite_self, keeps_next,
  keeps_ite, implies_true, State.countSat_keeps, State.fabJam_keeps, State.logOnce_keeps, State.setReg_keeps, h]

theorem execEdgePortStall_keeps (Q : Parts) (n : Fin 384) (s : State) (h : At Q s) : Keeps Q (execEdgePortStall n s) := by
  unfold execEdgePortStall; simp only [same_ite, ite_self, keeps_next, State.log_keeps, State.raise_keeps, h]

theorem execPanelStuck_keeps (Q : Parts) (k : Fin 24) (s : State) (h : At Q s) : Keeps Q (execPanelStuck k s) := by
  unfold execPanelStuck; simp only [same_ite, ite_self, keeps_next, State.log_keeps, State.raise_keeps, h]

theorem execFenceHandshake_keeps (Q : Parts) (entry : Nat) (d : Dword) (s : State) (h : At Q s) : Keeps Q
  (execFenceHandshake entry d s) := by
  unfold execFenceHandshake; (split <;> simp only [same_ite, ite_self, keeps_next, keeps_ite, keepsO_none, keepsP_none, State.countSat_keeps, State.setFenceToken_keeps, h])

theorem State.fenceLoading_keeps (Q : Parts) (s : State) (k i : Nat) (f : Fence) : At Q
  (State.fenceLoading s k i f) = At Q s := by
  unfold State.fenceLoading; simp only [same_ite, ite_self, keepsO_none, keepsP_none, State.countSat_keeps,
    State.setFenceToken_keeps]

theorem State.showHbuf_keeps (Q : Parts) (s : State) : At Q (State.showHbuf s) = At Q s := by
  unfold State.showHbuf; simp only [same_ite, ite_self, State.setFld_keeps]

theorem State.feedLoad_keeps (Q : Parts) (s : State) (bs : List Byte) : At Q (State.feedLoad s bs) = At Q s := by
  unfold State.feedLoad; simp only [same_mk, same_fold]

theorem State.drainHbuf_keeps (Q : Parts) (s : State) : At Q (State.drainHbuf s) = At Q s := by
  unfold State.drainHbuf; (split <;> simp only [same_mk, same_fold, same_ite, ite_self, State.feedLoad_keeps, State.showHbuf_keeps])

theorem State.startImage_keeps (Q : Parts) (s : State) (src : ImageSource) (base : Nat) : At Q
  (State.startImage s src base) = At Q s := by
  unfold State.startImage; simp only [same_mk, same_fold, State.showHbuf_keeps]

theorem State.icpReport_keeps (Q : Parts) (s : State) (result code : Nat) : At Q (State.icpReport s result code) = At Q s := by
  unfold State.icpReport; simp only [same_mk, same_fold, same_ite, ite_self]

theorem State.dropPanels_keeps (Q : Parts) (s : State) : At Q (State.dropPanels s) = At Q s := by
  unfold State.dropPanels; simp only [same_ite, same_foldl, ite_self, implies_true, State.setPanelState_keeps]

theorem State.partialEnds_keeps (Q : Parts) (s : State) (result : Nat) : At Q (State.partialEnds s result) = At Q s := by
  unfold State.partialEnds; simp only [same_mk, same_fold, same_ite, ite_self, State.setFld_keeps, State.clear_keeps,
    State.endLoad_keeps, State.raise_keeps, State.showHbuf_keeps]

theorem State.startPartial_keeps (Q : Parts) (s : State) (code : Nat) (src : ImageSource) (base : Nat) (atomic : Bool) : At Q
  (State.startPartial s code src base atomic) = At Q s := by
  unfold State.startPartial; simp only [State.setFld_keeps, State.raise_keeps, State.setBit_keeps, State.startImage_keeps]

theorem State.fallback_keeps (Q : Parts) (s : State) : At Q (State.fallback s) = At Q s := by
  unfold State.fallback; simp only [same_ite, ite_self, State.log_keeps, State.raise_keeps, State.startPartial_keeps]

theorem State.partialFails_keeps (Q : Parts) (s : State) (code detail : Nat) : At Q
  (State.partialFails s code detail) = At Q s := by
  unfold State.partialFails; simp only [State.setFld_keeps, State.log_keeps, State.dropPanels_keeps, State.fallback_keeps,
    State.icpReport_keeps, State.partialEnds_keeps]

theorem State.partialAbandoned_keeps (Q : Parts) (s : State) : At Q (State.partialAbandoned s) = At Q s := by
  unfold State.partialAbandoned; simp only [same_ite, ite_self, State.log_keeps, State.dropPanels_keeps, State.icpReport_keeps,
    State.partialEnds_keeps]

theorem State.partialCompletes_keeps (Q : Parts) (s : State) : At Q (State.partialCompletes s) = At Q s := by
  unfold State.partialCompletes; simp only [same_ite, same_foldl, ite_self, implies_true, State.setFld_keeps,
    State.clear_keeps, State.countWrap_keeps, State.icpReport_keeps, State.partialEnds_keeps]

theorem State.crossingLoading_keeps (Q : Parts) (s : State) (n : Nat) : At Q (State.crossingLoading s n) = At Q s := by
  unfold State.crossingLoading; simp only [same_ite, ite_self, State.laneUnderrun_keeps, State.xngEnterReset_keeps]

theorem State.fifoLoading_keeps (Q : Parts) (s : State) (n k : Nat) : At Q (State.fifoLoading s n k) = At Q s := by
  unfold State.fifoLoading; simp only [same_ite, ite_self, State.fifoEndFrame_keeps, State.fifoFlush_keeps]

theorem State.enterLoading_keeps (Q : Parts) (s : State) (k : Nat) : At Q (State.enterLoading s k) = At Q s := by
  unfold State.enterLoading
  dsimp only
  rw [same_foldl]
  · simp only [same_mk, same_fold, same_ite, same_foldl, ite_self, implies_true, State.crossingLoading_keeps, State.fabReset_keeps,
      State.fifoLoading_keeps, State.flushSheetsOf_keeps, State.setPanel_keeps, State.setPanelState_keeps, State.setReg_keeps]
  · intro t b
    split
    · exact State.fenceLoading_keeps ..
    · rfl

theorem State.tryLoading_keeps (Q : Parts) (s : State) : At Q (State.tryLoading s) = At Q s := by
  unfold State.tryLoading; simp only [same_mk, same_fold, same_ite, same_foldl, ite_self, implies_true, State.enterLoading_keeps]

theorem State.startQuiesce_keeps (Q : Parts) (s : State) (k mask : Nat) : At Q (State.startQuiesce s k mask) = At Q s := by
  unfold State.startQuiesce; simp only [State.setPanel_keeps, State.setPanelState_keeps]

theorem State.enterReleasing_keeps (Q : Parts) (s : State) (k : Nat) : At Q (State.enterReleasing s k) = At Q s := by
  unfold State.enterReleasing; simp only [State.setPanel_keeps, State.setPanelState_keeps]

theorem State.panelStage_keeps (Q : Parts) (s : State) (k stage : Nat) : At Q (State.panelStage s k stage) = At Q s := by
  unfold State.panelStage; (split <;> simp only [same_ite, same_foldl, ite_self, implies_true, State.outSheetsOf_keeps, State.setPanel_keeps, State.xngLeaveReset_keeps])

theorem State.panelRuns_keeps (Q : Parts) (s : State) (k : Nat) : At Q (State.panelRuns s k) = At Q s := by
  unfold State.panelRuns; simp only [same_ite, ite_self, State.setWide_keeps, State.partialCompletes_keeps,
    State.setPanelState_keeps, State.startQuiesce_keeps]

theorem execPanelReleaseStage_keeps (Q : Parts) (k : Fin 24) (s : State) (h : At Q s) : Keeps Q (execPanelReleaseStage k s) := by
  unfold execPanelReleaseStage; simp only [ite_self, keeps_next, keeps_ite, State.panelRuns_keeps, State.panelStage_keeps,
    State.setPanel_keeps, h]

theorem State.panelRefused_keeps (Q : Parts) (s : State) (code k : Nat) : At Q (State.panelRefused s code k) = At Q s := by
  unfold State.panelRefused; simp only [State.log_keeps, State.raise_keeps]

theorem State.markQuiesced_keeps (Q : Parts) (s : State) (p : Path) (ps : List Nat) : At Q (State.markQuiesced s p ps) =
  At Q s := by
  unfold State.markQuiesced; simp only [same_mk, same_fold, same_ite, ite_fst, ite_snd, ite_self, implies_true]

theorem State.quiesceSel_keeps (Q : Parts) (s : State) (p : Path) : At Q (State.quiesceSel s p) = At Q s := by
  unfold State.quiesceSel; simp only [same_mk, same_fold, same_ite, same_foldl, same_foldl_snd, same_foldl_fst, ite_fst,
  ite_snd, ite_self, implies_true, State.markQuiesced_keeps, State.panelRefused_keeps, State.startQuiesce_keeps]

theorem State.resumePanel_keeps (Q : Parts) (s : State) (k : Nat) : At Q (State.resumePanel s k) = At Q s := by
  unfold State.resumePanel; simp only [same_mk, same_fold, same_ite, ite_fst, ite_snd, ite_self, implies_true,
  State.panelRefused_keeps, State.setPanel_keeps]

theorem State.resumeSel_keeps (Q : Parts) (s : State) (with_ : List Nat) : At Q (State.resumeSel s with_) = At Q s := by
  unfold State.resumeSel; simp only [same_mk, same_fold, same_ite, same_foldl, same_foldl_snd, same_foldl_fst, ite_fst,
  ite_snd, ite_self, implies_true, State.resumePanel_keeps, State.setPanel_keeps]

theorem State.panelsBeat_keeps (Q : Parts) (s : State) : At Q (State.panelsBeat s) = At Q s := by
  unfold State.panelsBeat; simp only [same_mk, same_fold, same_ite, same_foldl, same_foldl_snd, same_foldl_fst, ite_fst,
  ite_snd, ite_self, implies_true, State.setPanel_keeps, State.setPanelState_keeps]

theorem execQuiesce_keeps (Q : Parts) (p : Path) (s : State) (h : At Q s) : Keeps Q (execQuiesce p s) := by
  unfold execQuiesce; simp only [same_mk, same_fold, same_ite, ite_fst, ite_snd, ite_self, keeps_next, keeps_ite,
  implies_true, State.quiesceSel_keeps, keeps_whenOpen, h]

theorem execResume_keeps (Q : Parts) (_p : Path) (s : State) (h : At Q s) : Keeps Q (execResume _p s) := by
  unfold execResume; simp only [keeps_whenOpen, State.resumeSel_keeps, h]

theorem State.panelFroze_keeps (Q : Parts) (s : State) (k : Nat) : At Q (State.panelFroze s k) = At Q s := by
  unfold State.panelFroze; simp only [same_mk, same_fold, same_ite, ite_fst, ite_snd, ite_self, implies_true,
  State.raise_keeps, State.resumePanel_keeps, State.setPanel_keeps, State.tryLoading_keeps]

theorem State.quiesced_keeps (Q : Parts) (s : State) (k qn : Nat) : At Q (State.quiesced s k qn) = At Q s := by
  unfold State.quiesced; simp only [State.setFld_keeps, State.panelFroze_keeps, State.roundOpen_keeps, State.setPanelState_keeps]

theorem execQuiesceComplete_keeps (Q : Parts) (k : Fin 24) (s : State) (h : At Q s) : Keeps Q (execQuiesceComplete k s) := by
  unfold execQuiesceComplete; simp only [same_ite, ite_self, keeps_next, State.quiesced_keeps, h]

theorem execQuiesceTimeout_keeps (Q : Parts) (k : Fin 24) (s : State) (h : At Q s) : Keeps Q (execQuiesceTimeout k s) :=
  by
  unfold execQuiesceTimeout; simp only [same_mk, same_fold, same_ite, ite_fst, ite_snd, ite_self, keeps_next, keeps_ite,
  implies_true, State.fabTear_keeps, State.log_keeps, State.panelFroze_keeps, State.raise_keeps,
  State.setPanelState_keeps, h]

theorem State.partialRefused_keeps (Q : Parts) (s : State) (code : Nat) : At Q (State.partialRefused s code) = At Q s := by
  unfold State.partialRefused; simp only [same_ite, ite_self, State.setFld_keeps, State.log_keeps, State.raise_keeps]

theorem execPanelLoad_keeps (Q : Parts) (_p : Path) (s : State) (h : At Q s) : Keeps Q (execPanelLoad _p s) := by
  unfold execPanelLoad; simp only [ite_self, keeps_next, keeps_ite, keeps_whenOpen, State.partialRefused_keeps,
    State.startPartial_keeps, h]

theorem execPanelHostData_keeps (Q : Parts) (_p : Path) (w : Word) (s : State) (h : At Q s) : Keeps Q
  (execPanelHostData _p w s) := by
  unfold execPanelHostData; simp only [same_mk, same_fold, ite_self, keeps_next, keeps_ite, State.partialFails_keeps,
    State.raise_keeps, State.showHbuf_keeps, h]

theorem State.icpTake_keeps (Q : Parts) (s : State) (d : Dword) : At Q (State.icpTake s d) = At Q s := by
  unfold State.icpTake; simp only [State.feedLoad_keeps, State.portCount_keeps]

theorem execIcpDataToken_keeps (Q : Parts) (d : Dword) (s : State) (h : At Q s) : Keeps Q (execIcpDataToken d s) := by
  unfold execIcpDataToken; simp only [same_mk, same_fold, same_ite, ite_self, keeps_next, keeps_ite, keepsO_none, keepsP_none,
    State.icpTake_keeps, State.portCount_keeps, State.startPartial_keeps, h]

theorem execPanelAbort_keeps (Q : Parts) (_p : Path) (s : State) (h : At Q s) : Keeps Q (execPanelAbort _p s) := by
  unfold execPanelAbort; simp only [keeps_whenOpen, State.partialAbandoned_keeps, h]

theorem execPanelLoadWordTimeout_keeps (Q : Parts) (s : State) (h : At Q s) : Keeps Q (execPanelLoadWordTimeout s) := by
  unfold execPanelLoadWordTimeout; simp only [same_ite, ite_self, keeps_next, State.partialFails_keeps, h]

theorem State.partialMask_keeps (Q : Parts) (s : State) (h : ImageHeader) : At Q (State.partialMask s h) = At Q s := by
  unfold State.partialMask; simp only [same_ite, same_foldl, ite_self, keepsO_none, keepsP_none, implies_true,
    State.setFld_keeps, State.log_keeps, State.icpReport_keeps, State.partialEnds_keeps, State.raise_keeps,
    State.startQuiesce_keeps, State.tryLoading_keeps]

theorem State.partialHeader_keeps (Q : Parts) (s : State) (noise : List (Nat × Byte)) (errs : List (Nat × Nat)) :
    At Q (State.partialHeader s noise errs) = At Q s := by
  unfold State.partialHeader
  split
  · rfl
  · rename_i b _
    dsimp only
    have k := State.verifyHeader_keeps Q (s.imageChunks errs 512).2 b true (s.imageChunks errs 512).1
    simp only [State.imageChunks_keeps] at k
    split
    · rename_i h; rw [h] at k; simp only [State.partialFails_keeps, k]
    · rename_i h
      rw [h] at k
      simp only [State.partialMask_keeps, same_mk, same_fold, State.imageTaken_keeps, k]

theorem State.partialLast_keeps (Q : Parts) (s : State) (h : ImageHeader) : At Q (State.partialLast s h) = At Q s := by
  unfold State.partialLast; simp only [same_mk, same_fold, same_ite, same_foldl, ite_self, implies_true, State.endLoad_keeps,
    State.enterReleasing_keeps, State.partialCompletes_keeps, State.partialFails_keeps, State.showImage_keeps]

theorem State.partialEffect_keeps (Q : Parts) (s : State) (h : ImageHeader) (r : Record) (p : List Byte) : At Q
  (State.partialEffect s h r p) = At Q s := by
  unfold State.partialEffect; (split <;> simp only [same_ite, ite_self, State.addSat_keeps, State.enterReleasing_keeps, State.loadPanel_keeps, State.partialFails_keeps, State.partialLast_keeps])

theorem State.partialOpened_keeps (Q : Parts) (s : State) (h : ImageHeader) (b : List Byte) (damaged : Bool) : At Q
  (State.partialOpened s h b damaged) = At Q s := by
  unfold State.partialOpened; (split <;> simp only [same_mk, same_fold, same_ite, ite_self, State.log_keeps, State.imageTaken_keeps, State.partialEffect_keeps, State.partialFails_keeps])

theorem State.partialRecord_keeps (Q : Parts) (s : State) (h : ImageHeader) (noise : List (Nat × Byte)) (errs : List
  (Nat × Nat)) : At Q (State.partialRecord s h noise errs) = At Q s := by
  unfold State.partialRecord; ((try simp only [same_ite, ite_self, keepsO_none, keepsP_none, State.imageChunks_keeps, State.partialFails_keeps, State.partialOpened_keeps]); repeat' (first | (simp only [same_ite, ite_self, keepsO_none, keepsP_none, State.imageChunks_keeps, State.partialFails_keeps, State.partialOpened_keeps]; done) | split))

end Sys2Proof.Machine
end

