-- ==== Sys2Proof/Laws/KeepsLinks.lean ====
section
/-! SUPPORT. What the definitions of Links leave as they are: the waiting commands and the fuse words. -/

namespace Sys2Proof.Machine

open Sys2Proof

set_option simprocs false
set_option linter.unusedSimpArgs false
set_option linter.all false

theorem State.setLink_keeps (Q : Parts) (s : State) (q : Nat) (u : LinkUnit) : At Q (State.setLink s q u) = At Q s := by
  unfold State.setLink; simp only [same_mk, same_fold]

theorem State.styLog_keeps (Q : Parts) (s : State) (code detail : Nat) : At Q (State.styLog s code detail) = At Q s := by
  unfold State.styLog; simp only [same_ite, ite_self, State.log_keeps, State.raise_keeps]

theorem State.shrLog_keeps (Q : Parts) (s : State) (code detail : Nat) : At Q (State.shrLog s code detail) = At Q s := by
  unfold State.shrLog; simp only [State.log_keeps, State.raise_keeps]

theorem State.linkFree_keeps (Q : Parts) (s : State) (q vc n : Nat) : At Q (State.linkFree s q vc n) = At Q s := by
  unfold State.linkFree; simp only [State.setLink_keeps]

theorem State.freeIngress_keeps (Q : Parts) (s : State) (w : WaitFrame) : At Q (State.freeIngress s w) = At Q s := by
  unfold State.freeIngress; (split <;> simp only [keepsO_none, keepsP_none, State.linkFree_keeps])

theorem State.linkPump_keeps (Q : Parts) (s : State) (q : Nat) (x0 : Nat) : At Q (State.linkPump s q x0) = At Q s := by
  induction x0 generalizing s with
  | zero => first | rfl | (rw [State.linkPump.eq_def]; simp only [keepsO_none, keepsP_none, State.freeIngress_keeps,
    State.setLink_keeps])
  | succ n ih =>
    rw [State.linkPump.eq_def]
    dsimp only
    repeat' (first | (simp only [keepsO_none, keepsP_none, State.freeIngress_keeps, State.setLink_keeps, ih]; done) | rfl | split)

theorem State.linkGo_keeps (Q : Parts) (s : State) (q : Nat) : At Q (State.linkGo s q) = At Q s := by
  unfold State.linkGo; simp only [State.linkPump_keeps]

theorem State.linkSend_keeps (Q : Parts) (s : State) (q : Nat) (w : WaitFrame) : At Q (State.linkSend s q w) = At Q s := by
  unfold State.linkSend; simp only [State.linkGo_keeps, State.setLink_keeps]

theorem State.setLinkState_keeps (Q : Parts) (s : State) (q st : Nat) : At Q (State.setLinkState s q st) = At Q s := by
  unfold State.setLinkState; simp only [State.setFld_keeps]

theorem State.linkStart_keeps (Q : Parts) (s : State) (q : Nat) : At Q (State.linkStart s q) = At Q s := by
  unfold State.linkStart; simp only [same_ite, ite_self, State.raise_keeps, State.setLinkState_keeps]

theorem State.linkOff_keeps (Q : Parts) (s : State) (q : Nat) : At Q (State.linkOff s q) = At Q s := by
  unfold State.linkOff; simp only [State.setLink_keeps, State.setLinkState_keeps]

theorem execShroudPortPllLock_keeps (Q : Parts) (q : Fin 5) (s : State) (h : At Q s) : Keeps Q (execShroudPortPllLock q s) := by
  unfold execShroudPortPllLock; simp only [same_ite, ite_self, keeps_next, State.raise_keeps, State.setLinkState_keeps, h]

theorem execShroudPortAlign_keeps (Q : Parts) (q : Fin 5) (s : State) (h : At Q s) : Keeps Q (execShroudPortAlign q s) := by
  unfold execShroudPortAlign; simp only [same_ite, ite_self, keeps_next, State.setLink_keeps, State.setLinkState_keeps, h]

theorem execShroudPortLockLoss_keeps (Q : Parts) (q : Fin 5) (pll : Bool) (s : State) (h : At Q s) : Keeps Q
  (execShroudPortLockLoss q pll s) := by
  unfold execShroudPortLockLoss; simp only [same_ite, ite_self, keeps_next, State.clear_keeps, State.setLinkState_keeps, h]

theorem State.linkBadFlit_keeps (Q : Parts) (s : State) (q : Nat) : At Q (State.linkBadFlit s q) = At Q s := by
  unfold State.linkBadFlit; simp only [same_ite, ite_self, State.countSat_keeps]

theorem State.linkTrain_keeps (Q : Parts) (s : State) (q : Nat) (rxReady peerSeen : Bool) : At Q
  (State.linkTrain s q rxReady peerSeen).2 = At Q s := by
  unfold State.linkTrain; simp only [same_ite, ite_snd, ite_self, State.setLink_keeps, State.setLinkState_keeps]

theorem State.linkDown_keeps (Q : Parts) (s : State) (q cause : Nat) : At Q (State.linkDown s q cause) = At Q s := by
  unfold State.linkDown; simp only [same_ite, same_foldl, ite_self, implies_true, State.clear_keeps, State.countSat_keeps,
    State.freeIngress_keeps, State.setLink_keeps, State.setLinkState_keeps, State.shrLog_keeps, State.styLog_keeps]

theorem State.linkAcked_keeps (Q : Parts) (s : State) (q seq : Nat) : At Q (State.linkAcked s q seq).2 = At Q s := by
  unfold State.linkAcked; simp only [State.linkGo_keeps, State.setLink_keeps]

theorem State.linkReplays_keeps (Q : Parts) (s : State) (q : Nat) : At Q (State.linkReplays s q) = At Q s := by
  unfold State.linkReplays; simp only [same_ite, ite_self, State.countSat_keeps, State.setLink_keeps]

theorem execCreditFlit_keeps (Q : Parts) (q : Fin 5) (good : Bool) (vc0 vc1 : BitVec 16) (s : State) (h : At Q s) : Keeps Q
  (execCreditFlit q good vc0 vc1 s) := by
  unfold execCreditFlit; simp only [same_ite, ite_self, keeps_next, State.linkBadFlit_keeps, State.linkGo_keeps,
    State.setLink_keeps, h]

theorem State.linkReceive_keeps (Q : Parts) (s : State) (q : Nat) (bs : List Byte) : At Q
  (State.linkReceive s q bs).2 = At Q s := by
  unfold State.linkReceive; simp only [same_ite, ite_snd, ite_self, State.countSat_keeps, State.setLink_keeps]

end Sys2Proof.Machine
end

