-- ==== Sys2Proof/Laws/KeepsShroud.lean ====
section
/-! SUPPORT. What the definitions of Shroud leave as they are: the waiting commands and the fuse words. -/

namespace Sys2Proof.Machine

open Sys2Proof

set_option simprocs false
set_option linter.unusedSimpArgs false
set_option linter.all false

theorem State.shrSend_keeps (Q : Parts) (s : State) (q vc : Nat) (bs : List Byte) : At Q (State.shrSend s q vc bs) = At Q s := by
  unfold State.shrSend; simp only [keepsO_none, keepsP_none, State.linkSend_keeps]

theorem State.shrDiscard_keeps (Q : Parts) (s : State) (hops : Nat) : At Q (State.shrDiscard s hops) = At Q s := by
  unfold State.shrDiscard; simp only [same_ite, ite_self, State.countSat_keeps, State.logOnce_keeps, State.raise_keeps]

theorem State.setAlign_keeps (Q : Parts) (s : State) (f : Fld) (v : Bool) : At Q (State.setAlign s f v) = At Q s := by
  unfold State.setAlign; simp only [same_ite, ite_self, State.raise_keeps, State.setBit_keeps]

theorem State.setEndpoint_keeps (Q : Parts) (s : State) (n : Nat) (u : EndpointUnit) : At Q
  (State.setEndpoint s n u) = At Q s := by
  unfold State.setEndpoint; simp only [same_mk, same_fold, State.setFld_keeps]

theorem State.gotCredit_keeps (Q : Parts) (s : State) (n src recv taken : Nat) : At Q
  (State.gotCredit s n src recv taken) = At Q s := by
  unfold State.gotCredit; simp only [same_ite, ite_self, State.setEndpoint_keeps]

theorem State.gotReply_keeps (Q : Parts) (s : State) (n src recv taken : Nat) : At Q
  (State.gotReply s n src recv taken) = At Q s := by
  unfold State.gotReply; ((try simp only [same_ite, ite_self, keepsO_none, keepsP_none, State.countWrap_keeps, State.gotCredit_keeps, State.setEndpoint_keeps, State.shrLog_keeps]); repeat' (first | (simp only [same_ite, ite_self, keepsO_none, keepsP_none, State.countWrap_keeps, State.gotCredit_keeps, State.setEndpoint_keeps, State.shrLog_keeps]; done) | split))

theorem State.creditFrame_keeps (Q : Parts) (s : State) (n src recv taken : Nat) (reply : Bool) : At Q
  (State.creditFrame s n src recv taken reply) = At Q s := by
  unfold State.creditFrame; simp only [same_ite, ite_self, State.gotCredit_keeps, State.gotReply_keeps]

theorem State.sendTo_keeps (Q : Parts) (s : State) (dst vc : Nat) (bs : List Byte) (here : State → State)
    (h : At Q (here s) = At Q s) : At Q (State.sendTo s dst vc bs here) = At Q s := by
  unfold State.sendTo
  simp only [State.shrSend_keeps, same_ite, h, ite_self]

theorem State.sendCredit_keeps (Q : Parts) (s : State) (n : Nat) (reply : Bool) : At Q (State.sendCredit s n reply) = At Q s := by
  unfold State.sendCredit; simp only [same_ite, ite_self, State.creditFrame_keeps, State.sendTo_keeps, State.setEndpoint_keeps]

theorem State.tokenTaken_keeps (Q : Parts) (s : State) (n : Nat) : At Q (State.tokenTaken s n).2 = At Q s := by
  unfold State.tokenTaken; ((try simp only [same_ite, ite_self, keepsO_none, keepsP_none, State.countWrap_keeps, State.sendCredit_keeps, State.setEndpoint_keeps]); repeat' (first | (simp only [same_ite, ite_self, keepsO_none, keepsP_none, State.countWrap_keeps, State.sendCredit_keeps, State.setEndpoint_keeps]; done) | split))

theorem State.rxDiscard_keeps (Q : Parts) (s : State) (n k : Nat) (logs : Bool) : At Q (State.rxDiscard s n k logs) = At Q s := by
  unfold State.rxDiscard; simp only [same_ite, ite_self, State.countSat_keeps, State.logOnce_keeps, State.raise_keeps]

theorem State.gotTokens_keeps (Q : Parts) (s : State) (n src : Nat) (ts : List (Dword × Byte)) : At Q
  (State.gotTokens s n src ts) = At Q s := by
  unfold State.gotTokens; simp only [same_ite, ite_self, State.countWrap_keeps, State.rxDiscard_keeps, State.setEndpoint_keeps]

theorem State.gotProbe_keeps (Q : Parts) (s : State) (n : Nat) : At Q (State.gotProbe s n) = At Q s := by
  unfold State.gotProbe; simp only [same_ite, ite_self, State.sendCredit_keeps]

theorem State.txPairGone_keeps (Q : Parts) (s : State) (n : Nat) : At Q (State.txPairGone s n) = At Q s := by
  unfold State.txPairGone; simp only [keepsO_none, keepsP_none, State.setReg_keeps, State.countSat_keeps,
    State.setEndpoint_keeps, State.shrLog_keeps]

theorem State.rxPairGone_keeps (Q : Parts) (s : State) (n : Nat) : At Q (State.rxPairGone s n) = At Q s := by
  unfold State.rxPairGone; simp only [State.setReg_keeps, State.rxDiscard_keeps, State.setEndpoint_keeps, State.shrLog_keeps]

theorem State.judgeAligned_keeps (Q : Parts) (s : State) : At Q (State.judgeAligned s) = At Q s := by
  unfold State.judgeAligned; simp only [same_ite, ite_self, State.setAlign_keeps]

theorem State.gotReport_keeps (Q : Parts) (s : State) (a : Nat) (aligned : Bool) : At Q
  (State.gotReport s a aligned) = At Q s := by
  unfold State.gotReport; simp only [same_mk, same_fold, same_ite, ite_self, State.judgeAligned_keeps]

theorem State.sendReport_keeps (Q : Parts) (s : State) : At Q (State.sendReport s) = At Q s := by
  unfold State.sendReport; simp only [id_eq, same_ite, ite_self, State.sendTo_keeps]

theorem execReportSend_keeps (Q : Parts) (s : State) (h : At Q s) : Keeps Q (execReportSend s) := by
  unfold execReportSend; simp only [same_ite, ite_self, keeps_next, State.sendReport_keeps, h]

theorem execReport_keeps (Q : Parts) (a : Fin 64) (aligned : Bool) (s : State) (h : At Q s) : Keeps Q
  (execReport a aligned s) := by
  unfold execReport; simp only [same_ite, ite_self, keeps_next, State.gotReport_keeps, h]

theorem State.installTable_keeps (Q : Parts) (s : State) (r : RouteTable) : At Q (State.installTable s r) = At Q s := by
  unfold State.installTable; simp only [same_mk, same_fold, same_ite, same_foldl, ite_self, keepsO_none, keepsP_none,
    implies_true, State.setReg_keeps, State.setFld_keeps, State.judgeAligned_keeps, State.raise_keeps, State.rxPairGone_keeps,
    State.txPairGone_keeps]

theorem State.takeTable_keeps (Q : Parts) (s : State) (r : RouteTable) : At Q (State.takeTable s r) = At Q s := by
  unfold State.takeTable; simp only [same_mk, same_fold, same_ite, ite_self, State.installTable_keeps]

theorem State.routeBeat_keeps (Q : Parts) (s : State) : At Q (State.routeBeat s) = At Q s := by
  unfold State.routeBeat; (try simp only [same_mk, same_fold, same_ite, ite_fst, ite_snd, ite_self, keepsO_none, keepsO_some, keepsO_ite, keepsP_none, keepsP_some, keepsP_ite, implies_true, State.installTable_keeps]); repeat' (first | (simp only [same_mk, same_fold, same_ite, ite_fst, ite_snd, ite_self, keepsO_none, keepsO_some, keepsO_ite, keepsP_none, keepsP_some, keepsP_ite, implies_true, State.installTable_keeps]; done) | split)

theorem execRouteSwitch_keeps (Q : Parts) (s : State) (h : At Q s) : Keeps Q (execRouteSwitch s) := by
  unfold execRouteSwitch; simp only [same_mk, same_fold, same_ite, ite_fst, ite_snd, ite_self, keeps_next, keeps_ite,
  implies_true, State.routeBeat_keeps, h]

theorem State.epochSeen_keeps (Q : Parts) (s : State) (e : Nat) : At Q (State.epochSeen s e) = At Q s := by
  unfold State.epochSeen; (split <;> simp only [same_ite, ite_self, keepsO_none, keepsP_none, State.installTable_keeps])

theorem State.showPorts_keeps (Q : Parts) (s : State) : At Q (State.showPorts s) = At Q s := by
  unfold State.showPorts; simp (disch := (intros; (try simp only [same_foldl, keepsO_none, keepsP_none, State.clear_keeps, State.setBit_keeps]); repeat' (first | (simp only [same_foldl, keepsO_none, keepsP_none, State.clear_keeps, State.setBit_keeps]; done) | split))) only [same_foldl, keepsO_none, keepsP_none, State.clear_keeps, State.setBit_keeps]

theorem State.followBest_keeps (Q : Parts) (s : State) : At Q (State.followBest s) = At Q s := by
  unfold State.followBest; ((try simp only [same_mk, same_fold, same_ite, keepsO_none, keepsP_none, State.setFld_keeps, State.setAlign_keeps, State.setBit_keeps, State.showPorts_keeps]); repeat' (first | (simp only [same_mk, same_fold, same_ite, keepsO_none, keepsP_none, State.setFld_keeps, State.setAlign_keeps, State.setBit_keeps, State.showPorts_keeps]; done) | split))

theorem State.setBest_keeps (Q : Parts) (s : State) (k : Nat) : At Q (State.setBest s k) = At Q s := by
  unfold State.setBest; simp only [same_mk, same_fold, same_foldl, implies_true, State.setReg_keeps]

theorem State.toElecting_keeps (Q : Parts) (s : State) : At Q (State.toElecting s) = At Q s := by
  unfold State.toElecting; simp only [same_mk, same_fold, same_ite, ite_self, State.setFld_keeps, State.clear_keeps,
    State.coordLost_keeps]

theorem State.adoptBest_keeps (Q : Parts) (s : State) (k : Nat) : At Q (State.adoptBest s k) = At Q s := by
  unfold State.adoptBest; simp only [same_ite, ite_self, State.followBest_keeps, State.setBest_keeps, State.toElecting_keeps]

theorem State.elect_keeps (Q : Parts) (s : State) : At Q (State.elect s) = At Q s := by
  unfold State.elect; ((try simp only [same_mk, same_fold, same_ite, ite_self, keepsO_none, keepsP_none, State.adoptBest_keeps, State.followBest_keeps]); repeat' (first | (simp only [same_mk, same_fold, same_ite, ite_self, keepsO_none, keepsP_none, State.adoptBest_keeps, State.followBest_keeps]; done) | split))

theorem State.sendTopo_keeps (Q : Parts) (s : State) : At Q (State.sendTopo s) = At Q s := by
  unfold State.sendTopo; simp only [same_ite, ite_self, keepsO_none, keepsP_none, State.shrSend_keeps]

theorem State.portsChanged_keeps (Q : Parts) (s : State) : At Q (State.portsChanged s) = At Q s := by
  unfold State.portsChanged; simp only [same_mk, same_fold, same_ite, ite_self, State.sendTopo_keeps]

theorem State.collectTopo_keeps (Q : Parts) (s : State) (x : Topo) : At Q (State.collectTopo s x) = At Q s := by
  unfold State.collectTopo; simp only [same_mk, same_fold]

theorem State.shrForward_keeps (Q : Parts) (s : State) (q out : Nat) (bs : List Byte) : At Q
  (State.shrForward s q out bs) = At Q s := by
  unfold State.shrForward; simp only [same_ite, ite_self, State.linkFree_keeps, State.linkSend_keeps, State.shrDiscard_keeps]

theorem State.gotTopo_keeps (Q : Parts) (s : State) (q : Nat) (bs : List Byte) : At Q (State.gotTopo s q bs) = At Q s := by
  unfold State.gotTopo; simp only [same_ite, ite_self, State.collectTopo_keeps, State.linkFree_keeps, State.shrForward_keeps]

theorem State.sendRoute_keeps (Q : Parts) (s : State) (f : Formation) (epoch switch : Nat) (x : Topo) : At Q
  (State.sendRoute s f epoch switch x) = At Q s := by
  unfold State.sendRoute; simp only [keepsO_none, keepsP_none, State.shrSend_keeps]

theorem State.completeFormation_keeps (Q : Parts) (s : State) : At Q (State.completeFormation s) = At Q s := by
  unfold State.completeFormation; simp only [same_mk, same_fold, same_ite, same_foldl, ite_self, implies_true,
    State.setFld_keeps, State.sendRoute_keeps, State.shrLog_keeps, State.takeTable_keeps]

theorem execFormationComplete_keeps (Q : Parts) (s : State) (h : At Q s) : Keeps Q (execFormationComplete s) := by
  unfold execFormationComplete; simp only [same_ite, ite_self, keeps_next, State.completeFormation_keeps, h]

theorem execReform_keeps (Q : Parts) (s : State) (h : At Q s) : Keeps Q (execReform s) := by
  unfold execReform; simp only [same_mk, same_fold, same_ite, ite_self, keeps_whenOpen, h]

theorem State.noAddress_keeps (Q : Parts) (s : State) : At Q (State.noAddress s) = At Q s := by
  unfold State.noAddress; simp only [same_mk, same_fold, same_ite, ite_fst, ite_snd, ite_self, implies_true,
  State.shrLog_keeps]

theorem State.gotRoute_keeps (Q : Parts) (s : State) (src : Nat) (d : List Byte) : At Q (State.gotRoute s src d) = At Q s := by
  unfold State.gotRoute; simp only [same_ite, ite_self, State.noAddress_keeps, State.takeTable_keeps]

theorem State.routeFrame_keeps (Q : Parts) (s : State) (q : Nat) (bs : List Byte) : At Q (State.routeFrame s q bs) = At Q s := by
  unfold State.routeFrame; simp only [same_ite, ite_self, State.gotRoute_keeps, State.linkFree_keeps, State.shrForward_keeps]

theorem State.enterForming_keeps (Q : Parts) (s : State) : At Q (State.enterForming s) = At Q s := by
  unfold State.enterForming; simp only [same_mk, same_fold, same_ite, ite_fst, ite_snd, ite_self, implies_true,
  State.clear_keeps, State.followBest_keeps, State.noAddress_keeps, State.raise_keeps, State.sendTopo_keeps,
  State.setAlign_keeps, State.setBit_keeps, State.setFld_keeps]

theorem execFormQuiet_keeps (Q : Parts) (s : State) (h : At Q s) : Keeps Q (execFormQuiet s) := by
  unfold execFormQuiet; simp only [same_ite, ite_self, keeps_next, State.enterForming_keeps, h]

theorem execTopo_keeps (Q : Parts) (frame : Option (Fin 4 × List Byte)) (s : State) (h : At Q s) : Keeps Q
  (execTopo frame s) := by
  unfold execTopo; (split <;> simp only [same_ite, ite_self, keeps_next, keepsO_none, keepsP_none, State.gotTopo_keeps, State.sendTopo_keeps, h])

theorem execRoute_keeps (Q : Parts) (q : Fin 4) (bs : List Byte) (s : State) (h : At Q s) : Keeps Q (execRoute q bs s) := by
  unfold execRoute; simp only [same_ite, ite_self, keeps_next, State.routeFrame_keeps, h]

theorem execHelloSend_keeps (Q : Parts) (s : State) (h : At Q s) : Keeps Q (execHelloSend s) := by
  unfold execHelloSend; simp only [same_ite, same_foldl, ite_self, keeps_next, implies_true, State.elect_keeps,
    State.shrSend_keeps, h]

theorem State.gotHello_keeps (Q : Parts) (s : State) (q : Nat) (h : Hello) : At Q (State.gotHello s q h) = At Q s := by
  unfold State.gotHello; simp only [same_mk, same_fold, same_ite, same_foldl, ite_self, keepsO_none, keepsP_none, implies_true,
    State.setReg_keeps, State.setFld_keeps, State.elect_keeps, State.portsChanged_keeps, State.setBit_keeps]

theorem execHello_keeps (Q : Parts) (q : Fin 4) (data : List Byte) (s : State) (h : At Q s) : Keeps Q (execHello q data s) := by
  unfold execHello; simp only [same_ite, ite_self, keeps_next, State.gotHello_keeps, h]

theorem execCoordSeqTick_keeps (Q : Parts) (s : State) (h : At Q s) : Keeps Q (execCoordSeqTick s) := by
  unfold execCoordSeqTick; simp only [same_mk, same_fold, same_ite, ite_self, keeps_next, h]

theorem State.floodDown_keeps (Q : Parts) (s : State) (but uid port epoch hops : Nat) : At Q
  (State.floodDown s but uid port epoch hops) = At Q s := by
  unfold State.floodDown; simp only [same_ite, same_foldl, ite_self, implies_true, State.shrDiscard_keeps, State.shrSend_keeps]

theorem State.strikeLink_keeps (Q : Parts) (s : State) (uid port : Nat) : At Q (State.strikeLink s uid port) = At Q s := by
  unfold State.strikeLink; simp only [same_mk, same_fold]

theorem State.gotLinkDown_keeps (Q : Parts) (s : State) (q uid port epoch hops : Nat) : At Q
  (State.gotLinkDown s q uid port epoch hops) = At Q s := by
  unfold State.gotLinkDown; simp only [same_mk, same_fold, same_ite, ite_self, State.floodDown_keeps, State.strikeLink_keeps]

theorem execLinkdown_keeps (Q : Parts) (q : Fin 4) (uid : BitVec 96) (port : Fin 4) (epoch : Byte) (s : State) (h : At Q s) :
  Keeps Q (execLinkdown q uid port epoch s) := by
  unfold execLinkdown; simp only [same_ite, ite_self, keeps_next, State.gotLinkDown_keeps, h]

theorem State.toAlone_keeps (Q : Parts) (s : State) : At Q (State.toAlone s) = At Q s := by
  unfold State.toAlone; simp only [same_mk, same_fold, same_ite, ite_self, keepsO_none, keepsP_none, State.setFld_keeps,
    State.clear_keeps, State.coordLost_keeps]

theorem State.shroudDown_keeps (Q : Parts) (s : State) (q : Nat) : At Q (State.shroudDown s q) = At Q s := by
  unfold State.shroudDown; simp only [same_mk, same_fold, same_ite, ite_self, keepsO_none, keepsP_none, State.floodDown_keeps,
    State.followBest_keeps, State.portsChanged_keeps, State.raise_keeps, State.showPorts_keeps, State.toAlone_keeps]

theorem State.shroudUp_keeps (Q : Parts) (s : State) : At Q (State.shroudUp s) = At Q s := by
  unfold State.shroudUp; simp only [same_ite, ite_self, State.setFld_keeps, State.elect_keeps, State.raise_keeps]

theorem execCoordinatorLost_keeps (Q : Parts) (s : State) (h : At Q s) : Keeps Q (execCoordinatorLost s) := by
  unfold execCoordinatorLost; simp only [same_mk, same_fold, ite_self, keeps_next, keeps_ite, State.adoptBest_keeps,
    State.coordLost_keeps, State.shrLog_keeps, h]

theorem State.answerSync_keeps (Q : Parts) (s : State) (q ofs : Nat) : At Q (State.answerSync s q ofs) = At Q s := by
  unfold State.answerSync; simp only [State.shrSend_keeps]

theorem execShroudSyncReq_keeps (Q : Parts) (arrived : Option (Fin 4)) (ofs : Nat) (s : State) (h : At Q s) : Keeps Q
  (execShroudSyncReq arrived ofs s) := by
  unfold execShroudSyncReq; (split <;> simp only [same_mk, same_fold, same_ite, ite_self, keeps_next, keeps_ite, keepsO_none, keepsP_none, State.answerSync_keeps, State.shrSend_keeps, h])

theorem State.setSigned_keeps (Q : Parts) (s : State) (a : Nat) (v : Int) : At Q (State.setSigned s a v) = At Q s := by
  unfold State.setSigned; simp only [same_ite, ite_self, State.setReg_keeps, State.open_keeps]

theorem State.shroudSample_keeps (Q : Parts) (s : State) (e : Int) : At Q (State.shroudSample s e) = At Q s := by
  unfold State.shroudSample; simp only [same_mk, same_fold, same_ite, ite_self, State.coordSample_keeps,
    State.phaseRequest_keeps, State.shrLog_keeps]

theorem State.gotSync_keeps (Q : Parts) (s : State) (q t2 t3 t4 : Nat) (ep : Int) (set : Bool) : At Q
  (State.gotSync s q t2 t3 t4 ep set) = At Q s := by
  unfold State.gotSync; (split <;> simp only [same_mk, same_fold, same_ite, ite_self, keepsO_none, keepsP_none, State.sendReport_keeps, State.setAlign_keeps, State.setBit_keeps, State.setSigned_keeps, State.shroudSample_keeps])

theorem execShroudSyncResp_keeps (Q : Parts) (q : Fin 4) (t2 t3 : Dword) (ep : Word) (set : Bool) (ofs : Nat) (s : State) (h :
  At Q s) : Keeps Q (execShroudSyncResp q t2 t3 ep set ofs s) := by
  unfold execShroudSyncResp; simp only [same_ite, ite_self, keeps_next, State.gotSync_keeps, h]

theorem State.epPops_keeps (Q : Parts) (s : State) (m : Nat) (x0 : List Ecc) : At Q (State.epPops s m x0).2 = At Q s := by
  induction x0 generalizing s with
  | nil => first | rfl | (rw [State.epPops.eq_def]; simp only [State.fifoPop_keeps])
  | cons v vs ih =>
    rw [State.epPops.eq_def]
    dsimp only
    repeat' (first | (simp only [State.fifoPop_keeps, ih]; done) | rfl | split)

theorem State.sendTokens_keeps (Q : Parts) (s : State) (n : Nat) (fmt : Bool) (ts : List (Dword × Byte)) : At Q
  (State.sendTokens s n fmt ts) = At Q s := by
  unfold State.sendTokens; simp only [same_ite, ite_self, State.countWrap_keeps, State.gotTokens_keeps, State.sendTo_keeps]

theorem State.epTransmit_keeps (Q : Parts) (s : State) (n : Nat) (feed : List (Dword × Ecc)) :
    At Q (State.epTransmit s n feed) = At Q s := by
  unfold State.epTransmit
  split
  · rfl
  · split
    · split
      · split
        · have k := State.epPops_keeps Q s ‹Nat› (feed.map (·.2))
          generalize State.epPops s _ _ = p at k ⊢
          obtain ⟨ws, t⟩ := p
          simp only [State.sendTokens_keeps, k]
        · rfl
      · rfl
    · split
      · simp only [State.sendTokens_keeps, State.portCount_keeps, same_foldl, implies_true]
      · rfl

theorem execEndpointTransmit_keeps (Q : Parts) (n : Fin 64) (feed : List (Dword × Ecc)) (s : State) (h : At Q s) : Keeps Q
  (execEndpointTransmit n feed s) := by
  unfold execEndpointTransmit; simp only [keeps_next, State.epTransmit_keeps, h]

theorem execEndpointCreditFrame_keeps (Q : Parts) (n : Fin 64) (s : State) (h : At Q s) : Keeps Q
  (execEndpointCreditFrame n s) := by
  unfold execEndpointCreditFrame; simp only [same_ite, ite_self, keeps_next, State.sendCredit_keeps, h]

theorem execProbe_keeps (Q : Parts) (n : Fin 64) (s : State) (h : At Q s) : Keeps Q (execProbe n s) := by
  unfold execProbe; simp only [ite_self, keeps_next, keeps_ite, State.gotProbe_keeps, State.sendTo_keeps,
    State.setEndpoint_keeps, h]

theorem execProbeReply_keeps (Q : Parts) (n : Fin 64) (recv taken : Word) (s : State) (h : At Q s) : Keeps Q
  (execProbeReply n recv taken s) := by
  unfold execProbeReply; simp only [same_ite, ite_self, keeps_next, State.gotReply_keeps, h]

theorem execPeerWrite_keeps (Q : Parts) (_p : Path) (n : Fin 64) (rx : Bool) (v : Word) (s : State) (h : At Q s) : Keeps Q
  (execPeerWrite _p n rx v s) := by
  unfold execPeerWrite; simp only [same_ite, ite_self, keeps_ite, keeps_whenOpen, keepsO_none, keepsP_none, State.setReg_keeps,
    State.setFld_keeps, State.mirrorMerge_keeps, State.setEndpoint_keeps, State.shrLog_keeps, h]

theorem State.deliver_keeps (Q : Parts) (s : State) (bs : List Byte) : At Q (State.deliver s bs) = At Q s := by
  unfold State.deliver; (split <;> simp only [State.creditFrame_keeps, State.gotProbe_keeps, State.gotReport_keeps, State.gotTokens_keeps])

theorem State.routedFrame_keeps (Q : Parts) (s : State) (q : Nat) (bs : List Byte) : At Q
  (State.routedFrame s q bs) = At Q s := by
  unfold State.routedFrame; simp only [same_ite, ite_self, State.deliver_keeps, State.epochSeen_keeps, State.linkFree_keeps,
    State.shrDiscard_keeps, State.shrForward_keeps]

theorem State.shroudFrame_keeps (Q : Parts) (s : State) (q : Nat) (bs : List Byte) : At Q
  (State.shroudFrame s q bs) = At Q s := by
  unfold State.shroudFrame; (split <;> simp only [State.answerSync_keeps, State.gotHello_keeps, State.gotLinkDown_keeps, State.gotSync_keeps, State.gotTopo_keeps, State.linkFree_keeps, State.routeFrame_keeps, State.routedFrame_keeps])

theorem execFrameWaitTimeout_keeps (Q : Parts) (q : Fin 4) (s : State) (h : At Q s) : Keeps Q (execFrameWaitTimeout q s) := by
  unfold execFrameWaitTimeout; ((try simp only [same_ite, ite_self, keeps_next, keepsO_none, keepsP_none, State.freeIngress_keeps, State.setLink_keeps, State.shrDiscard_keeps, h]); repeat' (first | (simp only [same_ite, ite_self, keeps_next, keepsO_none, keepsP_none, State.freeIngress_keeps, State.setLink_keeps, State.shrDiscard_keeps, h]; done) | split))

end Sys2Proof.Machine
end

