-- ==== Sys2Proof/Laws/KeepsStay.lean ====
section
/-! SUPPORT. What the definitions of Stay leave as they are: the waiting commands and the fuse words. -/

namespace Sys2Proof.Machine

open Sys2Proof

set_option simprocs false
set_option linter.unusedSimpArgs false
set_option linter.all false

theorem State.showContend_keeps (Q : Parts) (s : State) : At Q (State.showContend s) = At Q s := by
  unfold State.showContend; simp only [same_mk, same_fold, same_ite, ite_fst, ite_snd, ite_self, implies_true,
  State.setBit_keeps]

theorem State.setRole_keeps (Q : Parts) (s : State) (r : Nat) : At Q (State.setRole s r) = At Q s := by
  unfold State.setRole; simp only [same_mk, same_fold, same_ite, ite_fst, ite_snd, ite_self, implies_true,
  State.clear_keeps, State.raise_keeps, State.setFld_keeps, State.showContend_keeps]

theorem State.demote_keeps (Q : Parts) (s : State) : At Q (State.demote s) = At Q s := by
  unfold State.demote; simp only [same_mk, same_fold, keepsO_none, keepsP_none, State.setRole_keeps]

theorem State.stayAtSail_keeps (Q : Parts) (s : State) : At Q (State.stayAtSail s) = At Q s := by
  unfold State.stayAtSail; simp only [same_mk, same_fold, same_ite, ite_self, State.setRole_keeps]

theorem execClaimWaitEnd_keeps (Q : Parts) (s : State) (h : At Q s) : Keeps Q (execClaimWaitEnd s) := by
  unfold execClaimWaitEnd; simp only [same_mk, same_fold, same_ite, ite_self, keeps_next, State.setRole_keeps, h]

theorem State.takeOver_keeps (Q : Parts) (s : State) (cause : Nat) : At Q (State.takeOver s cause) = At Q s := by
  unfold State.takeOver; (try simp only [same_mk, same_fold, same_ite, ite_fst, ite_snd, ite_self, keepsO_none, keepsO_some, keepsO_ite, keepsP_none, keepsP_some, keepsP_ite, implies_true, State.dscTakeover_keeps, State.setRole_keeps]); repeat' (first | (simp only [same_mk, same_fold, same_ite, ite_fst, ite_snd, ite_self, keepsO_none, keepsO_some, keepsO_ite, keepsP_none, keepsP_some, keepsP_ite, implies_true, State.dscTakeover_keeps, State.setRole_keeps]; done) | split)

theorem execTakeoverComplete_keeps (Q : Parts) (s : State) (h : At Q s) : Keeps Q (execTakeoverComplete s) := by
  unfold execTakeoverComplete; (split <;> simp only [same_mk, same_fold, same_ite, ite_self, keeps_next, keepsO_none, keepsP_none, State.setWide_keeps, State.countWrap_keeps, State.raise_keeps, State.styLog_keeps, h])

theorem execActInChange_keeps (Q : Parts) (level : Bool) (s : State) (h : At Q s) : Keeps Q (execActInChange level s) := by
  unfold execActInChange; simp only [same_mk, same_fold, same_ite, ite_self, keeps_next, State.setRole_keeps,
    State.showContend_keeps, State.takeOver_keeps, h]

theorem execContention_keeps (Q : Parts) (s : State) (h : At Q s) : Keeps Q (execContention s) := by
  unfold execContention; simp only [same_mk, same_fold, same_ite, ite_self, keeps_next, keeps_ite, State.demote_keeps,
    State.styLog_keeps, h]

theorem State.staySend_keeps (Q : Parts) (s : State) (rank kind flags index : Nat) (data : List Byte) : At Q
  (State.staySend s rank kind flags index data) = At Q s := by
  unfold State.staySend; simp only [keepsO_none, keepsP_none, State.linkSend_keeps]

theorem State.entrySent_keeps (Q : Parts) (s : State) (i : Nat) : At Q (State.entrySent s i) = At Q s := by
  unfold State.entrySent; simp only [same_mk, same_fold]

theorem State.sendUnit_keeps (Q : Parts) (s : State) (rank i : Nat) : At Q (State.sendUnit s rank i) = At Q s := by
  unfold State.sendUnit; (split <;> simp only [State.entrySent_keeps, State.staySend_keeps])

theorem State.sendRegs_keeps (Q : Parts) (s : State) (rank : Nat) (x0 : Nat) (x1 : List Nat) : At Q
  (State.sendRegs s rank x0 x1) = At Q s := by
  induction x0 generalizing s x1 with
  | zero => first | rfl | (rw [State.sendRegs.eq_def]; simp only [same_ite, same_foldl, ite_self, implies_true,
    State.entrySent_keeps, State.staySend_keeps])
  | succ n ih =>
    rw [State.sendRegs.eq_def]
    dsimp only
    repeat' (first | (simp only [same_ite, same_foldl, ite_self, implies_true, State.entrySent_keeps, State.staySend_keeps, ih]; done) | rfl | split)

theorem State.sendDsc_keeps (Q : Parts) (s : State) (rank : Nat) : At Q (State.sendDsc s rank) = At Q s := by
  unfold State.sendDsc; simp only [same_mk, same_fold, same_ite, ite_fst, ite_snd, ite_self, implies_true,
  State.staySend_keeps]

theorem State.sendModel_keeps (Q : Parts) (s : State) (rank : Nat) : At Q (State.sendModel s rank) = At Q s := by
  unfold State.sendModel; simp only [State.staySend_keeps]

theorem State.sendSlot_keeps (Q : Parts) (s : State) (rank : Nat) (n : Nat) (ts : List Dword) (at_ : Nat) : At Q
  (State.sendSlot s rank n ts at_) = At Q s := by
  unfold State.sendSlot; simp only [same_mk, same_fold, same_ite, ite_fst, ite_snd, ite_self, keepsO_none, keepsO_some,
  keepsO_ite, keepsP_none, keepsP_some, keepsP_ite, implies_true, State.linkSend_keeps]

theorem State.refreshSlot_keeps (Q : Parts) (s : State) (n : Nat) : At Q (State.refreshSlot s n) = At Q s := by
  unfold State.refreshSlot; (try simp only [same_mk, same_fold, same_ite, ite_fst, ite_snd, ite_self, keepsO_none, keepsO_some, keepsO_ite, keepsP_none, keepsP_some, keepsP_ite, implies_true, State.sendSlot_keeps]); repeat' (first | (simp only [same_mk, same_fold, same_ite, ite_fst, ite_snd, ite_self, keepsO_none, keepsO_some, keepsO_ite, keepsP_none, keepsP_some, keepsP_ite, implies_true, State.sendSlot_keeps]; done) | split)

theorem State.fullRefresh_keeps (Q : Parts) (s : State) (final : Bool) : At Q (State.fullRefresh s final) = At Q s := by
  unfold State.fullRefresh; simp only [same_mk, same_fold, same_ite, same_foldl, same_foldl_snd, same_foldl_fst,
  ite_fst, ite_snd, ite_self, implies_true, State.refreshSlot_keeps, State.sendDsc_keeps, State.sendModel_keeps,
  State.sendRegs_keeps, State.sendUnit_keeps, State.setLink_keeps, State.staySend_keeps]

theorem execRefresh_keeps (Q : Parts) (cmd : Option Word) (s : State) (h : At Q s) : Keeps Q (execRefresh cmd s) := by
  unfold execRefresh; simp only [same_ite, ite_self, keeps_next, keepsO_none, keepsP_none, State.fullRefresh_keeps, h]

theorem execMirrorChangeFrame_keeps (Q : Parts) (i : Fin 512) (s : State) (h : At Q s) : Keeps Q (execMirrorChangeFrame i s) := by
  unfold execMirrorChangeFrame; (repeat' (first | (simp only [same_ite, ite_self, keeps_next, keepsO_none, keepsP_none, State.sendRegs_keeps, State.sendUnit_keeps, h]; done) | split))

theorem State.stayBeat_keeps (Q : Parts) (s : State) : At Q (State.stayBeat s) = At Q s := by
  unfold State.stayBeat; simp only [same_mk, same_fold, same_ite, ite_fst, ite_snd, ite_self, implies_true,
  State.sendDsc_keeps]

theorem execDscFrameSend_keeps (Q : Parts) (s : State) (h : At Q s) : Keeps Q (execDscFrameSend s) := by
  unfold execDscFrameSend; simp only [same_ite, ite_self, keeps_next, State.sendDsc_keeps, h]

theorem execModelEpoch_keeps (Q : Parts) (s : State) (h : At Q s) : Keeps Q (execModelEpoch s) := by
  unfold execModelEpoch; simp only [same_ite, ite_self, keeps_next, keeps_ite, State.endEpoch_keeps, State.sendModel_keeps, h]

theorem execHeartbeatSend_keeps (Q : Parts) (s : State) (h : At Q s) : Keeps Q (execHeartbeatSend s) := by
  unfold execHeartbeatSend; simp only [same_mk, same_fold, same_ite, ite_self, keeps_next, h]

theorem State.heartbeatIn_keeps (Q : Parts) (s : State) (role : Nat) (flags : Nat) : At Q
  (State.heartbeatIn s role flags) = At Q s := by
  unfold State.heartbeatIn; simp only [same_mk, same_fold, same_ite, ite_self, State.setFld_keeps, State.fullRefresh_keeps,
    State.partnerLost_keeps, State.raise_keeps, State.setBit_keeps]

theorem execHeartbeat_keeps (Q : Parts) (good : Bool) (role : Fin 4) (flags : Byte) (s : State) (h : At Q s) : Keeps Q
  (execHeartbeat good role flags s) := by
  unfold execHeartbeat; simp only [same_ite, ite_self, keeps_next, State.heartbeatIn_keeps, State.linkBadFlit_keeps, h]

theorem execHeartbeatMiss_keeps (Q : Parts) (s : State) (h : At Q s) : Keeps Q (execHeartbeatMiss s) := by
  unfold execHeartbeatMiss; (repeat' (first | (simp only [same_mk, same_fold, same_ite, ite_self, keeps_next, keeps_ite, keepsO_none, keepsP_none, State.clear_keeps, State.countSat_keeps, State.raise_keeps, State.styLog_keeps, State.takeOver_keeps, h]; done) | split))

theorem State.gotPair_keeps (Q : Parts) (s : State) (uid : Nat) (primary : Bool) (sig : Nat) : At Q
  (State.gotPair s uid primary sig) = At Q s := by
  unfold State.gotPair; simp only [same_ite, same_foldl, ite_self, implies_true, State.setReg_keeps, State.fullRefresh_keeps,
    State.raise_keeps, State.setBit_keeps, State.styLog_keeps]

theorem execPair_keeps (Q : Parts) (uid : BitVec 96) (primary : Bool) (sig : Word) (s : State) (h : At Q s) : Keeps Q
  (execPair uid primary sig s) := by
  unfold execPair; simp only [same_ite, ite_self, keeps_next, State.gotPair_keeps, h]

theorem execSwitchover_keeps (Q : Parts) (_p : Path) (v : Word) (s : State) (h : At Q s) : Keeps Q (execSwitchover _p v s) := by
  unfold execSwitchover; (split <;> simp only [same_mk, same_fold, same_ite, ite_self, keeps_whenOpen, keepsO_none, keepsP_none, State.fullRefresh_keeps, State.ledgerAsk_keeps, State.staySend_keeps, State.styLog_keeps, h])

theorem State.handoverDone_keeps (Q : Parts) (s : State) : At Q (State.handoverDone s) = At Q s := by
  unfold State.handoverDone; simp only [same_mk, same_fold, same_ite, ite_fst, ite_snd, ite_self, implies_true,
  State.demote_keeps, State.ledgerEnd_keeps, State.snapRequest_keeps]

theorem execHandoverAck_keeps (Q : Parts) (s : State) (h : At Q s) : Keeps Q (execHandoverAck s) := by
  unfold execHandoverAck; simp only [same_ite, ite_self, keeps_next, State.handoverDone_keeps, h]

theorem State.pushDone_keeps (Q : Parts) (s : State) : At Q (State.pushDone s) = At Q s := by
  unfold State.pushDone; simp only [same_mk, same_fold, same_ite, ite_self, State.ledgerEnd_keeps, State.setRole_keeps]

theorem State.stayPush_keeps (Q : Parts) (s : State) : At Q (State.stayPush s) = At Q s := by
  unfold State.stayPush; simp only [same_mk, same_fold, same_ite, ite_fst, ite_snd, ite_self, implies_true,
  State.fullRefresh_keeps, State.ledgerAsk_keeps, State.setRole_keeps, State.snapshot_keeps, State.styLog_keeps]

theorem State.stayAcked_keeps (Q : Parts) (s : State) (gone : List (List Byte)) : At Q (State.stayAcked s gone) = At Q s := by
  unfold State.stayAcked; simp only [same_ite, ite_self, State.handoverDone_keeps, State.pushDone_keeps]

theorem State.mirrored_keeps (Q : Parts) (s : State) : At Q (State.mirrored s) = At Q s := by
  unfold State.mirrored; simp only [State.countWrap_keeps]

theorem State.applyReg_keeps (Q : Parts) (s : State) (i : Nat) (v : Word) : At Q (State.applyReg s i v) = At Q s := by
  unfold State.applyReg; (split <;> simp only [State.setReg_keeps])

theorem execMirrorReg_keeps (Q : Parts) (items : List (BitVec 16 × Word)) (s : State) (h : At Q s) : Keeps Q
  (execMirrorReg items s) := by
  unfold execMirrorReg; simp only [same_ite, same_foldl, ite_self, keeps_next, implies_true, State.applyReg_keeps,
    State.mirrored_keeps, h]

theorem State.applyTimer_keeps (Q : Parts) (s : State) (n : Nat) (d : List Byte) : At Q (State.applyTimer s n d) = At Q
  s := by
  unfold State.applyTimer; simp only [same_mk, same_fold, same_ite, ite_fst, ite_snd, ite_self, implies_true,
  State.markActed_keeps, State.setBit_keeps, State.setFld_keeps, State.setReg_keeps, State.setWide_keeps,
  State.settleTimer_keeps, State.zeroFrozen_keeps]

theorem execMirrorTimer_keeps (Q : Parts) (i : Fin 512) (data : List Byte) (s : State) (h : At Q s) : Keeps Q
  (execMirrorTimer i data s) := by
  unfold execMirrorTimer; (try simp only [same_mk, same_fold, same_ite, ite_fst, ite_snd, ite_self, keeps_next, keeps_ite, keepsO_none, keepsO_some, keepsO_ite, keepsP_none, keepsP_some, keepsP_ite, implies_true, State.applyTimer_keeps, State.mirrored_keeps, State.styLog_keeps, h]); repeat' (first | (simp only [same_mk, same_fold, same_ite, ite_fst, ite_snd, ite_self, keeps_next, keeps_ite, keepsO_none, keepsO_some, keepsO_ite, keepsP_none, keepsP_some, keepsP_ite, implies_true, State.applyTimer_keeps, State.mirrored_keeps, State.styLog_keeps, h]; done) | split)

theorem State.applyCompare_keeps (Q : Parts) (s : State) (n : Nat) (d : List Byte) : At Q
  (State.applyCompare s n d) = At Q s := by
  unfold State.applyCompare; simp only [same_mk, same_fold, same_ite, ite_self, State.setReg_keeps, State.setFld_keeps,
    State.setWide_keeps]

theorem execMirrorCompare_keeps (Q : Parts) (i : Fin 512) (data : List Byte) (s : State) (h : At Q s) : Keeps Q
  (execMirrorCompare i data s) := by
  unfold execMirrorCompare; (try simp only [same_mk, same_fold, same_ite, ite_fst, ite_snd, ite_self, keeps_next, keeps_ite, keepsO_none, keepsO_some, keepsO_ite, keepsP_none, keepsP_some, keepsP_ite, implies_true, State.applyCompare_keeps, State.mirrored_keeps, State.styLog_keeps, h]); repeat' (first | (simp only [same_mk, same_fold, same_ite, ite_fst, ite_snd, ite_self, keeps_next, keeps_ite, keepsO_none, keepsO_some, keepsO_ite, keepsP_none, keepsP_some, keepsP_ite, implies_true, State.applyCompare_keeps, State.mirrored_keeps, State.styLog_keeps, h]; done) | split)

theorem State.applyDsc_keeps (Q : Parts) (s : State) (d : List Byte) : At Q (State.applyDsc s d) = At Q s := by
  unfold State.applyDsc; simp only [State.setFld_keeps, State.noteEpoch_keeps]

theorem execMirrorDsc_keeps (Q : Parts) (data : List Byte) (s : State) (h : At Q s) : Keeps Q (execMirrorDsc data s) := by
  unfold execMirrorDsc; simp only [same_ite, ite_self, keeps_next, State.applyDsc_keeps, State.mirrored_keeps, h]

theorem State.applyModel_keeps (Q : Parts) (s : State) (r : List Byte) : At Q (State.applyModel s r) = At Q s := by
  unfold State.applyModel; simp only [same_ite, ite_self, State.mirrored_keeps, State.modelLoad_keeps]

theorem execMirrorModel_keeps (Q : Parts) (record : List Byte) (s : State) (h : At Q s) : Keeps Q (execMirrorModel record s) := by
  unfold execMirrorModel; simp only [same_ite, ite_self, keeps_next, State.applyModel_keeps, h]

theorem State.setSlot_keeps (Q : Parts) (s : State) (n : Nat) (u : SlotIn) : At Q (State.setSlot s n u) = At Q s := by
  unfold State.setSlot; simp only [same_mk, same_fold]

theorem State.applySlot_keeps (Q : Parts) (s : State) (n : Nat) (ts : List Dword) : At Q (State.applySlot s n ts) = At Q s := by
  unfold State.applySlot; simp only [same_ite, ite_self, State.countSat_keeps, State.mirrored_keeps, State.raise_keeps,
    State.setSlot_keeps]

theorem execSlot_keeps (Q : Parts) (n : Fin 32) (t0 t1 t2 t3 : Dword) (s : State) (h : At Q s) : Keeps Q
  (execSlot n t0 t1 t2 t3 s) := by
  unfold execSlot; simp only [same_ite, ite_self, keeps_next, State.applySlot_keeps, h]

theorem State.slotTake_keeps (Q : Parts) (s : State) (n : Nat) : At Q (State.slotTake s n).2 = At Q s := by
  unfold State.slotTake; ((try simp only [keepsO_none, keepsP_none, State.setSlot_keeps]); repeat' (first | (simp only [keepsO_none, keepsP_none, State.setSlot_keeps]; done) | split))

theorem State.gotEnd_keeps (Q : Parts) (s : State) : At Q (State.gotEnd s) = At Q s := by
  unfold State.gotEnd; simp only [same_ite, ite_self, State.raise_keeps]

theorem execStayEnd_keeps (Q : Parts) (s : State) (h : At Q s) : Keeps Q (execStayEnd s) := by
  unfold execStayEnd; simp only [same_ite, ite_self, keeps_next, State.gotEnd_keeps, h]

theorem State.snapshotDone_keeps (Q : Parts) (s : State) (n : Nat) (ts : List Dword) : At Q
  (State.snapshotDone s n ts) = At Q s := by
  unfold State.snapshotDone; simp only [same_mk, same_fold, same_ite, ite_self, keepsO_none, keepsP_none, State.countSat_keeps,
    State.sendSlot_keeps, State.setLink_keeps]

theorem execMirrorSlotSnapshot_keeps (Q : Parts) (n : Fin 32) (d : Dword) (s : State) (h : At Q s) : Keeps Q
  (execMirrorSlotSnapshot n d s) := by
  unfold execMirrorSlotSnapshot; simp only [same_mk, same_fold, same_ite, ite_self, keeps_next, keeps_ite,
    State.portCount_keeps, State.snapshotDone_keeps, h]

theorem State.staySample_keeps (Q : Parts) (s : State) (e : Int) : At Q (State.staySample s e) = At Q s := by
  unfold State.staySample; simp only [same_mk, same_fold, same_ite, ite_self, State.partnerSample_keeps,
    State.phaseRequest_keeps, State.styLog_keeps]

theorem State.stayAnswer_keeps (Q : Parts) (s : State) (ofs : Nat) : At Q (State.stayAnswer s ofs) = At Q s := by
  unfold State.stayAnswer; simp only [State.staySend_keeps]

theorem execStaySyncReq_keeps (Q : Parts) (arrived : Bool) (ofs : Nat) (s : State) (h : At Q s) : Keeps Q
  (execStaySyncReq arrived ofs s) := by
  unfold execStaySyncReq; simp only [same_mk, same_fold, ite_self, keeps_next, keeps_ite, State.stayAnswer_keeps,
    State.staySend_keeps, h]

theorem State.staySync_keeps (Q : Parts) (s : State) (t2 t3 t4 : Nat) (set : Bool) : At Q
  (State.staySync s t2 t3 t4 set) = At Q s := by
  unfold State.staySync; (split <;> simp only [same_mk, same_fold, same_ite, ite_self, keepsO_none, keepsP_none, State.raise_keeps, State.setBit_keeps, State.setSigned_keeps, State.staySample_keeps])

theorem execStaySyncResp_keeps (Q : Parts) (t2 t3 : Dword) (set : Bool) (ofs : Nat) (s : State) (h : At Q s) : Keeps Q
  (execStaySyncResp t2 t3 set ofs s) := by
  unfold execStaySyncResp; simp only [same_ite, ite_self, keeps_next, State.staySync_keeps, h]

theorem execSyncSampleTimeout_keeps (Q : Parts) (partner : Bool) (s : State) (h : At Q s) : Keeps Q
  (execSyncSampleTimeout partner s) := by
  unfold execSyncSampleTimeout; simp only [same_ite, ite_self, keeps_next, State.coordLost_keeps, State.partnerLost_keeps, h]

theorem State.stayDown_keeps (Q : Parts) (s : State) : At Q (State.stayDown s) = At Q s := by
  unfold State.stayDown; simp only [same_mk, same_fold, same_ite, ite_self, keepsO_none, keepsP_none, State.clear_keeps,
    State.partnerLost_keeps, State.raise_keeps]

theorem State.stayEnter_keeps (Q : Parts) (s : State) : At Q (State.stayEnter s) = At Q s := by
  unfold State.stayEnter; simp only [State.raise_keeps, State.staySend_keeps]

theorem State.portDown_keeps (Q : Parts) (s : State) (q : Nat) (cause : Nat) : At Q (State.portDown s q cause) = At Q s
  := by
  unfold State.portDown; simp only [same_mk, same_fold, same_ite, ite_fst, ite_snd, ite_self, implies_true,
  State.linkDown_keeps, State.shroudDown_keeps, State.stayDown_keeps]

theorem execShroudPortDown_keeps (Q : Parts) (q : Fin 5) (cause : Fin 16) (s : State) (h : At Q s) : Keeps Q
  (execShroudPortDown q cause s) := by
  unfold execShroudPortDown; simp only [same_ite, ite_self, keeps_next, State.portDown_keeps, h]

theorem execTrainFlit_keeps (Q : Parts) (q : Fin 5) (good rxReady peerSeen : Bool) (port : Fin 4) (s : State) (h : At Q s) :
  Keeps Q (execTrainFlit q good rxReady peerSeen port s) := by
  unfold execTrainFlit; simp only [same_ite, ite_self, keeps_next, keeps_ite, State.setFld_keeps, State.linkBadFlit_keeps,
    State.linkGo_keeps, State.linkTrain_keeps, State.shroudUp_keeps, State.stayEnter_keeps, h]

theorem State.replay_keeps (Q : Parts) (s : State) (q : Nat) : At Q (State.replay s q) = At Q s := by
  unfold State.replay; simp only [same_ite, ite_self, State.linkReplays_keeps, State.portDown_keeps]

theorem execReplayTimeout_keeps (Q : Parts) (q : Fin 5) (s : State) (h : At Q s) : Keeps Q (execReplayTimeout q s) := by
  unfold execReplayTimeout; simp only [same_ite, ite_self, keeps_next, State.replay_keeps, h]

theorem execAckFlit_keeps (Q : Parts) (q : Fin 5) (good nak : Bool) (seq : Byte) (s : State) (h : At Q s) : Keeps Q
  (execAckFlit q good nak seq s) := by
  unfold execAckFlit; simp only [same_ite, ite_self, keeps_next, keeps_ite, State.linkAcked_keeps, State.linkBadFlit_keeps,
    State.replay_keeps, State.stayAcked_keeps, h]

theorem State.mirrorFrame_keeps (Q : Parts) (s : State) (kind idx : Nat) (d : List Byte) : At Q
  (State.mirrorFrame s kind idx d) = At Q s := by
  unfold State.mirrorFrame; (repeat' (first | (simp only [same_mk, same_fold, same_ite, same_foldl, ite_self, keepsO_none, keepsP_none, implies_true, State.applyCompare_keeps, State.applyDsc_keeps, State.applyModel_keeps, State.applyReg_keeps, State.applySlot_keeps, State.applyTimer_keeps, State.gotEnd_keeps, State.mirrored_keeps]; done) | split))

theorem State.stayFrameIn_keeps (Q : Parts) (s : State) (bs : List Byte) : At Q (State.stayFrameIn s bs) = At Q s := by
  unfold State.stayFrameIn; ((try simp only [same_mk, same_fold, same_ite, keepsO_none, keepsP_none, if_true, State.gotPair_keeps, State.mirrorFrame_keeps, State.stayAnswer_keeps, State.staySync_keeps, State.styLog_keeps]); repeat' (first | (simp only [same_mk, same_fold, same_ite, keepsO_none, keepsP_none, if_true, State.gotPair_keeps, State.mirrorFrame_keeps, State.stayAnswer_keeps, State.staySync_keeps, State.styLog_keeps]; done) | split))

theorem execShroudFrame_keeps (Q : Parts) (q : Fin 5) (bs : List Byte) (s : State) (h : At Q s) : Keeps Q
  (execShroudFrame q bs s) := by
  unfold execShroudFrame; simp only [same_ite, ite_self, keeps_next, keeps_ite, State.linkFree_keeps, State.linkReceive_keeps,
    State.shroudFrame_keeps, State.stayFrameIn_keeps, h]

end Sys2Proof.Machine
end

