-- ==== Sys2Proof/Laws/KeepsDirectory.lean ====
section
/-! SUPPORT. What the definitions of Directory leave as they are: the waiting commands and the fuse words. -/

namespace Sys2Proof.Machine

open Sys2Proof

set_option simprocs false
set_option linter.unusedSimpArgs false
set_option linter.all false

theorem State.showDir_keeps (Q : Parts) (s : State) (second : Bool) : At Q (State.showDir s second) = At Q s := by
  unfold State.showDir; simp only [keepsO_none, keepsP_none, State.setFld_keeps, State.setBit_keeps]

theorem State.setTrial_keeps (Q : Parts) (s : State) (r : Option (Nat × Nat)) : At Q (State.setTrial s r) = At Q s := by
  unfold State.setTrial; (split <;> simp only [id_eq, same_mk, same_fold, keepsO_none, keepsP_none, State.setFld_keeps, State.clear_keeps, State.raise_keeps])

end Sys2Proof.Machine
end

