-- ==== Sys2Proof/Laws/KeepsAttempts.lean ====
section
/-! SUPPORT. What the definitions of Attempts leave as they are: the waiting commands and the fuse words. -/

namespace Sys2Proof.Machine

open Sys2Proof

set_option simprocs false
set_option linter.unusedSimpArgs false
set_option linter.all false

theorem State.setStep_keeps (Q : Parts) (s : State) (k : Nat) : At Q (State.setStep s k) = At Q s := by
  unfold State.setStep; simp only [same_mk, same_fold, State.setFld_keeps]

theorem State.holdAll_keeps (Q : Parts) (s : State) : At Q (State.holdAll s) = At Q s := by
  unfold State.holdAll; simp only [same_mk, same_fold, State.clear_keeps, State.raise_keeps]

theorem State.hoistPause_keeps (Q : Parts) (s : State) : At Q (State.hoistPause s) = At Q s := by
  unfold State.hoistPause; simp only [same_mk, same_fold, State.log_keeps, State.clear_keeps, State.endLoad_keeps,
    State.holdAll_keeps, State.raise_keeps, State.showHbuf_keeps]

theorem State.pauseIfPfi_keeps (Q : Parts) (s : State) : At Q (State.pauseIfPfi s) = At Q s := by
  unfold State.pauseIfPfi; simp only [same_ite, ite_self, State.hoistPause_keeps]

theorem State.markGolden_keeps (Q : Parts) (s : State) (golden : Bool) : At Q (State.markGolden s golden) = At Q s := by
  unfold State.markGolden; simp only [same_ite, ite_self, State.log_keeps, State.raise_keeps, State.setBit_keeps]

theorem State.startAttempt_keeps (Q : Parts) (s : State) (c : Candidate) (clk : Nat) : At Q
  (State.startAttempt s c clk) = At Q s := by
  unfold State.startAttempt; simp only [same_mk, same_fold, same_ite, ite_self, State.setFld_keeps, State.addSat_keeps,
    State.markGolden_keeps, State.setStep_keeps, State.startImage_keeps]

theorem State.waitHost_keeps (Q : Parts) (s : State) : At Q (State.waitHost s) = At Q s := by
  unfold State.waitHost; simp only [same_mk, same_fold, same_ite, ite_self, State.clear_keeps, State.raise_keeps,
    State.setStep_keeps, State.showHbuf_keeps]

theorem State.firstWord_keeps (Q : Parts) (s : State) (w : Word) : At Q (State.firstWord s w) = At Q s := by
  unfold State.firstWord; simp only [same_mk, same_fold, State.clear_keeps, State.raise_keeps, State.showHbuf_keeps,
    State.startAttempt_keeps]

theorem State.park_keeps (Q : Parts) (s : State) : At Q (State.park s) = At Q s := by
  unfold State.park; simp only [State.log_keeps, State.raise_keeps]

theorem State.tryCandidates_keeps (Q : Parts) (s : State) (cs : List Candidate) : At Q (State.tryCandidates s cs) = At Q s := by
  unfold State.tryCandidates; (split <;> simp only [same_mk, same_fold, State.park_keeps, State.startAttempt_keeps])

theorem State.afterFailure_keeps (Q : Parts) (s : State) (reason : Nat) : At Q (State.afterFailure s reason) = At Q s := by
  unfold State.afterFailure; (repeat' (first | (simp only [same_ite, ite_self, State.park_keeps, State.startAttempt_keeps, State.tryCandidates_keeps, State.waitHost_keeps]; done) | split))

theorem State.recordAttempt_keeps (Q : Parts) (s : State) (code reason : Nat) : At Q
  (State.recordAttempt s code reason) = At Q s := by
  unfold State.recordAttempt; simp only [same_ite, ite_self, State.setReg_keeps, State.setFld_keeps, State.log_keeps,
    State.raise_keeps]

theorem State.stopPlls_keeps (Q : Parts) (s : State) : At Q (State.stopPlls s) = At Q s := by
  unfold State.stopPlls; simp only [same_foldl, implies_true, State.setReg_keeps, State.laneOff_keeps, State.linkOff_keeps,
    State.setBit_keeps]

theorem State.failAttempt_keeps (Q : Parts) (s : State) (code reason : Nat) : At Q
  (State.failAttempt s code reason) = At Q s := by
  unfold State.failAttempt; simp only [same_mk, same_fold, State.afterFailure_keeps, State.endLoad_keeps, State.holdAll_keeps,
    State.recordAttempt_keeps, State.showHbuf_keeps, State.stopPlls_keeps, State.unload_keeps]

theorem State.failLoad_keeps (Q : Parts) (s : State) (f : LoadFault) : At Q (State.failLoad s f) = At Q s := by
  unfold State.failLoad; simp only [State.log_keeps, State.failAttempt_keeps]

theorem State.failPlain_keeps (Q : Parts) (s : State) (reason : Nat) : At Q (State.failPlain s reason) = At Q s := by
  unfold State.failPlain; simp only [State.open_keeps, State.failAttempt_keeps]

end Sys2Proof.Machine
end

