-- ==== Sys2Proof/Laws/KeepsRestart.lean ====
section
/-! SUPPORT. What the definitions of Restart leave as they are: the waiting commands and the fuse words. -/

namespace Sys2Proof.Machine

open Sys2Proof

set_option simprocs false
set_option linter.unusedSimpArgs false
set_option linter.all false

theorem State.idleTimer_keeps (Q : Parts) (s : State) (n : Nat) : At Q (State.idleTimer s n) = At Q s := by
  unfold State.idleTimer; simp only [same_mk, same_fold, same_ite, ite_fst, ite_snd, ite_self, implies_true,
  State.clear_keeps, State.settleTimer_keeps]

theorem State.idleTimers_keeps (Q : Parts) (s : State) : At Q (State.idleTimers s) = At Q s := by
  unfold State.idleTimers; simp only [same_mk, same_fold, same_ite, same_foldl, same_foldl_snd, same_foldl_fst, ite_fst,
  ite_snd, ite_self, implies_true, State.idleTimer_keeps]

theorem State.endHalt_keeps (Q : Parts) (s : State) : At Q (State.endHalt s) = At Q s := by
  unfold State.endHalt; simp only [same_mk, same_fold, same_ite, ite_fst, ite_snd, ite_self, implies_true,
  State.clear_keeps, State.settleHalted_keeps]

theorem State.coldStart_keeps (Q : Parts) (s : State) : At Q (State.coldStart s) = At Q s := by
  unfold State.coldStart; simp only [same_mk, same_fold]

theorem State.setFuse_keeps (Q : Parts) (s : State) (k d : Nat) (hq : Grow Q) (h : At Q s) : At Q (State.setFuse s k d) :=
  hq _ _ k d h

theorem State.fuseFinish_keeps (Q : Parts) (s : State) (hq : Grow Q) (h : At Q s) : At Q (State.fuseFinish s) := by
  unfold State.fuseFinish; (split <;> simp only [State.setFuse_keeps, h, hq])

theorem State.warmStart_keeps (Q : Parts) (s : State) (hq : Grow Q) (h : At Q s) : At Q (State.warmStart s) := by
  unfold State.warmStart; simp only [same_mk, same_fold, same_ite, same_foldl, same_foldl_snd, same_foldl_fst, ite_fst,
  ite_snd, ite_self, keepsO_none, keepsO_some, keepsO_ite, keepsP_none, keepsP_some, keepsP_ite, implies_true,
  State.endHalt_keeps, State.engineFlash_keeps, State.flashInterrupted_keeps, State.fuseFinish_keeps,
  State.setFld_keeps, h, hq]

theorem State.startHoist_keeps (Q : Parts) (s : State) (cause : Nat) (restart : Bool) (hq : Grow Q) (h : At Q s) : At Q
  (State.startHoist s cause restart) := by
  unfold State.startHoist; simp only [same_mk, same_fold, same_ite, ite_self, State.coldStart_keeps, State.idleTimers_keeps,
    State.setBit_keeps, State.warmStart_keeps, h, hq]

theorem State.rehoist_keeps (Q : Parts) (s : State) (cause : Nat) (path : Option Nat) (hq : Grow Q) (h : At Q s) : At Q
  (State.rehoist s cause path) := by
  unfold State.rehoist; simp only [same_mk, same_fold, State.startHoist_keeps, h, hq]

theorem State.hostLoad_keeps (Q : Parts) (s : State) (code : Nat) (hq : Grow Q) (h : At Q s) : At Q (State.hostLoad s code) := by
  unfold State.hostLoad; simp only [same_mk, same_fold, same_ite, ite_self, State.log_keeps, State.clear_keeps,
    State.rehoist_keeps, State.waitHost_keeps, h, hq]

theorem State.hstKey_keeps (Q : Parts) (s : State) (v : Word) (t : State) (h : At Q s) (k : At Q t) :
    At Q (State.hstKey s v t) := by
  unfold State.hstKey
  simp only [same_ite, State.log_keeps, h, k, ite_self]

theorem State.hstCommand_keeps (Q : Parts) (s : State) (p : Path) (v : Word) (hq : Grow Q) (h : At Q s) : At Q
  (State.hstCommand s p v) := by
  unfold State.hstCommand; simp only [same_mk, same_fold, same_ite, ite_fst, ite_snd, ite_self, keepsO_none,
  keepsO_some, keepsO_ite, keepsP_none, keepsP_some, keepsP_ite, implies_true, State.hostLoad_keeps, State.hstKey_keeps,
  State.rehoist_keeps, h, hq]

theorem execRehoist_keeps (Q : Parts) (p : Path) (v : Word) (s : State) (hq : Grow Q) (h : At Q s) : Keeps Q
  (execRehoist p v s) := by
  unfold execRehoist; simp only [same_mk, same_fold, same_ite, ite_fst, ite_snd, ite_self, keeps_next, keeps_ite,
  implies_true, State.hstCommand_keeps, keeps_whenOpen, h, hq]

theorem execHostLoad_keeps (Q : Parts) (p : Path) (v : Word) (s : State) (hq : Grow Q) (h : At Q s) : Keeps Q
  (execHostLoad p v s) := by
  unfold execHostLoad; simp only [same_mk, same_fold, same_ite, ite_fst, ite_snd, ite_self, keeps_next, keeps_ite,
  implies_true, State.hstCommand_keeps, keeps_whenOpen, h, hq]

end Sys2Proof.Machine
end

