-- ==== Sys2Proof/Laws/KeepsSupervisor.lean ====
section
/-! SUPPORT. What the definitions of Supervisor leave as they are: the waiting commands and the fuse words. -/

namespace Sys2Proof.Machine

open Sys2Proof

set_option simprocs false
set_option linter.unusedSimpArgs false
set_option linter.all false

theorem State.setCsr_keeps (Q : Parts) (s : State) (n : Nat) (v : Word) : At Q (State.setCsr s n v) = At Q s := by
  unfold State.setCsr; simp only [same_mk, same_fold]

theorem State.setX_keeps (Q : Parts) (s : State) (n : Nat) (v : Word) : At Q (State.setX s n v) = At Q s := by
  unfold State.setX; simp only [same_mk, same_fold, same_ite, ite_self]

theorem State.defaultHandler_keeps (Q : Parts) (s : State) (cause epc : Word) : At Q
  (State.defaultHandler s cause epc) = At Q s := by
  unfold State.defaultHandler; simp only [State.setReg_keeps, State.setFld_keeps, State.log_keeps, State.raise_eq]

theorem State.takeTrap_keeps (Q : Parts) (s : State) (interrupt : Bool) (cause : Nat) (epc tval : Word) : At Q
  (State.takeTrap s interrupt cause epc tval) = At Q s := by
  unfold State.takeTrap; simp only [same_mk, same_fold, same_ite, ite_self, State.open_keeps, State.defaultHandler_keeps,
    State.setCsr_keeps]

theorem State.accessTrap_keeps (Q : Parts) (s : State) (p : Path) (cause : Nat) (a : Nat) : At Q (State.accessTrap s p
  cause a) = At Q s := by
  unfold State.accessTrap; (try simp only [same_mk, same_fold, same_ite, ite_fst, ite_snd, ite_self, implies_true, State.takeTrap_keeps]); repeat' (first | (simp only [same_mk, same_fold, same_ite, ite_fst, ite_snd, ite_self, implies_true, State.takeTrap_keeps]; done) | split)

theorem State.corePc_keeps (Q : Parts) (s : State) : At Q (State.corePc s).2 = At Q s := by
  unfold State.corePc; simp only [same_ite, ite_snd, ite_self, State.open_keeps]

theorem State.haltCore_keeps (Q : Parts) (s : State) (cause : Nat) : At Q (State.haltCore s cause) = At Q s := by
  unfold State.haltCore; simp only [same_mk, same_fold, State.corePc_keeps, State.raise_keeps, State.setCsr_keeps,
    State.settleHalted_keeps]

theorem State.resumeCore_keeps (Q : Parts) (s : State) : At Q (State.resumeCore s) = At Q s := by
  unfold State.resumeCore; simp only [same_mk, same_fold, same_ite, ite_self, State.clear_keeps, State.settleHalted_keeps]

theorem State.startUser_keeps (Q : Parts) (s : State) : At Q (State.startUser s) = At Q s := by
  unfold State.startUser; simp only [same_mk, same_fold, State.open_keeps, State.raise_keeps, State.setCsr_keeps,
    State.setX_keeps]

theorem State.supAtSail_keeps (Q : Parts) (s : State) (loaded : Bool) : At Q (State.supAtSail s loaded) = At Q s := by
  unfold State.supAtSail; simp only [same_mk, same_fold, same_ite, ite_self, State.haltCore_keeps, State.startUser_keeps]

end Sys2Proof.Machine
end

