-- ==== Sys2Proof/Laws/KeepsRelease.lean ====
section
/-! SUPPORT. What the definitions of Release leave as they are: the waiting commands and the fuse words. -/

namespace Sys2Proof.Machine

open Sys2Proof

set_option simprocs false
set_option linter.unusedSimpArgs false
set_option linter.all false

theorem State.startPlls_keeps (Q : Parts) (s : State) : At Q (State.startPlls s) = At Q s := by
  unfold State.startPlls; simp only [same_ite, same_foldl, ite_self, implies_true, State.linkStart_keeps, State.raise_keeps,
    State.setBit_keeps, State.setLaneState_keeps]

theorem State.initSheets_keeps (Q : Parts) (s : State) : At Q (State.initSheets s) = At Q s := by
  unfold State.initSheets; simp only [same_ite, same_foldl, ite_self, implies_true, State.setFld_keeps]

theorem State.imageLoaded_keeps (Q : Parts) (s : State) (h : ImageHeader) : At Q (State.imageLoaded s h) = At Q s := by
  unfold State.imageLoaded; simp only [same_mk, same_fold, State.endLoad_keeps, State.initSheets_keeps,
    State.modelAtHoist_keeps, State.setStep_keeps, State.showImage_keeps, State.startPlls_keeps]

theorem execClockLoopWaitEnd_keeps (Q : Parts) (codes : List Nat) (s : State) (h : At Q s) : Keeps Q
  (execClockLoopWaitEnd codes s) := by
  unfold execClockLoopWaitEnd; simp only [same_mk, same_fold, same_ite, ite_fst, ite_snd, ite_self, keeps_next,
  keeps_ite, implies_true, State.calibrate_keeps, State.clear_keeps, State.setStep_keeps, h]

theorem execClockLoopTimeout_keeps (Q : Parts) (s : State) (h : At Q s) : Keeps Q (execClockLoopTimeout s) := by
  unfold execClockLoopTimeout; simp only [same_ite, ite_self, keeps_next, State.failLoad_keeps, h]

theorem execMastPllUnlock_keeps (Q : Parts) (s : State) (h : At Q s) : Keeps Q (execMastPllUnlock s) := by
  unfold execMastPllUnlock; simp only [same_ite, ite_self, keeps_next, keeps_ite, State.log_keeps, State.clear_keeps,
    State.cutWindow_keeps, State.raise_keeps, State.setStep_keeps, h]

theorem State.armLoaded_keeps (Q : Parts) (s : State) : At Q (State.armLoaded s) = At Q s := by
  unfold State.armLoaded; simp only [same_mk, same_fold, same_ite, same_foldl, same_foldl_snd, same_foldl_fst, ite_fst,
  ite_snd, ite_self, implies_true, State.armCompare_keeps, State.fireCompares_keeps]

theorem State.panelsRun_keeps (Q : Parts) (s : State) : At Q (State.panelsRun s) = At Q s := by
  unfold State.panelsRun; simp only [same_foldl, implies_true, State.setWide_keeps, State.setPanelState_keeps]

theorem State.showSail_keeps (Q : Parts) (s : State) : At Q (State.showSail s) = At Q s := by
  unfold State.showSail; simp only [same_mk, same_fold, State.setFld_keeps, State.raise_keeps, State.setBit_keeps]

theorem State.startPatrol_keeps (Q : Parts) (s : State) : At Q (State.startPatrol s) = At Q s := by
  unfold State.startPatrol; simp only [same_mk, same_fold, State.setReg_keeps, State.setFld_keeps]

theorem State.enterSail_keeps (Q : Parts) (s : State) : At Q (State.enterSail s) = At Q s := by
  unfold State.enterSail; simp only [same_mk, same_fold, State.setFld_keeps, State.setWide_keeps, State.armLoaded_keeps,
    State.dscStart_keeps, State.panelsRun_keeps, State.raise_keeps, State.setStep_keeps, State.showSail_keeps,
    State.startPatrol_keeps, State.startWindow_keeps, State.stayAtSail_keeps, State.supAtSail_keeps]

theorem State.releaseOut_keeps (Q : Parts) (s : State) : At Q (State.releaseOut s) = At Q s := by
  unfold State.releaseOut; simp only [same_mk, same_fold, same_ite, same_foldl, ite_self, implies_true, State.setBit_keeps]

theorem State.deviceStage_keeps (Q : Parts) (s : State) (stage : Nat) : At Q (State.deviceStage s stage) = At Q s := by
  unfold State.deviceStage; (split <;> simp only [State.clear_keeps, State.releaseOut_keeps])

theorem State.release_keeps (Q : Parts) (x0 : Nat) (x1 : State) : At Q (State.release x0 x1) = At Q x1 := by
  induction x0 generalizing x1 with
  | zero => first | rfl | (rw [State.release.eq_def]; simp only [same_mk, same_fold, same_ite, ite_self,
    State.deviceStage_keeps, State.enterSail_keeps])
  | succ n ih =>
    rw [State.release.eq_def]
    dsimp only
    repeat' (first | (simp only [same_mk, same_fold, same_ite, ite_self, State.deviceStage_keeps, State.enterSail_keeps, ih]; done) | rfl | split)

theorem State.beginRelease_keeps (Q : Parts) (s : State) : At Q (State.beginRelease s) = At Q s := by
  unfold State.beginRelease; simp only [State.raise_keeps, State.release_keeps, State.setStep_keeps]

theorem execHalyardTaken_keeps (Q : Parts) (s : State) (h : At Q s) : Keeps Q (execHalyardTaken s) := by
  unfold execHalyardTaken; simp only [same_ite, ite_self, keeps_next, State.beginRelease_keeps, h]

theorem execHalyardTimeout_keeps (Q : Parts) (s : State) (h : At Q s) : Keeps Q (execHalyardTimeout s) := by
  unfold execHalyardTimeout; simp only [same_ite, ite_self, keeps_next, State.log_keeps, State.beginRelease_keeps,
    State.raise_keeps, h]

theorem execReleaseStage_keeps (Q : Parts) (s : State) (h : At Q s) : Keeps Q (execReleaseStage s) := by
  unfold execReleaseStage; simp only [same_ite, ite_self, keeps_next, State.release_keeps, h]

end Sys2Proof.Machine
end

