-- ==== Sys2Proof/Laws/KeepsHoist.lean ====
section
/-! SUPPORT. What the definitions of Hoist leave as they are: the waiting commands and the fuse words. -/

namespace Sys2Proof.Machine

open Sys2Proof

set_option simprocs false
set_option linter.unusedSimpArgs false
set_option linter.all false

theorem State.zeroKey_keeps (Q : Parts) (s : State) : At Q (State.zeroKey s) = At Q s := by
  unfold State.zeroKey; simp only [same_mk, same_fold, State.setReg_keeps, State.clear_keeps]

theorem State.logZeroised_keeps (Q : Parts) (s : State) (why : Nat) : At Q (State.logZeroised s why) = At Q s := by
  unfold State.logZeroised; simp only [State.log_keeps, State.raise_keeps]

theorem State.bootErase_keeps (Q : Parts) (s : State) (fails : List Nat) (k e sec : Nat) : At Q
  (State.bootErase s fails k e sec) = At Q s := by
  unfold State.bootErase; simp only [same_ite, ite_self, State.log_keeps, State.journalDone_keeps, State.raise_keeps,
    State.sectorErased_keeps, State.sectorOpen_keeps]

theorem State.bootMassErase_keeps (Q : Parts) (s : State) (fails : List Nat) (k e : Nat) : At Q
  (State.bootMassErase s fails k e) = At Q s := by
  unfold State.bootMassErase; ((try simp only [same_foldl, keepsO_none, keepsP_none, implies_true, State.log_keeps, State.appendLevel_keeps, State.journalDone_keeps, State.logZeroised_keeps, State.raise_keeps, State.sectorErased_keeps, State.sectorOpen_keeps, State.zeroKey_keeps]); repeat' (first | (simp only [same_foldl, keepsO_none, keepsP_none, implies_true, State.log_keeps, State.appendLevel_keeps, State.journalDone_keeps, State.logZeroised_keeps, State.raise_keeps, State.sectorErased_keeps, State.sectorOpen_keeps, State.zeroKey_keeps]; done) | split))

theorem State.bootJournal_keeps (Q : Parts) (s : State) (fails : List Nat) (k : Nat) : At Q
  (State.bootJournal s fails k) = At Q s := by
  unfold State.bootJournal; simp only [same_ite, same_foldl, ite_self, implies_true, State.bootErase_keeps,
    State.bootMassErase_keeps]

theorem State.rebuildSys_keeps (Q : Parts) (s : State) : At Q (State.rebuildSys s) = At Q s := by
  unfold State.rebuildSys; simp only [State.log_keeps, State.sysBuild_keeps]

theorem State.bootFlash_keeps (Q : Parts) (s : State) (fails : List Nat) : At Q (State.bootFlash s fails) = At Q s := by
  unfold State.bootFlash; simp only [same_ite, ite_self, State.setFld_keeps, State.bootJournal_keeps, State.hoistPause_keeps,
    State.rebuildSys_keeps]

theorem State.bootReports_keeps (Q : Parts) (s : State) : At Q (State.bootReports s) = At Q s := by
  unfold State.bootReports; simp only [same_mk, same_fold, same_ite, ite_self, State.log_keeps, State.clear_keeps,
    State.logZeroised_keeps]

theorem State.writeCause_keeps (Q : Parts) (s : State) : At Q (State.writeCause s) = At Q s := by
  unfold State.writeCause; simp only [same_mk, same_fold, State.setReg_keeps]

theorem State.romBoot_keeps (Q : Parts) (s : State) (straps : BitVec 11) (fails : List Nat) : At Q
  (State.romBoot s straps fails) = At Q s := by
  unfold State.romBoot; simp only [same_mk, same_fold, same_ite, ite_self, State.setReg_keeps, State.setWide_keeps,
    State.bootFlash_keeps, State.bootReports_keeps, State.setTrial_keeps, State.writeCause_keeps]

theorem execRomBoot_keeps (Q : Parts) (straps : BitVec 11) (fails : List Nat) (s : State) (h : At Q s) : Keeps Q
  (execRomBoot straps fails s) := by
  unfold execRomBoot; simp only [same_ite, ite_self, keeps_next, State.romBoot_keeps, h]

theorem State.probeFlash_keeps (Q : Parts) (s : State) (p : FlashProbe) (safe : Bool) : At Q
  (State.probeFlash s p safe) = At Q s := by
  unfold State.probeFlash; simp only [same_mk, same_fold, same_ite, ite_self, State.setFld_keeps, State.log_keeps,
    State.setBit_keeps]

theorem State.chooseSource_keeps (Q : Parts) (s : State) : At Q (State.chooseSource s) = At Q s := by
  unfold State.chooseSource; (split <;> simp only [same_mk, same_fold, same_ite, ite_self, keepsO_none, keepsP_none, State.log_keeps])

theorem State.selectSource_keeps (Q : Parts) (s : State) (p : FlashProbe) : At Q (State.selectSource s p) = At Q s := by
  unfold State.selectSource; ((try simp only [same_mk, same_fold, keepsO_none, keepsP_none, State.chooseSource_keeps, State.firstWord_keeps, State.probeFlash_keeps, State.setStep_keeps, State.tryCandidates_keeps, State.waitHost_keeps]); repeat' (first | (simp only [same_mk, same_fold, keepsO_none, keepsP_none, State.chooseSource_keeps, State.firstWord_keeps, State.probeFlash_keeps, State.setStep_keeps, State.tryCandidates_keeps, State.waitHost_keeps]; done) | split))

theorem execRomBootComplete_keeps (Q : Parts) (mV : Nat) (late : Bool) (p : FlashProbe) (s : State) (h : At Q s) : Keeps Q
  (execRomBootComplete mV late p s) := by
  unfold execRomBootComplete; simp only [same_mk, same_fold, same_ite, ite_self, keeps_next, keeps_ite, State.setFld_keeps,
    State.log_keeps, State.hoistPause_keeps, State.selectSource_keeps, h]

theorem State.countTrial_keeps (Q : Parts) (s : State) (es : List DirEntry) : At Q (State.countTrial s es) = At Q s := by
  unfold State.countTrial; (split <;> simp only [same_mk, same_fold, keepsO_none, keepsP_none, State.setTrial_keeps])

theorem State.readDirectory_keeps (Q : Parts) (s : State) (noise : List (Nat × Byte)) : At Q
  (State.readDirectory s noise) = At Q s := by
  unfold State.readDirectory; simp only [same_ite, ite_self, keepsO_none, keepsP_none, State.setReg_keeps, State.setFld_keeps,
    State.log_keeps, State.countTrial_keeps, State.hoistPause_keeps, State.setBit_keeps, State.tryCandidates_keeps]

theorem execDirectoryRead_keeps (Q : Parts) (noise : List (Nat × Byte)) (s : State) (h : At Q s) : Keeps Q
  (execDirectoryRead noise s) := by
  unfold execDirectoryRead; simp only [same_ite, ite_self, keeps_next, State.readDirectory_keeps, h]

theorem State.fullHeader_keeps (Q : Parts) (s : State) (answers : Bool) (noise : List (Nat × Byte)) (errs : List (Nat × Nat)) :
  At Q (State.fullHeader s answers noise errs) = At Q s := by
  unfold State.fullHeader; repeat' (first | (simp only [same_mk, same_fold, keepsO_none, keepsP_none, State.failLoad_keeps, State.failPlain_keeps, State.imageChunks_keeps, State.imageTaken_keeps, State.pauseIfPfi_keeps, State.verifyHeader_keeps, *]; done) | (split <;> ((try (have e := congrArg (fun p => At Q (Prod.snd p)) ‹_ = ((_, _) : _ × State)›; simp only [same_mk, same_fold, keepsO_none, keepsP_none, State.failLoad_keeps, State.failPlain_keeps, State.imageChunks_keeps, State.imageTaken_keeps, State.pauseIfPfi_keeps, State.verifyHeader_keeps] at e; (try simp only [same_mk, same_fold, keepsO_none, keepsP_none, State.failLoad_keeps, State.failPlain_keeps, State.imageChunks_keeps, State.imageTaken_keeps, State.pauseIfPfi_keeps, State.verifyHeader_keeps, ‹At Q _›] at e); (try replace e := Eq.mp e trivial))); (try (have e := congrArg (fun p => At Q (Prod.fst p)) ‹_ = ((_, _) : State × _)›; simp only [same_mk, same_fold, keepsO_none, keepsP_none, State.failLoad_keeps, State.failPlain_keeps, State.imageChunks_keeps, State.imageTaken_keeps, State.pauseIfPfi_keeps, State.verifyHeader_keeps] at e; (try simp only [same_mk, same_fold, keepsO_none, keepsP_none, State.failLoad_keeps, State.failPlain_keeps, State.imageChunks_keeps, State.imageTaken_keeps, State.pauseIfPfi_keeps, State.verifyHeader_keeps, ‹At Q _›] at e); (try replace e := Eq.mp e trivial))); (try (have e := congrArg (KeepsO Q) ‹_ = some _›; simp only [same_mk, same_fold, keepsO_none, keepsP_none, State.failLoad_keeps, State.failPlain_keeps, State.imageChunks_keeps, State.imageTaken_keeps, State.pauseIfPfi_keeps, State.verifyHeader_keeps] at e; (try simp only [same_mk, same_fold, keepsO_none, keepsP_none, State.failLoad_keeps, State.failPlain_keeps, State.imageChunks_keeps, State.imageTaken_keeps, State.pauseIfPfi_keeps, State.verifyHeader_keeps, ‹At Q _›] at e); (try replace e := Eq.mp e trivial))); (try (have e := congrArg (KeepsP Q) ‹_ = some _›; simp only [same_mk, same_fold, keepsO_none, keepsP_none, State.failLoad_keeps, State.failPlain_keeps, State.imageChunks_keeps, State.imageTaken_keeps, State.pauseIfPfi_keeps, State.verifyHeader_keeps] at e; (try simp only [same_mk, same_fold, keepsO_none, keepsP_none, State.failLoad_keeps, State.failPlain_keeps, State.imageChunks_keeps, State.imageTaken_keeps, State.pauseIfPfi_keeps, State.verifyHeader_keeps, ‹At Q _›] at e); (try replace e := Eq.mp e trivial))))))

theorem execImageHeader_keeps (Q : Parts) (answers : Bool) (noise : List (Nat × Byte)) (errs : List (Nat × Nat)) (s : State)
  (h : At Q s) : Keeps Q (execImageHeader answers noise errs s) := by
  unfold execImageHeader; simp only [same_ite, ite_self, keeps_next, State.fullHeader_keeps, State.partialHeader_keeps, h]

theorem State.fullEffect_keeps (Q : Parts) (s : State) (h : ImageHeader) (r : Record) (p : List Byte) : At Q
  (State.fullEffect s h r p) = At Q s := by
  unfold State.fullEffect; repeat' (first | (simp only [same_ite, ite_self, keepsO_none, keepsP_none, State.failLoad_keeps, State.imageLoaded_keeps, State.pauseIfPfi_keeps, State.recordEffect_keeps, *]; done) | (split <;> ((try (have e := congrArg (fun p => At Q (Prod.snd p)) ‹_ = ((_, _) : _ × State)›; simp only [same_ite, ite_self, keepsO_none, keepsP_none, State.failLoad_keeps, State.imageLoaded_keeps, State.pauseIfPfi_keeps, State.recordEffect_keeps] at e; (try simp only [same_ite, ite_self, keepsO_none, keepsP_none, State.failLoad_keeps, State.imageLoaded_keeps, State.pauseIfPfi_keeps, State.recordEffect_keeps, ‹At Q _›] at e); (try replace e := Eq.mp e trivial))); (try (have e := congrArg (fun p => At Q (Prod.fst p)) ‹_ = ((_, _) : State × _)›; simp only [same_ite, ite_self, keepsO_none, keepsP_none, State.failLoad_keeps, State.imageLoaded_keeps, State.pauseIfPfi_keeps, State.recordEffect_keeps] at e; (try simp only [same_ite, ite_self, keepsO_none, keepsP_none, State.failLoad_keeps, State.imageLoaded_keeps, State.pauseIfPfi_keeps, State.recordEffect_keeps, ‹At Q _›] at e); (try replace e := Eq.mp e trivial))); (try (have e := congrArg (KeepsO Q) ‹_ = some _›; simp only [same_ite, ite_self, keepsO_none, keepsP_none, State.failLoad_keeps, State.imageLoaded_keeps, State.pauseIfPfi_keeps, State.recordEffect_keeps] at e; (try simp only [same_ite, ite_self, keepsO_none, keepsP_none, State.failLoad_keeps, State.imageLoaded_keeps, State.pauseIfPfi_keeps, State.recordEffect_keeps, ‹At Q _›] at e); (try replace e := Eq.mp e trivial))); (try (have e := congrArg (KeepsP Q) ‹_ = some _›; simp only [same_ite, ite_self, keepsO_none, keepsP_none, State.failLoad_keeps, State.imageLoaded_keeps, State.pauseIfPfi_keeps, State.recordEffect_keeps] at e; (try simp only [same_ite, ite_self, keepsO_none, keepsP_none, State.failLoad_keeps, State.imageLoaded_keeps, State.pauseIfPfi_keeps, State.recordEffect_keeps, ‹At Q _›] at e); (try replace e := Eq.mp e trivial))))))

theorem State.fullRecord_keeps (Q : Parts) (s : State) (h : ImageHeader) (noise : List (Nat × Byte)) (errs : List
  (Nat × Nat)) : At Q (State.fullRecord s h noise errs) = At Q s := by
  unfold State.fullRecord; ((try simp only [same_mk, same_fold, keepsO_none, keepsP_none, State.failLoad_keeps, State.fullEffect_keeps, State.imageChunks_keeps, State.imageTaken_keeps]); repeat' (first | (simp only [same_mk, same_fold, keepsO_none, keepsP_none, State.failLoad_keeps, State.fullEffect_keeps, State.imageChunks_keeps, State.imageTaken_keeps]; done) | split))

theorem execImageRecord_keeps (Q : Parts) (noise : List (Nat × Byte)) (errs : List (Nat × Nat)) (s : State) (h : At Q s) :
  Keeps Q (execImageRecord noise errs s) := by
  unfold execImageRecord; (split <;> simp only [same_ite, ite_self, keeps_next, keepsO_none, keepsP_none, State.fullRecord_keeps, State.partialRecord_keeps, h])

theorem State.hostWord_keeps (Q : Parts) (s : State) (code : Nat) (w : Word) : At Q (State.hostWord s code w) = At Q s := by
  unfold State.hostWord; simp only [same_mk, same_fold, same_ite, ite_self, State.failLoad_keeps, State.firstWord_keeps,
    State.showHbuf_keeps]

theorem execHostDataWord_keeps (Q : Parts) (_p : Path) (w : Word) (s : State) (h : At Q s) : Keeps Q
  (execHostDataWord _p w s) := by
  unfold execHostDataWord; simp only [keeps_whenOpen, State.hostWord_keeps, h]

theorem execHostWordTimeout_keeps (Q : Parts) (s : State) (h : At Q s) : Keeps Q (execHostWordTimeout s) := by
  unfold execHostWordTimeout; simp only [same_ite, ite_self, keeps_next, State.failPlain_keeps, h]

end Sys2Proof.Machine
end

