-- ==== Sys2Proof/Laws/KeepsUpdate.lean ====
section
/-! SUPPORT. What the definitions of Update leave as they are: the waiting commands and the fuse words. -/

namespace Sys2Proof.Machine

open Sys2Proof

set_option simprocs false
set_option linter.unusedSimpArgs false
set_option linter.all false

theorem State.setSteps_keeps (Q : Parts) (s : State) (l : List UpdStep) : At Q (State.setSteps s l) = At Q s := by
  unfold State.setSteps; simp only [same_mk, same_fold]

theorem State.updReturns_keeps (Q : Parts) (s : State) (vs : List Nat) : At Q (State.updReturns s vs) = At Q s := by
  unfold State.updReturns; simp only [State.setFld_keeps, State.returns_keeps]

theorem State.updReport_keeps (Q : Parts) (s : State) (vs : List Nat) : At Q (State.updReport s vs) = At Q s := by
  unfold State.updReport; simp only [same_mk, same_fold, same_ite, ite_self, State.updReturns_keeps]

theorem State.updClear_keeps (Q : Parts) (s : State) : At Q (State.updClear s) = At Q s := by
  unfold State.updClear; simp only [same_mk, same_fold, State.clear_keeps, State.ledgerEnd_keeps]

theorem State.updStops_keeps (Q : Parts) (s : State) (st : Nat) : At Q (State.updStops s st) = At Q s := by
  unfold State.updStops; simp only [same_mk, same_fold, same_ite, ite_self, State.setSteps_keeps, State.updClear_keeps,
    State.updReport_keeps]

theorem State.updInterrupted_keeps (Q : Parts) (s : State) : At Q (State.updInterrupted s) = At Q s := by
  unfold State.updInterrupted; simp only [same_mk, same_fold, same_ite, ite_self, State.updClear_keeps, State.updReport_keeps]

theorem State.xflashCut_keeps (Q : Parts) (s : State) : At Q (State.xflashCut s) = At Q s := by
  unfold State.xflashCut; ((try simp only [same_mk, same_fold, same_ite, ite_self, keepsO_none, keepsP_none, State.open_keeps, State.xflashErased_keeps, State.xflashPut_keeps]); repeat' (first | (simp only [same_mk, same_fold, same_ite, ite_self, keepsO_none, keepsP_none, State.open_keeps, State.xflashErased_keeps, State.xflashPut_keeps]; done) | split))

theorem State.verifyImage_keeps (Q : Parts) (s : State) (get : Nat → Nat → List Byte × Bool) : At Q
  (State.verifyImage s get).2 = At Q s := by
  unfold State.verifyImage; repeat' (first | (simp only [keepsO_none, keepsP_none, State.verifyHeader_keeps, *]; done) | (split <;> ((try (have e := congrArg (fun p => At Q (Prod.snd p)) ‹_ = ((_, _) : _ × State)›; simp only [keepsO_none, keepsP_none, State.verifyHeader_keeps] at e; (try simp only [keepsO_none, keepsP_none, State.verifyHeader_keeps, ‹At Q _›] at e); (try replace e := Eq.mp e trivial))); (try (have e := congrArg (fun p => At Q (Prod.fst p)) ‹_ = ((_, _) : State × _)›; simp only [keepsO_none, keepsP_none, State.verifyHeader_keeps] at e; (try simp only [keepsO_none, keepsP_none, State.verifyHeader_keeps, ‹At Q _›] at e); (try replace e := Eq.mp e trivial))); (try (have e := congrArg (KeepsO Q) ‹_ = some _›; simp only [keepsO_none, keepsP_none, State.verifyHeader_keeps] at e; (try simp only [keepsO_none, keepsP_none, State.verifyHeader_keeps, ‹At Q _›] at e); (try replace e := Eq.mp e trivial))); (try (have e := congrArg (KeepsP Q) ‹_ = some _›; simp only [keepsO_none, keepsP_none, State.verifyHeader_keeps] at e; (try simp only [keepsO_none, keepsP_none, State.verifyHeader_keeps, ‹At Q _›] at e); (try replace e := Eq.mp e trivial))))))

theorem State.readGolden_keeps (Q : Parts) (s : State) (errs : List (Nat × Nat)) (n : Nat) : At Q
  (State.readGolden s errs n) = At Q s := by
  unfold State.readGolden; simp only [same_foldl, implies_true, State.readChunk_keeps]

theorem State.slotVerified_keeps (Q : Parts) (s : State) (slot : Nat) (noise : List (Nat × Byte)) (rest : List UpdStep) :
    At Q (State.slotVerified s slot noise rest) = At Q s := by
  unfold State.slotVerified
  split
  · simp only [State.setSteps_keeps]
  · rename_i e _
    have k := State.verifyImage_keeps Q s (s.slotBytes e.addr noise)
    split
    · rename_i g; rw [g] at k; simp only [State.setSteps_keeps, k]
    · rename_i g; rw [g] at k; simp only [State.setSteps_keeps, State.log_keeps, k]

theorem State.goldenVerified_keeps (Q : Parts) (s : State) (slot : Nat) (errs : List (Nat × Nat)) (rest : List UpdStep) : At Q
  (State.goldenVerified s slot errs rest) = At Q s := by
  unfold State.goldenVerified; repeat' (first | (simp only [keepsO_none, keepsP_none, State.log_keeps, State.readGolden_keeps, State.setSteps_keeps, State.verifyImage_keeps, *]; done) | (split <;> ((try (have e := congrArg (fun p => At Q (Prod.snd p)) ‹_ = ((_, _) : _ × State)›; simp only [keepsO_none, keepsP_none, State.log_keeps, State.readGolden_keeps, State.setSteps_keeps, State.verifyImage_keeps] at e; (try simp only [keepsO_none, keepsP_none, State.log_keeps, State.readGolden_keeps, State.setSteps_keeps, State.verifyImage_keeps, ‹At Q _›] at e); (try replace e := Eq.mp e trivial))); (try (have e := congrArg (fun p => At Q (Prod.fst p)) ‹_ = ((_, _) : State × _)›; simp only [keepsO_none, keepsP_none, State.log_keeps, State.readGolden_keeps, State.setSteps_keeps, State.verifyImage_keeps] at e; (try simp only [keepsO_none, keepsP_none, State.log_keeps, State.readGolden_keeps, State.setSteps_keeps, State.verifyImage_keeps, ‹At Q _›] at e); (try replace e := Eq.mp e trivial))); (try (have e := congrArg (KeepsO Q) ‹_ = some _›; simp only [keepsO_none, keepsP_none, State.log_keeps, State.readGolden_keeps, State.setSteps_keeps, State.verifyImage_keeps] at e; (try simp only [keepsO_none, keepsP_none, State.log_keeps, State.readGolden_keeps, State.setSteps_keeps, State.verifyImage_keeps, ‹At Q _›] at e); (try replace e := Eq.mp e trivial))); (try (have e := congrArg (KeepsP Q) ‹_ = some _›; simp only [keepsO_none, keepsP_none, State.log_keeps, State.readGolden_keeps, State.setSteps_keeps, State.verifyImage_keeps] at e; (try simp only [keepsO_none, keepsP_none, State.log_keeps, State.readGolden_keeps, State.setSteps_keeps, State.verifyImage_keeps, ‹At Q _›] at e); (try replace e := Eq.mp e trivial))))))

theorem State.checkGolden_keeps (Q : Parts) (s : State) (errs : List (Nat × Nat)) : At Q (State.checkGolden s errs) = At Q s := by
  unfold State.checkGolden; repeat' (first | (simp only [State.log_keeps, State.raise_keeps, State.readGolden_keeps, State.verifyHeader_keeps, *]; done) | (split <;> ((try (have e := congrArg (fun p => At Q (Prod.snd p)) ‹_ = ((_, _) : _ × State)›; simp only [State.log_keeps, State.raise_keeps, State.readGolden_keeps, State.verifyHeader_keeps] at e; (try simp only [State.log_keeps, State.raise_keeps, State.readGolden_keeps, State.verifyHeader_keeps, ‹At Q _›] at e); (try replace e := Eq.mp e trivial))); (try (have e := congrArg (fun p => At Q (Prod.fst p)) ‹_ = ((_, _) : State × _)›; simp only [State.log_keeps, State.raise_keeps, State.readGolden_keeps, State.verifyHeader_keeps] at e; (try simp only [State.log_keeps, State.raise_keeps, State.readGolden_keeps, State.verifyHeader_keeps, ‹At Q _›] at e); (try replace e := Eq.mp e trivial))); (try (have e := congrArg (KeepsO Q) ‹_ = some _›; simp only [State.log_keeps, State.raise_keeps, State.readGolden_keeps, State.verifyHeader_keeps] at e; (try simp only [State.log_keeps, State.raise_keeps, State.readGolden_keeps, State.verifyHeader_keeps, ‹At Q _›] at e); (try replace e := Eq.mp e trivial))); (try (have e := congrArg (KeepsP Q) ‹_ = some _›; simp only [State.log_keeps, State.raise_keeps, State.readGolden_keeps, State.verifyHeader_keeps] at e; (try simp only [State.log_keeps, State.raise_keeps, State.readGolden_keeps, State.verifyHeader_keeps, ‹At Q _›] at e); (try replace e := Eq.mp e trivial))))))

theorem State.startExternal_keeps (Q : Parts) (s : State) (code cost : Nat) : At Q
  (State.startExternal s code cost) = At Q s := by
  unfold State.startExternal; simp only [same_mk, same_fold, same_ite, ite_fst, ite_snd, ite_self, State.log_keeps,
    State.ledgerAsk_keeps, State.updClear_keeps, State.updStops_keeps]

theorem State.startGolden_keeps (Q : Parts) (s : State) (op : FlashOp) (code cost : Nat) : At Q
  (State.startGolden s op code cost) = At Q s := by
  unfold State.startGolden; simp only [same_mk, same_fold, same_ite, ite_self, State.beginFlash_keeps, State.ledgerAsk_keeps,
    State.startSector_keeps, State.updStops_keeps]

theorem State.updStep_keeps (Q : Parts) (s : State) (errs : List (Nat × Nat)) (st : UpdStep) (rest : List UpdStep) (hq :
  Grow Q) (h : At Q s) : At Q (State.updStep s errs st rest) := by
  unfold State.updStep; (split <;> simp only [same_mk, same_fold, same_ite, ite_self, keepsO_none, keepsP_none, State.setFld_keeps, State.log_keeps, State.checkGolden_keeps, State.raise_keeps, State.rehoist_keeps, State.setSteps_keeps, State.setTrial_keeps, State.snapshot_keeps, State.startExternal_keeps, State.startGolden_keeps, State.updClear_keeps, State.updReport_keeps, State.updStops_keeps, h, hq])

theorem State.updRun_keeps (Q : Parts) (errs : List (Nat × Nat)) (x0 : Nat) (x1 : State) (hq : Grow Q) (h : At Q x1) : At Q
  (State.updRun errs x0 x1) := by
  induction x0 generalizing x1 with
  | zero => first | rfl | (rw [State.updRun.eq_def]; simp only [State.updStep_keeps, h, hq])
  | succ n ih =>
    rw [State.updRun.eq_def]
    dsimp only
    repeat' (first | (simp only [State.updStep_keeps, h, hq, ih]; done) | rfl | split)

theorem State.updStart_keeps (Q : Parts) (s : State) (errs : List (Nat × Nat)) (u : UpdateUnit) (l : List UpdStep) (hq :
  Grow Q) (h : At Q s) : At Q (State.updStart s errs u l) := by
  unfold State.updStart; simp only [same_mk, same_fold, State.raise_keeps, State.updRun_keeps, h, hq]

theorem State.updDone_keeps (Q : Parts) (s : State) (noise : List (Nat × Byte)) (errs : List (Nat × Nat)) : At Q
  (State.updDone s noise errs) = At Q s := by
  unfold State.updDone; (split <;> simp only [same_mk, same_fold, same_ite, ite_self, State.goldenVerified_keeps, State.ledgerEnd_keeps, State.setSteps_keeps, State.showDir_keeps, State.slotVerified_keeps, State.xflashErased_keeps, State.xflashPut_keeps])

theorem State.updFailed_keeps (Q : Parts) (s : State) : At Q (State.updFailed s) = At Q s := by
  unfold State.updFailed; simp only [same_mk, same_fold, same_ite, ite_self, State.log_keeps, State.showDir_keeps,
    State.updStops_keeps, State.xflashCut_keeps]

theorem State.updCompletes_keeps (Q : Parts) (s : State) (ok : Bool) (noise : List (Nat × Byte)) (errs : List (Nat × Nat))
  (hq : Grow Q) (h : At Q s) : At Q (State.updCompletes s ok noise errs) := by
  unfold State.updCompletes; simp only [same_mk, same_fold, same_ite, ite_self, State.updClear_keeps, State.updDone_keeps,
    State.updFailed_keeps, State.updRun_keeps, State.xflashCut_keeps, h, hq]

theorem execUpdateOperationComplete_keeps (Q : Parts) (ok : Bool) (noise : List (Nat × Byte)) (errs : List (Nat × Nat)) (s :
  State) (hq : Grow Q) (h : At Q s) : Keeps Q (execUpdateOperationComplete ok noise errs s) := by
  unfold execUpdateOperationComplete; simp only [same_ite, ite_self, keeps_next, State.updCompletes_keeps, h, hq]

theorem State.updFlash_keeps (Q : Parts) (s : State) : At Q (State.updFlash s) = At Q s := by
  unfold State.updFlash; ((try simp only [same_mk, same_fold, State.setSteps_keeps, State.updStops_keeps]); repeat' (first | (simp only [same_mk, same_fold, State.setSteps_keeps, State.updStops_keeps]; done) | split))

theorem State.updSnap_keeps (Q : Parts) (s : State) : At Q (State.updSnap s) = At Q s := by
  unfold State.updSnap; (split <;> simp only [same_mk, same_fold, same_ite, ite_self, State.setSteps_keeps, State.updStops_keeps])

theorem State.updFree_keeps (Q : Parts) (s : State) (kind : Nat) (t : State) (h0 : At Q s) (h1 : At Q t) : At Q
  (State.updFree s kind t) := by
  unfold State.updFree; simp only [same_ite, ite_self, State.updReturns_keeps, h0, h1]

theorem State.updGate_keeps (Q : Parts) (s : State) (kind : Nat) (t : State) (h0 : At Q s) (h1 : At Q t) : Keeps Q
  (State.updGate s kind t) := by
  unfold State.updGate; simp only [same_mk, same_fold, ite_self, keeps_next, keeps_ite, State.setFld_keeps, h0, h1]

theorem execUpdInfo_keeps (Q : Parts) (_c : RoutineCall) (s : State) (h : At Q s) : Keeps Q (execUpdInfo _c s) := by
  unfold execUpdInfo; simp only [State.updGate_keeps, State.updReturns_keeps, h]

theorem execUpdBegin_keeps (Q : Parts) (c : RoutineCall) (s : State) (hq : Grow Q) (h : At Q s) : Keeps Q (execUpdBegin c s) := by
  unfold execUpdBegin; simp (disch := (intros; (try simp only [same_ite, ite_self, State.ledgerAsk_keeps, State.updFree_keeps, State.updGate_keeps, State.updReturns_keeps, State.updStart_keeps, h, hq]); repeat' (first | (simp only [same_ite, ite_self, State.ledgerAsk_keeps, State.updFree_keeps, State.updGate_keeps, State.updReturns_keeps, State.updStart_keeps, h, hq]; done) | split))) only [same_ite, ite_self, State.ledgerAsk_keeps, State.updFree_keeps, State.updGate_keeps, State.updReturns_keeps, State.updStart_keeps, h, hq]

theorem execUpdWrite_keeps (Q : Parts) (c : RoutineCall) (s : State) (hq : Grow Q) (h : At Q s) : Keeps Q (execUpdWrite c s) := by
  unfold execUpdWrite; simp (disch := (intros; (try simp only [same_ite, ite_self, keepsO_none, keepsP_none, State.updFree_keeps, State.updGate_keeps, State.updReturns_keeps, State.updStart_keeps, h, hq]); repeat' (first | (simp only [same_ite, ite_self, keepsO_none, keepsP_none, State.updFree_keeps, State.updGate_keeps, State.updReturns_keeps, State.updStart_keeps, h, hq]; done) | split))) only [same_ite, ite_self, keepsO_none, keepsP_none, State.updFree_keeps, State.updGate_keeps, State.updReturns_keeps, State.updStart_keeps, h, hq]

theorem execUpdFinish_keeps (Q : Parts) (c : RoutineCall) (s : State) (hq : Grow Q) (h : At Q s) : Keeps Q
  (execUpdFinish c s) := by
  unfold execUpdFinish; simp (disch := (intros; (try simp only [State.updFree_keeps, State.updGate_keeps, State.updReturns_keeps, State.updStart_keeps, h, hq]); repeat' (first | (simp only [State.updFree_keeps, State.updGate_keeps, State.updReturns_keeps, State.updStart_keeps, h, hq]; done) | split))) only [State.updFree_keeps, State.updGate_keeps, State.updReturns_keeps, State.updStart_keeps, h, hq]

theorem State.updBegins_keeps (Q : Parts) (s : State) (c : RoutineCall) (kind slot : Nat) (l : List UpdStep) (hq : Grow Q) (h :
  At Q s) : At Q (State.updBegins s c kind slot l) := by
  unfold State.updBegins; simp only [same_ite, ite_self, State.updReturns_keeps, State.updStart_keeps, h, hq]

theorem execUpdVerify_keeps (Q : Parts) (c : RoutineCall) (s : State) (hq : Grow Q) (h : At Q s) : Keeps Q
  (execUpdVerify c s) := by
  unfold execUpdVerify; simp (disch := (intros; (try simp only [same_ite, State.updBegins_keeps, State.updFree_keeps, State.updGate_keeps, State.updReturns_keeps, h, hq]); repeat' (first | (simp only [same_ite, State.updBegins_keeps, State.updFree_keeps, State.updGate_keeps, State.updReturns_keeps, h, hq]; done) | split))) only [same_ite, State.updBegins_keeps, State.updFree_keeps, State.updGate_keeps, State.updReturns_keeps, h, hq]

theorem execUpdActivate_keeps (Q : Parts) (c : RoutineCall) (s : State) (hq : Grow Q) (h : At Q s) : Keeps Q
  (execUpdActivate c s) := by
  unfold execUpdActivate; simp (disch := (intros; (try simp only [same_ite, ite_self, State.rehoist_keeps, State.updFree_keeps, State.updGate_keeps, State.updReturns_keeps, State.updStart_keeps, h, hq]); repeat' (first | (simp only [same_ite, ite_self, State.rehoist_keeps, State.updFree_keeps, State.updGate_keeps, State.updReturns_keeps, State.updStart_keeps, h, hq]; done) | split))) only [same_ite, ite_self, State.rehoist_keeps, State.updFree_keeps, State.updGate_keeps, State.updReturns_keeps, State.updStart_keeps, h, hq]

theorem execUpdConfirm_keeps (Q : Parts) (c : RoutineCall) (s : State) (hq : Grow Q) (h : At Q s) : Keeps Q
  (execUpdConfirm c s) := by
  unfold execUpdConfirm; simp (disch := (intros; (try simp only [same_ite, State.updFree_keeps, State.updGate_keeps, State.updReturns_keeps, State.updStart_keeps, h, hq]); repeat' (first | (simp only [same_ite, State.updFree_keeps, State.updGate_keeps, State.updReturns_keeps, State.updStart_keeps, h, hq]; done) | split))) only [same_ite, State.updFree_keeps, State.updGate_keeps, State.updReturns_keeps, State.updStart_keeps, h, hq]

theorem execUpdRetire_keeps (Q : Parts) (c : RoutineCall) (s : State) (hq : Grow Q) (h : At Q s) : Keeps Q
  (execUpdRetire c s) := by
  unfold execUpdRetire; simp (disch := (intros; (try simp only [keepsO_none, keepsP_none, State.updFree_keeps, State.updGate_keeps, State.updReturns_keeps, State.updStart_keeps, h, hq]); repeat' (first | (simp only [keepsO_none, keepsP_none, State.updFree_keeps, State.updGate_keeps, State.updReturns_keeps, State.updStart_keeps, h, hq]; done) | split))) only [keepsO_none, keepsP_none, State.updFree_keeps, State.updGate_keeps, State.updReturns_keeps, State.updStart_keeps, h, hq]

theorem execUpdGolden_keeps (Q : Parts) (c : RoutineCall) (s : State) (hq : Grow Q) (h : At Q s) : Keeps Q
  (execUpdGolden c s) := by
  unfold execUpdGolden; simp (disch := (intros; (try simp only [same_ite, ite_self, State.updBegins_keeps, State.updFree_keeps, State.updGate_keeps, State.updReturns_keeps, h, hq]); repeat' (first | (simp only [same_ite, ite_self, State.updBegins_keeps, State.updFree_keeps, State.updGate_keeps, State.updReturns_keeps, h, hq]; done) | split))) only [same_ite, ite_self, State.updBegins_keeps, State.updFree_keeps, State.updGate_keeps, State.updReturns_keeps, h, hq]

theorem execUpdWait_keeps (Q : Parts) (c : RoutineCall) (s : State) (h : At Q s) : Keeps Q (execUpdWait c s) := by
  unfold execUpdWait; (split <;> simp only [same_ite, ite_self, State.open_keeps, State.updGate_keeps, State.updReturns_keeps, h])

theorem State.lastReason_keeps (Q : Parts) (s : State) (slot : Nat) : At Q (State.lastReason s slot).2 = At Q s := by
  unfold State.lastReason; (split <;> simp only [keepsO_none, keepsP_none, State.open_keeps])

theorem State.retireSteps_keeps (Q : Parts) (s : State) (slot a : Nat) : At Q (State.retireSteps s slot a).2 = At Q s := by
  unfold State.retireSteps; (repeat' (first | (simp only [same_ite, ite_snd, ite_self, keepsO_none, keepsP_none, State.lastReason_keeps]; done) | split))

theorem State.atSail_keeps (Q : Parts) (s : State) (errs : List (Nat × Nat)) (hq : Grow Q) (h : At Q s) : At Q
  (State.atSail s errs) := by
  unfold State.atSail; simp only [same_ite, same_foldl_snd, ite_fst, ite_snd, ite_self, implies_true, State.retireSteps_keeps,
    State.updStart_keeps, h, hq]

theorem execUpdateServiceAtSail_keeps (Q : Parts) (errs : List (Nat × Nat)) (s : State) (hq : Grow Q) (h : At Q s) : Keeps Q
  (execUpdateServiceAtSail errs s) := by
  unfold execUpdateServiceAtSail; simp only [same_ite, ite_self, keeps_next, State.atSail_keeps, h, hq]

theorem execDirectoryWriteRetry_keeps (Q : Parts) (s : State) (hq : Grow Q) (h : At Q s) : Keeps Q
  (execDirectoryWriteRetry s) := by
  unfold execDirectoryWriteRetry; (repeat' (first | (simp only [keeps_next, State.updRun_keeps, State.updStep_keeps, h, hq]; done) | split))

theorem State.closeWindow_keeps (Q : Parts) (s : State) (hq : Grow Q) (h : At Q s) : At Q (State.closeWindow s) := by
  unfold State.closeWindow; simp only [same_mk, same_fold, same_ite, ite_self, keepsO_none, keepsP_none, State.log_keeps,
    State.rehoist_keeps, h, hq]

theorem execConfirmWindowClose_keeps (Q : Parts) (s : State) (hq : Grow Q) (h : At Q s) : Keeps Q (execConfirmWindowClose s) := by
  unfold execConfirmWindowClose; simp only [keeps_next, State.closeWindow_keeps, h, hq]

theorem execConfirmSWrite_keeps (Q : Parts) (_p : Path) (v : Word) (s : State) (hq : Grow Q) (h : At Q s) : Keeps Q
  (execConfirmSWrite _p v s) := by
  unfold execConfirmSWrite; simp only [keeps_whenOpen, State.setFld_keeps, State.closeWindow_keeps, h, hq]

end Sys2Proof.Machine
end

