-- ==== Sys2Proof/Laws/KeepsKeys.lean ====
section
/-! SUPPORT. What the definitions of Keys leave as they are: the waiting commands and the fuse words. -/

namespace Sys2Proof.Machine

open Sys2Proof

set_option simprocs false
set_option linter.unusedSimpArgs false
set_option linter.all false

theorem State.zeroise_keeps (Q : Parts) (s : State) (why : Nat) : At Q (State.zeroise s why) = At Q s := by
  unfold State.zeroise; simp only [same_mk, same_fold, same_ite, ite_self, State.failLoad_keeps, State.logZeroised_keeps,
    State.partialFails_keeps, State.zeroKey_keeps]

theorem State.imgRefused_keeps (Q : Parts) (s : State) (bit cause : Nat) : At Q (State.imgRefused s bit cause) = At Q s := by
  unfold State.imgRefused; simp only [State.setFld_keeps, State.log_keeps, State.raise_eq]

theorem State.imgDone_keeps (Q : Parts) (s : State) : At Q (State.imgDone s) = At Q s := by
  unfold State.imgDone; simp only [same_mk, same_fold, keepsO_none, keepsP_none, State.setFld_keys, State.setFld_pending,
    State.raise_eq, State.clear_eq]

theorem State.imgBusy_keeps (Q : Parts) (s : State) (bit : Nat) : At Q (State.imgBusy s bit) = At Q s := by
  unfold State.imgBusy; simp only [same_mk, same_fold, State.setFld_keys, State.setFld_pending, State.raise_eq]

theorem State.markBbk_keeps (Q : Parts) (s : State) (p : Path) (before : State) : At Q (State.markBbk s p before) = At Q
  s := by
  unfold State.markBbk; simp only [same_mk, same_fold, same_ite, ite_fst, ite_snd, ite_self, keepsO_none, keepsO_some,
  keepsO_ite, keepsP_none, keepsP_some, keepsP_ite, implies_true]

theorem State.bbkMet_keeps (Q : Parts) (s : State) (p : Option Path) : At Q (State.bbkMet s p) = At Q s := by
  unfold State.bbkMet; (try simp only [same_mk, same_fold, same_ite, same_foldl, same_foldl_snd, same_foldl_fst, ite_fst, ite_snd, ite_self, keepsO_none, keepsO_some, keepsO_ite, keepsP_none, keepsP_some, keepsP_ite, implies_true, State.imgRefused_keeps, State.setBit_keeps, State.setReg_keeps]); repeat' (first | (simp only [same_mk, same_fold, same_ite, same_foldl, same_foldl_snd, same_foldl_fst, ite_fst, ite_snd, ite_self, keepsO_none, keepsO_some, keepsO_ite, keepsP_none, keepsP_some, keepsP_ite, implies_true, State.imgRefused_keeps, State.setBit_keeps, State.setReg_keeps]; done) | split)

theorem State.bbkLoad_keeps (Q : Parts) (s : State) (p : Path) : At Q (State.bbkLoad s p) = At Q s := by
  unfold State.bbkLoad; simp only [same_mk, same_fold, same_ite, same_foldl, same_foldl_snd, same_foldl_fst, ite_fst,
  ite_snd, ite_self, implies_true, State.imgDone_keeps, State.imgRefused_keeps, State.markBbk_keeps, State.raise_keeps,
  State.setReg_keeps, State.setWide_keeps]

theorem State.dbgChal_keeps (Q : Parts) (s : State) : At Q (State.dbgChal s) = At Q s := by
  unfold State.dbgChal; simp only [same_mk, same_fold, same_ite, same_foldl, ite_self, implies_true, State.setReg_keeps,
    State.open_keeps, State.setFld_keys, State.setFld_pending, State.clear_eq, State.imgDone_keeps, State.imgRefused_keeps]

theorem State.dbgUnlock_keeps (Q : Parts) (s : State) : At Q (State.dbgUnlock s) = At Q s := by
  unfold State.dbgUnlock; (repeat' (first | (simp only [same_mk, same_fold, keepsO_none, keepsP_none, State.setFld_keeps, State.log_keeps, State.setFld_pending, State.raise_eq, State.clear_eq, State.imgDone_keeps, State.imgRefused_keeps]; done) | split))

theorem State.plRaise_keeps (Q : Parts) (s : State) : At Q (State.plRaise s) = At Q s := by
  unfold State.plRaise; simp only [same_ite, ite_fst, ite_snd, ite_self, keepsO_none, keepsP_none, State.beginFlash_keeps,
    State.imgBusy_keeps, State.imgRefused_keeps, State.ledgerAsk_keeps, State.sysCompact_keeps]

theorem State.massNext_keeps (Q : Parts) (s : State) (hq : Grow Q) (h : At Q s) : At Q (State.massNext s) := by
  unfold State.massNext; (repeat' (first | (simp only [same_mk, same_fold, keepsO_none, keepsP_none, State.setFld_keys, State.setFld_pending, State.clear_eq, State.appendLevel_keeps, State.imgDone_keeps, State.journalDone_keeps, State.ledgerEnd_keeps, State.rehoist_keeps, State.showBusy_keeps, h, hq]; done) | split))

theorem State.plLower_keeps (Q : Parts) (s : State) (hq : Grow Q) (h : At Q s) : At Q (State.plLower s) := by
  unfold State.plLower; simp only [same_mk, same_fold, same_ite, ite_self, State.imgBusy_keeps, State.imgRefused_keeps,
    State.journalRoom_keeps, State.journalStart_keeps, State.ledgerAsk_keeps, State.massNext_keeps, State.zeroise_keeps, h, hq]

theorem State.fuseProg_keeps (Q : Parts) (s : State) : At Q (State.fuseProg s) = At Q s := by
  unfold State.fuseProg; simp only [same_mk, same_fold, same_ite, ite_self, State.imgBusy_keeps, State.imgRefused_keeps]

theorem State.svnCommit_keeps (Q : Parts) (s : State) : At Q (State.svnCommit s) = At Q s := by
  unfold State.svnCommit; simp only [same_ite, ite_self, State.imgBusy_keeps, State.imgDone_keeps, State.imgRefused_keeps]

theorem State.zeroiseCommand_keeps (Q : Parts) (s : State) (p : Path) : At Q (State.zeroiseCommand s p) = At Q s := by
  unfold State.zeroiseCommand; simp only [same_mk, same_fold, same_ite, ite_fst, ite_snd, ite_self, keepsO_none,
  keepsO_some, keepsO_ite, keepsP_none, keepsP_some, keepsP_ite, implies_true, State.bbkMet_keeps, State.imgDone_keeps,
  State.raise_keeps, State.zeroise_keeps]

theorem State.imgAct_keeps (Q : Parts) (s : State) (p : Path) (b : Nat) (hq : Grow Q) (h : At Q s) : At Q (State.imgAct
  s p b) := by
  unfold State.imgAct; (try simp only [same_mk, same_fold, same_ite, ite_fst, ite_snd, ite_self, implies_true, State.bbkLoad_keeps, State.dbgChal_keeps, State.dbgUnlock_keeps, State.fuseProg_keeps, State.plLower_keeps, State.plRaise_keeps, State.svnCommit_keeps, State.zeroiseCommand_keeps, h, hq]); repeat' (first | (simp only [same_mk, same_fold, same_ite, ite_fst, ite_snd, ite_self, implies_true, State.bbkLoad_keeps, State.dbgChal_keeps, State.dbgUnlock_keeps, State.fuseProg_keeps, State.plLower_keeps, State.plRaise_keeps, State.svnCommit_keeps, State.zeroiseCommand_keeps, h, hq]; done) | split)

theorem State.imgCommand_keeps (Q : Parts) (s : State) (p : Path) (v : Word) (hq : Grow Q) (h : At Q s) : At Q
  (State.imgCommand s p v) := by
  unfold State.imgCommand; simp only [same_mk, same_fold, same_ite, ite_fst, ite_snd, ite_self, keepsO_none,
  keepsO_some, keepsO_ite, keepsP_none, keepsP_some, keepsP_ite, implies_true, State.imgAct_keeps,
  State.imgRefused_keeps, h, hq]

theorem execZeroise_keeps (Q : Parts) (p : Path) (v : Word) (s : State) (hq : Grow Q) (h : At Q s) : Keeps Q
  (execZeroise p v s) := by
  unfold execZeroise; simp only [same_mk, same_fold, same_ite, ite_fst, ite_snd, ite_self, keeps_next, keeps_ite,
  implies_true, State.imgCommand_keeps, keeps_whenOpen, h, hq]

theorem execDbgChal_keeps (Q : Parts) (p : Path) (v : Word) (s : State) (hq : Grow Q) (h : At Q s) : Keeps Q
  (execDbgChal p v s) := by
  unfold execDbgChal; simp only [same_mk, same_fold, same_ite, ite_fst, ite_snd, ite_self, keeps_next, keeps_ite,
  implies_true, State.imgCommand_keeps, keeps_whenOpen, h, hq]

theorem execDbgUnlock_keeps (Q : Parts) (p : Path) (v : Word) (s : State) (hq : Grow Q) (h : At Q s) : Keeps Q
  (execDbgUnlock p v s) := by
  unfold execDbgUnlock; simp only [same_mk, same_fold, same_ite, ite_fst, ite_snd, ite_self, keeps_next, keeps_ite,
  implies_true, State.imgCommand_keeps, keeps_whenOpen, h, hq]

theorem execBbkLoad_keeps (Q : Parts) (p : Path) (v : Word) (s : State) (hq : Grow Q) (h : At Q s) : Keeps Q
  (execBbkLoad p v s) := by
  unfold execBbkLoad; simp only [same_mk, same_fold, same_ite, ite_fst, ite_snd, ite_self, keeps_next, keeps_ite,
  implies_true, State.imgCommand_keeps, keeps_whenOpen, h, hq]

theorem execPlRaise_keeps (Q : Parts) (p : Path) (v : Word) (s : State) (hq : Grow Q) (h : At Q s) : Keeps Q
  (execPlRaise p v s) := by
  unfold execPlRaise; simp only [same_mk, same_fold, same_ite, ite_fst, ite_snd, ite_self, keeps_next, keeps_ite,
  implies_true, State.imgCommand_keeps, keeps_whenOpen, h, hq]

theorem execPlLower_keeps (Q : Parts) (p : Path) (v : Word) (s : State) (hq : Grow Q) (h : At Q s) : Keeps Q
  (execPlLower p v s) := by
  unfold execPlLower; simp only [same_mk, same_fold, same_ite, ite_fst, ite_snd, ite_self, keeps_next, keeps_ite,
  implies_true, State.imgCommand_keeps, keeps_whenOpen, h, hq]

theorem execFuseProg_keeps (Q : Parts) (p : Path) (v : Word) (s : State) (hq : Grow Q) (h : At Q s) : Keeps Q
  (execFuseProg p v s) := by
  unfold execFuseProg; simp only [same_mk, same_fold, same_ite, ite_fst, ite_snd, ite_self, keeps_next, keeps_ite,
  implies_true, State.imgCommand_keeps, keeps_whenOpen, h, hq]

theorem execSvnCommit_keeps (Q : Parts) (p : Path) (v : Word) (s : State) (hq : Grow Q) (h : At Q s) : Keeps Q
  (execSvnCommit p v s) := by
  unfold execSvnCommit; simp only [same_mk, same_fold, same_ite, ite_fst, ite_snd, ite_self, keeps_next, keeps_ite,
  implies_true, State.imgCommand_keeps, keeps_whenOpen, h, hq]

theorem State.fuseOpen_keeps (Q : Parts) (s : State) (k d : Nat) (hq : Grow Q) (h : At Q s) : At Q (State.fuseOpen s k d) := by
  unfold State.fuseOpen; simp only [State.open_keeps, State.setFuse_keeps, h, hq]

theorem State.fuseEnds_keeps (Q : Parts) (s : State) (ok : Bool) (hq : Grow Q) (h : At Q s) : At Q (State.fuseEnds s ok) := by
  unfold State.fuseEnds; (split <;> simp only [same_mk, same_fold, same_ite, ite_self, keepsO_none, keepsP_none, State.log_keeps, State.fuseOpen_keeps, State.imgDone_keeps, State.setFuse_keeps, h, hq])

theorem execImgCmdComplete_keeps (Q : Parts) (ok : Bool) (s : State) (hq : Grow Q) (h : At Q s) : Keeps Q
  (execImgCmdComplete ok s) := by
  unfold execImgCmdComplete; simp only [same_ite, ite_self, keeps_next, State.fuseEnds_keeps, h, hq]

theorem State.fuseCut_keeps (Q : Parts) (s : State) (hq : Grow Q) (h : At Q s) : At Q (State.fuseCut s) := by
  unfold State.fuseCut; (split <;> simp only [State.fuseOpen_keeps, h, hq])

theorem State.debugRevoked_keeps (Q : Parts) (s : State) : At Q (State.debugRevoked s) = At Q s := by
  unfold State.debugRevoked; simp only [same_ite, ite_self, State.resumeCore_keeps]

theorem State.plRaised_keeps (Q : Parts) (s : State) (ok : Bool) : At Q (State.plRaised s ok) = At Q s := by
  unfold State.plRaised; simp only [same_mk, same_fold, same_ite, ite_self, keepsO_none, keepsP_none, State.setFld_keeps,
    State.setFld_keys, State.setFld_pending, State.clear_eq, State.debugRevoked_keeps, State.imgDone_keeps,
    State.imgRefused_keeps]

theorem State.massStops_keeps (Q : Parts) (s : State) : At Q (State.massStops s) = At Q s := by
  unfold State.massStops; simp only [same_mk, same_fold, keepsO_none, keepsP_none, State.setFld_keys, State.setFld_pending,
    State.clear_eq, State.ledgerEnd_keeps]

theorem State.massSector_keeps (Q : Parts) (s : State) (end_ : FlashEnd) (hq : Grow Q) (h : At Q s) : At Q
  (State.massSector s end_) := by
  unfold State.massSector; (repeat' (first | (simp only [same_mk, same_fold, keepsO_none, keepsP_none, State.setFld_keeps, State.log_keeps, State.setFld_keys, State.setFld_pending, State.raise_eq, State.imgRefused_keeps, State.journalDone_keeps, State.massNext_keeps, State.massStops_keeps, State.sectorErased_keeps, State.sectorOpen_keeps, State.showBusy_keeps, h, hq]; done) | split))

theorem State.keysFlash_keeps (Q : Parts) (s : State) : At Q (State.keysFlash s) = At Q s := by
  unfold State.keysFlash; (split <;> simp only [same_mk, same_fold, same_ite, ite_self, State.plRaised_keeps])

theorem State.flashStops_keeps (Q : Parts) (s : State) : At Q (State.flashStops s) = At Q s := by
  unfold State.flashStops; simp only [same_ite, ite_self, State.engineFlash_keeps, State.flashInterrupted_keeps,
    State.keysFlash_keeps, State.ledgerAsk_keeps, State.ledgerEnd_keeps, State.massStops_keeps]

theorem execFlashOperationComplete_keeps (Q : Parts) (end_ : FlashEnd) (s : State) (hq : Grow Q) (h : At Q s) : Keeps Q
  (execFlashOperationComplete end_ s) := by
  unfold execFlashOperationComplete; simp only [same_ite, ite_self, keeps_next, State.engineFlash_keeps,
    State.flashCompletes_keeps, State.keysFlash_keeps, State.massSector_keeps, State.snapNext_keeps, State.updFlash_keeps,
    State.updRun_keeps, State.updSnap_keeps, h, hq]

theorem execDbgTokenWrite_keeps (Q : Parts) (_p : Path) (w : Word) (s : State) (h : At Q s) : Keeps Q
  (execDbgTokenWrite _p w s) := by
  unfold execDbgTokenWrite; simp only [same_mk, same_fold, same_ite, ite_self, keeps_whenOpen, State.setFld_pending, h]

theorem State.readback_keeps (Q : Parts) (s : State) (p : Path) (errs : List (Nat × Nat)) : At Q
  (State.readback s p errs) = At Q s := by
  unfold State.readback; simp only [same_mk, same_fold, same_ite, ite_self, State.setReg_keeps, State.log_keys,
    State.log_pending, State.setFld_keys, State.setFld_pending, State.setReg_keys, State.setReg_pending, State.raise_eq,
    State.readChunk_keeps]

theorem execRbDataRead_keeps (Q : Parts) (p : Path) (errs : List (Nat × Nat)) (s : State) (h : At Q s) : Keeps Q
  (execRbDataRead p errs s) := by
  unfold execRbDataRead; simp only [keeps_whenOpen, State.readback_keeps, h]

theorem State.jtagOut_keeps (Q : Parts) (s : State) (ir : Nat) (out : List Byte) : At Q (State.jtagOut s ir out) = At Q s := by
  unfold State.jtagOut; simp only [same_mk, same_fold]

theorem execIdcode_keeps (Q : Parts) (s : State) (h : At Q s) : Keeps Q (execIdcode s) := by
  unfold execIdcode; simp only [keeps_whenOpen, State.jtagOut_keeps, h]

theorem execBypass_keeps (Q : Parts) (s : State) (h : At Q s) : Keeps Q (execBypass s) := by
  unfold execBypass; simp only [keeps_whenOpen, State.jtagOut_keeps, h]

theorem State.openBytes_keeps (Q : Parts) (s : State) (n : Nat) : At Q (State.openBytes s n).2 = At Q s := by
  unfold State.openBytes; simp only [same_mk, same_fold]

theorem execSamplePreload_keeps (Q : Parts) (bits_ : List Bool) (s : State) (h : At Q s) : Keeps Q
  (execSamplePreload bits_ s) := by
  unfold execSamplePreload; simp only [same_mk, same_fold, keeps_whenOpen, State.jtagOut_keeps, State.openBytes_keeps, h]

theorem execExtest_keeps (Q : Parts) (bits_ : List Bool) (s : State) (h : At Q s) : Keeps Q (execExtest bits_ s) := by
  unfold execExtest; simp only [same_mk, same_fold, keeps_whenOpen, State.jtagOut_keeps, State.openBytes_keeps, h]

theorem execClamp_keeps (Q : Parts) (s : State) (h : At Q s) : Keeps Q (execClamp s) := by
  unfold execClamp; simp only [keeps_whenOpen, State.jtagOut_keeps, h]

theorem execHighz_keeps (Q : Parts) (s : State) (h : At Q s) : Keeps Q (execHighz s) := by
  unfold execHighz; simp only [keeps_whenOpen, State.jtagOut_keeps, h]

theorem State.cfgIn_keeps (Q : Parts) (s : State) (w : Word) (hq : Grow Q) (h : At Q s) : At Q (State.cfgIn s w) := by
  unfold State.cfgIn; simp only [same_mk, same_fold, same_ite, ite_self, State.hostLoad_keeps, State.hostWord_keeps, h, hq]

theorem execCfgIn_keeps (Q : Parts) (w : Word) (s : State) (hq : Grow Q) (h : At Q s) : Keeps Q (execCfgIn w s) := by
  unfold execCfgIn; simp only [keeps_whenOpen, State.cfgIn_keeps, State.jtagOut_keeps, h, hq]

theorem execCfgStatus_keeps (Q : Parts) (s : State) (h : At Q s) : Keeps Q (execCfgStatus s) := by
  unfold execCfgStatus; simp only [keeps_whenOpen, State.jtagOut_keeps, h]

theorem execPlQuery_keeps (Q : Parts) (s : State) (h : At Q s) : Keeps Q (execPlQuery s) := by
  unfold execPlQuery; simp only [keeps_whenOpen, State.jtagOut_keeps, h]

theorem execMastPeek_keeps (Q : Parts) (s : State) (h : At Q s) : Keeps Q (execMastPeek s) := by
  unfold execMastPeek; simp only [keeps_whenOpen, State.jtagOut_keeps, h]

end Sys2Proof.Machine
end

