-- ==== Sys2Proof/Laws/KeepsReset.lean ====
section
/-! SUPPORT. What the definitions of Reset leave as they are: the waiting commands and the fuse words. -/

namespace Sys2Proof.Machine

open Sys2Proof

set_option simprocs false
set_option linter.unusedSimpArgs false
set_option linter.all false

theorem State.outputsOff_keeps (Q : Parts) (s : State) : At Q (State.outputsOff s) = At Q s := by
  unfold State.outputsOff; simp only [same_mk, same_fold, State.setRole_keeps]

theorem State.coreDown_keeps (Q : Parts) (s : State) (lag : Nat) (hq : Grow Q) (h : At Q s) : At Q (State.coreDown s
  lag) := by
  unfold State.coreDown; simp only [same_mk, same_fold, same_ite, ite_fst, ite_snd, ite_self, keepsO_none, keepsO_some,
  keepsO_ite, keepsP_none, keepsP_some, keepsP_ite, implies_true, State.clear_keeps, State.endHalt_keeps,
  State.flashCut_keeps, State.fuseCut_keeps, State.outputsOff_keeps, State.toReefDomain_keeps, State.xflashCut_keeps, h,
  hq]

theorem execPor_keeps (Q : Parts) (s : State) (hq : Grow Q) (h : At Q s) : Keeps Q (execPor s) := by
  unfold execPor; simp only [same_mk, same_fold, same_ite, ite_self, keeps_next, State.startHoist_keeps, h, hq]

theorem execPorstNAssert_keeps (Q : Parts) (lag : Nat) (s : State) (hq : Grow Q) (h : At Q s) : Keeps Q
  (execPorstNAssert lag s) := by
  unfold execPorstNAssert; simp only [same_mk, same_fold, same_ite, ite_self, keeps_next, State.setFld_keeps, State.clear_eq,
    State.coreDown_keeps, h, hq]

theorem execPorstNRelease_keeps (Q : Parts) (s : State) (hq : Grow Q) (h : At Q s) : Keeps Q (execPorstNRelease s) := by
  unfold execPorstNRelease; simp only [same_mk, same_fold, same_ite, ite_self, keeps_next, State.startHoist_keeps, h, hq]

theorem execSupplyDropout_keeps (Q : Parts) (lag : Nat) (s : State) (hq : Grow Q) (h : At Q s) : Keeps Q
  (execSupplyDropout lag s) := by
  unfold execSupplyDropout; simp only [same_mk, same_fold, same_ite, ite_self, keeps_next, State.setFld_keeps,
    State.setFld_keys, State.setFld_pending, State.raise_eq, State.clear_eq, State.coreDown_keeps, h, hq]

theorem execVddfOutOfRange_keeps (Q : Parts) (s : State) (h : At Q s) : Keeps Q (execVddfOutOfRange s) := by
  unfold execVddfOutOfRange; simp only [same_ite, ite_self, keeps_next, State.outputsOff_keeps, h]

theorem execCoreSuppliesLost_keeps (Q : Parts) (lag : Nat) (s : State) (hq : Grow Q) (h : At Q s) : Keeps Q
  (execCoreSuppliesLost lag s) := by
  unfold execCoreSuppliesLost; (split <;> simp only [same_mk, same_fold, same_ite, ite_self, keeps_next, State.setFld_keys, State.setFld_pending, State.clear_eq, State.coreDown_keeps, h, hq])

theorem State.reefResume_keeps (Q : Parts) (s : State) : At Q (State.reefResume s) = At Q s := by
  unfold State.reefResume; simp only [same_ite, ite_self, State.log_keeps, State.resumeCore_keeps]

theorem State.reefStart_keeps (Q : Parts) (s : State) (byPfi : Bool) : At Q (State.reefStart s byPfi) = At Q s := by
  unfold State.reefStart; simp only [same_mk, same_fold, same_ite, ite_fst, ite_snd, ite_self, keepsO_none, keepsO_some,
  keepsO_ite, keepsP_none, keepsP_some, keepsP_ite, implies_true, State.clear_keeps, State.flashStops_keeps,
  State.partialAbandoned_keeps, State.raise_keeps, State.reefResume_keeps, State.setReg_keeps, State.setRole_keeps,
  State.updInterrupted_keeps]

theorem State.pfiInHoist_keeps (Q : Parts) (s : State) : At Q (State.pfiInHoist s) = At Q s := by
  unfold State.pfiInHoist; simp only [same_ite, ite_self, State.flashStops_keeps, State.pauseIfPfi_keeps]

theorem State.pfiMeets_keeps (Q : Parts) (s : State) : At Q (State.pfiMeets s) = At Q s := by
  unfold State.pfiMeets; simp only [same_mk, same_fold, same_ite, ite_fst, ite_snd, ite_self, keepsO_none, keepsO_some,
  keepsO_ite, keepsP_none, keepsP_some, keepsP_ite, implies_true]

theorem execPfiAssert_keeps (Q : Parts) (s : State) (h : At Q s) : Keeps Q (execPfiAssert s) := by
  unfold execPfiAssert; simp only [same_mk, same_fold, same_ite, ite_fst, ite_snd, ite_self, keeps_next, keeps_ite,
  implies_true, State.callMeetsPfi_keeps, State.pfiInHoist_keeps, State.pfiMeets_keeps, State.raise_keeps,
  State.reefStart_keeps, h]

theorem execPfiDeassert_keeps (Q : Parts) (s : State) (hq : Grow Q) (h : At Q s) : Keeps Q (execPfiDeassert s) := by
  unfold execPfiDeassert; simp only [same_ite, ite_self, keeps_next, State.setFld_keeps, State.clear_eq,
    State.startHoist_keeps, h, hq]

theorem State.pwrCommand_keeps (Q : Parts) (s : State) (v : Word) : At Q (State.pwrCommand s v) = At Q s := by
  unfold State.pwrCommand; simp only [same_ite, ite_self, State.log_keeps, State.reefStart_keeps]

theorem execReefCommand_keeps (Q : Parts) (_p : Path) (v : Word) (s : State) (h : At Q s) : Keeps Q (execReefCommand _p v s) := by
  unfold execReefCommand; simp only [keeps_whenOpen, State.pwrCommand_keeps, h]

theorem State.reefSnapshot_keeps (Q : Parts) (s : State) : At Q (State.reefSnapshot s) = At Q s := by
  unfold State.reefSnapshot; simp only [same_mk, same_fold, same_ite, ite_self, State.snapshot_keeps]

theorem State.reefPush_keeps (Q : Parts) (s : State) : At Q (State.reefPush s) = At Q s := by
  unfold State.reefPush; simp only [same_mk, same_fold, same_ite, ite_self, State.stayPush_keeps]

theorem State.reefEntry_keeps (Q : Parts) (s : State) : At Q (State.reefEntry s) = At Q s := by
  unfold State.reefEntry; simp only [same_mk, same_fold, same_ite, ite_self, State.setFld_keeps, State.setFld_keys,
    State.setFld_pending, State.raise_eq, State.clear_eq]

theorem State.enterReef_keeps (Q : Parts) (s : State) : At Q (State.enterReef s) = At Q s := by
  unfold State.enterReef; simp only [same_mk, same_fold, same_ite, ite_self, State.outputsOff_keeps, State.pushDone_keeps,
    State.reefEntry_keeps, State.toReefDomain_keeps, State.xflashCut_keeps]

theorem execReefEntryComplete_keeps (Q : Parts) (s : State) (h : At Q s) : Keeps Q (execReefEntryComplete s) := by
  unfold execReefEntryComplete; simp only [same_ite, ite_self, keeps_next, State.enterReef_keeps, State.reefPush_keeps,
    State.reefSnapshot_keeps, h]

theorem execWakeLatch_keeps (Q : Parts) (n : Fin 2) (s : State) (h : At Q s) : Keeps Q (execWakeLatch n s) := by
  unfold execWakeLatch; simp only [same_mk, same_fold, same_ite, ite_self, keeps_next, h]

theorem execReefWake_keeps (Q : Parts) (s : State) (hq : Grow Q) (h : At Q s) : Keeps Q (execReefWake s) := by
  unfold execReefWake; simp only [same_mk, same_fold, same_ite, ite_self, keeps_next, State.startHoist_keeps, h, hq]

theorem execTamper_keeps (Q : Parts) (s : State) (h : At Q s) : Keeps Q (execTamper s) := by
  unfold execTamper; simp only [same_mk, same_fold, same_ite, ite_fst, ite_snd, ite_self, keeps_next, keeps_ite,
  keepsO_none, keepsO_some, keepsO_ite, keepsP_none, keepsP_some, keepsP_ite, implies_true, State.bbkMet_keeps,
  State.raise_keeps, State.zeroise_keeps, h]

theorem execVbatLoss_keeps (Q : Parts) (s : State) (h : At Q s) : Keeps Q (execVbatLoss s) := by
  unfold execVbatLoss; repeat' (first | assumption | (simp only [same_mk, same_fold, same_ite, ite_fst, ite_snd, ite_self, keeps_next, keeps_ite, implies_true, State.clear_keeps, h, *]; done) | with_reducible apply State.did_keeps | with_reducible apply keeps_whenOpen | with_reducible apply grow_foldl | with_reducible apply keepsP_map | with_reducible apply keepsPO_map | with_reducible apply keepsOP_map | (split <;> ((try (have e := congrArg (fun p => At Q (Prod.snd p)) ‹_ = ((_, _) : _ × State)›; simp only [same_mk, same_fold, same_ite, ite_fst, ite_snd, ite_self, keeps_next, keeps_ite, implies_true, State.clear_keeps, h] at e; (try simp only [same_mk, same_fold, same_ite, ite_fst, ite_snd, ite_self, keeps_next, keeps_ite, implies_true, State.clear_keeps, h, ‹At Q _›] at e); (try replace e := Eq.mp e trivial))); (try (have e := congrArg (fun p => At Q (Prod.fst p)) ‹_ = ((_, _) : State × _)›; simp only [same_mk, same_fold, same_ite, ite_fst, ite_snd, ite_self, keeps_next, keeps_ite, implies_true, State.clear_keeps, h] at e; (try simp only [same_mk, same_fold, same_ite, ite_fst, ite_snd, ite_self, keeps_next, keeps_ite, implies_true, State.clear_keeps, h, ‹At Q _›] at e); (try replace e := Eq.mp e trivial))); (try (have e := congrArg (KeepsO Q) ‹_ = some _›; simp only [same_mk, same_fold, same_ite, ite_fst, ite_snd, ite_self, keeps_next, keeps_ite, implies_true, State.clear_keeps, h] at e; (try simp only [same_mk, same_fold, same_ite, ite_fst, ite_snd, ite_self, keeps_next, keeps_ite, implies_true, State.clear_keeps, h, ‹At Q _›] at e); (try replace e := Eq.mp e trivial))); (try (have e := congrArg (KeepsP Q) ‹_ = some _›; simp only [same_mk, same_fold, same_ite, ite_fst, ite_snd, ite_self, keeps_next, keeps_ite, implies_true, State.clear_keeps, h] at e; (try simp only [same_mk, same_fold, same_ite, ite_fst, ite_snd, ite_self, keeps_next, keeps_ite, implies_true, State.clear_keeps, h, ‹At Q _›] at e); (try replace e := Eq.mp e trivial))))) | (intro _) | (simp only [same_mk, same_fold, same_ite, ite_fst, ite_snd, ite_self, keeps_next, keeps_ite, implies_true, State.clear_keeps, h]))

end Sys2Proof.Machine
end

