-- ==== Sys2Proof/Laws/KeepsMonitors.lean ====
section
/-! SUPPORT. What the definitions of Monitors leave as they are: the waiting commands and the fuse words. -/

namespace Sys2Proof.Machine

open Sys2Proof

set_option simprocs false
set_option linter.unusedSimpArgs false
set_option linter.all false

theorem execFeatAcceptWrite_keeps (Q : Parts) (p : Path) (k : Fin 4) (v : Word) (s : State) (h : At Q s) : Keeps Q
  (execFeatAcceptWrite p k v s) := by
  unfold execFeatAcceptWrite; simp only [same_mk, same_fold, same_ite, ite_fst, ite_snd, ite_self, keeps_next,
  keeps_ite, implies_true, State.log_keeps, State.markFound_keeps, State.setReg_keeps, keeps_whenOpen, h]

theorem execFeatLock_keeps (Q : Parts) (p : Path) (v : Word) (s : State) (h : At Q s) : Keeps Q (execFeatLock p v s) :=
  by
  unfold execFeatLock; simp only [same_mk, same_fold, same_ite, ite_fst, ite_snd, ite_self, keeps_next, keeps_ite,
  keepsO_none, keepsO_some, keepsO_ite, keepsP_none, keepsP_some, keepsP_ite, implies_true, State.raise_keeps,
  keeps_whenOpen, h]

theorem State.freeErr_keeps (Q : Parts) (s : State) (before : List ErrEntry) : At Q (State.freeErr s before) = At Q s :=
  by
  unfold State.freeErr; simp only [same_mk, same_fold, same_ite, ite_fst, ite_snd, ite_self, implies_true,
  State.log_keeps, State.raise_keeps, State.setFld_keeps, State.showErrs_keeps]

theorem execErrPop_keeps (Q : Parts) (_p : Path) (v : Word) (s : State) (h : At Q s) : Keeps Q (execErrPop _p v s) := by
  unfold execErrPop; (try simp only [same_mk, same_fold, same_ite, ite_fst, ite_snd, ite_self, keeps_next, keeps_ite, implies_true, State.freeErr_keeps, keeps_whenOpen, h]); repeat' (first | (simp only [same_mk, same_fold, same_ite, ite_fst, ite_snd, ite_self, keeps_next, keeps_ite, implies_true, State.freeErr_keeps, keeps_whenOpen, h]; done) | split)

theorem State.oscSample_keeps (Q : Parts) (s : State) (c : Nat) : At Q (State.oscSample s c).2 = At Q s := by
  unfold State.oscSample; ((try simp only [same_mk, same_fold, same_ite, ite_fst, ite_snd, ite_self, keepsO_none, keepsP_none, State.setFld_keeps, State.open_keeps, State.log_keeps, State.raise_eq, State.roundOpen_keeps, State.setBit_keeps]); repeat' (first | (simp only [same_mk, same_fold, same_ite, ite_fst, ite_snd, ite_self, keepsO_none, keepsP_none, State.setFld_keeps, State.open_keeps, State.log_keeps, State.raise_eq, State.roundOpen_keeps, State.setBit_keeps]; done) | split))

theorem State.dieSample_keeps (Q : Parts) (s : State) (v : Int) : At Q (State.dieSample s v) = At Q s := by
  unfold State.dieSample; simp only [same_mk, same_fold, same_ite, ite_self, State.setFld_keeps, State.log_keeps, State.raise_eq]

theorem execTemperatureSample_keeps (Q : Parts) (die : BitVec 16) (c : Fin 4096) (s : State) (h : At Q s) : Keeps Q
  (execTemperatureSample die c s) := by
  unfold execTemperatureSample; simp only [same_ite, ite_self, keeps_next, keepsO_none, keepsP_none, State.dieSample_keeps,
    State.modelTemp_keeps, State.oscSample_keeps, h]

theorem State.supplySample_keeps (Q : Parts) (s : State) (i mV : Nat) : At Q (State.supplySample s i mV) = At Q s := by
  unfold State.supplySample; simp only [same_mk, same_fold, same_ite, ite_self, State.log_keys, State.log_pending,
    State.setFld_keys, State.setFld_pending, State.raise_eq]

theorem execSupplyMeasure_keeps (Q : Parts) (vdds vdda vddh vddaux : BitVec 16) (s : State) (h : At Q s) : Keeps Q
  (execSupplyMeasure vdds vdda vddh vddaux s) := by
  unfold execSupplyMeasure; simp only [same_ite, ite_self, keeps_next, State.setReg_keeps, State.supplySample_keeps, h]

end Sys2Proof.Machine
end

