-- ==== Sys2Proof/Laws/KeepsMailbox.lean ====
section
/-! SUPPORT. What the definitions of Mailbox leave as they are: the waiting commands and the fuse words. -/

namespace Sys2Proof.Machine

open Sys2Proof

set_option simprocs false
set_option linter.unusedSimpArgs false
set_option linter.all false

theorem State.did_keeps (Q : Parts) (s : State) (o : Out) (h : At Q s) (k : Keeps Q o) : At Q (State.did s o) := by
  unfold State.did
  split
  · rename_i t; exact k.next t rfl
  · exact h

theorem State.mboxRefused_keeps (Q : Parts) (s : State) (cause : Nat) : At Q (State.mboxRefused s cause) = At Q s := by
  unfold State.mboxRefused; simp only [State.setFld_keeps, State.log_keeps, State.raise_eq]

theorem execMboxCmd_keeps (Q : Parts) (_p : Path) (v : Word) (s : State) (h : At Q s) : Keeps Q (execMboxCmd _p v s) := by
  unfold execMboxCmd; (split <;> simp only [same_mk, same_fold, keeps_whenOpen, keepsO_none, keepsP_none, State.setFld_keys, State.setFld_pending, State.raise_eq, State.mboxRefused_keeps, h])

theorem State.mboxRead_keeps (Q : Parts) (s : State) : At Q (State.mboxRead s) = At Q s := by
  unfold State.mboxRead; simp only [same_mk, same_fold, State.setFld_keys, State.setFld_pending]

theorem State.mboxWrite_keeps (Q : Parts) (s : State) (v : Word) : At Q (State.mboxWrite s v) = At Q s := by
  unfold State.mboxWrite; simp only [same_ite, ite_self, State.setFld_keeps, State.mboxRefused_keeps, State.sramPut_keeps]

theorem execMboxBufDataAccess_keeps (Q : Parts) (_p : Path) (w : Option Word) (s : State) (h : At Q s) : Keeps Q
  (execMboxBufDataAccess _p w s) := by
  unfold execMboxBufDataAccess; (split <;> simp only [keeps_whenOpen, keepsO_none, keepsP_none, State.mboxRead_keeps, State.mboxWrite_keeps, h])

theorem callRoutine_keeps (Q : Parts) (family index : Nat) (c : RoutineCall) (errs : List (Nat × Nat)) (s : State) (hq :
  Grow Q) (h : At Q s) : Keeps Q (callRoutine family index c errs s) := by
  unfold callRoutine; (split <;> simp only [keeps_next, State.returns_keeps, execFlashBlank_keeps, execFlashConfig_keeps, execFlashErase_keeps, execFlashInfo_keeps, execFlashProgram_keeps, execFlashRead_keeps, execUpdActivate_keeps, execUpdBegin_keeps, execUpdConfirm_keeps, execUpdFinish_keeps, execUpdGolden_keeps, execUpdInfo_keeps, execUpdRetire_keeps, execUpdVerify_keeps, execUpdWrite_keeps, h, hq])

theorem State.openWord_keeps (Q : Parts) (s : State) : At Q (State.openWord s).2 = At Q s := by
  unfold State.openWord; simp only [State.open_keeps]

theorem State.mboxDone_keeps (Q : Parts) (s : State) (vs : List Word) : At Q (State.mboxDone s vs) = At Q s := by
  unfold State.mboxDone; simp only [same_mk, same_fold, State.setFld_keys, State.setFld_pending, State.setReg_keys,
    State.setReg_pending, State.raise_eq, State.clear_eq, State.openWord_keeps]

theorem State.forgetResults_keeps (Q : Parts) (s : State) : At Q (State.forgetResults s) = At Q s := by
  unfold State.forgetResults; simp only [same_mk, same_fold]

theorem State.mboxCollect_keeps (Q : Parts) (s : State) : At Q (State.mboxCollect s) = At Q s := by
  unfold State.mboxCollect; (repeat' (first | (simp only [same_ite, ite_self, keepsO_none, keepsP_none, State.setFld_keeps, State.mboxDone_keeps]; done) | split))

theorem State.mboxService_keeps (Q : Parts) (s : State) (errs : List (Nat × Nat)) (hq : Grow Q) (h : At Q s) : At Q
  (State.mboxService s errs) := by
  unfold State.mboxService; ((try simp only [same_mk, same_fold, same_ite, ite_self, keepsO_none, keepsP_none, State.did_keeps, State.forgetResults_keeps, State.mboxCollect_keeps, State.mboxDone_keeps, callRoutine_keeps, h, hq]); repeat' (first | (simp only [same_mk, same_fold, same_ite, ite_self, keepsO_none, keepsP_none, State.did_keeps, State.forgetResults_keeps, State.mboxCollect_keeps, State.mboxDone_keeps, callRoutine_keeps, h, hq]; done) | split))

theorem execMboxResult_keeps (Q : Parts) (s : State) (h : At Q s) : Keeps Q (execMboxResult s) := by
  unfold execMboxResult; simp only [same_ite, ite_self, keeps_next, State.mboxCollect_keeps, h]

theorem execServiceEpisode_keeps (Q : Parts) (errs : List (Nat × Nat)) (s : State) (hq : Grow Q) (h : At Q s) : Keeps Q
  (execServiceEpisode errs s) := by
  unfold execServiceEpisode; simp only [same_ite, ite_self, keeps_next, State.mboxService_keeps, State.reefPush_keeps,
    State.reefSnapshot_keeps, State.snapNext_keeps, State.updRun_keeps, State.updSnap_keeps, h, hq]

end Sys2Proof.Machine
end

