-- ==== Sys2Proof/Laws/KeepsBus.lean ====
section
/-! SUPPORT. What the definitions of Bus leave as they are: the waiting commands and the fuse words. -/

namespace Sys2Proof.Machine

open Sys2Proof

set_option simprocs false
set_option linter.unusedSimpArgs false
set_option linter.all false

theorem State.gives_keeps (Q : Parts) (s : State) (w : Word) : At Q (State.gives s w) = At Q s := by
  unfold State.gives; simp only [same_mk, same_fold]

theorem State.readPlain_keeps (Q : Parts) (s : State) (p : Path) (a : Nat) : At Q (State.readPlain s p a) = At Q s := by
  unfold State.readPlain; (split <;> simp only [same_ite, ite_self, keepsO_none, keepsP_none, State.setReg_keeps, State.setPath_keeps, State.gives_keeps, State.setQuiet_keeps])

theorem State.flcRefused_keeps (Q : Parts) (s : State) (p : Path) (a : Nat) (write : Bool) : At Q (State.flcRefused s p
  a write) = At Q s := by
  unfold State.flcRefused; simp only [same_mk, same_fold, same_ite, ite_fst, ite_snd, ite_self, implies_true,
  State.gives_keeps, State.log_keeps]

theorem execFlcAccessRefused_keeps (Q : Parts) (p : Path) (ofs : Fin 65536) (write : Bool) (s : State) (h : At Q s) :
  Keeps Q (execFlcAccessRefused p ofs write s) := by
  unfold execFlcAccessRefused; simp only [same_mk, same_fold, same_ite, ite_fst, ite_snd, ite_self, keeps_next,
  keeps_ite, implies_true, State.accessTrap_keeps, State.flcRefused_keeps, keeps_whenOpen, h]

theorem State.unlisted_keeps (Q : Parts) (s : State) (p : Path) (a : Nat) (write : Bool) : At Q (State.unlisted s p a
  write) = At Q s := by
  unfold State.unlisted; simp only [same_mk, same_fold, same_ite, ite_fst, ite_snd, ite_self, implies_true,
  State.accessTrap_keeps, State.gives_keeps, State.log_keeps]

theorem State.flcAccess_keeps (Q : Parts) (s : State) (p : Path) (a : Nat) (write : Bool) (h : At Q s) : At Q
  (State.flcAccess s p a write) := by
  unfold State.flcAccess; simp only [same_mk, same_fold, same_ite, ite_fst, ite_snd, ite_self, implies_true,
  State.did_keeps, execFlcAccessRefused_keeps, h]

theorem State.readNow_keeps (Q : Parts) (s : State) (p : Path) : At Q (State.readNow s p) = At Q s := by
  unfold State.readNow; simp only [State.setPath_keeps, State.readPlain_keeps]

theorem State.readFrac_keeps (Q : Parts) (s : State) (p : Path) : At Q (State.readFrac s p) = At Q s := by
  unfold State.readFrac; (split <;> simp only [keepsO_none, keepsP_none, State.setPath_keeps, State.gives_keeps])

theorem State.readHalyard_keeps (Q : Parts) (s : State) : At Q (State.readHalyard s) = At Q s := by
  unfold State.readHalyard; simp only [same_ite, ite_self, State.open_keeps, State.gives_keeps]

theorem State.readPop_keeps (Q : Parts) (s : State) (p : Path) (a : Nat) (h : At Q s) : At Q (State.readPop s p a) := by
  unfold State.readPop; simp only [same_ite, ite_self, State.did_keeps, State.gives_keeps, execFifoRegisterPop_keeps, h]

theorem State.readReg_keeps (Q : Parts) (s : State) (p : Path) (a : Nat) (h : At Q s) : At Q (State.readReg s p a) := by
  unfold State.readReg; simp only [same_mk, same_fold, same_ite, ite_fst, ite_snd, ite_self, implies_true,
  State.clear_keeps, State.flcAccess_keeps, State.mboxRead_keeps, State.readFrac_keeps, State.readHalyard_keeps,
  State.readNow_keeps, State.readPlain_keeps, State.readPop_keeps, State.readback_keeps, State.unlisted_keeps, h]

theorem State.writePlain_keeps (Q : Parts) (s : State) (a : Nat) (v : Word) : At Q (State.writePlain s a v) = At Q s := by
  unfold State.writePlain; (split <;> simp only [same_ite, ite_self, keepsO_none, keepsP_none, State.setReg_keeps, State.log_keeps, State.mirrorMerge_keeps])

theorem State.stageHigh_keeps (Q : Parts) (s : State) (p : Path) (lo : Nat) (v : Word) : At Q
  (State.stageHigh s p lo v) = At Q s := by
  unfold State.stageHigh; ((try simp only [same_ite, ite_self, keepsO_none, keepsP_none, State.setFld_keeps, State.setPath_keeps, State.log_keeps, State.raise_eq]); repeat' (first | (simp only [same_ite, ite_self, keepsO_none, keepsP_none, State.setFld_keeps, State.setPath_keeps, State.log_keeps, State.raise_eq]; done) | split))

theorem State.putWritable_keeps (Q : Parts) (s : State) (a : Nat) (v : Word) : At Q (State.putWritable s a v) = At Q s
  := by
  unfold State.putWritable; simp only [same_mk, same_fold, same_ite, ite_fst, ite_snd, ite_self, implies_true,
  State.setReg_keeps]

theorem State.commitPlain_keeps (Q : Parts) (s : State) (p : Path) (a : Nat) (v : Word) : At Q (State.commitPlain s p a
  v) = At Q s := by
  unfold State.commitPlain; simp only [same_mk, same_fold, same_ite, ite_fst, ite_snd, ite_self, implies_true,
  State.commitWide_keeps, State.mirrorRefused_keeps, State.putWritable_keeps]

theorem onBit_keeps (Q : Parts) (v : Word) (i : Nat) (f : State → State) (s : State) (h : At Q s) (k : At Q (f s)) :
    At Q (onBit v i f s) := by
  unfold onBit
  split
  · exact k
  · exact h

theorem State.writeMastCtrl_keeps (Q : Parts) (s : State) (p : Path) (v : Word) (h : At Q s) : At Q (State.writeMastCtrl
  s p v) := by
  unfold State.writeMastCtrl; repeat' (first | assumption | (simp only [same_mk, same_fold, same_ite, ite_fst, ite_snd, ite_self, keepsO_none, keepsO_some, keepsO_ite, keepsP_none, keepsP_some, keepsP_ite, implies_true, State.cancelSlew_keeps, State.markSet_keeps, State.unset_keeps, State.writePlain_keeps, onBit_keeps, h, *]; done) | with_reducible apply State.did_keeps | with_reducible apply keeps_whenOpen | with_reducible apply grow_foldl | with_reducible apply keepsP_map | with_reducible apply keepsPO_map | with_reducible apply keepsOP_map | with_reducible apply onBit_keeps | (split <;> ((try (have e := congrArg (fun p => At Q (Prod.snd p)) ‹_ = ((_, _) : _ × State)›; simp only [same_mk, same_fold, same_ite, ite_fst, ite_snd, ite_self, keepsO_none, keepsO_some, keepsO_ite, keepsP_none, keepsP_some, keepsP_ite, implies_true, State.cancelSlew_keeps, State.markSet_keeps, State.unset_keeps, State.writePlain_keeps, onBit_keeps, h] at e; (try simp only [same_mk, same_fold, same_ite, ite_fst, ite_snd, ite_self, keepsO_none, keepsO_some, keepsO_ite, keepsP_none, keepsP_some, keepsP_ite, implies_true, State.cancelSlew_keeps, State.markSet_keeps, State.unset_keeps, State.writePlain_keeps, onBit_keeps, h, ‹At Q _›] at e); (try replace e := Eq.mp e trivial))); (try (have e := congrArg (fun p => At Q (Prod.fst p)) ‹_ = ((_, _) : State × _)›; simp only [same_mk, same_fold, same_ite, ite_fst, ite_snd, ite_self, keepsO_none, keepsO_some, keepsO_ite, keepsP_none, keepsP_some, keepsP_ite, implies_true, State.cancelSlew_keeps, State.markSet_keeps, State.unset_keeps, State.writePlain_keeps, onBit_keeps, h] at e; (try simp only [same_mk, same_fold, same_ite, ite_fst, ite_snd, ite_self, keepsO_none, keepsO_some, keepsO_ite, keepsP_none, keepsP_some, keepsP_ite, implies_true, State.cancelSlew_keeps, State.markSet_keeps, State.unset_keeps, State.writePlain_keeps, onBit_keeps, h, ‹At Q _›] at e); (try replace e := Eq.mp e trivial))); (try (have e := congrArg (KeepsO Q) ‹_ = some _›; simp only [same_mk, same_fold, same_ite, ite_fst, ite_snd, ite_self, keepsO_none, keepsO_some, keepsO_ite, keepsP_none, keepsP_some, keepsP_ite, implies_true, State.cancelSlew_keeps, State.markSet_keeps, State.unset_keeps, State.writePlain_keeps, onBit_keeps, h] at e; (try simp only [same_mk, same_fold, same_ite, ite_fst, ite_snd, ite_self, keepsO_none, keepsO_some, keepsO_ite, keepsP_none, keepsP_some, keepsP_ite, implies_true, State.cancelSlew_keeps, State.markSet_keeps, State.unset_keeps, State.writePlain_keeps, onBit_keeps, h, ‹At Q _›] at e); (try replace e := Eq.mp e trivial))); (try (have e := congrArg (KeepsP Q) ‹_ = some _›; simp only [same_mk, same_fold, same_ite, ite_fst, ite_snd, ite_self, keepsO_none, keepsO_some, keepsO_ite, keepsP_none, keepsP_some, keepsP_ite, implies_true, State.cancelSlew_keeps, State.markSet_keeps, State.unset_keeps, State.writePlain_keeps, onBit_keeps, h] at e; (try simp only [same_mk, same_fold, same_ite, ite_fst, ite_snd, ite_self, keepsO_none, keepsO_some, keepsO_ite, keepsP_none, keepsP_some, keepsP_ite, implies_true, State.cancelSlew_keeps, State.markSet_keeps, State.unset_keeps, State.writePlain_keeps, onBit_keeps, h, ‹At Q _›] at e); (try replace e := Eq.mp e trivial))))) | (intro _) | (simp only [same_mk, same_fold, same_ite, ite_fst, ite_snd, ite_self, keepsO_none, keepsO_some, keepsO_ite, keepsP_none, keepsP_some, keepsP_ite, implies_true, State.cancelSlew_keeps, State.markSet_keeps, State.unset_keeps, State.writePlain_keeps, onBit_keeps, h]))

theorem State.writeDscCtrl_keeps (Q : Parts) (s : State) (p : Path) (v : Word) (h : At Q s) : At Q
  (State.writeDscCtrl s p v) := by
  unfold State.writeDscCtrl; repeat' (first | assumption | (simp only [same_ite, ite_self, State.did_keeps, State.dscEval_keeps, State.writePlain_keeps, execInjClear_keeps, execModelReset_keeps, execPtpDisq_keeps, execSnapNow_keeps, execSteerAuthWrite_keeps, onBit_keeps, h, *]; done) | with_reducible apply onBit_keeps | with_reducible apply State.did_keeps | with_reducible apply keeps_whenOpen | with_reducible apply grow_foldl | with_reducible apply keepsP_map | with_reducible apply keepsPO_map | with_reducible apply keepsOP_map | with_reducible apply execInjClear_keeps | with_reducible apply execModelReset_keeps | with_reducible apply execPtpDisq_keeps | with_reducible apply execSnapNow_keeps | (split <;> ((try (have e := congrArg (fun p => At Q (Prod.snd p)) ‹_ = ((_, _) : _ × State)›; simp only [same_ite, ite_self, State.did_keeps, State.dscEval_keeps, State.writePlain_keeps, execInjClear_keeps, execModelReset_keeps, execPtpDisq_keeps, execSnapNow_keeps, execSteerAuthWrite_keeps, onBit_keeps, h] at e; (try simp only [same_ite, ite_self, State.did_keeps, State.dscEval_keeps, State.writePlain_keeps, execInjClear_keeps, execModelReset_keeps, execPtpDisq_keeps, execSnapNow_keeps, execSteerAuthWrite_keeps, onBit_keeps, h, ‹At Q _›] at e); (try replace e := Eq.mp e trivial))); (try (have e := congrArg (fun p => At Q (Prod.fst p)) ‹_ = ((_, _) : State × _)›; simp only [same_ite, ite_self, State.did_keeps, State.dscEval_keeps, State.writePlain_keeps, execInjClear_keeps, execModelReset_keeps, execPtpDisq_keeps, execSnapNow_keeps, execSteerAuthWrite_keeps, onBit_keeps, h] at e; (try simp only [same_ite, ite_self, State.did_keeps, State.dscEval_keeps, State.writePlain_keeps, execInjClear_keeps, execModelReset_keeps, execPtpDisq_keeps, execSnapNow_keeps, execSteerAuthWrite_keeps, onBit_keeps, h, ‹At Q _›] at e); (try replace e := Eq.mp e trivial))); (try (have e := congrArg (KeepsO Q) ‹_ = some _›; simp only [same_ite, ite_self, State.did_keeps, State.dscEval_keeps, State.writePlain_keeps, execInjClear_keeps, execModelReset_keeps, execPtpDisq_keeps, execSnapNow_keeps, execSteerAuthWrite_keeps, onBit_keeps, h] at e; (try simp only [same_ite, ite_self, State.did_keeps, State.dscEval_keeps, State.writePlain_keeps, execInjClear_keeps, execModelReset_keeps, execPtpDisq_keeps, execSnapNow_keeps, execSteerAuthWrite_keeps, onBit_keeps, h, ‹At Q _›] at e); (try replace e := Eq.mp e trivial))); (try (have e := congrArg (KeepsP Q) ‹_ = some _›; simp only [same_ite, ite_self, State.did_keeps, State.dscEval_keeps, State.writePlain_keeps, execInjClear_keeps, execModelReset_keeps, execPtpDisq_keeps, execSnapNow_keeps, execSteerAuthWrite_keeps, onBit_keeps, h] at e; (try simp only [same_ite, ite_self, State.did_keeps, State.dscEval_keeps, State.writePlain_keeps, execInjClear_keeps, execModelReset_keeps, execPtpDisq_keeps, execSnapNow_keeps, execSteerAuthWrite_keeps, onBit_keeps, h, ‹At Q _›] at e); (try replace e := Eq.mp e trivial))))) | (intro _) | (simp only [same_ite, ite_self, State.did_keeps, State.dscEval_keeps, State.writePlain_keeps, execInjClear_keeps, execModelReset_keeps, execPtpDisq_keeps, execSnapNow_keeps, execSteerAuthWrite_keeps, onBit_keeps, h]))

theorem State.writePnlCmd_keeps (Q : Parts) (s : State) (p : Path) (v : Word) (h : At Q s) : At Q (State.writePnlCmd s p v) := by
  unfold State.writePnlCmd; repeat' (first | assumption | (simp only [State.did_keeps, State.quiesceSel_keeps, State.resumeSel_keeps, execPanelAbort_keeps, execPanelLoad_keeps, onBit_keeps, h, *]; done) | with_reducible apply onBit_keeps | with_reducible apply State.did_keeps | with_reducible apply keeps_whenOpen | with_reducible apply grow_foldl | with_reducible apply keepsP_map | with_reducible apply keepsPO_map | with_reducible apply keepsOP_map | with_reducible apply execPanelAbort_keeps | with_reducible apply execPanelLoad_keeps | (split <;> ((try (have e := congrArg (fun p => At Q (Prod.snd p)) ‹_ = ((_, _) : _ × State)›; simp only [State.did_keeps, State.quiesceSel_keeps, State.resumeSel_keeps, execPanelAbort_keeps, execPanelLoad_keeps, onBit_keeps, h] at e; (try simp only [State.did_keeps, State.quiesceSel_keeps, State.resumeSel_keeps, execPanelAbort_keeps, execPanelLoad_keeps, onBit_keeps, h, ‹At Q _›] at e); (try replace e := Eq.mp e trivial))); (try (have e := congrArg (fun p => At Q (Prod.fst p)) ‹_ = ((_, _) : State × _)›; simp only [State.did_keeps, State.quiesceSel_keeps, State.resumeSel_keeps, execPanelAbort_keeps, execPanelLoad_keeps, onBit_keeps, h] at e; (try simp only [State.did_keeps, State.quiesceSel_keeps, State.resumeSel_keeps, execPanelAbort_keeps, execPanelLoad_keeps, onBit_keeps, h, ‹At Q _›] at e); (try replace e := Eq.mp e trivial))); (try (have e := congrArg (KeepsO Q) ‹_ = some _›; simp only [State.did_keeps, State.quiesceSel_keeps, State.resumeSel_keeps, execPanelAbort_keeps, execPanelLoad_keeps, onBit_keeps, h] at e; (try simp only [State.did_keeps, State.quiesceSel_keeps, State.resumeSel_keeps, execPanelAbort_keeps, execPanelLoad_keeps, onBit_keeps, h, ‹At Q _›] at e); (try replace e := Eq.mp e trivial))); (try (have e := congrArg (KeepsP Q) ‹_ = some _›; simp only [State.did_keeps, State.quiesceSel_keeps, State.resumeSel_keeps, execPanelAbort_keeps, execPanelLoad_keeps, onBit_keeps, h] at e; (try simp only [State.did_keeps, State.quiesceSel_keeps, State.resumeSel_keeps, execPanelAbort_keeps, execPanelLoad_keeps, onBit_keeps, h, ‹At Q _›] at e); (try replace e := Eq.mp e trivial))))) | (intro _) | (simp only [State.did_keeps, State.quiesceSel_keeps, State.resumeSel_keeps, execPanelAbort_keeps, execPanelLoad_keeps, onBit_keeps, h]))

theorem State.writeXngCmd_keeps (Q : Parts) (s : State) (n : Fin 96) (v : Word) (h : At Q s) : At Q
  (State.writeXngCmd s n v) := by
  unfold State.writeXngCmd; repeat' (first | assumption | (simp only [State.open_keeps, State.did_keeps, execCrossingClrHwm_keeps, execMailboxPop_keeps, execRstC_keeps, execUnpark_keeps, onBit_keeps, h, *]; done) | with_reducible apply onBit_keeps | with_reducible apply State.did_keeps | with_reducible apply keeps_whenOpen | with_reducible apply grow_foldl | with_reducible apply keepsP_map | with_reducible apply keepsPO_map | with_reducible apply keepsOP_map | with_reducible apply execCrossingClrHwm_keeps | with_reducible apply execMailboxPop_keeps | with_reducible apply execUnpark_keeps | (split <;> ((try (have e := congrArg (fun p => At Q (Prod.snd p)) ‹_ = ((_, _) : _ × State)›; simp only [State.open_keeps, State.did_keeps, execCrossingClrHwm_keeps, execMailboxPop_keeps, execRstC_keeps, execUnpark_keeps, onBit_keeps, h] at e; (try simp only [State.open_keeps, State.did_keeps, execCrossingClrHwm_keeps, execMailboxPop_keeps, execRstC_keeps, execUnpark_keeps, onBit_keeps, h, ‹At Q _›] at e); (try replace e := Eq.mp e trivial))); (try (have e := congrArg (fun p => At Q (Prod.fst p)) ‹_ = ((_, _) : State × _)›; simp only [State.open_keeps, State.did_keeps, execCrossingClrHwm_keeps, execMailboxPop_keeps, execRstC_keeps, execUnpark_keeps, onBit_keeps, h] at e; (try simp only [State.open_keeps, State.did_keeps, execCrossingClrHwm_keeps, execMailboxPop_keeps, execRstC_keeps, execUnpark_keeps, onBit_keeps, h, ‹At Q _›] at e); (try replace e := Eq.mp e trivial))); (try (have e := congrArg (KeepsO Q) ‹_ = some _›; simp only [State.open_keeps, State.did_keeps, execCrossingClrHwm_keeps, execMailboxPop_keeps, execRstC_keeps, execUnpark_keeps, onBit_keeps, h] at e; (try simp only [State.open_keeps, State.did_keeps, execCrossingClrHwm_keeps, execMailboxPop_keeps, execRstC_keeps, execUnpark_keeps, onBit_keeps, h, ‹At Q _›] at e); (try replace e := Eq.mp e trivial))); (try (have e := congrArg (KeepsP Q) ‹_ = some _›; simp only [State.open_keeps, State.did_keeps, execCrossingClrHwm_keeps, execMailboxPop_keeps, execRstC_keeps, execUnpark_keeps, onBit_keeps, h] at e; (try simp only [State.open_keeps, State.did_keeps, execCrossingClrHwm_keeps, execMailboxPop_keeps, execRstC_keeps, execUnpark_keeps, onBit_keeps, h, ‹At Q _›] at e); (try replace e := Eq.mp e trivial))))) | (intro _) | (simp only [State.open_keeps, State.did_keeps, execCrossingClrHwm_keeps, execMailboxPop_keeps, execRstC_keeps, execUnpark_keeps, onBit_keeps, h]))

theorem State.writeCalCtrl_keeps (Q : Parts) (s : State) (v : Word) (h : At Q s) : At Q (State.writeCalCtrl s v) := by
  unfold State.writeCalCtrl; simp (disch := (intros; (try simp only [State.did_keeps, State.openInts_keeps, State.writePlain_keeps, execSheetRecal_keeps, onBit_keeps, h]); repeat' (first | (simp only [State.did_keeps, State.openInts_keeps, State.writePlain_keeps, execSheetRecal_keeps, onBit_keeps, h]; done) | split))) only [State.did_keeps, State.openInts_keeps, State.writePlain_keeps, execSheetRecal_keeps, onBit_keeps, h]

theorem State.writeStyCmd_keeps (Q : Parts) (s : State) (p : Path) (v : Word) (h : At Q s) : At Q (State.writeStyCmd s p v) := by
  unfold State.writeStyCmd; repeat' (first | assumption | (simp only [State.did_keeps, execRefresh_keeps, execSwitchover_keeps, onBit_keeps, h, *]; done) | with_reducible apply onBit_keeps | with_reducible apply State.did_keeps | with_reducible apply keeps_whenOpen | with_reducible apply grow_foldl | with_reducible apply keepsP_map | with_reducible apply keepsPO_map | with_reducible apply keepsOP_map | with_reducible apply execSwitchover_keeps | (split <;> ((try (have e := congrArg (fun p => At Q (Prod.snd p)) ‹_ = ((_, _) : _ × State)›; simp only [State.did_keeps, execRefresh_keeps, execSwitchover_keeps, onBit_keeps, h] at e; (try simp only [State.did_keeps, execRefresh_keeps, execSwitchover_keeps, onBit_keeps, h, ‹At Q _›] at e); (try replace e := Eq.mp e trivial))); (try (have e := congrArg (fun p => At Q (Prod.fst p)) ‹_ = ((_, _) : State × _)›; simp only [State.did_keeps, execRefresh_keeps, execSwitchover_keeps, onBit_keeps, h] at e; (try simp only [State.did_keeps, execRefresh_keeps, execSwitchover_keeps, onBit_keeps, h, ‹At Q _›] at e); (try replace e := Eq.mp e trivial))); (try (have e := congrArg (KeepsO Q) ‹_ = some _›; simp only [State.did_keeps, execRefresh_keeps, execSwitchover_keeps, onBit_keeps, h] at e; (try simp only [State.did_keeps, execRefresh_keeps, execSwitchover_keeps, onBit_keeps, h, ‹At Q _›] at e); (try replace e := Eq.mp e trivial))); (try (have e := congrArg (KeepsP Q) ‹_ = some _›; simp only [State.did_keeps, execRefresh_keeps, execSwitchover_keeps, onBit_keeps, h] at e; (try simp only [State.did_keeps, execRefresh_keeps, execSwitchover_keeps, onBit_keeps, h, ‹At Q _›] at e); (try replace e := Eq.mp e trivial))))) | (intro _) | (simp only [State.did_keeps, execRefresh_keeps, execSwitchover_keeps, onBit_keeps, h]))

theorem State.writeTmr_keeps (Q : Parts) (s : State) (p : Path) (a : Nat) (v : Word) (h : At Q s) : At Q (State.writeTmr
  s p a v) := by
  unfold State.writeTmr; repeat' (first | assumption | (simp only [same_mk, same_fold, same_ite, ite_fst, ite_snd, ite_self, implies_true, State.commitPlain_keeps, State.did_keeps, State.evalCompare_keeps, State.markMoved_keeps, State.settleTimer_keeps, State.timerOrder_keeps, State.writePlain_keeps, execCaptureWinClose_keeps, execCaptureWinOpen_keeps, execCmpValCommit_keeps, execGstartAt_keeps, execGstartNow_keeps, execTimerOriginCommit_keeps, execTimerPeriodWrite_keeps, onBit_keeps, h, *]; done) | with_reducible apply State.did_keeps | with_reducible apply keeps_whenOpen | with_reducible apply grow_foldl | with_reducible apply keepsP_map | with_reducible apply keepsPO_map | with_reducible apply keepsOP_map | with_reducible apply State.did_keeps | with_reducible apply execCaptureWinClose_keeps | with_reducible apply execCaptureWinOpen_keeps | with_reducible apply execCmpValCommit_keeps | with_reducible apply execGstartAt_keeps | with_reducible apply execGstartNow_keeps | with_reducible apply execTimerOriginCommit_keeps | with_reducible apply execTimerPeriodWrite_keeps | with_reducible apply onBit_keeps | (split <;> ((try (have e := congrArg (fun p => At Q (Prod.snd p)) ‹_ = ((_, _) : _ × State)›; simp only [same_mk, same_fold, same_ite, ite_fst, ite_snd, ite_self, implies_true, State.commitPlain_keeps, State.did_keeps, State.evalCompare_keeps, State.markMoved_keeps, State.settleTimer_keeps, State.timerOrder_keeps, State.writePlain_keeps, execCaptureWinClose_keeps, execCaptureWinOpen_keeps, execCmpValCommit_keeps, execGstartAt_keeps, execGstartNow_keeps, execTimerOriginCommit_keeps, execTimerPeriodWrite_keeps, onBit_keeps, h] at e; (try simp only [same_mk, same_fold, same_ite, ite_fst, ite_snd, ite_self, implies_true, State.commitPlain_keeps, State.did_keeps, State.evalCompare_keeps, State.markMoved_keeps, State.settleTimer_keeps, State.timerOrder_keeps, State.writePlain_keeps, execCaptureWinClose_keeps, execCaptureWinOpen_keeps, execCmpValCommit_keeps, execGstartAt_keeps, execGstartNow_keeps, execTimerOriginCommit_keeps, execTimerPeriodWrite_keeps, onBit_keeps, h, ‹At Q _›] at e); (try replace e := Eq.mp e trivial))); (try (have e := congrArg (fun p => At Q (Prod.fst p)) ‹_ = ((_, _) : State × _)›; simp only [same_mk, same_fold, same_ite, ite_fst, ite_snd, ite_self, implies_true, State.commitPlain_keeps, State.did_keeps, State.evalCompare_keeps, State.markMoved_keeps, State.settleTimer_keeps, State.timerOrder_keeps, State.writePlain_keeps, execCaptureWinClose_keeps, execCaptureWinOpen_keeps, execCmpValCommit_keeps, execGstartAt_keeps, execGstartNow_keeps, execTimerOriginCommit_keeps, execTimerPeriodWrite_keeps, onBit_keeps, h] at e; (try simp only [same_mk, same_fold, same_ite, ite_fst, ite_snd, ite_self, implies_true, State.commitPlain_keeps, State.did_keeps, State.evalCompare_keeps, State.markMoved_keeps, State.settleTimer_keeps, State.timerOrder_keeps, State.writePlain_keeps, execCaptureWinClose_keeps, execCaptureWinOpen_keeps, execCmpValCommit_keeps, execGstartAt_keeps, execGstartNow_keeps, execTimerOriginCommit_keeps, execTimerPeriodWrite_keeps, onBit_keeps, h, ‹At Q _›] at e); (try replace e := Eq.mp e trivial))); (try (have e := congrArg (KeepsO Q) ‹_ = some _›; simp only [same_mk, same_fold, same_ite, ite_fst, ite_snd, ite_self, implies_true, State.commitPlain_keeps, State.did_keeps, State.evalCompare_keeps, State.markMoved_keeps, State.settleTimer_keeps, State.timerOrder_keeps, State.writePlain_keeps, execCaptureWinClose_keeps, execCaptureWinOpen_keeps, execCmpValCommit_keeps, execGstartAt_keeps, execGstartNow_keeps, execTimerOriginCommit_keeps, execTimerPeriodWrite_keeps, onBit_keeps, h] at e; (try simp only [same_mk, same_fold, same_ite, ite_fst, ite_snd, ite_self, implies_true, State.commitPlain_keeps, State.did_keeps, State.evalCompare_keeps, State.markMoved_keeps, State.settleTimer_keeps, State.timerOrder_keeps, State.writePlain_keeps, execCaptureWinClose_keeps, execCaptureWinOpen_keeps, execCmpValCommit_keeps, execGstartAt_keeps, execGstartNow_keeps, execTimerOriginCommit_keeps, execTimerPeriodWrite_keeps, onBit_keeps, h, ‹At Q _›] at e); (try replace e := Eq.mp e trivial))); (try (have e := congrArg (KeepsP Q) ‹_ = some _›; simp only [same_mk, same_fold, same_ite, ite_fst, ite_snd, ite_self, implies_true, State.commitPlain_keeps, State.did_keeps, State.evalCompare_keeps, State.markMoved_keeps, State.settleTimer_keeps, State.timerOrder_keeps, State.writePlain_keeps, execCaptureWinClose_keeps, execCaptureWinOpen_keeps, execCmpValCommit_keeps, execGstartAt_keeps, execGstartNow_keeps, execTimerOriginCommit_keeps, execTimerPeriodWrite_keeps, onBit_keeps, h] at e; (try simp only [same_mk, same_fold, same_ite, ite_fst, ite_snd, ite_self, implies_true, State.commitPlain_keeps, State.did_keeps, State.evalCompare_keeps, State.markMoved_keeps, State.settleTimer_keeps, State.timerOrder_keeps, State.writePlain_keeps, execCaptureWinClose_keeps, execCaptureWinOpen_keeps, execCmpValCommit_keeps, execGstartAt_keeps, execGstartNow_keeps, execTimerOriginCommit_keeps, execTimerPeriodWrite_keeps, onBit_keeps, h, ‹At Q _›] at e); (try replace e := Eq.mp e trivial))))) | (intro _) | (simp only [same_mk, same_fold, same_ite, ite_fst, ite_snd, ite_self, implies_true, State.commitPlain_keeps, State.did_keeps, State.evalCompare_keeps, State.markMoved_keeps, State.settleTimer_keeps, State.timerOrder_keeps, State.writePlain_keeps, execCaptureWinClose_keeps, execCaptureWinOpen_keeps, execCmpValCommit_keeps, execGstartAt_keeps, execGstartNow_keeps, execTimerOriginCommit_keeps, execTimerPeriodWrite_keeps, onBit_keeps, h]))

theorem State.writeDsc_keeps (Q : Parts) (s : State) (p : Path) (a : Nat) (v : Word) (h : At Q s) : At Q
  (State.writeDsc s p a v) := by
  unfold State.writeDsc; simp only [same_ite, ite_self, State.did_keeps, State.dscEval_keeps, State.writeDscCtrl_keeps,
    State.writePlain_keeps, execModelTrefWrite_keeps, execPtpAtCommit_keeps, execPtpSampleCommit_keeps, execTodCommit_keeps, h]

theorem State.writeLow_keeps (Q : Parts) (s : State) (p : Path) (a : Nat) (v : Word) (hq : Grow Q) (h : At Q s) : At Q
  (State.writeLow s p a v) := by
  unfold State.writeLow; simp only [same_mk, same_fold, same_ite, ite_fst, ite_snd, ite_self, implies_true,
  State.did_keeps, State.setReg_keeps, State.writeMastCtrl_keeps, State.writePlain_keeps, execConfirmSWrite_keeps,
  execDbgTokenWrite_keeps, execHostDataWord_keeps, execMastFreqWrite_keeps, execPhaseCommit_keeps, execRehoist_keeps,
  execZeroise_keeps, h, hq]

theorem State.writeIdent_keeps (Q : Parts) (s : State) (p : Path) (a : Nat) (v : Word) (h : At Q s) : At Q
  (State.writeIdent s p a v) := by
  unfold State.writeIdent; repeat' (first | (simp only [same_ite, ite_self, State.did_keeps, State.mboxWrite_keeps, State.writePlain_keeps, execFeatAcceptWrite_keeps, execMboxCmd_keeps, h, *]; done) | (split <;> ((try (have e := congrArg (fun p => At Q (Prod.snd p)) ‹_ = ((_, _) : _ × State)›; simp only [same_ite, ite_self, State.did_keeps, State.mboxWrite_keeps, State.writePlain_keeps, execFeatAcceptWrite_keeps, execMboxCmd_keeps, h] at e; (try simp only [same_ite, ite_self, State.did_keeps, State.mboxWrite_keeps, State.writePlain_keeps, execFeatAcceptWrite_keeps, execMboxCmd_keeps, h, ‹At Q _›] at e); (try replace e := Eq.mp e trivial))); (try (have e := congrArg (fun p => At Q (Prod.fst p)) ‹_ = ((_, _) : State × _)›; simp only [same_ite, ite_self, State.did_keeps, State.mboxWrite_keeps, State.writePlain_keeps, execFeatAcceptWrite_keeps, execMboxCmd_keeps, h] at e; (try simp only [same_ite, ite_self, State.did_keeps, State.mboxWrite_keeps, State.writePlain_keeps, execFeatAcceptWrite_keeps, execMboxCmd_keeps, h, ‹At Q _›] at e); (try replace e := Eq.mp e trivial))); (try (have e := congrArg (KeepsO Q) ‹_ = some _›; simp only [same_ite, ite_self, State.did_keeps, State.mboxWrite_keeps, State.writePlain_keeps, execFeatAcceptWrite_keeps, execMboxCmd_keeps, h] at e; (try simp only [same_ite, ite_self, State.did_keeps, State.mboxWrite_keeps, State.writePlain_keeps, execFeatAcceptWrite_keeps, execMboxCmd_keeps, h, ‹At Q _›] at e); (try replace e := Eq.mp e trivial))); (try (have e := congrArg (KeepsP Q) ‹_ = some _›; simp only [same_ite, ite_self, State.did_keeps, State.mboxWrite_keeps, State.writePlain_keeps, execFeatAcceptWrite_keeps, execMboxCmd_keeps, h] at e; (try simp only [same_ite, ite_self, State.did_keeps, State.mboxWrite_keeps, State.writePlain_keeps, execFeatAcceptWrite_keeps, execMboxCmd_keeps, h, ‹At Q _›] at e); (try replace e := Eq.mp e trivial))))))

theorem State.writeData_keeps (Q : Parts) (s : State) (p : Path) (a : Nat) (v : Word) (h : At Q s) : At Q
  (State.writeData s p a v) := by
  unfold State.writeData; repeat' (first | assumption | (simp only [State.commitPlain_keeps, State.did_keeps, State.writePlain_keeps, State.writeXngCmd_keeps, execFifoClrHwm_keeps, execFifoFlush_keeps, execFifoRegisterPush_keeps, execLaneDown_keeps, execLaneUp_keeps, execMailboxCommit_keeps, execTxtsPop_keeps, onBit_keeps, h, *]; done) | with_reducible apply onBit_keeps | with_reducible apply State.did_keeps | with_reducible apply keeps_whenOpen | with_reducible apply grow_foldl | with_reducible apply keepsP_map | with_reducible apply keepsPO_map | with_reducible apply keepsOP_map | with_reducible apply execFifoClrHwm_keeps | with_reducible apply execLaneUp_keeps | with_reducible apply execTxtsPop_keeps | (split <;> ((try (have e := congrArg (fun p => At Q (Prod.snd p)) ‹_ = ((_, _) : _ × State)›; simp only [State.commitPlain_keeps, State.did_keeps, State.writePlain_keeps, State.writeXngCmd_keeps, execFifoClrHwm_keeps, execFifoFlush_keeps, execFifoRegisterPush_keeps, execLaneDown_keeps, execLaneUp_keeps, execMailboxCommit_keeps, execTxtsPop_keeps, onBit_keeps, h] at e; (try simp only [State.commitPlain_keeps, State.did_keeps, State.writePlain_keeps, State.writeXngCmd_keeps, execFifoClrHwm_keeps, execFifoFlush_keeps, execFifoRegisterPush_keeps, execLaneDown_keeps, execLaneUp_keeps, execMailboxCommit_keeps, execTxtsPop_keeps, onBit_keeps, h, ‹At Q _›] at e); (try replace e := Eq.mp e trivial))); (try (have e := congrArg (fun p => At Q (Prod.fst p)) ‹_ = ((_, _) : State × _)›; simp only [State.commitPlain_keeps, State.did_keeps, State.writePlain_keeps, State.writeXngCmd_keeps, execFifoClrHwm_keeps, execFifoFlush_keeps, execFifoRegisterPush_keeps, execLaneDown_keeps, execLaneUp_keeps, execMailboxCommit_keeps, execTxtsPop_keeps, onBit_keeps, h] at e; (try simp only [State.commitPlain_keeps, State.did_keeps, State.writePlain_keeps, State.writeXngCmd_keeps, execFifoClrHwm_keeps, execFifoFlush_keeps, execFifoRegisterPush_keeps, execLaneDown_keeps, execLaneUp_keeps, execMailboxCommit_keeps, execTxtsPop_keeps, onBit_keeps, h, ‹At Q _›] at e); (try replace e := Eq.mp e trivial))); (try (have e := congrArg (KeepsO Q) ‹_ = some _›; simp only [State.commitPlain_keeps, State.did_keeps, State.writePlain_keeps, State.writeXngCmd_keeps, execFifoClrHwm_keeps, execFifoFlush_keeps, execFifoRegisterPush_keeps, execLaneDown_keeps, execLaneUp_keeps, execMailboxCommit_keeps, execTxtsPop_keeps, onBit_keeps, h] at e; (try simp only [State.commitPlain_keeps, State.did_keeps, State.writePlain_keeps, State.writeXngCmd_keeps, execFifoClrHwm_keeps, execFifoFlush_keeps, execFifoRegisterPush_keeps, execLaneDown_keeps, execLaneUp_keeps, execMailboxCommit_keeps, execTxtsPop_keeps, onBit_keeps, h, ‹At Q _›] at e); (try replace e := Eq.mp e trivial))); (try (have e := congrArg (KeepsP Q) ‹_ = some _›; simp only [State.commitPlain_keeps, State.did_keeps, State.writePlain_keeps, State.writeXngCmd_keeps, execFifoClrHwm_keeps, execFifoFlush_keeps, execFifoRegisterPush_keeps, execLaneDown_keeps, execLaneUp_keeps, execMailboxCommit_keeps, execTxtsPop_keeps, onBit_keeps, h] at e; (try simp only [State.commitPlain_keeps, State.did_keeps, State.writePlain_keeps, State.writeXngCmd_keeps, execFifoClrHwm_keeps, execFifoFlush_keeps, execFifoRegisterPush_keeps, execLaneDown_keeps, execLaneUp_keeps, execMailboxCommit_keeps, execTxtsPop_keeps, onBit_keeps, h, ‹At Q _›] at e); (try replace e := Eq.mp e trivial))))) | (intro _) | (simp only [State.commitPlain_keeps, State.did_keeps, State.writePlain_keeps, State.writeXngCmd_keeps, execFifoClrHwm_keeps, execFifoFlush_keeps, execFifoRegisterPush_keeps, execLaneDown_keeps, execLaneUp_keeps, execMailboxCommit_keeps, execTxtsPop_keeps, onBit_keeps, h]))

theorem State.writeHigh_keeps (Q : Parts) (s : State) (p : Path) (a : Nat) (v : Word) (h : At Q s) : At Q
  (State.writeHigh s p a v) := by
  unfold State.writeHigh; repeat' (first | assumption | (simp only [same_mk, same_fold, same_ite, ite_fst, ite_snd, ite_self, implies_true, State.did_keeps, State.markFound_keeps, State.writePlain_keeps, State.writePnlCmd_keeps, State.writeStyCmd_keeps, execErrPop_keeps, execPanelHostData_keeps, execPeerWrite_keeps, execReefCommand_keeps, execReform_keeps, execRsvVtgtWrite_keeps, onBit_keeps, h, *]; done) | with_reducible apply State.did_keeps | with_reducible apply keeps_whenOpen | with_reducible apply grow_foldl | with_reducible apply keepsP_map | with_reducible apply keepsPO_map | with_reducible apply keepsOP_map | with_reducible apply State.did_keeps | with_reducible apply State.writePnlCmd_keeps | with_reducible apply State.writeStyCmd_keeps | with_reducible apply execErrPop_keeps | with_reducible apply execPanelHostData_keeps | with_reducible apply execPeerWrite_keeps | with_reducible apply execReefCommand_keeps | with_reducible apply execReform_keeps | with_reducible apply execRsvVtgtWrite_keeps | with_reducible apply onBit_keeps | (split <;> ((try (have e := congrArg (fun p => At Q (Prod.snd p)) ‹_ = ((_, _) : _ × State)›; simp only [same_mk, same_fold, same_ite, ite_fst, ite_snd, ite_self, implies_true, State.did_keeps, State.markFound_keeps, State.writePlain_keeps, State.writePnlCmd_keeps, State.writeStyCmd_keeps, execErrPop_keeps, execPanelHostData_keeps, execPeerWrite_keeps, execReefCommand_keeps, execReform_keeps, execRsvVtgtWrite_keeps, onBit_keeps, h] at e; (try simp only [same_mk, same_fold, same_ite, ite_fst, ite_snd, ite_self, implies_true, State.did_keeps, State.markFound_keeps, State.writePlain_keeps, State.writePnlCmd_keeps, State.writeStyCmd_keeps, execErrPop_keeps, execPanelHostData_keeps, execPeerWrite_keeps, execReefCommand_keeps, execReform_keeps, execRsvVtgtWrite_keeps, onBit_keeps, h, ‹At Q _›] at e); (try replace e := Eq.mp e trivial))); (try (have e := congrArg (fun p => At Q (Prod.fst p)) ‹_ = ((_, _) : State × _)›; simp only [same_mk, same_fold, same_ite, ite_fst, ite_snd, ite_self, implies_true, State.did_keeps, State.markFound_keeps, State.writePlain_keeps, State.writePnlCmd_keeps, State.writeStyCmd_keeps, execErrPop_keeps, execPanelHostData_keeps, execPeerWrite_keeps, execReefCommand_keeps, execReform_keeps, execRsvVtgtWrite_keeps, onBit_keeps, h] at e; (try simp only [same_mk, same_fold, same_ite, ite_fst, ite_snd, ite_self, implies_true, State.did_keeps, State.markFound_keeps, State.writePlain_keeps, State.writePnlCmd_keeps, State.writeStyCmd_keeps, execErrPop_keeps, execPanelHostData_keeps, execPeerWrite_keeps, execReefCommand_keeps, execReform_keeps, execRsvVtgtWrite_keeps, onBit_keeps, h, ‹At Q _›] at e); (try replace e := Eq.mp e trivial))); (try (have e := congrArg (KeepsO Q) ‹_ = some _›; simp only [same_mk, same_fold, same_ite, ite_fst, ite_snd, ite_self, implies_true, State.did_keeps, State.markFound_keeps, State.writePlain_keeps, State.writePnlCmd_keeps, State.writeStyCmd_keeps, execErrPop_keeps, execPanelHostData_keeps, execPeerWrite_keeps, execReefCommand_keeps, execReform_keeps, execRsvVtgtWrite_keeps, onBit_keeps, h] at e; (try simp only [same_mk, same_fold, same_ite, ite_fst, ite_snd, ite_self, implies_true, State.did_keeps, State.markFound_keeps, State.writePlain_keeps, State.writePnlCmd_keeps, State.writeStyCmd_keeps, execErrPop_keeps, execPanelHostData_keeps, execPeerWrite_keeps, execReefCommand_keeps, execReform_keeps, execRsvVtgtWrite_keeps, onBit_keeps, h, ‹At Q _›] at e); (try replace e := Eq.mp e trivial))); (try (have e := congrArg (KeepsP Q) ‹_ = some _›; simp only [same_mk, same_fold, same_ite, ite_fst, ite_snd, ite_self, implies_true, State.did_keeps, State.markFound_keeps, State.writePlain_keeps, State.writePnlCmd_keeps, State.writeStyCmd_keeps, execErrPop_keeps, execPanelHostData_keeps, execPeerWrite_keeps, execReefCommand_keeps, execReform_keeps, execRsvVtgtWrite_keeps, onBit_keeps, h] at e; (try simp only [same_mk, same_fold, same_ite, ite_fst, ite_snd, ite_self, implies_true, State.did_keeps, State.markFound_keeps, State.writePlain_keeps, State.writePnlCmd_keeps, State.writeStyCmd_keeps, execErrPop_keeps, execPanelHostData_keeps, execPeerWrite_keeps, execReefCommand_keeps, execReform_keeps, execRsvVtgtWrite_keeps, onBit_keeps, h, ‹At Q _›] at e); (try replace e := Eq.mp e trivial))))) | (intro _) | (simp only [same_mk, same_fold, same_ite, ite_fst, ite_snd, ite_self, implies_true, State.did_keeps, State.markFound_keeps, State.writePlain_keeps, State.writePnlCmd_keeps, State.writeStyCmd_keeps, execErrPop_keeps, execPanelHostData_keeps, execPeerWrite_keeps, execReefCommand_keeps, execReform_keeps, execRsvVtgtWrite_keeps, onBit_keeps, h]))

theorem State.writePins_keeps (Q : Parts) (s : State) (p : Path) (a : Nat) (v : Word) (h : At Q s) : At Q
  (State.writePins s p a v) := by
  unfold State.writePins; repeat' (first | (simp only [same_ite, ite_self, State.did_keeps, State.writePlain_keeps, execEvCfgWrite_keeps, execGpioStaticWrite_keeps, h, *]; done) | (split <;> ((try (have e := congrArg (fun p => At Q (Prod.snd p)) ‹_ = ((_, _) : _ × State)›; simp only [same_ite, ite_self, State.did_keeps, State.writePlain_keeps, execEvCfgWrite_keeps, execGpioStaticWrite_keeps, h] at e; (try simp only [same_ite, ite_self, State.did_keeps, State.writePlain_keeps, execEvCfgWrite_keeps, execGpioStaticWrite_keeps, h, ‹At Q _›] at e); (try replace e := Eq.mp e trivial))); (try (have e := congrArg (fun p => At Q (Prod.fst p)) ‹_ = ((_, _) : State × _)›; simp only [same_ite, ite_self, State.did_keeps, State.writePlain_keeps, execEvCfgWrite_keeps, execGpioStaticWrite_keeps, h] at e; (try simp only [same_ite, ite_self, State.did_keeps, State.writePlain_keeps, execEvCfgWrite_keeps, execGpioStaticWrite_keeps, h, ‹At Q _›] at e); (try replace e := Eq.mp e trivial))); (try (have e := congrArg (KeepsO Q) ‹_ = some _›; simp only [same_ite, ite_self, State.did_keeps, State.writePlain_keeps, execEvCfgWrite_keeps, execGpioStaticWrite_keeps, h] at e; (try simp only [same_ite, ite_self, State.did_keeps, State.writePlain_keeps, execEvCfgWrite_keeps, execGpioStaticWrite_keeps, h, ‹At Q _›] at e); (try replace e := Eq.mp e trivial))); (try (have e := congrArg (KeepsP Q) ‹_ = some _›; simp only [same_ite, ite_self, State.did_keeps, State.writePlain_keeps, execEvCfgWrite_keeps, execGpioStaticWrite_keeps, h] at e; (try simp only [same_ite, ite_self, State.did_keeps, State.writePlain_keeps, execEvCfgWrite_keeps, execGpioStaticWrite_keeps, h, ‹At Q _›] at e); (try replace e := Eq.mp e trivial))))))

theorem State.writeReg_keeps (Q : Parts) (s : State) (p : Path) (a : Nat) (v : Word) (hq : Grow Q) (h : At Q s) : At Q
  (State.writeReg s p a v) := by
  unfold State.writeReg; (try simp only [same_mk, same_fold, same_ite, ite_fst, ite_snd, ite_self, implies_true, State.flcAccess_keeps, State.mirrorRefused_keeps, State.stageHigh_keeps, State.unlisted_keeps, State.writeCalCtrl_keeps, State.writeData_keeps, State.writeDsc_keeps, State.writeHigh_keeps, State.writeIdent_keeps, State.writeLow_keeps, State.writePins_keeps, State.writePlain_keeps, State.writeTmr_keeps, h, hq]); repeat' (first | (simp only [same_mk, same_fold, same_ite, ite_fst, ite_snd, ite_self, implies_true, State.flcAccess_keeps, State.mirrorRefused_keeps, State.stageHigh_keeps, State.unlisted_keeps, State.writeCalCtrl_keeps, State.writeData_keeps, State.writeDsc_keeps, State.writeHigh_keeps, State.writeIdent_keeps, State.writeLow_keeps, State.writePins_keeps, State.writePlain_keeps, State.writeTmr_keeps, h, hq]; done) | split)

theorem execWideLoRead_keeps (Q : Parts) (p : Path) (addr : Nat) (s : State) (h : At Q s) : Keeps Q
  (execWideLoRead p addr s) := by
  unfold execWideLoRead; simp only [same_ite, ite_self, keeps_whenOpen, State.readReg_keeps, h]

theorem execWideHiWrite_keeps (Q : Parts) (p : Path) (addr : Nat) (v : Word) (s : State) (hq : Grow Q) (h : At Q s) : Keeps Q
  (execWideHiWrite p addr v s) := by
  unfold execWideHiWrite; simp only [same_ite, ite_self, keeps_whenOpen, State.writeReg_keeps, h, hq]

theorem execRcFieldRead_keeps (Q : Parts) (p : Path) (addr : Nat) (s : State) (h : At Q s) : Keeps Q
  (execRcFieldRead p addr s) := by
  unfold execRcFieldRead; simp only [same_ite, ite_self, keeps_whenOpen, State.readReg_keeps, h]

theorem execRegisterWrite_keeps (Q : Parts) (p : Path) (addr : Nat) (v : Word) (s : State) (hq : Grow Q) (h : At Q s) :
  Keeps Q (execRegisterWrite p addr v s) := by
  unfold execRegisterWrite; simp only [same_mk, same_fold, same_ite, ite_fst, ite_snd, ite_self, keeps_next, keeps_ite,
  implies_true, State.accessTrap_keeps, State.writeReg_keeps, keeps_whenOpen, h, hq]

theorem execUnlistedOffsetAccess_keeps (Q : Parts) (p : Path) (addr : Nat) (w : Option Word) (s : State) (h : At Q s) :
  Keeps Q (execUnlistedOffsetAccess p addr w s) := by
  unfold execUnlistedOffsetAccess; simp only [same_ite, ite_self, keeps_whenOpen, State.unlisted_keeps, h]

theorem execErrHeadRead_keeps (Q : Parts) (p : Path) (s : State) (h : At Q s) : Keeps Q (execErrHeadRead p s) := by
  unfold execErrHeadRead; simp only [keeps_whenOpen, State.readReg_keeps, h]

end Sys2Proof.Machine
end

