-- ==== Sys2Proof/Laws/KeepsHost.lean ====
section
/-! SUPPORT. What the definitions of Host leave as they are: the waiting commands and the fuse words. -/

namespace Sys2Proof.Machine

open Sys2Proof

set_option simprocs false
set_option linter.unusedSimpArgs false
set_option linter.all false

theorem State.hostLog_keeps (Q : Parts) (s : State) (code detail : Nat) : At Q (State.hostLog s code detail) = At Q s := by
  unfold State.hostLog; simp only [State.setFld_keeps, State.log_keeps, State.raise_eq]

theorem State.setPosted_keeps (Q : Parts) (s : State) (i2c : Bool) (ws : List (Nat × Word)) : At Q
  (State.setPosted s i2c ws) = At Q s := by
  unfold State.setPosted; simp only [same_mk, same_fold]

theorem State.drainPosted_keeps (Q : Parts) (s : State) (i2c : Bool) (hq : Grow Q) (h : At Q s) : At Q
  (State.drainPosted s i2c) := by
  unfold State.drainPosted; (split <;> simp only [State.setPosted_keeps, State.writeReg_keeps, h, hq])

theorem State.drainMany_keeps (Q : Parts) (s : State) (i2c : Bool) (x0 : Nat) (hq : Grow Q) (h : At Q s) : At Q
  (State.drainMany s i2c x0) := by
  induction x0 generalizing s with
  | zero => first | rfl | (rw [State.drainMany.eq_def]; simp only [State.drainPosted_keeps, h, hq])
  | succ n ih =>
    rw [State.drainMany.eq_def]
    dsimp only
    repeat' (first | (simp only [State.drainPosted_keeps, h, hq, ih]; done) | rfl | split)

theorem State.drainAll_keeps (Q : Parts) (s : State) (i2c : Bool) (hq : Grow Q) (h : At Q s) : At Q (State.drainAll s i2c) := by
  unfold State.drainAll; simp only [State.drainMany_keeps, h, hq]

theorem State.postWord_keeps (Q : Parts) (s : State) (i2c : Bool) (a : Nat) (w : Word) : At Q
  (State.postWord s i2c a w) = At Q s := by
  unfold State.postWord; simp only [same_mk, same_fold, same_ite, ite_self, State.hostLog_keeps, State.setPosted_keeps]

theorem execPostedWrite_keeps (Q : Parts) (i2c : Bool) (s : State) (hq : Grow Q) (h : At Q s) : Keeps Q
  (execPostedWrite i2c s) := by
  unfold execPostedWrite; simp only [keeps_whenOpen, State.drainPosted_keeps, h, hq]

theorem State.spiBegin_keeps (Q : Parts) (s : State) : At Q (State.spiBegin s) = At Q s := by
  unfold State.spiBegin; simp only [same_mk, same_fold]

theorem State.sends_keeps (Q : Parts) (s : State) (bs : List Byte) : At Q (State.sends s bs) = At Q s := by
  unfold State.sends; simp only [same_mk, same_fold]

theorem State.spiRejects_keeps (Q : Parts) (s : State) (cause a : Nat) : At Q (State.spiRejects s cause a) = At Q s := by
  unfold State.spiRejects; simp only [State.hostLog_keeps]

theorem State.spiWords_keeps (Q : Parts) (s : State) (crc fixed : Bool) (x0 : Nat) (x1 : Nat) (x2 : List Byte) (x3 : List Nat)
  (hq : Grow Q) (h : At Q s) : At Q (State.spiWords s crc fixed x0 x1 x2 x3) := by
  induction x0 generalizing s x1 x2 x3 with
  | zero => first | rfl | (rw [State.spiWords.eq_def]; simp only [same_mk, same_fold, same_ite, ite_self,
    State.drainMany_keeps, State.postWord_keeps, State.spiRejects_keeps, h, hq])
  | succ n ih =>
    rw [State.spiWords.eq_def]
    dsimp only
    repeat' (first | (simp only [same_mk, same_fold, same_ite, ite_self, State.drainMany_keeps, State.postWord_keeps, State.spiRejects_keeps, h, hq, ih]; done) | rfl | split)

theorem State.spiWriteFrame_keeps (Q : Parts) (s : State) (crc fixed : Bool) (a : Nat) (bs : List Byte) (ds : List Nat) (hq :
  Grow Q) (h : At Q s) : At Q (State.spiWriteFrame s crc fixed a bs ds) := by
  unfold State.spiWriteFrame; simp only [same_ite, ite_self, State.sends_keeps, State.spiBegin_keeps, State.spiRejects_keeps,
    State.spiWords_keeps, h, hq]

theorem execSpiWrite_keeps (Q : Parts) (addr : BitVec 24) (data : List Byte) (drains : List Nat) (s : State) (hq : Grow Q) (h :
  At Q s) : Keeps Q (execSpiWrite addr data drains s) := by
  unfold execSpiWrite; simp only [keeps_whenOpen, State.spiWriteFrame_keeps, h, hq]

theorem execSpiWriteFixed_keeps (Q : Parts) (addr : BitVec 24) (data : List Byte) (drains : List Nat) (s : State) (hq :
  Grow Q) (h : At Q s) : Keeps Q (execSpiWriteFixed addr data drains s) := by
  unfold execSpiWriteFixed; simp only [keeps_whenOpen, State.spiWriteFrame_keeps, h, hq]

theorem execSpiWriteCrc_keeps (Q : Parts) (addr : BitVec 24) (data : List Byte) (drains : List Nat) (s : State) (hq : Grow Q)
  (h : At Q s) : Keeps Q (execSpiWriteCrc addr data drains s) := by
  unfold execSpiWriteCrc; simp only [keeps_whenOpen, State.spiWriteFrame_keeps, h, hq]

theorem execSpiWriteFixedCrc_keeps (Q : Parts) (addr : BitVec 24) (data : List Byte) (drains : List Nat) (s : State) (hq :
  Grow Q) (h : At Q s) : Keeps Q (execSpiWriteFixedCrc addr data drains s) := by
  unfold execSpiWriteFixedCrc; simp only [keeps_whenOpen, State.spiWriteFrame_keeps, h, hq]

theorem State.spiFetches_keeps (Q : Parts) (s : State) (crc fixed : Bool) (x0 : Nat) (x1 : List Nat) (hq : Grow Q) (h :
  At Q s) : At Q (State.spiFetches s crc fixed x0 x1).2 := by
  induction x1 generalizing s x0 with
  | nil => first | rfl | (rw [State.spiFetches.eq_def]; simp only [State.drainAll_keeps, State.readReg_keeps,
    State.sends_keeps, h, hq]; done) | simpa only [State.spiFetches] using h
  | cons v vs ih =>
    rw [State.spiFetches.eq_def]
    dsimp only
    repeat' (first | assumption | (simp only [State.drainAll_keeps, State.readReg_keeps, State.sends_keeps, h, hq, *]; done) | with_reducible apply ih | with_reducible apply onBit_keeps | with_reducible apply State.did_keeps | with_reducible apply keeps_whenOpen | with_reducible apply grow_foldl | with_reducible apply keepsP_map | with_reducible apply keepsPO_map | with_reducible apply keepsOP_map | (split <;> ((try (have e := congrArg (fun p => At Q (Prod.snd p)) ‹_ = ((_, _) : _ × State)›; simp only [State.drainAll_keeps, State.readReg_keeps, State.sends_keeps, h, hq] at e; (try simp only [State.drainAll_keeps, State.readReg_keeps, State.sends_keeps, h, hq, ‹At Q _›] at e); (try replace e := Eq.mp e trivial))); (try (have e := congrArg (fun p => At Q (Prod.fst p)) ‹_ = ((_, _) : State × _)›; simp only [State.drainAll_keeps, State.readReg_keeps, State.sends_keeps, h, hq] at e; (try simp only [State.drainAll_keeps, State.readReg_keeps, State.sends_keeps, h, hq, ‹At Q _›] at e); (try replace e := Eq.mp e trivial))); (try (have e := congrArg (KeepsO Q) ‹_ = some _›; simp only [State.drainAll_keeps, State.readReg_keeps, State.sends_keeps, h, hq] at e; (try simp only [State.drainAll_keeps, State.readReg_keeps, State.sends_keeps, h, hq, ‹At Q _›] at e); (try replace e := Eq.mp e trivial))); (try (have e := congrArg (KeepsP Q) ‹_ = some _›; simp only [State.drainAll_keeps, State.readReg_keeps, State.sends_keeps, h, hq] at e; (try simp only [State.drainAll_keeps, State.readReg_keeps, State.sends_keeps, h, hq, ‹At Q _›] at e); (try replace e := Eq.mp e trivial))))) | (intro _) | (simp only [State.drainAll_keeps, State.readReg_keeps, State.sends_keeps, h, hq]))

theorem State.spiReadFrame_keeps (Q : Parts) (s : State) (crc fixed : Bool) (a : Nat) (waits : List Nat) (len : Nat) (hq :
  Grow Q) (h : At Q s) : At Q (State.spiReadFrame s crc fixed a waits len) := by
  unfold State.spiReadFrame; simp only [same_mk, same_fold, same_ite, ite_self, State.sends_keeps, State.spiBegin_keeps,
    State.spiFetches_keeps, State.spiRejects_keeps, h, hq]

theorem execSpiRead_keeps (Q : Parts) (addr : BitVec 24) (waits : List (Fin 33)) (len : Nat) (s : State) (hq : Grow Q) (h :
  At Q s) : Keeps Q (execSpiRead addr waits len s) := by
  unfold execSpiRead; simp only [keeps_whenOpen, State.spiReadFrame_keeps, h, hq]

theorem execSpiReadFixed_keeps (Q : Parts) (addr : BitVec 24) (waits : List (Fin 33)) (len : Nat) (s : State) (hq : Grow Q)
  (h : At Q s) : Keeps Q (execSpiReadFixed addr waits len s) := by
  unfold execSpiReadFixed; simp only [keeps_whenOpen, State.spiReadFrame_keeps, h, hq]

theorem execSpiReadCrc_keeps (Q : Parts) (addr : BitVec 24) (waits : List (Fin 33)) (len : Nat) (s : State) (hq : Grow Q) (h :
  At Q s) : Keeps Q (execSpiReadCrc addr waits len s) := by
  unfold execSpiReadCrc; simp only [keeps_whenOpen, State.spiReadFrame_keeps, h, hq]

theorem execSpiReadFixedCrc_keeps (Q : Parts) (addr : BitVec 24) (waits : List (Fin 33)) (len : Nat) (s : State) (hq : Grow Q)
  (h : At Q s) : Keeps Q (execSpiReadFixedCrc addr waits len s) := by
  unfold execSpiReadFixedCrc; simp only [keeps_whenOpen, State.spiReadFrame_keeps, h, hq]

theorem execSpiStatus_keeps (Q : Parts) (s : State) (h : At Q s) : Keeps Q (execSpiStatus s) := by
  unfold execSpiStatus; simp only [keeps_whenOpen, State.spiBegin_keeps, h]

theorem execSpiReadNotReady_keeps (Q : Parts) (fixed crc : Bool) (addr : BitVec 24) (waits : List (Fin 33)) (s : State) (hq :
  Grow Q) (h : At Q s) : Keeps Q (execSpiReadNotReady fixed crc addr waits s) := by
  unfold execSpiReadNotReady; repeat' (first | assumption | (simp only [keeps_whenOpen, State.drainAll_keeps, State.hostLog_keeps, State.readReg_keeps, State.sends_keeps, State.spiBegin_keeps, State.spiFetches_keeps, State.spiReadFrame_keeps, h, hq, *]; done) | with_reducible apply onBit_keeps | with_reducible apply State.did_keeps | with_reducible apply keeps_whenOpen | with_reducible apply grow_foldl | with_reducible apply keepsP_map | with_reducible apply keepsPO_map | with_reducible apply keepsOP_map | with_reducible apply State.readReg_keeps | (split <;> ((try (have e := congrArg (fun p => At Q (Prod.snd p)) ‹_ = ((_, _) : _ × State)›; simp only [keeps_whenOpen, State.drainAll_keeps, State.hostLog_keeps, State.readReg_keeps, State.sends_keeps, State.spiBegin_keeps, State.spiFetches_keeps, State.spiReadFrame_keeps, h, hq] at e; (try simp only [keeps_whenOpen, State.drainAll_keeps, State.hostLog_keeps, State.readReg_keeps, State.sends_keeps, State.spiBegin_keeps, State.spiFetches_keeps, State.spiReadFrame_keeps, h, hq, ‹At Q _›] at e); (try replace e := Eq.mp e trivial))); (try (have e := congrArg (fun p => At Q (Prod.fst p)) ‹_ = ((_, _) : State × _)›; simp only [keeps_whenOpen, State.drainAll_keeps, State.hostLog_keeps, State.readReg_keeps, State.sends_keeps, State.spiBegin_keeps, State.spiFetches_keeps, State.spiReadFrame_keeps, h, hq] at e; (try simp only [keeps_whenOpen, State.drainAll_keeps, State.hostLog_keeps, State.readReg_keeps, State.sends_keeps, State.spiBegin_keeps, State.spiFetches_keeps, State.spiReadFrame_keeps, h, hq, ‹At Q _›] at e); (try replace e := Eq.mp e trivial))); (try (have e := congrArg (KeepsO Q) ‹_ = some _›; simp only [keeps_whenOpen, State.drainAll_keeps, State.hostLog_keeps, State.readReg_keeps, State.sends_keeps, State.spiBegin_keeps, State.spiFetches_keeps, State.spiReadFrame_keeps, h, hq] at e; (try simp only [keeps_whenOpen, State.drainAll_keeps, State.hostLog_keeps, State.readReg_keeps, State.sends_keeps, State.spiBegin_keeps, State.spiFetches_keeps, State.spiReadFrame_keeps, h, hq, ‹At Q _›] at e); (try replace e := Eq.mp e trivial))); (try (have e := congrArg (KeepsP Q) ‹_ = some _›; simp only [keeps_whenOpen, State.drainAll_keeps, State.hostLog_keeps, State.readReg_keeps, State.sends_keeps, State.spiBegin_keeps, State.spiFetches_keeps, State.spiReadFrame_keeps, h, hq] at e; (try simp only [keeps_whenOpen, State.drainAll_keeps, State.hostLog_keeps, State.readReg_keeps, State.sends_keeps, State.spiBegin_keeps, State.spiFetches_keeps, State.spiReadFrame_keeps, h, hq, ‹At Q _›] at e); (try replace e := Eq.mp e trivial))))) | (intro _) | (simp only [keeps_whenOpen, State.drainAll_keeps, State.hostLog_keeps, State.readReg_keeps, State.sends_keeps, State.spiBegin_keeps, State.spiFetches_keeps, State.spiReadFrame_keeps, h, hq]))

theorem execSpiUnknownCommand_keeps (Q : Parts) (cmd : Byte) (s : State) (h : At Q s) : Keeps Q
  (execSpiUnknownCommand cmd s) := by
  unfold execSpiUnknownCommand; simp only [same_ite, ite_self, keeps_whenOpen, State.open_keeps, State.spiBegin_keeps,
    State.spiRejects_keeps, h]

theorem State.i2cEnds_keeps (Q : Parts) (s : State) (stop : Bool) : At Q (State.i2cEnds s stop) = At Q s := by
  unfold State.i2cEnds; simp only [same_mk, same_fold, same_ite, ite_self, State.hostLog_keeps]

theorem State.i2cStart_keeps (Q : Parts) (s : State) : At Q (State.i2cStart s) = At Q s := by
  unfold State.i2cStart; simp only [same_mk, same_fold]

theorem State.i2cNext_keeps (Q : Parts) (s : State) : At Q (State.i2cNext s) = At Q s := by
  unfold State.i2cNext; simp only [same_mk, same_fold, same_ite, ite_self]

theorem State.i2cWords_keeps (Q : Parts) (s : State) (x0 : Nat) (x1 : List Byte) (x2 : List Nat) (hq : Grow Q) (h : At Q s) :
  At Q (State.i2cWords s x0 x1 x2) := by
  induction x0 generalizing s x1 x2 with
  | zero => first | rfl | (rw [State.i2cWords.eq_def]; simp only [same_mk, same_fold, same_ite, ite_self,
    State.drainMany_keeps, State.i2cNext_keeps, State.postWord_keeps, h, hq])
  | succ n ih =>
    rw [State.i2cWords.eq_def]
    dsimp only
    repeat' (first | (simp only [same_mk, same_fold, same_ite, ite_self, State.drainMany_keeps, State.i2cNext_keeps, State.postWord_keeps, h, hq, ih]; done) | rfl | split)

theorem execI2cWrite_keeps (Q : Parts) (dev : BitVec 7) (bytes : List Byte) (drains : List Nat) (s : State) (hq : Grow Q) (h :
  At Q s) : Keeps Q (execI2cWrite dev bytes drains s) := by
  unfold execI2cWrite; simp only [same_mk, same_fold, same_ite, ite_self, keeps_whenOpen, State.i2cEnds_keeps,
    State.i2cStart_keeps, State.i2cWords_keeps, h, hq]

theorem State.i2cFetches_keeps (Q : Parts) (s : State) (x0 : Nat) (x1 : Nat) (hq : Grow Q) (h : At Q s) : At Q
  (State.i2cFetches s x0 x1) := by
  induction x0 generalizing s x1 with
  | zero => first | rfl | (rw [State.i2cFetches.eq_def]; simp only [same_mk, same_fold, same_ite, ite_self,
    State.drainAll_keeps, State.i2cNext_keeps, State.readReg_keeps, State.sends_keeps, h, hq])
  | succ n ih =>
    rw [State.i2cFetches.eq_def]
    dsimp only
    repeat' (first | (simp only [same_mk, same_fold, same_ite, ite_self, State.drainAll_keeps, State.i2cNext_keeps, State.readReg_keeps, State.sends_keeps, h, hq, ih]; done) | rfl | split)

theorem execI2cRead_keeps (Q : Parts) (dev : BitVec 7) (len : Nat) (s : State) (hq : Grow Q) (h : At Q s) : Keeps Q
  (execI2cRead dev len s) := by
  unfold execI2cRead; simp only [same_mk, same_fold, same_ite, ite_self, keeps_whenOpen, State.i2cEnds_keeps,
    State.i2cFetches_keeps, State.i2cStart_keeps, h, hq]

theorem execI2cStop_keeps (Q : Parts) (restart : Bool) (s : State) (h : At Q s) : Keeps Q (execI2cStop restart s) := by
  unfold execI2cStop; simp only [keeps_whenOpen, State.i2cEnds_keeps, h]

theorem execI2cTimeout_keeps (Q : Parts) (s : State) (h : At Q s) : Keeps Q (execI2cTimeout s) := by
  unfold execI2cTimeout; simp only [same_mk, same_fold, same_ite, ite_self, keeps_whenOpen, State.hostLog_keeps, h]

end Sys2Proof.Machine
end

