-- ==== Sys2Proof/Laws/KeepsRv32.lean ====
section
/-! SUPPORT. What the definitions of Rv32 leave as they are: the waiting commands and the fuse words. -/

namespace Sys2Proof.Machine

open Sys2Proof

set_option simprocs false
set_option linter.unusedSimpArgs false
set_option linter.all false

/-- What an access of memory leaves, with the property. -/
def KeepsM (Q : Parts) : MemOut → Prop
  | .value _ t => At Q t
  | .fault t => At Q t
  | .waits => True

theorem keepsM_value (Q : Parts) (v : Nat) (t : State) : KeepsM Q (.value v t) = At Q t := (rfl)

theorem keepsM_fault (Q : Parts) (t : State) : KeepsM Q (.fault t) = At Q t := (rfl)

theorem keepsM_waits (Q : Parts) : KeepsM Q .waits = True := (rfl)

theorem keepsM_ite {c : Prop} [Decidable c] (Q : Parts) (a b : MemOut) :
    KeepsM Q (if c then a else b) = if c then KeepsM Q a else KeepsM Q b := apply_ite (KeepsM Q) c a b

theorem State.mappedRead_keeps (Q : Parts) (s : State) (a n : Nat) (h : At Q s) : KeepsM Q (State.mappedRead s a n) := by
  unfold State.mappedRead; simp only [same_mk, same_fold, same_ite, ite_self, State.open_keeps, keepsM_value, keepsM_fault,
    keepsM_waits, keepsM_ite, State.readChunk_keeps, h]

theorem State.coreRegRead_keeps (Q : Parts) (s : State) (p : Path) (rom : Bool) (a n : Nat) (h : At Q s) : KeepsM Q
  (State.coreRegRead s p rom a n) := by
  unfold State.coreRegRead; simp only [same_mk, same_fold, same_ite, ite_self, keepsM_value, keepsM_fault, keepsM_ite,
    State.flcRefused_keeps, State.readPlain_keeps, State.readReg_keeps, h]

theorem State.memLoad_keeps (Q : Parts) (s : State) (p : Path) (rom : Bool) (a n : Nat) (h : At Q s) : KeepsM Q
  (State.memLoad s p rom a n) := by
  unfold State.memLoad; simp only [ite_self, keepsM_value, keepsM_fault, keepsM_ite, State.coreRegRead_keeps,
    State.mappedRead_keeps, h]

theorem State.flcWrite_keeps (Q : Parts) (s : State) (a : Nat) (v : Word) : At Q (State.flcWrite s a v) = At Q s := by
  unfold State.flcWrite; simp only [same_ite, ite_self, State.flcGo_keeps, State.patrolEvery_keeps, State.writePlain_keeps]

theorem State.memStore_keeps (Q : Parts) (s : State) (p : Path) (rom : Bool) (a n : Nat) (v : Word) (hq : Grow Q) (h :
  At Q s) : KeepsM Q (State.memStore s p rom a n v) := by
  unfold State.memStore; simp only [ite_self, keepsM_value, keepsM_fault, keepsM_ite, State.flcRefused_keeps, State.flcWrite_keeps,
    State.sramPut_keeps, State.writePlain_keeps, State.writeReg_keeps, h, hq]

theorem State.fetchHalf_keeps (Q : Parts) (s : State) (a : Nat) (h : At Q s) : KeepsM Q (State.fetchHalf s a) := by
  unfold State.fetchHalf; simp only [ite_self, keepsM_fault, keepsM_ite, State.memLoad_keeps, h]

theorem State.csrMask_keeps (Q : Parts) (s : State) (n : Nat) (mask v : Word) : At Q (State.csrMask s n mask v) = At Q s := by
  unfold State.csrMask; simp only [State.setCsr_keeps]

theorem State.tdata1Write_keeps (Q : Parts) (s : State) (debug : Bool) (v : Word) : At Q
  (State.tdata1Write s debug v) = At Q s := by
  unfold State.tdata1Write; simp only [same_ite, ite_self, State.setCsr_keeps]

theorem State.csrWrite_keeps (Q : Parts) (s : State) (debug : Bool) (n : Nat) (v : Word) (h : At Q s) : KeepsO Q
  (State.csrWrite s debug n v) := by
  unfold State.csrWrite; (split <;> simp only [same_mk, same_fold, same_ite, ite_self, keepsO_none, keepsO_some, keepsO_ite, keepsP_none, State.csrMask_keeps, State.setCsr_keeps, State.tdata1Write_keeps, h])

theorem illegal_keeps (Q : Parts) (s : State) (i : Nat) (h : At Q s) : KeepsP Q (illegal s i) := by
  unfold illegal; simp only [keepsP_some, h]

theorem State.loadInst_keeps (Q : Parts) (s : State) (p : Path) (rom debug : Bool) (f3 rd a i : Nat) (h : At Q s) : KeepsP Q
  (State.loadInst s p rom debug f3 rd a i) := by
  unfold State.loadInst; repeat' (first | assumption | (simp only [keepsO_none, keepsP_none, keepsP_some, keepsP_ite, keepsM_value, keepsM_fault, State.memLoad_keeps, State.setX_keeps, illegal_keeps, h, *]; done) | with_reducible apply onBit_keeps | with_reducible apply State.did_keeps | with_reducible apply keeps_whenOpen | with_reducible apply grow_foldl | with_reducible apply keepsP_map | with_reducible apply keepsPO_map | with_reducible apply keepsOP_map | (split <;> ((try (have e := congrArg (fun p => At Q (Prod.snd p)) ‹_ = ((_, _) : _ × State)›; simp only [keepsO_none, keepsP_none, keepsP_some, keepsP_ite, keepsM_value, keepsM_fault, State.memLoad_keeps, State.setX_keeps, illegal_keeps, h] at e; (try simp only [keepsO_none, keepsP_none, keepsP_some, keepsP_ite, keepsM_value, keepsM_fault, State.memLoad_keeps, State.setX_keeps, illegal_keeps, h, ‹At Q _›] at e); (try replace e := Eq.mp e trivial))); (try (have e := congrArg (fun p => At Q (Prod.fst p)) ‹_ = ((_, _) : State × _)›; simp only [keepsO_none, keepsP_none, keepsP_some, keepsP_ite, keepsM_value, keepsM_fault, State.memLoad_keeps, State.setX_keeps, illegal_keeps, h] at e; (try simp only [keepsO_none, keepsP_none, keepsP_some, keepsP_ite, keepsM_value, keepsM_fault, State.memLoad_keeps, State.setX_keeps, illegal_keeps, h, ‹At Q _›] at e); (try replace e := Eq.mp e trivial))); (try (have e := congrArg (KeepsO Q) ‹_ = some _›; simp only [keepsO_none, keepsP_none, keepsP_some, keepsP_ite, keepsM_value, keepsM_fault, State.memLoad_keeps, State.setX_keeps, illegal_keeps, h] at e; (try simp only [keepsO_none, keepsP_none, keepsP_some, keepsP_ite, keepsM_value, keepsM_fault, State.memLoad_keeps, State.setX_keeps, illegal_keeps, h, ‹At Q _›] at e); (try replace e := Eq.mp e trivial))); (try (have e := congrArg (KeepsP Q) ‹_ = some _›; simp only [keepsO_none, keepsP_none, keepsP_some, keepsP_ite, keepsM_value, keepsM_fault, State.memLoad_keeps, State.setX_keeps, illegal_keeps, h] at e; (try simp only [keepsO_none, keepsP_none, keepsP_some, keepsP_ite, keepsM_value, keepsM_fault, State.memLoad_keeps, State.setX_keeps, illegal_keeps, h, ‹At Q _›] at e); (try replace e := Eq.mp e trivial))); (try (have e := congrArg (KeepsM Q) ‹_ = MemOut.value _ _›; simp only [keepsO_none, keepsP_none, keepsP_some, keepsP_ite, keepsM_value, keepsM_fault, State.memLoad_keeps, State.setX_keeps, illegal_keeps, h] at e; (try simp only [keepsO_none, keepsP_none, keepsP_some, keepsP_ite, keepsM_value, keepsM_fault, State.memLoad_keeps, State.setX_keeps, illegal_keeps, h, ‹At Q _›] at e); (try replace e := Eq.mp e trivial))); (try (have e := congrArg (KeepsM Q) ‹_ = MemOut.fault _›; simp only [keepsO_none, keepsP_none, keepsP_some, keepsP_ite, keepsM_value, keepsM_fault, State.memLoad_keeps, State.setX_keeps, illegal_keeps, h] at e; (try simp only [keepsO_none, keepsP_none, keepsP_some, keepsP_ite, keepsM_value, keepsM_fault, State.memLoad_keeps, State.setX_keeps, illegal_keeps, h, ‹At Q _›] at e); (try replace e := Eq.mp e trivial))))) | (intro _) | (simp only [keepsO_none, keepsP_none, keepsP_some, keepsP_ite, keepsM_value, keepsM_fault, State.memLoad_keeps, State.setX_keeps, illegal_keeps, h]))

theorem State.storeInst_keeps (Q : Parts) (s : State) (p : Path) (rom debug : Bool) (f3 a i : Nat) (v : Word) (hq : Grow Q)
  (h : At Q s) : KeepsP Q (State.storeInst s p rom debug f3 a i v) := by
  unfold State.storeInst; repeat' (first | assumption | (simp only [keepsO_none, keepsP_none, keepsP_some, keepsP_ite, keepsM_value, keepsM_fault, State.memStore_keeps, illegal_keeps, h, hq, *]; done) | with_reducible apply onBit_keeps | with_reducible apply State.did_keeps | with_reducible apply keeps_whenOpen | with_reducible apply grow_foldl | with_reducible apply keepsP_map | with_reducible apply keepsPO_map | with_reducible apply keepsOP_map | (split <;> ((try (have e := congrArg (fun p => At Q (Prod.snd p)) ‹_ = ((_, _) : _ × State)›; simp only [keepsO_none, keepsP_none, keepsP_some, keepsP_ite, keepsM_value, keepsM_fault, State.memStore_keeps, illegal_keeps, h, hq] at e; (try simp only [keepsO_none, keepsP_none, keepsP_some, keepsP_ite, keepsM_value, keepsM_fault, State.memStore_keeps, illegal_keeps, h, hq, ‹At Q _›] at e); (try replace e := Eq.mp e trivial))); (try (have e := congrArg (fun p => At Q (Prod.fst p)) ‹_ = ((_, _) : State × _)›; simp only [keepsO_none, keepsP_none, keepsP_some, keepsP_ite, keepsM_value, keepsM_fault, State.memStore_keeps, illegal_keeps, h, hq] at e; (try simp only [keepsO_none, keepsP_none, keepsP_some, keepsP_ite, keepsM_value, keepsM_fault, State.memStore_keeps, illegal_keeps, h, hq, ‹At Q _›] at e); (try replace e := Eq.mp e trivial))); (try (have e := congrArg (KeepsO Q) ‹_ = some _›; simp only [keepsO_none, keepsP_none, keepsP_some, keepsP_ite, keepsM_value, keepsM_fault, State.memStore_keeps, illegal_keeps, h, hq] at e; (try simp only [keepsO_none, keepsP_none, keepsP_some, keepsP_ite, keepsM_value, keepsM_fault, State.memStore_keeps, illegal_keeps, h, hq, ‹At Q _›] at e); (try replace e := Eq.mp e trivial))); (try (have e := congrArg (KeepsP Q) ‹_ = some _›; simp only [keepsO_none, keepsP_none, keepsP_some, keepsP_ite, keepsM_value, keepsM_fault, State.memStore_keeps, illegal_keeps, h, hq] at e; (try simp only [keepsO_none, keepsP_none, keepsP_some, keepsP_ite, keepsM_value, keepsM_fault, State.memStore_keeps, illegal_keeps, h, hq, ‹At Q _›] at e); (try replace e := Eq.mp e trivial))); (try (have e := congrArg (KeepsM Q) ‹_ = MemOut.value _ _›; simp only [keepsO_none, keepsP_none, keepsP_some, keepsP_ite, keepsM_value, keepsM_fault, State.memStore_keeps, illegal_keeps, h, hq] at e; (try simp only [keepsO_none, keepsP_none, keepsP_some, keepsP_ite, keepsM_value, keepsM_fault, State.memStore_keeps, illegal_keeps, h, hq, ‹At Q _›] at e); (try replace e := Eq.mp e trivial))); (try (have e := congrArg (KeepsM Q) ‹_ = MemOut.fault _›; simp only [keepsO_none, keepsP_none, keepsP_some, keepsP_ite, keepsM_value, keepsM_fault, State.memStore_keeps, illegal_keeps, h, hq] at e; (try simp only [keepsO_none, keepsP_none, keepsP_some, keepsP_ite, keepsM_value, keepsM_fault, State.memStore_keeps, illegal_keeps, h, hq, ‹At Q _›] at e); (try replace e := Eq.mp e trivial))))) | (intro _) | (simp only [keepsO_none, keepsP_none, keepsP_some, keepsP_ite, keepsM_value, keepsM_fault, State.memStore_keeps, illegal_keeps, h, hq]))

theorem State.csrInst_keeps (Q : Parts) (s : State) (debug : Bool) (f3 rd rs1 n i : Nat) (h : At Q s) : KeepsP Q
  (State.csrInst s debug f3 rd rs1 n i) := by
  unfold State.csrInst; repeat' (first | assumption | (simp only [keepsO_none, keepsO_some, keepsP_none, keepsP_some, State.csrWrite_keeps, State.setX_keeps, illegal_keeps, h, *]; done) | with_reducible apply onBit_keeps | with_reducible apply State.did_keeps | with_reducible apply keeps_whenOpen | with_reducible apply grow_foldl | with_reducible apply keepsP_map | with_reducible apply keepsPO_map | with_reducible apply keepsOP_map | (split <;> ((try (have e := congrArg (fun p => At Q (Prod.snd p)) ‹_ = ((_, _) : _ × State)›; simp only [keepsO_none, keepsO_some, keepsP_none, keepsP_some, State.csrWrite_keeps, State.setX_keeps, illegal_keeps, h] at e; (try simp only [keepsO_none, keepsO_some, keepsP_none, keepsP_some, State.csrWrite_keeps, State.setX_keeps, illegal_keeps, h, ‹At Q _›] at e); (try replace e := Eq.mp e trivial))); (try (have e := congrArg (fun p => At Q (Prod.fst p)) ‹_ = ((_, _) : State × _)›; simp only [keepsO_none, keepsO_some, keepsP_none, keepsP_some, State.csrWrite_keeps, State.setX_keeps, illegal_keeps, h] at e; (try simp only [keepsO_none, keepsO_some, keepsP_none, keepsP_some, State.csrWrite_keeps, State.setX_keeps, illegal_keeps, h, ‹At Q _›] at e); (try replace e := Eq.mp e trivial))); (try (have e := congrArg (KeepsO Q) ‹_ = some _›; simp only [keepsO_none, keepsO_some, keepsP_none, keepsP_some, State.csrWrite_keeps, State.setX_keeps, illegal_keeps, h] at e; (try simp only [keepsO_none, keepsO_some, keepsP_none, keepsP_some, State.csrWrite_keeps, State.setX_keeps, illegal_keeps, h, ‹At Q _›] at e); (try replace e := Eq.mp e trivial))); (try (have e := congrArg (KeepsP Q) ‹_ = some _›; simp only [keepsO_none, keepsO_some, keepsP_none, keepsP_some, State.csrWrite_keeps, State.setX_keeps, illegal_keeps, h] at e; (try simp only [keepsO_none, keepsO_some, keepsP_none, keepsP_some, State.csrWrite_keeps, State.setX_keeps, illegal_keeps, h, ‹At Q _›] at e); (try replace e := Eq.mp e trivial))); (try (have e := congrArg (KeepsM Q) ‹_ = MemOut.value _ _›; simp only [keepsO_none, keepsO_some, keepsP_none, keepsP_some, State.csrWrite_keeps, State.setX_keeps, illegal_keeps, h] at e; (try simp only [keepsO_none, keepsO_some, keepsP_none, keepsP_some, State.csrWrite_keeps, State.setX_keeps, illegal_keeps, h, ‹At Q _›] at e); (try replace e := Eq.mp e trivial))); (try (have e := congrArg (KeepsM Q) ‹_ = MemOut.fault _›; simp only [keepsO_none, keepsO_some, keepsP_none, keepsP_some, State.csrWrite_keeps, State.setX_keeps, illegal_keeps, h] at e; (try simp only [keepsO_none, keepsO_some, keepsP_none, keepsP_some, State.csrWrite_keeps, State.setX_keeps, illegal_keeps, h, ‹At Q _›] at e); (try replace e := Eq.mp e trivial))))) | (intro _) | (simp only [keepsO_none, keepsO_some, keepsP_none, keepsP_some, State.csrWrite_keeps, State.setX_keeps, illegal_keeps, h]))

theorem State.mret_keeps (Q : Parts) (s : State) : At Q (State.mret s).1 = At Q s := by
  unfold State.mret; simp only [State.setCsr_keeps]

theorem State.systemInst_keeps (Q : Parts) (s : State) (debug : Bool) (i : Nat) (h : At Q s) : KeepsP Q
  (State.systemInst s debug i) := by
  unfold State.systemInst; simp only [ite_self, keepsP_some, keepsP_ite, State.csrInst_keeps, State.mret_keeps, illegal_keeps, h]

theorem State.inst_keeps (Q : Parts) (s : State) (p : Path) (rom debug : Bool) (pc : Word) (len i : Nat) (hq : Grow Q) (h :
  At Q s) : KeepsP Q (State.inst s p rom debug pc len i) := by
  unfold State.inst; ((try simp only [ite_self, keepsO_none, keepsP_none, keepsP_some, keepsP_ite, State.loadInst_keeps, State.setX_keeps, State.storeInst_keeps, State.systemInst_keeps, illegal_keeps, h, hq]); repeat' (first | (simp only [ite_self, keepsO_none, keepsP_none, keepsP_some, keepsP_ite, State.loadInst_keeps, State.setX_keeps, State.storeInst_keeps, State.systemInst_keeps, illegal_keeps, h, hq]; done) | split))

theorem State.instAt_keeps (Q : Parts) (s : State) (p : Path) (rom debug : Bool) (pc : Word) (lo hi : Nat) (hq : Grow Q) (h :
  At Q s) : KeepsP Q (State.instAt s p rom debug pc lo hi) := by
  unfold State.instAt; (repeat' (first | (simp only [keepsO_none, keepsP_none, State.inst_keeps, illegal_keeps, h, hq]; done) | split))

theorem State.endInst_keeps (Q : Parts) (s : State) (pc : Word) (len : Nat) (e : Ending) : At Q
  (State.endInst s pc len e).1 = At Q s := by
  unfold State.endInst; (split <;> simp only [same_mk, same_fold, same_ite, ite_fst, ite_self, keepsO_none, keepsP_none, State.takeTrap_keeps])

theorem State.userInst_keeps (Q : Parts) (s : State) (pc : Word) (hq : Grow Q) (h : At Q s) :
    KeepsP Q (State.userInst s pc) := by
  unfold State.userInst
  dsimp only
  split
  · simp only [keepsP_some, State.endInst_keeps, h]
  · have k := State.fetchHalf_keeps Q s pc.toNat h
    split
    · exact keepsP_none Q
    · rename_i g; rw [g] at k; simp only [keepsM_fault] at k; simp only [keepsP_some, State.endInst_keeps, k]
    · rename_i lo t g
      rw [g] at k
      simp only [keepsM_value] at k
      have j : KeepsM Q (if (if lo % 4 = 3 then 4 else 2) = 4 then t.fetchHalf (pc.toNat + 2) else .value 0 t) := by
        simp only [keepsM_ite, keepsM_value, State.fetchHalf_keeps, k, ite_self]
      generalize (if (if lo % 4 = 3 then 4 else 2) = 4 then t.fetchHalf (pc.toNat + 2) else MemOut.value 0 t) = o at j ⊢
      split
      · exact keepsP_none Q
      · simp only [keepsM_fault] at j; simp only [keepsP_some, State.endInst_keeps, j]
      · simp only [keepsM_value] at j
        apply keepsP_map
        · simp only [State.instAt_keeps, hq, j]
        · intro r hr; simp only [State.endInst_keeps, hr]

theorem State.routineReturns_keeps (Q : Parts) (s : State) : At Q (State.routineReturns s) = At Q s := by
  unfold State.routineReturns; simp only [same_mk, same_fold, same_foldl, same_foldl_fst, implies_true, State.openWord_keeps,
    State.setX_keeps]

theorem State.openErrors_keeps (Q : Parts) (s : State) (a n : Nat) : At Q (State.openErrors s a n).2 = At Q s := by
  unfold State.openErrors; simp only [same_mk, same_fold]

theorem State.routineCalled_keeps (Q : Parts) (s : State) (family index : Nat) (hq : Grow Q) (h : At Q s) : KeepsO Q
  (State.routineCalled s family index) := by
  unfold State.routineCalled; simp only [same_mk, same_fold, same_ite, ite_self, keepsO_none, keepsO_some, keepsO_ite,
    keepsP_none, State.did_keeps, State.openErrors_keeps, State.routineReturns_keeps, callRoutine_keeps, execFlashWait_keeps,
    execUpdWait_keeps, h, hq]

theorem State.userNext_keeps (Q : Parts) (s : State) (hq : Grow Q) (h : At Q s) : KeepsP Q (State.userNext s) := by
  unfold State.userNext; repeat' (first | assumption | (simp only [keepsO_none, keepsP_none, State.routineCalled_keeps, State.userInst_keeps, h, hq, *]; done) | with_reducible apply onBit_keeps | with_reducible apply State.did_keeps | with_reducible apply keeps_whenOpen | with_reducible apply grow_foldl | with_reducible apply keepsP_map | with_reducible apply keepsPO_map | with_reducible apply keepsOP_map | (split <;> ((try (have e := congrArg (fun p => At Q (Prod.snd p)) ‹_ = ((_, _) : _ × State)›; simp only [keepsO_none, keepsP_none, State.routineCalled_keeps, State.userInst_keeps, h, hq] at e; (try simp only [keepsO_none, keepsP_none, State.routineCalled_keeps, State.userInst_keeps, h, hq, ‹At Q _›] at e); (try replace e := Eq.mp e trivial))); (try (have e := congrArg (fun p => At Q (Prod.fst p)) ‹_ = ((_, _) : State × _)›; simp only [keepsO_none, keepsP_none, State.routineCalled_keeps, State.userInst_keeps, h, hq] at e; (try simp only [keepsO_none, keepsP_none, State.routineCalled_keeps, State.userInst_keeps, h, hq, ‹At Q _›] at e); (try replace e := Eq.mp e trivial))); (try (have e := congrArg (KeepsO Q) ‹_ = some _›; simp only [keepsO_none, keepsP_none, State.routineCalled_keeps, State.userInst_keeps, h, hq] at e; (try simp only [keepsO_none, keepsP_none, State.routineCalled_keeps, State.userInst_keeps, h, hq, ‹At Q _›] at e); (try replace e := Eq.mp e trivial))); (try (have e := congrArg (KeepsP Q) ‹_ = some _›; simp only [keepsO_none, keepsP_none, State.routineCalled_keeps, State.userInst_keeps, h, hq] at e; (try simp only [keepsO_none, keepsP_none, State.routineCalled_keeps, State.userInst_keeps, h, hq, ‹At Q _›] at e); (try replace e := Eq.mp e trivial))); (try (have e := congrArg (KeepsM Q) ‹_ = MemOut.value _ _›; simp only [keepsO_none, keepsP_none, State.routineCalled_keeps, State.userInst_keeps, h, hq] at e; (try simp only [keepsO_none, keepsP_none, State.routineCalled_keeps, State.userInst_keeps, h, hq, ‹At Q _›] at e); (try replace e := Eq.mp e trivial))); (try (have e := congrArg (KeepsM Q) ‹_ = MemOut.fault _›; simp only [keepsO_none, keepsP_none, State.routineCalled_keeps, State.userInst_keeps, h, hq] at e; (try simp only [keepsO_none, keepsP_none, State.routineCalled_keeps, State.userInst_keeps, h, hq, ‹At Q _›] at e); (try replace e := Eq.mp e trivial))))) | (intro _) | (simp only [keepsO_none, keepsP_none, State.routineCalled_keeps, State.userInst_keeps, h, hq]))

theorem State.singleStep_keeps (Q : Parts) (s : State) (hq : Grow Q) (h : At Q s) : KeepsO Q (State.singleStep s) := by
  unfold State.singleStep; repeat' (first | assumption | (simp only [same_ite, ite_self, keepsO_none, keepsO_some, keepsP_none, State.haltCore_keeps, State.takeTrap_keeps, State.userNext_keeps, h, hq, *]; done) | with_reducible apply onBit_keeps | with_reducible apply State.did_keeps | with_reducible apply keeps_whenOpen | with_reducible apply grow_foldl | with_reducible apply keepsP_map | with_reducible apply keepsPO_map | with_reducible apply keepsOP_map | (split <;> ((try (have e := congrArg (fun p => At Q (Prod.snd p)) ‹_ = ((_, _) : _ × State)›; simp only [same_ite, ite_self, keepsO_none, keepsO_some, keepsP_none, State.haltCore_keeps, State.takeTrap_keeps, State.userNext_keeps, h, hq] at e; (try simp only [same_ite, ite_self, keepsO_none, keepsO_some, keepsP_none, State.haltCore_keeps, State.takeTrap_keeps, State.userNext_keeps, h, hq, ‹At Q _›] at e); (try replace e := Eq.mp e trivial))); (try (have e := congrArg (fun p => At Q (Prod.fst p)) ‹_ = ((_, _) : State × _)›; simp only [same_ite, ite_self, keepsO_none, keepsO_some, keepsP_none, State.haltCore_keeps, State.takeTrap_keeps, State.userNext_keeps, h, hq] at e; (try simp only [same_ite, ite_self, keepsO_none, keepsO_some, keepsP_none, State.haltCore_keeps, State.takeTrap_keeps, State.userNext_keeps, h, hq, ‹At Q _›] at e); (try replace e := Eq.mp e trivial))); (try (have e := congrArg (KeepsO Q) ‹_ = some _›; simp only [same_ite, ite_self, keepsO_none, keepsO_some, keepsP_none, State.haltCore_keeps, State.takeTrap_keeps, State.userNext_keeps, h, hq] at e; (try simp only [same_ite, ite_self, keepsO_none, keepsO_some, keepsP_none, State.haltCore_keeps, State.takeTrap_keeps, State.userNext_keeps, h, hq, ‹At Q _›] at e); (try replace e := Eq.mp e trivial))); (try (have e := congrArg (KeepsP Q) ‹_ = some _›; simp only [same_ite, ite_self, keepsO_none, keepsO_some, keepsP_none, State.haltCore_keeps, State.takeTrap_keeps, State.userNext_keeps, h, hq] at e; (try simp only [same_ite, ite_self, keepsO_none, keepsO_some, keepsP_none, State.haltCore_keeps, State.takeTrap_keeps, State.userNext_keeps, h, hq, ‹At Q _›] at e); (try replace e := Eq.mp e trivial))); (try (have e := congrArg (KeepsM Q) ‹_ = MemOut.value _ _›; simp only [same_ite, ite_self, keepsO_none, keepsO_some, keepsP_none, State.haltCore_keeps, State.takeTrap_keeps, State.userNext_keeps, h, hq] at e; (try simp only [same_ite, ite_self, keepsO_none, keepsO_some, keepsP_none, State.haltCore_keeps, State.takeTrap_keeps, State.userNext_keeps, h, hq, ‹At Q _›] at e); (try replace e := Eq.mp e trivial))); (try (have e := congrArg (KeepsM Q) ‹_ = MemOut.fault _›; simp only [same_ite, ite_self, keepsO_none, keepsO_some, keepsP_none, State.haltCore_keeps, State.takeTrap_keeps, State.userNext_keeps, h, hq] at e; (try simp only [same_ite, ite_self, keepsO_none, keepsO_some, keepsP_none, State.haltCore_keeps, State.takeTrap_keeps, State.userNext_keeps, h, hq, ‹At Q _›] at e); (try replace e := Eq.mp e trivial))))) | (intro _) | (simp only [same_ite, ite_self, keepsO_none, keepsO_some, keepsP_none, State.haltCore_keeps, State.takeTrap_keeps, State.userNext_keeps, h, hq]))

theorem State.coreTick_keeps (Q : Parts) (s : State) (hq : Grow Q) (h : At Q s) : At Q (State.coreTick s) := by
  unfold State.coreTick; repeat' (first | (simp only [same_mk, same_fold, same_ite, ite_self, keepsO_none, keepsP_none, keepsP_some, State.open_keeps, State.haltCore_keeps, State.routineReturns_keeps, State.takeTrap_keeps, State.userNext_keeps, h, hq, *]; done) | (split <;> ((try (have e := congrArg (fun p => At Q (Prod.snd p)) ‹_ = ((_, _) : _ × State)›; simp only [same_mk, same_fold, same_ite, ite_self, keepsO_none, keepsP_none, keepsP_some, State.open_keeps, State.haltCore_keeps, State.routineReturns_keeps, State.takeTrap_keeps, State.userNext_keeps, h, hq] at e; (try simp only [same_mk, same_fold, same_ite, ite_self, keepsO_none, keepsP_none, keepsP_some, State.open_keeps, State.haltCore_keeps, State.routineReturns_keeps, State.takeTrap_keeps, State.userNext_keeps, h, hq, ‹At Q _›] at e); (try replace e := Eq.mp e trivial))); (try (have e := congrArg (fun p => At Q (Prod.fst p)) ‹_ = ((_, _) : State × _)›; simp only [same_mk, same_fold, same_ite, ite_self, keepsO_none, keepsP_none, keepsP_some, State.open_keeps, State.haltCore_keeps, State.routineReturns_keeps, State.takeTrap_keeps, State.userNext_keeps, h, hq] at e; (try simp only [same_mk, same_fold, same_ite, ite_self, keepsO_none, keepsP_none, keepsP_some, State.open_keeps, State.haltCore_keeps, State.routineReturns_keeps, State.takeTrap_keeps, State.userNext_keeps, h, hq, ‹At Q _›] at e); (try replace e := Eq.mp e trivial))); (try (have e := congrArg (KeepsO Q) ‹_ = some _›; simp only [same_mk, same_fold, same_ite, ite_self, keepsO_none, keepsP_none, keepsP_some, State.open_keeps, State.haltCore_keeps, State.routineReturns_keeps, State.takeTrap_keeps, State.userNext_keeps, h, hq] at e; (try simp only [same_mk, same_fold, same_ite, ite_self, keepsO_none, keepsP_none, keepsP_some, State.open_keeps, State.haltCore_keeps, State.routineReturns_keeps, State.takeTrap_keeps, State.userNext_keeps, h, hq, ‹At Q _›] at e); (try replace e := Eq.mp e trivial))); (try (have e := congrArg (KeepsP Q) ‹_ = some _›; simp only [same_mk, same_fold, same_ite, ite_self, keepsO_none, keepsP_none, keepsP_some, State.open_keeps, State.haltCore_keeps, State.routineReturns_keeps, State.takeTrap_keeps, State.userNext_keeps, h, hq] at e; (try simp only [same_mk, same_fold, same_ite, ite_self, keepsO_none, keepsP_none, keepsP_some, State.open_keeps, State.haltCore_keeps, State.routineReturns_keeps, State.takeTrap_keeps, State.userNext_keeps, h, hq, ‹At Q _›] at e); (try replace e := Eq.mp e trivial))); (try (have e := congrArg (KeepsM Q) ‹_ = MemOut.value _ _›; simp only [same_mk, same_fold, same_ite, ite_self, keepsO_none, keepsP_none, keepsP_some, State.open_keeps, State.haltCore_keeps, State.routineReturns_keeps, State.takeTrap_keeps, State.userNext_keeps, h, hq] at e; (try simp only [same_mk, same_fold, same_ite, ite_self, keepsO_none, keepsP_none, keepsP_some, State.open_keeps, State.haltCore_keeps, State.routineReturns_keeps, State.takeTrap_keeps, State.userNext_keeps, h, hq, ‹At Q _›] at e); (try replace e := Eq.mp e trivial))); (try (have e := congrArg (KeepsM Q) ‹_ = MemOut.fault _›; simp only [same_mk, same_fold, same_ite, ite_self, keepsO_none, keepsP_none, keepsP_some, State.open_keeps, State.haltCore_keeps, State.routineReturns_keeps, State.takeTrap_keeps, State.userNext_keeps, h, hq] at e; (try simp only [same_mk, same_fold, same_ite, ite_self, keepsO_none, keepsP_none, keepsP_some, State.open_keeps, State.haltCore_keeps, State.routineReturns_keeps, State.takeTrap_keeps, State.userNext_keeps, h, hq, ‹At Q _›] at e); (try replace e := Eq.mp e trivial))))))

end Sys2Proof.Machine
end

