-- ==== Sys2Proof/Laws/KeepsDebug.lean ====
section
/-! SUPPORT. What the definitions of Debug leave as they are: the waiting commands and the fuse words. -/

namespace Sys2Proof.Machine

open Sys2Proof

set_option simprocs false
set_option linter.unusedSimpArgs false
set_option linter.all false

theorem State.haltRequest_keeps (Q : Parts) (s : State) : At Q (State.haltRequest s) = At Q s := by
  unfold State.haltRequest; simp only [same_mk, same_fold, same_ite, ite_self, State.haltCore_keeps]

theorem State.resumeRequest_keeps (Q : Parts) (s : State) (hq : Grow Q) (h : At Q s) : At Q (State.resumeRequest s) := by
  unfold State.resumeRequest; repeat' (first | assumption | (simp only [same_mk, same_fold, keepsO_none, keepsO_some, keepsP_none, State.resumeCore_keeps, State.singleStep_keeps, h, hq, *]; done) | with_reducible apply onBit_keeps | with_reducible apply State.did_keeps | with_reducible apply keeps_whenOpen | with_reducible apply grow_foldl | with_reducible apply keepsP_map | with_reducible apply keepsPO_map | with_reducible apply keepsOP_map | (split <;> ((try (have e := congrArg (fun p => At Q (Prod.snd p)) ‹_ = ((_, _) : _ × State)›; simp only [same_mk, same_fold, keepsO_none, keepsO_some, keepsP_none, State.resumeCore_keeps, State.singleStep_keeps, h, hq] at e; (try simp only [same_mk, same_fold, keepsO_none, keepsO_some, keepsP_none, State.resumeCore_keeps, State.singleStep_keeps, h, hq, ‹At Q _›] at e); (try replace e := Eq.mp e trivial))); (try (have e := congrArg (fun p => At Q (Prod.fst p)) ‹_ = ((_, _) : State × _)›; simp only [same_mk, same_fold, keepsO_none, keepsO_some, keepsP_none, State.resumeCore_keeps, State.singleStep_keeps, h, hq] at e; (try simp only [same_mk, same_fold, keepsO_none, keepsO_some, keepsP_none, State.resumeCore_keeps, State.singleStep_keeps, h, hq, ‹At Q _›] at e); (try replace e := Eq.mp e trivial))); (try (have e := congrArg (KeepsO Q) ‹_ = some _›; simp only [same_mk, same_fold, keepsO_none, keepsO_some, keepsP_none, State.resumeCore_keeps, State.singleStep_keeps, h, hq] at e; (try simp only [same_mk, same_fold, keepsO_none, keepsO_some, keepsP_none, State.resumeCore_keeps, State.singleStep_keeps, h, hq, ‹At Q _›] at e); (try replace e := Eq.mp e trivial))); (try (have e := congrArg (KeepsP Q) ‹_ = some _›; simp only [same_mk, same_fold, keepsO_none, keepsO_some, keepsP_none, State.resumeCore_keeps, State.singleStep_keeps, h, hq] at e; (try simp only [same_mk, same_fold, keepsO_none, keepsO_some, keepsP_none, State.resumeCore_keeps, State.singleStep_keeps, h, hq, ‹At Q _›] at e); (try replace e := Eq.mp e trivial))); (try (have e := congrArg (KeepsM Q) ‹_ = MemOut.value _ _›; simp only [same_mk, same_fold, keepsO_none, keepsO_some, keepsP_none, State.resumeCore_keeps, State.singleStep_keeps, h, hq] at e; (try simp only [same_mk, same_fold, keepsO_none, keepsO_some, keepsP_none, State.resumeCore_keeps, State.singleStep_keeps, h, hq, ‹At Q _›] at e); (try replace e := Eq.mp e trivial))); (try (have e := congrArg (KeepsM Q) ‹_ = MemOut.fault _›; simp only [same_mk, same_fold, keepsO_none, keepsO_some, keepsP_none, State.resumeCore_keeps, State.singleStep_keeps, h, hq] at e; (try simp only [same_mk, same_fold, keepsO_none, keepsO_some, keepsP_none, State.resumeCore_keeps, State.singleStep_keeps, h, hq, ‹At Q _›] at e); (try replace e := Eq.mp e trivial))))) | (intro _) | (simp only [same_mk, same_fold, keepsO_none, keepsO_some, keepsP_none, State.resumeCore_keeps, State.singleStep_keeps, h, hq]))

theorem execDebugHalt_keeps (Q : Parts) (s : State) (h : At Q s) : Keeps Q (execDebugHalt s) := by
  unfold execDebugHalt; simp only [keeps_whenOpen, State.haltRequest_keeps, h]

theorem execDebugResume_keeps (Q : Parts) (s : State) (hq : Grow Q) (h : At Q s) : Keeps Q (execDebugResume s) := by
  unfold execDebugResume; simp only [keeps_whenOpen, State.resumeRequest_keeps, h, hq]

theorem execDefaultTrap_keeps (Q : Parts) (cause epc tval : Word) (s : State) (h : At Q s) : Keeps Q
  (execDefaultTrap cause epc tval s) := by
  unfold execDefaultTrap; simp only [same_mk, same_fold, same_ite, ite_self, keeps_next, State.defaultHandler_keeps,
    State.setCsr_keeps, h]

theorem State.runProgram_keeps (Q : Parts) (s : State) (x0 : Nat) (x1 : Nat) (hq : Grow Q) (h : At Q s) : At Q
  (State.runProgram s x0 x1).1 := by
  induction x0 generalizing s x1 with
  | zero => first | rfl | (rw [State.runProgram.eq_def]; simp only [same_ite, ite_fst, ite_self, keepsO_none, keepsP_none,
    keepsP_some, State.instAt_keeps, h, hq]; done) | simpa only [State.runProgram] using h
  | succ n ih =>
    rw [State.runProgram.eq_def]
    dsimp only
    repeat' (first | assumption | (simp only [same_ite, ite_fst, ite_self, keepsO_none, keepsP_none, keepsP_some, State.instAt_keeps, h, hq, *]; done) | with_reducible apply ih | with_reducible apply onBit_keeps | with_reducible apply State.did_keeps | with_reducible apply keeps_whenOpen | with_reducible apply grow_foldl | with_reducible apply keepsP_map | with_reducible apply keepsPO_map | with_reducible apply keepsOP_map | (split <;> ((try (have e := congrArg (fun p => At Q (Prod.snd p)) ‹_ = ((_, _) : _ × State)›; simp only [same_ite, ite_fst, ite_self, keepsO_none, keepsP_none, keepsP_some, State.instAt_keeps, h, hq] at e; (try simp only [same_ite, ite_fst, ite_self, keepsO_none, keepsP_none, keepsP_some, State.instAt_keeps, h, hq, ‹At Q _›] at e); (try replace e := Eq.mp e trivial))); (try (have e := congrArg (fun p => At Q (Prod.fst p)) ‹_ = ((_, _) : State × _)›; simp only [same_ite, ite_fst, ite_self, keepsO_none, keepsP_none, keepsP_some, State.instAt_keeps, h, hq] at e; (try simp only [same_ite, ite_fst, ite_self, keepsO_none, keepsP_none, keepsP_some, State.instAt_keeps, h, hq, ‹At Q _›] at e); (try replace e := Eq.mp e trivial))); (try (have e := congrArg (KeepsO Q) ‹_ = some _›; simp only [same_ite, ite_fst, ite_self, keepsO_none, keepsP_none, keepsP_some, State.instAt_keeps, h, hq] at e; (try simp only [same_ite, ite_fst, ite_self, keepsO_none, keepsP_none, keepsP_some, State.instAt_keeps, h, hq, ‹At Q _›] at e); (try replace e := Eq.mp e trivial))); (try (have e := congrArg (KeepsP Q) ‹_ = some _›; simp only [same_ite, ite_fst, ite_self, keepsO_none, keepsP_none, keepsP_some, State.instAt_keeps, h, hq] at e; (try simp only [same_ite, ite_fst, ite_self, keepsO_none, keepsP_none, keepsP_some, State.instAt_keeps, h, hq, ‹At Q _›] at e); (try replace e := Eq.mp e trivial))); (try (have e := congrArg (KeepsM Q) ‹_ = MemOut.value _ _›; simp only [same_ite, ite_fst, ite_self, keepsO_none, keepsP_none, keepsP_some, State.instAt_keeps, h, hq] at e; (try simp only [same_ite, ite_fst, ite_self, keepsO_none, keepsP_none, keepsP_some, State.instAt_keeps, h, hq, ‹At Q _›] at e); (try replace e := Eq.mp e trivial))); (try (have e := congrArg (KeepsM Q) ‹_ = MemOut.fault _›; simp only [same_ite, ite_fst, ite_self, keepsO_none, keepsP_none, keepsP_some, State.instAt_keeps, h, hq] at e; (try simp only [same_ite, ite_fst, ite_self, keepsO_none, keepsP_none, keepsP_some, State.instAt_keeps, h, hq, ‹At Q _›] at e); (try replace e := Eq.mp e trivial))))) | (intro _) | (simp only [same_ite, ite_fst, ite_self, keepsO_none, keepsP_none, keepsP_some, State.instAt_keeps, h, hq]))

theorem State.accessRegister_keeps (Q : Parts) (s : State) (write : Bool) (regno : Nat) (h : At Q s) : At Q
  (State.accessRegister s write regno).1 := by
  unfold State.accessRegister; repeat' (first | (simp only [same_mk, same_fold, same_ite, ite_fst, ite_self, keepsO_none, keepsO_some, keepsP_none, State.csrWrite_keeps, State.setX_keeps, h, *]; done) | (split <;> ((try (have e := congrArg (fun p => At Q (Prod.snd p)) ‹_ = ((_, _) : _ × State)›; simp only [same_mk, same_fold, same_ite, ite_fst, ite_self, keepsO_none, keepsO_some, keepsP_none, State.csrWrite_keeps, State.setX_keeps, h] at e; (try simp only [same_mk, same_fold, same_ite, ite_fst, ite_self, keepsO_none, keepsO_some, keepsP_none, State.csrWrite_keeps, State.setX_keeps, h, ‹At Q _›] at e); (try replace e := Eq.mp e trivial))); (try (have e := congrArg (fun p => At Q (Prod.fst p)) ‹_ = ((_, _) : State × _)›; simp only [same_mk, same_fold, same_ite, ite_fst, ite_self, keepsO_none, keepsO_some, keepsP_none, State.csrWrite_keeps, State.setX_keeps, h] at e; (try simp only [same_mk, same_fold, same_ite, ite_fst, ite_self, keepsO_none, keepsO_some, keepsP_none, State.csrWrite_keeps, State.setX_keeps, h, ‹At Q _›] at e); (try replace e := Eq.mp e trivial))); (try (have e := congrArg (KeepsO Q) ‹_ = some _›; simp only [same_mk, same_fold, same_ite, ite_fst, ite_self, keepsO_none, keepsO_some, keepsP_none, State.csrWrite_keeps, State.setX_keeps, h] at e; (try simp only [same_mk, same_fold, same_ite, ite_fst, ite_self, keepsO_none, keepsO_some, keepsP_none, State.csrWrite_keeps, State.setX_keeps, h, ‹At Q _›] at e); (try replace e := Eq.mp e trivial))); (try (have e := congrArg (KeepsP Q) ‹_ = some _›; simp only [same_mk, same_fold, same_ite, ite_fst, ite_self, keepsO_none, keepsO_some, keepsP_none, State.csrWrite_keeps, State.setX_keeps, h] at e; (try simp only [same_mk, same_fold, same_ite, ite_fst, ite_self, keepsO_none, keepsO_some, keepsP_none, State.csrWrite_keeps, State.setX_keeps, h, ‹At Q _›] at e); (try replace e := Eq.mp e trivial))); (try (have e := congrArg (KeepsM Q) ‹_ = MemOut.value _ _›; simp only [same_mk, same_fold, same_ite, ite_fst, ite_self, keepsO_none, keepsO_some, keepsP_none, State.csrWrite_keeps, State.setX_keeps, h] at e; (try simp only [same_mk, same_fold, same_ite, ite_fst, ite_self, keepsO_none, keepsO_some, keepsP_none, State.csrWrite_keeps, State.setX_keeps, h, ‹At Q _›] at e); (try replace e := Eq.mp e trivial))); (try (have e := congrArg (KeepsM Q) ‹_ = MemOut.fault _›; simp only [same_mk, same_fold, same_ite, ite_fst, ite_self, keepsO_none, keepsO_some, keepsP_none, State.csrWrite_keeps, State.setX_keeps, h] at e; (try simp only [same_mk, same_fold, same_ite, ite_fst, ite_self, keepsO_none, keepsO_some, keepsP_none, State.csrWrite_keeps, State.setX_keeps, h, ‹At Q _›] at e); (try replace e := Eq.mp e trivial))))))

theorem State.abstractRuns_keeps (Q : Parts) (s : State) (v : Nat) (hq : Grow Q) (h : At Q s) : At Q
  (State.abstractRuns s v).1 := by
  unfold State.abstractRuns; simp only [same_ite, ite_fst, ite_snd, ite_self, State.accessRegister_keeps,
    State.runProgram_keeps, h, hq]

theorem State.abstractCommand_keeps (Q : Parts) (s : State) (v : Nat) (hq : Grow Q) (h : At Q s) : At Q
  (State.abstractCommand s v) := by
  unfold State.abstractCommand; simp only [same_mk, same_fold, same_ite, ite_self, State.abstractRuns_keeps, h, hq]

theorem State.sbNext_keeps (Q : Parts) (s : State) : At Q (State.sbNext s) = At Q s := by
  unfold State.sbNext; simp only [same_mk, same_fold, same_ite, ite_self]

theorem State.sbAccess_keeps (Q : Parts) (s : State) (write : Bool) (hq : Grow Q) (h : At Q s) : At Q
  (State.sbAccess s write) := by
  unfold State.sbAccess; simp only [same_mk, same_fold, same_ite, ite_self, State.readReg_keeps, State.sbNext_keeps,
    State.writeReg_keeps, h, hq]

theorem execSystemBusAccess_keeps (Q : Parts) (write : Bool) (addr data : Word) (s : State) (hq : Grow Q) (h : At Q s) :
  Keeps Q (execSystemBusAccess write addr data s) := by
  unfold execSystemBusAccess; simp only [same_mk, same_fold, keeps_whenOpen, State.sbAccess_keeps, h, hq]

theorem State.dmRead_keeps (Q : Parts) (s : State) (a : Nat) (hq : Grow Q) (h : At Q s) : At Q (State.dmRead s a).2 := by
  unfold State.dmRead; (repeat' (first | (simp only [same_ite, ite_self, State.sbAccess_keeps, h, hq]; done) | split))

theorem State.dmControl_keeps (Q : Parts) (s : State) (v : Word) (hq : Grow Q) (h : At Q s) : At Q (State.dmControl s v) := by
  unfold State.dmControl; simp only [same_mk, same_fold, same_ite, ite_self, State.haltRequest_keeps,
    State.resumeRequest_keeps, h, hq]

theorem State.dmWrite_keeps (Q : Parts) (s : State) (a : Nat) (v : Word) (hq : Grow Q) (h : At Q s) : At Q
  (State.dmWrite s a v) := by
  unfold State.dmWrite; (repeat' (first | (simp only [same_mk, same_fold, same_ite, ite_self, State.abstractCommand_keeps, State.dmControl_keeps, State.sbAccess_keeps, h, hq]; done) | split))

theorem execDtmcs_keeps (Q : Parts) (_v : Word) (s : State) (h : At Q s) : Keeps Q (execDtmcs _v s) := by
  unfold execDtmcs; simp only [keeps_whenOpen, State.open_keeps, State.jtagOut_keeps, h]

theorem execDmi_keeps (Q : Parts) (op : Fin 4) (addr : Fin 128) (data : Word) (s : State) (hq : Grow Q) (h : At Q s) : Keeps Q
  (execDmi op addr data s) := by
  unfold execDmi; simp only [same_mk, same_fold, same_ite, ite_self, keeps_whenOpen, State.dmRead_keeps, State.dmWrite_keeps,
    State.jtagOut_keeps, h, hq]

end Sys2Proof.Machine
end

