-- ==== Sys2Proof/Laws/KeepsClients.lean ====
section
/-! SUPPORT. What the definitions of Clients leave as they are: the waiting commands and the fuse words. -/

namespace Sys2Proof.Machine

open Sys2Proof

set_option simprocs false
set_option linter.unusedSimpArgs false
set_option linter.all false

theorem execCrossingStreamPull_keeps (Q : Parts) (n : Fin 96) (s : State) (h : At Q s) : Keeps Q
  (execCrossingStreamPull n s) := by
  unfold execCrossingStreamPull; repeat' (first | (simp only [same_ite, ite_self, keeps_next, keepsO_none, keepsP_none, State.laneWord_keeps, State.xngPull_keeps, h, *]; done) | (split <;> ((try (have e := congrArg (fun p => At Q (Prod.snd p)) ‹_ = ((_, _) : _ × State)›; simp only [same_ite, ite_self, keeps_next, keepsO_none, keepsP_none, State.laneWord_keeps, State.xngPull_keeps, h] at e; (try simp only [same_ite, ite_self, keeps_next, keepsO_none, keepsP_none, State.laneWord_keeps, State.xngPull_keeps, h, ‹At Q _›] at e); (try replace e := Eq.mp e trivial))); (try (have e := congrArg (fun p => At Q (Prod.fst p)) ‹_ = ((_, _) : State × _)›; simp only [same_ite, ite_self, keeps_next, keepsO_none, keepsP_none, State.laneWord_keeps, State.xngPull_keeps, h] at e; (try simp only [same_ite, ite_self, keeps_next, keepsO_none, keepsP_none, State.laneWord_keeps, State.xngPull_keeps, h, ‹At Q _›] at e); (try replace e := Eq.mp e trivial))); (try (have e := congrArg (KeepsO Q) ‹_ = some _›; simp only [same_ite, ite_self, keeps_next, keepsO_none, keepsP_none, State.laneWord_keeps, State.xngPull_keeps, h] at e; (try simp only [same_ite, ite_self, keeps_next, keepsO_none, keepsP_none, State.laneWord_keeps, State.xngPull_keeps, h, ‹At Q _›] at e); (try replace e := Eq.mp e trivial))); (try (have e := congrArg (KeepsP Q) ‹_ = some _›; simp only [same_ite, ite_self, keeps_next, keepsO_none, keepsP_none, State.laneWord_keeps, State.xngPull_keeps, h] at e; (try simp only [same_ite, ite_self, keeps_next, keepsO_none, keepsP_none, State.laneWord_keeps, State.xngPull_keeps, h, ‹At Q _›] at e); (try replace e := Eq.mp e trivial))); (try (have e := congrArg (KeepsM Q) ‹_ = MemOut.value _ _›; simp only [same_ite, ite_self, keeps_next, keepsO_none, keepsP_none, State.laneWord_keeps, State.xngPull_keeps, h] at e; (try simp only [same_ite, ite_self, keeps_next, keepsO_none, keepsP_none, State.laneWord_keeps, State.xngPull_keeps, h, ‹At Q _›] at e); (try replace e := Eq.mp e trivial))); (try (have e := congrArg (KeepsM Q) ‹_ = MemOut.fault _›; simp only [same_ite, ite_self, keeps_next, keepsO_none, keepsP_none, State.laneWord_keeps, State.xngPull_keeps, h] at e; (try simp only [same_ite, ite_self, keeps_next, keepsO_none, keepsP_none, State.laneWord_keeps, State.xngPull_keeps, h, ‹At Q _›] at e); (try replace e := Eq.mp e trivial))))))

theorem State.endpointPush_keeps (Q : Parts) (s : State) (n ep : Nat) : At Q (State.endpointPush s n ep) = At Q s := by
  unfold State.endpointPush; (split <;> simp only [same_ite, ite_self, State.fifoPush_keeps, State.tokenTaken_keeps])

theorem execFifoPush_keeps (Q : Parts) (n : Fin 64) (data : Dword) (tag : Byte) (s : State) (h : At Q s) : Keeps Q
  (execFifoPush n data tag s) := by
  unfold execFifoPush; simp only [same_ite, ite_self, keeps_next, keeps_ite, State.endpointPush_keeps, State.fifoPush_keeps,
    State.portCount_keeps, h]

theorem execFifoPop_keeps (Q : Parts) (n : Fin 64) (ecc : Ecc) (s : State) (h : At Q s) : Keeps Q (execFifoPop n ecc s) := by
  unfold execFifoPop; simp only [same_ite, ite_self, keeps_next, keeps_ite, State.fifoPop_keeps, State.laneWord_keeps,
    State.portCount_keeps, execEndpointTransmit_keeps, h]

theorem State.portTake_keeps (Q : Parts) (s : State) (cls idx : Nat) (h : At Q s) : KeepsO Q (State.portTake s cls idx) := by
  unfold State.portTake; repeat' (first | (simp only [same_mk, same_fold, keepsO_none, keepsO_some, keepsP_none, State.setLine_keeps, State.setStamp_keeps, State.slotTake_keeps, State.tokenTaken_keeps, h, *]; done) | (split <;> ((try (have e := congrArg (fun p => At Q (Prod.snd p)) ‹_ = ((_, _) : _ × State)›; simp only [same_mk, same_fold, keepsO_none, keepsO_some, keepsP_none, State.setLine_keeps, State.setStamp_keeps, State.slotTake_keeps, State.tokenTaken_keeps, h] at e; (try simp only [same_mk, same_fold, keepsO_none, keepsO_some, keepsP_none, State.setLine_keeps, State.setStamp_keeps, State.slotTake_keeps, State.tokenTaken_keeps, h, ‹At Q _›] at e); (try replace e := Eq.mp e trivial))); (try (have e := congrArg (fun p => At Q (Prod.fst p)) ‹_ = ((_, _) : State × _)›; simp only [same_mk, same_fold, keepsO_none, keepsO_some, keepsP_none, State.setLine_keeps, State.setStamp_keeps, State.slotTake_keeps, State.tokenTaken_keeps, h] at e; (try simp only [same_mk, same_fold, keepsO_none, keepsO_some, keepsP_none, State.setLine_keeps, State.setStamp_keeps, State.slotTake_keeps, State.tokenTaken_keeps, h, ‹At Q _›] at e); (try replace e := Eq.mp e trivial))); (try (have e := congrArg (KeepsO Q) ‹_ = some _›; simp only [same_mk, same_fold, keepsO_none, keepsO_some, keepsP_none, State.setLine_keeps, State.setStamp_keeps, State.slotTake_keeps, State.tokenTaken_keeps, h] at e; (try simp only [same_mk, same_fold, keepsO_none, keepsO_some, keepsP_none, State.setLine_keeps, State.setStamp_keeps, State.slotTake_keeps, State.tokenTaken_keeps, h, ‹At Q _›] at e); (try replace e := Eq.mp e trivial))); (try (have e := congrArg (KeepsP Q) ‹_ = some _›; simp only [same_mk, same_fold, keepsO_none, keepsO_some, keepsP_none, State.setLine_keeps, State.setStamp_keeps, State.slotTake_keeps, State.tokenTaken_keeps, h] at e; (try simp only [same_mk, same_fold, keepsO_none, keepsO_some, keepsP_none, State.setLine_keeps, State.setStamp_keeps, State.slotTake_keeps, State.tokenTaken_keeps, h, ‹At Q _›] at e); (try replace e := Eq.mp e trivial))); (try (have e := congrArg (KeepsM Q) ‹_ = MemOut.value _ _›; simp only [same_mk, same_fold, keepsO_none, keepsO_some, keepsP_none, State.setLine_keeps, State.setStamp_keeps, State.slotTake_keeps, State.tokenTaken_keeps, h] at e; (try simp only [same_mk, same_fold, keepsO_none, keepsO_some, keepsP_none, State.setLine_keeps, State.setStamp_keeps, State.slotTake_keeps, State.tokenTaken_keeps, h, ‹At Q _›] at e); (try replace e := Eq.mp e trivial))); (try (have e := congrArg (KeepsM Q) ‹_ = MemOut.fault _›; simp only [same_mk, same_fold, keepsO_none, keepsO_some, keepsP_none, State.setLine_keeps, State.setStamp_keeps, State.slotTake_keeps, State.tokenTaken_keeps, h] at e; (try simp only [same_mk, same_fold, keepsO_none, keepsO_some, keepsP_none, State.setLine_keeps, State.setStamp_keeps, State.slotTake_keeps, State.tokenTaken_keeps, h, ‹At Q _›] at e); (try replace e := Eq.mp e trivial))))))

theorem execFabricTokenTake_keeps (Q : Parts) (port : Fin 384) (s : State) (h : At Q s) : Keeps Q
  (execFabricTokenTake port s) := by
  unfold execFabricTokenTake; repeat' (first | assumption | (simp only [same_ite, keeps_next, keepsO_none, keepsO_some, keepsP_none, State.portTake_keeps, h, *]; done) | with_reducible apply onBit_keeps | with_reducible apply State.did_keeps | with_reducible apply keeps_whenOpen | with_reducible apply grow_foldl | with_reducible apply keepsP_map | with_reducible apply keepsPO_map | with_reducible apply keepsOP_map | (split <;> ((try (have e := congrArg (fun p => At Q (Prod.snd p)) ‹_ = ((_, _) : _ × State)›; simp only [same_ite, keeps_next, keepsO_none, keepsO_some, keepsP_none, State.portTake_keeps, h] at e; (try simp only [same_ite, keeps_next, keepsO_none, keepsO_some, keepsP_none, State.portTake_keeps, h, ‹At Q _›] at e); (try replace e := Eq.mp e trivial))); (try (have e := congrArg (fun p => At Q (Prod.fst p)) ‹_ = ((_, _) : State × _)›; simp only [same_ite, keeps_next, keepsO_none, keepsO_some, keepsP_none, State.portTake_keeps, h] at e; (try simp only [same_ite, keeps_next, keepsO_none, keepsO_some, keepsP_none, State.portTake_keeps, h, ‹At Q _›] at e); (try replace e := Eq.mp e trivial))); (try (have e := congrArg (KeepsO Q) ‹_ = some _›; simp only [same_ite, keeps_next, keepsO_none, keepsO_some, keepsP_none, State.portTake_keeps, h] at e; (try simp only [same_ite, keeps_next, keepsO_none, keepsO_some, keepsP_none, State.portTake_keeps, h, ‹At Q _›] at e); (try replace e := Eq.mp e trivial))); (try (have e := congrArg (KeepsP Q) ‹_ = some _›; simp only [same_ite, keeps_next, keepsO_none, keepsO_some, keepsP_none, State.portTake_keeps, h] at e; (try simp only [same_ite, keeps_next, keepsO_none, keepsO_some, keepsP_none, State.portTake_keeps, h, ‹At Q _›] at e); (try replace e := Eq.mp e trivial))); (try (have e := congrArg (KeepsM Q) ‹_ = MemOut.value _ _›; simp only [same_ite, keeps_next, keepsO_none, keepsO_some, keepsP_none, State.portTake_keeps, h] at e; (try simp only [same_ite, keeps_next, keepsO_none, keepsO_some, keepsP_none, State.portTake_keeps, h, ‹At Q _›] at e); (try replace e := Eq.mp e trivial))); (try (have e := congrArg (KeepsM Q) ‹_ = MemOut.fault _›; simp only [same_ite, keeps_next, keepsO_none, keepsO_some, keepsP_none, State.portTake_keeps, h] at e; (try simp only [same_ite, keeps_next, keepsO_none, keepsO_some, keepsP_none, State.portTake_keeps, h, ‹At Q _›] at e); (try replace e := Eq.mp e trivial))))) | (intro _) | (simp only [same_ite, keeps_next, keepsO_none, keepsO_some, keepsP_none, State.portTake_keeps, h]))

end Sys2Proof.Machine
end

