-- ==== Sys2Proof/Laws/KeepsIdle.lean ====
section
/-! SUPPORT. What the definitions of Idle leave as they are: the waiting commands and the fuse words. -/

namespace Sys2Proof.Machine

open Sys2Proof

set_option simprocs false
set_option linter.unusedSimpArgs false
set_option linter.all false

theorem State.beatUnits_keeps (Q : Parts) (s : State) : At Q (State.beatUnits s) = At Q s := by
  unfold State.beatUnits; simp only [same_mk, same_fold, same_ite, ite_fst, ite_snd, ite_self, implies_true,
  State.capturesBeat_keeps, State.crossingsBeat_keeps, State.evalBeat_keeps, State.fifosBeat_keeps,
  State.linesBeat_keeps, State.panelsBeat_keeps, State.ppsBeat_keeps, State.routeBeat_keeps, State.sheetsBeat_keeps,
  State.stayBeat_keeps]

theorem State.drains_keeps (Q : Parts) (s : State) (hq : Grow Q) (h : At Q s) : At Q (State.drains s) := by
  unfold State.drains; simp only [same_mk, same_fold, same_ite, same_foldl, same_foldl_snd, same_foldl_fst, ite_fst,
  ite_snd, ite_self, implies_true, State.coreTick_keeps, State.drainHbuf_keeps, State.fabTick_keeps,
  State.teqDrain_keeps, h, hq]

theorem State.idle_keeps (Q : Parts) (s : State) (hq : Grow Q) (h : At Q s) : At Q (State.idle s) := by
  unfold State.idle; simp only [same_mk, same_fold, same_ite, ite_fst, ite_snd, ite_self, implies_true,
  State.beatUnits_keeps, State.drains_keeps, State.passTime_keeps, h, hq]

theorem execSlewDone_keeps (Q : Parts) (s : State) (hq : Grow Q) (h : At Q s) : Keeps Q (execSlewDone s) := by
  unfold execSlewDone; simp only [same_mk, same_fold, same_ite, ite_fst, ite_snd, ite_self, keeps_next, keeps_ite,
  implies_true, State.idle_keeps, h, hq]

end Sys2Proof.Machine
end

