-- ==== Sys2Proof/Laws/Keeps.lean ====
section
/-! SUPPORT. What every command and every tick leaves as it is: the waiting commands; and the fuse words, whose bits only go from 0 to
1.  Any property of these two that programming more fuse bits keeps is kept. -/

namespace Sys2Proof.Machine

open Sys2Proof

theorem exec_keeps (Q : Parts) (hq : Grow Q) (i : Instr) (s : State) (h : At Q s) : Keeps Q (exec i s) := by
  cases i with
  | por => exact execPor_keeps Q s hq h
  | porstNAssert lag => exact execPorstNAssert_keeps Q lag s hq h
  | porstNRelease => exact execPorstNRelease_keeps Q s hq h
  | supplyDropout lag => exact execSupplyDropout_keeps Q lag s hq h
  | vddfOutOfRange => exact execVddfOutOfRange_keeps Q s h
  | pfiAssert => exact execPfiAssert_keeps Q s h
  | pfiDeassert => exact execPfiDeassert_keeps Q s hq h
  | reefCommand p v => exact execReefCommand_keeps Q p v s h
  | reefEntryComplete => exact execReefEntryComplete_keeps Q s h
  | wakeLatch n => exact execWakeLatch_keeps Q n s h
  | reefWake => exact execReefWake_keeps Q s hq h
  | tamper => exact execTamper_keeps Q s h
  | vbatLoss => exact execVbatLoss_keeps Q s h
  | romBoot straps fails => exact execRomBoot_keeps Q straps fails s h
  | romBootComplete mV late p => exact execRomBootComplete_keeps Q mV late p s h
  | directoryRead noise => exact execDirectoryRead_keeps Q noise s h
  | imageHeader answers noise errs => exact execImageHeader_keeps Q answers noise errs s h
  | imageRecord noise errs => exact execImageRecord_keeps Q noise errs s h
  | hostDataWord p w => exact execHostDataWord_keeps Q p w s h
  | hostWordTimeout => exact execHostWordTimeout_keeps Q s h
  | rehoist p v => exact execRehoist_keeps Q p v s hq h
  | hostLoad p v => exact execHostLoad_keeps Q p v s hq h
  | mastPllLock => exact execMastPllLock_keeps Q s h
  | mastPllUnlock => exact execMastPllUnlock_keeps Q s h
  | clockLoopWaitEnd codes => exact execClockLoopWaitEnd_keeps Q codes s h
  | clockLoopTimeout => exact execClockLoopTimeout_keeps Q s h
  | halyardTaken => exact execHalyardTaken_keeps Q s h
  | halyardTimeout => exact execHalyardTimeout_keeps Q s h
  | releaseStage => exact execReleaseStage_keeps Q s h
  | updateServiceAtSail errs => exact execUpdateServiceAtSail_keeps Q errs s hq h
  | confirmWindowClose => exact execConfirmWindowClose_keeps Q s hq h
  | phaseCommit p lo => exact execPhaseCommit_keeps Q p lo s h
  | stepApply => exact execStepApply_keeps Q s h
  | slewDone => exact execSlewDone_keeps Q s hq h
  | freqRampUpdate => exact execFreqRampUpdate_keeps Q s h
  | mastFreqWrite p v => exact execMastFreqWrite_keeps Q p v s h
  | slewCancel => exact execSlewCancel_keeps Q s h
  | markSet => exact execMarkSet_keeps Q s h
  | unset => exact execUnset_keeps Q s h
  | refinLoss => exact execRefinLoss_keeps Q s h
  | refinReturn => exact execRefinReturn_keeps Q s h
  | xt32Stop => exact execXt32Stop_keeps Q s h
  | xt32Resume => exact execXt32Resume_keeps Q s h
  | rcalWindowComplete => exact execRcalWindowComplete_keeps Q s h
  | wideLoRead p addr => exact execWideLoRead_keeps Q p addr s h
  | wideHiWrite p addr v => exact execWideHiWrite_keeps Q p addr v s hq h
  | ppsInEdge edge => exact execPpsInEdge_keeps Q edge s h
  | ppsTimeout => exact execPpsTimeout_keeps Q s h
  | todCommit p lo => exact execTodCommit_keeps Q p lo s h
  | ptpAtCommit p lo => exact execPtpAtCommit_keeps Q p lo s h
  | ptpSampleCommit p lo => exact execPtpSampleCommit_keeps Q p lo s h
  | ptpTimeout => exact execPtpTimeout_keeps Q s h
  | ptpDisq => exact execPtpDisq_keeps Q s h
  | synceMeasurement meas => exact execSynceMeasurement_keeps Q meas s h
  | steerAuthWrite p auth => exact execSteerAuthWrite_keeps Q p auth s h
  | injClear => exact execInjClear_keeps Q s h
  | modelReset => exact execModelReset_keeps Q s h
  | modelTrefWrite p v => exact execModelTrefWrite_keeps Q p v s h
  | snapNow => exact execSnapNow_keeps Q s h
  | modelEpoch => exact execModelEpoch_keeps Q s h
  | modelPrediction => exact execModelPrediction_keeps Q s h
  | periodicSnapshot => exact execPeriodicSnapshot_keeps Q s h
  | ppsOutPulse => exact execPpsOutPulse_keeps Q s h
  | cmpValCommit p n lo => exact execCmpValCommit_keeps Q p n lo s h
  | compareFire n => exact execCompareFire_keeps Q n s h
  | timerOverflow n => exact execTimerOverflow_keeps Q n s h
  | timerMatch n => exact execTimerMatch_keeps Q n s h
  | timerStart n => exact execTimerStart_keeps Q n s h
  | timerStop n => exact execTimerStop_keeps Q n s h
  | timerReset n => exact execTimerReset_keeps Q n s h
  | timerOriginCommit p n lo => exact execTimerOriginCommit_keeps Q p n lo s h
  | timerPeriodWrite p n lo => exact execTimerPeriodWrite_keeps Q p n lo s h
  | gstartNow => exact execGstartNow_keeps Q s h
  | gstartAt => exact execGstartAt_keeps Q s h
  | captureLeadingEdge n fine => exact execCaptureLeadingEdge_keeps Q n fine s h
  | captureTrailingEdge n fine => exact execCaptureTrailingEdge_keeps Q n fine s h
  | captureRiseRead p n => exact execCaptureRiseRead_keeps Q p n s h
  | captureWinOpen n => exact execCaptureWinOpen_keeps Q n s h
  | captureWinClose n => exact execCaptureWinClose_keeps Q n s h
  | sheetTokenAccept idx token => exact execSheetTokenAccept_keeps Q idx token s h
  | sheetRelease idx => exact execSheetRelease_keeps Q idx s h
  | sheetRecal codes => exact execSheetRecal_keeps Q codes s h
  | calibrationTrack codes => exact execCalibrationTrack_keeps Q codes s h
  | stampChannelEdge n level fine => exact execStampChannelEdge_keeps Q n level fine s h
  | illegalDualRail loc => exact execIllegalDualRail_keeps Q loc s h
  | edgePortStall n => exact execEdgePortStall_keeps Q n s h
  | panelStuck k => exact execPanelStuck_keeps Q k s h
  | quiesce p => exact execQuiesce_keeps Q p s h
  | quiesceComplete k => exact execQuiesceComplete_keeps Q k s h
  | quiesceTimeout k => exact execQuiesceTimeout_keeps Q k s h
  | resume p => exact execResume_keeps Q p s h
  | panelLoad p => exact execPanelLoad_keeps Q p s h
  | panelReleaseStage k => exact execPanelReleaseStage_keeps Q k s h
  | panelLoadWordTimeout => exact execPanelLoadWordTimeout_keeps Q s h
  | panelAbort p => exact execPanelAbort_keeps Q p s h
  | panelHostData p w => exact execPanelHostData_keeps Q p w s h
  | icpDataToken d => exact execIcpDataToken_keeps Q d s h
  | fenceHandshake entry d => exact execFenceHandshake_keeps Q entry d s h
  | crossingPulseEvent n acknowledge => exact execCrossingPulseEvent_keeps Q n acknowledge s h
  | crossingLevelTransfer n level => exact execCrossingLevelTransfer_keeps Q n level s h
  | crossingWordTransfer n w => exact execCrossingWordTransfer_keeps Q n w s h
  | crossingRequest n => exact execCrossingRequest_keeps Q n s h
  | crossingStreamWrite n w => exact execCrossingStreamWrite_keeps Q n w s h
  | crossingStreamTake n => exact execCrossingStreamTake_keeps Q n s h
  | crossingStreamPull n => exact execCrossingStreamPull_keeps Q n s h
  | crossingWatchdogExpiry n => exact execCrossingWatchdogExpiry_keeps Q n s h
  | unpark n edges => exact execUnpark_keeps Q n edges s h
  | rstC n => exact execRstC_keeps Q n s h
  | crossingResetExit n clocked => exact execCrossingResetExit_keeps Q n clocked s h
  | crossingResyncDone n => exact execCrossingResyncDone_keeps Q n s h
  | crossingClrHwm n => exact execCrossingClrHwm_keeps Q n s h
  | mailboxPop n => exact execMailboxPop_keeps Q n s h
  | mailboxCommit p n lo => exact execMailboxCommit_keeps Q p n lo s h
  | fifoPush n data tag => exact execFifoPush_keeps Q n data tag s h
  | fifoPop n ecc => exact execFifoPop_keeps Q n ecc s h
  | fifoRegisterPush p n lo => exact execFifoRegisterPush_keeps Q p n lo s h
  | fifoRegisterPop p n ecc => exact execFifoRegisterPop_keeps Q p n ecc s h
  | fifoFlush n => exact execFifoFlush_keeps Q n s h
  | fifoClrHwm n => exact execFifoClrHwm_keeps Q n s h
  | scrubVisit ecc touched => exact execScrubVisit_keeps Q ecc touched s h
  | lanePllLock k => exact execLanePllLock_keeps Q k s h
  | laneCdrLock k => exact execLaneCdrLock_keeps Q k s h
  | lanePcsLock k => exact execLanePcsLock_keeps Q k s h
  | laneLockLoss k what => exact execLaneLockLoss_keeps Q k what s h
  | laneUp k => exact execLaneUp_keeps Q k s h
  | laneDown k => exact execLaneDown_keeps Q k s h
  | receiveFrame k f => exact execReceiveFrame_keeps Q k f s h
  | transmitFrameStart k j lead => exact execTransmitFrameStart_keeps Q k j lead s h
  | transmitUnderrun k => exact execTransmitUnderrun_keeps Q k s h
  | txtsPop k => exact execTxtsPop_keeps Q k s h
  | shroudPortAlign q => exact execShroudPortAlign_keeps Q q s h
  | trainFlit q good rxReady peerSeen port => exact execTrainFlit_keeps Q q good rxReady peerSeen port s h
  | shroudPortDown q cause => exact execShroudPortDown_keeps Q q cause s h
  | shroudFrame q bytes => exact execShroudFrame_keeps Q q bytes s h
  | ackFlit q good nak seq => exact execAckFlit_keeps Q q good nak seq s h
  | replayTimeout q => exact execReplayTimeout_keeps Q q s h
  | creditFlit q good vc0 vc1 => exact execCreditFlit_keeps Q q good vc0 vc1 s h
  | helloSend => exact execHelloSend_keeps Q s h
  | hello q data => exact execHello_keeps Q q data s h
  | coordSeqTick => exact execCoordSeqTick_keeps Q s h
  | formQuiet => exact execFormQuiet_keeps Q s h
  | topo frame => exact execTopo_keeps Q frame s h
  | formationComplete => exact execFormationComplete_keeps Q s h
  | route q bytes => exact execRoute_keeps Q q bytes s h
  | routeSwitch => exact execRouteSwitch_keeps Q s h
  | linkdown q uid port epoch => exact execLinkdown_keeps Q q uid port epoch s h
  | coordinatorLost => exact execCoordinatorLost_keeps Q s h
  | reform => exact execReform_keeps Q s h
  | shroudSyncReq arrived ofs => exact execShroudSyncReq_keeps Q arrived ofs s h
  | shroudSyncResp q t2 t3 ep set ofs => exact execShroudSyncResp_keeps Q q t2 t3 ep set ofs s h
  | report addr aligned => exact execReport_keeps Q addr aligned s h
  | endpointTransmit n feed => exact execEndpointTransmit_keeps Q n feed s h
  | endpointCreditFrame n => exact execEndpointCreditFrame_keeps Q n s h
  | probe n => exact execProbe_keeps Q n s h
  | probeReply n recv taken => exact execProbeReply_keeps Q n recv taken s h
  | peerWrite p n rx v => exact execPeerWrite_keeps Q p n rx v s h
  | heartbeatSend => exact execHeartbeatSend_keeps Q s h
  | heartbeat good role flags => exact execHeartbeat_keeps Q good role flags s h
  | heartbeatMiss => exact execHeartbeatMiss_keeps Q s h
  | actInChange level => exact execActInChange_keeps Q level s h
  | takeoverComplete => exact execTakeoverComplete_keeps Q s h
  | claimWaitEnd => exact execClaimWaitEnd_keeps Q s h
  | contention => exact execContention_keeps Q s h
  | pair uid primary sig => exact execPair_keeps Q uid primary sig s h
  | switchover p v => exact execSwitchover_keeps Q p v s h
  | handoverAck => exact execHandoverAck_keeps Q s h
  | refresh cmd => exact execRefresh_keeps Q cmd s h
  | mirrorChangeFrame idx => exact execMirrorChangeFrame_keeps Q idx s h
  | mirrorReg items => exact execMirrorReg_keeps Q items s h
  | mirrorTimer idx data => exact execMirrorTimer_keeps Q idx data s h
  | mirrorCompare idx data => exact execMirrorCompare_keeps Q idx data s h
  | mirrorDsc data => exact execMirrorDsc_keeps Q data s h
  | mirrorModel record => exact execMirrorModel_keeps Q record s h
  | slot n t0 t1 t2 t3 => exact execSlot_keeps Q n t0 t1 t2 t3 s h
  | stayEnd => exact execStayEnd_keeps Q s h
  | mirrorSlotSnapshot n d => exact execMirrorSlotSnapshot_keeps Q n d s h
  | staySyncReq arrived ofs => exact execStaySyncReq_keeps Q arrived ofs s h
  | staySyncResp t2 t3 set ofs => exact execStaySyncResp_keeps Q t2 t3 set ofs s h
  | avsbusPoll mV mA => exact execAvsbusPoll_keeps Q mV mA s h
  | avsbusVoltageWrite => exact execAvsbusVoltageWrite_keeps Q s h
  | avsbusFault cmd => exact execAvsbusFault_keeps Q cmd s h
  | paceSample => exact execPaceSample_keeps Q s h
  | powerCapCheck => exact execPowerCapCheck_keeps Q s h
  | reserveSample code => exact execReserveSample_keeps Q code s h
  | chargeTimeout => exact execChargeTimeout_keeps Q s h
  | rsvVtgtWrite p v => exact execRsvVtgtWrite_keeps Q p v s h
  | ledgerRequest code cost reefOp => exact execLedgerRequest_keeps Q code cost reefOp s h
  | vbatMeasure mV => exact execVbatMeasure_keeps Q mV s h
  | vioCheck mV => exact execVioCheck_keeps Q mV s h
  | gpioStaticWrite p oe b v => exact execGpioStaticWrite_keeps Q p oe b v s h
  | eventLineTrigger n level fine => exact execEventLineTrigger_keeps Q n level fine s h
  | evCfgWrite p n v => exact execEvCfgWrite_keeps Q p n v s h
  | flashInfo c => exact execFlashInfo_keeps Q c s h
  | flashRead c errs => exact execFlashRead_keeps Q c errs s h
  | flashProgram c => exact execFlashProgram_keeps Q c s h
  | flashErase c => exact execFlashErase_keeps Q c s h
  | flashWait c => exact execFlashWait_keeps Q c s h
  | flashBlank c => exact execFlashBlank_keeps Q c s h
  | flashConfig c => exact execFlashConfig_keeps Q c s h
  | flashOperationComplete end_ => exact execFlashOperationComplete_keeps Q end_ s hq h
  | patrolRead errs => exact execPatrolRead_keeps Q errs s h
  | flcAccessRefused p ofs write => exact execFlcAccessRefused_keeps Q p ofs write s h
  | updInfo c => exact execUpdInfo_keeps Q c s h
  | updBegin c => exact execUpdBegin_keeps Q c s hq h
  | updWrite c => exact execUpdWrite_keeps Q c s hq h
  | updFinish c => exact execUpdFinish_keeps Q c s hq h
  | updVerify c => exact execUpdVerify_keeps Q c s hq h
  | updActivate c => exact execUpdActivate_keeps Q c s hq h
  | updConfirm c => exact execUpdConfirm_keeps Q c s hq h
  | updRetire c => exact execUpdRetire_keeps Q c s hq h
  | updGolden c => exact execUpdGolden_keeps Q c s hq h
  | updWait c => exact execUpdWait_keeps Q c s h
  | directoryWriteRetry => exact execDirectoryWriteRetry_keeps Q s hq h
  | confirmSWrite p v => exact execConfirmSWrite_keeps Q p v s hq h
  | zeroise p v => exact execZeroise_keeps Q p v s hq h
  | dbgChal p v => exact execDbgChal_keeps Q p v s hq h
  | dbgUnlock p v => exact execDbgUnlock_keeps Q p v s hq h
  | bbkLoad p v => exact execBbkLoad_keeps Q p v s hq h
  | plRaise p v => exact execPlRaise_keeps Q p v s hq h
  | plLower p v => exact execPlLower_keeps Q p v s hq h
  | fuseProg p v => exact execFuseProg_keeps Q p v s hq h
  | svnCommit p v => exact execSvnCommit_keeps Q p v s hq h
  | imgCmdComplete ok => exact execImgCmdComplete_keeps Q ok s hq h
  | dbgTokenWrite p w => exact execDbgTokenWrite_keeps Q p w s h
  | rbDataRead p errs => exact execRbDataRead_keeps Q p errs s h
  | idcode => exact execIdcode_keeps Q s h
  | bypass => exact execBypass_keeps Q s h
  | samplePreload bits_ => exact execSamplePreload_keeps Q bits_ s h
  | extest bits_ => exact execExtest_keeps Q bits_ s h
  | clamp => exact execClamp_keeps Q s h
  | highz => exact execHighz_keeps Q s h
  | dtmcs v => exact execDtmcs_keeps Q v s h
  | dmi op addr data => exact execDmi_keeps Q op addr data s hq h
  | cfgIn w => exact execCfgIn_keeps Q w s hq h
  | cfgStatus => exact execCfgStatus_keeps Q s h
  | plQuery => exact execPlQuery_keeps Q s h
  | mastPeek => exact execMastPeek_keeps Q s h
  | debugHalt => exact execDebugHalt_keeps Q s h
  | debugResume => exact execDebugResume_keeps Q s hq h
  | systemBusAccess write addr data => exact execSystemBusAccess_keeps Q write addr data s hq h
  | serviceEpisode errs => exact execServiceEpisode_keeps Q errs s hq h
  | defaultTrap cause epc tval => exact execDefaultTrap_keeps Q cause epc tval s h
  | spiWrite addr data drains => exact execSpiWrite_keeps Q addr data drains s hq h
  | spiWriteFixed addr data drains => exact execSpiWriteFixed_keeps Q addr data drains s hq h
  | spiWriteCrc addr data drains => exact execSpiWriteCrc_keeps Q addr data drains s hq h
  | spiWriteFixedCrc addr data drains => exact execSpiWriteFixedCrc_keeps Q addr data drains s hq h
  | spiRead addr waits len => exact execSpiRead_keeps Q addr waits len s hq h
  | spiReadFixed addr waits len => exact execSpiReadFixed_keeps Q addr waits len s hq h
  | spiReadCrc addr waits len => exact execSpiReadCrc_keeps Q addr waits len s hq h
  | spiReadFixedCrc addr waits len => exact execSpiReadFixedCrc_keeps Q addr waits len s hq h
  | spiStatus => exact execSpiStatus_keeps Q s h
  | spiReadNotReady fixed crc addr waits => exact execSpiReadNotReady_keeps Q fixed crc addr waits s hq h
  | postedWrite i2c => exact execPostedWrite_keeps Q i2c s hq h
  | i2cWrite dev bytes drains => exact execI2cWrite_keeps Q dev bytes drains s hq h
  | i2cRead dev len => exact execI2cRead_keeps Q dev len s hq h
  | i2cStop restart => exact execI2cStop_keeps Q restart s h
  | i2cTimeout => exact execI2cTimeout_keeps Q s h
  | featAcceptWrite p k v => exact execFeatAcceptWrite_keeps Q p k v s h
  | featLock p v => exact execFeatLock_keeps Q p v s h
  | errHeadRead p => exact execErrHeadRead_keeps Q p s h
  | errPop p v => exact execErrPop_keeps Q p v s h
  | temperatureSample die c => exact execTemperatureSample_keeps Q die c s h
  | supplyMeasure vdds vdda vddh vddaux => exact execSupplyMeasure_keeps Q vdds vdda vddh vddaux s h
  | mboxCmd p v => exact execMboxCmd_keeps Q p v s h
  | mboxResult => exact execMboxResult_keeps Q s h
  | mboxBufDataAccess p w => exact execMboxBufDataAccess_keeps Q p w s h
  | unlistedOffsetAccess p addr w => exact execUnlistedOffsetAccess_keeps Q p addr w s h
  | registerWrite p addr v => exact execRegisterWrite_keeps Q p addr v s hq h
  | shroudPortPllLock q => exact execShroudPortPllLock_keeps Q q s h
  | shroudPortLockLoss q pll => exact execShroudPortLockLoss_keeps Q q pll s h
  | frameWaitTimeout q => exact execFrameWaitTimeout_keeps Q q s h
  | reportSend => exact execReportSend_keeps Q s h
  | syncSampleTimeout partner => exact execSyncSampleTimeout_keeps Q partner s h
  | dscFrameSend => exact execDscFrameSend_keeps Q s h
  | coreSuppliesLost lag => exact execCoreSuppliesLost_keeps Q lag s hq h
  | updateOperationComplete ok noise errs => exact execUpdateOperationComplete_keeps Q ok noise errs s hq h
  | fabricTokenTake port => exact execFabricTokenTake_keeps Q port s h
  | crossingStreamPush n w => exact execCrossingStreamPush_keeps Q n w s h
  | linkFaultSequence k remote on => exact execLinkFaultSequence_keeps Q k remote on s h
  | rcFieldRead p addr => exact execRcFieldRead_keeps Q p addr s h
  | spiUnknownCommand cmd => exact execSpiUnknownCommand_keeps Q cmd s h

/-- A tick with no command waiting keeps the property. -/
theorem idle_keeps (Q : Parts) (hq : Grow Q) (s : State) (h : At Q s) : At Q s.idle := State.idle_keeps Q s hq h

theorem exec_pending (i : Instr) (s t : State) (h : exec i s = .next t) : t.pending = s.pending :=
  (exec_keeps (fun p _ => p = s.pending) (fun _ _ _ _ k => k) i s rfl).next t h

theorem idle_pending (s : State) : s.idle.pending = s.pending :=
  idle_keeps (fun p _ => p = s.pending) (fun _ _ _ _ k => k) s rfl

end Sys2Proof.Machine
end

