-- ==== Sys2Proof/Tests/Slice0.lean ====
section
/-! SUPPORT. Small tests, and a witness for the hypotheses of each statement. -/

namespace Sys2Proof.Tests

open Sys2Proof Sys2Proof.Machine

/-- A state in Hoist, past ROM boot. -/
def hoistS : State := ((State.reset.clear F.MAST_STATUS_DOMAIN).raise F.MAST_STATUS_PLL_LOCK).setFld F.MODE_STATUS_HOIST_STEP 4

/-- A state in Sail. -/
def sailS : State :=
  { (State.reset.clear F.MAST_STATUS_DOMAIN).raise F.MAST_STATUS_PLL_LOCK with dev := { State.reset.dev with mode := .sail } }

/-- A state in Reef. -/
def reefS : State := { State.reset with dev := { State.reset.dev with mode := .reef } }

/-- The state with a long time gone by. -/
def later (s : State) : State := { s with mast := { s.mast with ran := 2 ^ 90 } }

/-- A state with two bits of the FLAGS fuse word programmed. -/
def fusedS : State := { sailS with keys := { sailS.keys with fuse := [(24, 5)] } }

/-- A Hoist that loads from host SPI. -/
def hostS : State :=
  { hoistS.setFld F.MODE_STATUS_HOIST_STEP 5 with hoist := { hoistS.hoist with src := 3, booted := true } }

/-- The header of an image without encryption. -/
def paramHdr : ImageHeader :=
  { kind := 1, enc := false, keysrc := 0, slot := 0, len := 4096, nrec := 9, segmax := 65536, mask := 0, svn := 0, build := 0, nonce := [] }

/-- A PARAM record of 24 bytes with its trailer. -/
def paramBytes : List Byte := [4, 0, 255, 0, 0, 0, 0, 0, 24, 0, 0, 0, 24, 0, 0, 0] ++ List.replicate 72 0

/-- A state in Sail with software steering. -/
def swS : State := (sailS.setFld F.DSC_CTRL_STEER_AUTH 2).raise F.DSC_CTRL_EN

/-- A state in Sail with the fabric's global reset released. -/
def fabS : State := sailS.clear F.FAB_STATUS_GSR

/-- A state in Sail with ports 0 and 4 UP. -/
def linkS : State := (sailS.setFld (linkFld 0) 4).setFld (linkFld 4) 4

/-- A STANDBY in Sail with the stay link UP, paired, signatures matching. -/
def stbyS : State := ((linkS.setFld F.STY_STATUS_ROLE 1).raise F.STY_STATUS_PAIRED).raise F.STY_STATUS_SIG_MATCH

/-- An ACTIVE member in Sail with the stay link UP, paired, signatures matching. -/
def actS : State := ((linkS.setFld F.STY_STATUS_ROLE 2).raise F.STY_STATUS_PAIRED).raise F.STY_STATUS_SIG_MATCH

theorem leNat_leBytes_four (v : BitVec 32) : leNat (leBytes 4 v.toNat) = v.toNat := by
  have h := v.isLt
  simp only [leBytes, leNat, BitVec.toNat_ofNat]
  omega

/-- The bytes of a journal record before its CRC: MAGIC and zeros. -/
def recBody : List Byte := [0x31, 0x4C, 0x44, 0x4D] ++ List.replicate 248 0

/-- A journal record of zeros with its MAGIC and CRC. -/
def goodRec : List Byte := recBody ++ leBytes 4 (crc32 recBody).toNat

theorem recBody_length : recBody.length = 252 := by
  rw [recBody, List.length_append, List.length_replicate]
  rfl

theorem goodRec_good : recordGood goodRec = true := by
  have e1 : goodRec.take 252 = recBody := List.take_left' recBody_length
  have e2 : goodRec.drop 252 = leBytes 4 (crc32 recBody).toNat := List.drop_left' recBody_length
  have e3 : goodRec.take 4 = [0x31, 0x4C, 0x44, 0x4D] := rfl
  unfold recordGood
  rw [e1, e2, e3, leNat_leBytes_four]
  simp only [beq_self_eq_true, Bool.and_true]
  decide

/-- The bytes of one flash unit. -/
def unitBytes : List Byte := List.replicate 32 7
/-- The first entry of slot A at 0x20000, 1,024 bytes long, in a state. -/
def slotEnt (st : Nat) : DirEntry := { slot := 0, state := st, seq := 1, addr := 0x20000, len := 1024 }

/-- Cells of a memory from an address on. -/
def cellsAt : Nat → List Byte → Memory
  | _, [] => []
  | a, b :: bs => (a, b) :: cellsAt (a + 1) bs

/-- The bytes of a directory copy with GEN 1 and one entry of slot A. -/
def dirBytes (st : Nat) (crc : List Byte) : List Byte :=
  [0x54, 0x47, 0x44, 0x52, 1, 0, 0, 0, 1, 0, 0, 0] ++ List.replicate 48 0 ++ [97, 80, 196, 220] ++
    [0x45, 0x4E, 0, BitVec.ofNat 8 st, 1, 0, 0, 0, 0, 0, 2, 0, 0, 4, 0, 0] ++ List.replicate 44 0 ++ crc

/-- A state in Sail with an external flash whose directory holds one entry of slot A in a state. -/
def dirS (st : Nat) (crc : List Byte) : State :=
  { sailS.raise F.HST_FLASH_INFO_PRESENT with xflash := cellsAt 0 (dirBytes st crc) ++ [(0x2000E, 0)] }

theorem cellsAt_bound {a : Nat} {bs : List Byte} {c : Host.Cell} (h : c ∈ cellsAt a bs) : c.1 < a + bs.length := by
  induction bs generalizing a with
  | nil => simp [cellsAt] at h
  | cons b bs ih =>
    simp only [cellsAt, List.mem_cons] at h
    rcases h with rfl | h
    · simp
    · have := ih h; simp only [List.length_cons]; omega

theorem filter_range_one (p : Nat → Bool) (n : Nat) (h0 : p 0 = true) (h : ∀ e, 1 ≤ e → e ≤ n → p e = false) :
    (List.range (n + 1)).filter p = [0] := by
  rw [List.range_succ_eq_map]
  simp only [List.filter_cons, h0, if_true]
  congr 1
  rw [List.filter_eq_nil_iff]
  intro x hx
  obtain ⟨y, hy, rfl⟩ := List.mem_map.mp hx
  have := List.mem_range.mp hy
  simp [h (y + 1) (by omega) (by omega)]

theorem usedEntries_of (s : State) (bs : List Byte) (h : s.xflash = cellsAt 0 bs ++ [(0x2000E, 0)]) (ho : s.xopen = []) (hl : bs.length = 128)
    (h0 : s.xflashBlank 64 64 = false) : s.usedEntries 0 = [0] := by
  refine filter_range_one _ 1022 (by simp [entryAddr, h0]) fun e he hn => ?_
  have : s.xflashBlank (entryAddr 0 e) 64 = true := by
    unfold State.xflashBlank
    rw [ho, h]
    simp only [Table.get, Option.isSome_none, Bool.false_eq_true, if_false, Bool.not_eq_true', List.any_eq_false, decide_eq_true_eq, not_and]
    intro c hc hge hlt
    simp only [entryAddr] at hge hlt
    rcases List.mem_append.mp hc with hc | hc
    · have := cellsAt_bound hc
      omega
    · rw [List.mem_singleton] at hc
      subst hc
      simp at hge hlt
      omega
  simp [this]
theorem slotEntry_of {s : State} {e : DirEntry} (hv : s.copyValid 0 = true) (hu : s.usedEntries 0 = [0])
    (he : entryOf (s.xflashBytes 64 64) = some e) (hs : e.slot = 0) : s.slotEntry 0 = some e := by
  simp only [State.slotEntry, State.dirEntries, State.dirCopy, hv, if_true, State.goodEntries, hu, entryAddr]
  simp [he, latestOf, hs, laterEntry]

def dir1 : State := dirS 1 [41, 150, 213, 78]
def dir2 : State := dirS 2 [133, 224, 42, 103]
def dir3 : State := dirS 3 [225, 50, 128, 127]
def dir4 : State := { (dirS 4 [221, 13, 212, 52]).raise F.UPD_STATUS_TRIAL with upd := { sailS.upd with window := some 0 } }
def dir5 : State := dirS 5 [185, 223, 126, 44]

theorem dir1_valid : dir1.copyValid 0 = true := by decide +kernel

theorem dir1_entry : dir1.slotEntry 0 = some (slotEnt 1) :=
  slotEntry_of dir1_valid (usedEntries_of _ (dirBytes 1 _) rfl rfl (by simp [dirBytes]) (by decide +kernel)) (by decide +kernel) rfl

theorem dir1_room : dir1.firstBlank 0 < 1000 := by decide +kernel

theorem dir2_valid : dir2.copyValid 0 = true := by decide +kernel

theorem dir2_entry : dir2.slotEntry 0 = some (slotEnt 2) :=
  slotEntry_of dir2_valid (usedEntries_of _ (dirBytes 2 _) rfl rfl (by simp [dirBytes]) (by decide +kernel)) (by decide +kernel) rfl

theorem dir2_room : dir2.firstBlank 0 < 1000 := by decide +kernel

theorem dir3_valid : dir3.copyValid 0 = true := by decide +kernel

theorem dir3_entry : dir3.slotEntry 0 = some (slotEnt 3) :=
  slotEntry_of dir3_valid (usedEntries_of _ (dirBytes 3 _) rfl rfl (by simp [dirBytes]) (by decide +kernel)) (by decide +kernel) rfl

theorem dir3_room : dir3.firstBlank 0 < 1000 := by decide +kernel

theorem dir4_valid : dir4.copyValid 0 = true := by decide +kernel

theorem dir4_entry : dir4.slotEntry 0 = some (slotEnt 4) :=
  slotEntry_of dir4_valid (usedEntries_of _ (dirBytes 4 _) rfl rfl (by simp [dirBytes]) (by decide +kernel)) (by decide +kernel) rfl

theorem dir4_room : dir4.firstBlank 0 < 1000 := by decide +kernel

theorem dir5_valid : dir5.copyValid 0 = true := by decide +kernel

theorem dir5_entry : dir5.slotEntry 0 = some (slotEnt 5) :=
  slotEntry_of dir5_valid (usedEntries_of _ (dirBytes 5 _) rfl rfl (by simp [dirBytes]) (by decide +kernel)) (by decide +kernel) rfl

theorem dir5_room : dir5.firstBlank 0 < 1000 := by decide +kernel


theorem slotEntry_other {s : State} {e : DirEntry} (hv : s.copyValid 0 = true) (hu : s.usedEntries 0 = [0])
    (he : entryOf (s.xflashBytes 64 64) = some e) (hs : e.slot = 0) : s.slotEntry 1 = none := by
  simp only [State.slotEntry, State.dirEntries, State.dirCopy, hv, if_true, State.goodEntries, hu, entryAddr]
  simp [he, latestOf, hs]

theorem dir3_other : dir3.slotState (1 - (0 : Word).toNat) ≠ 4 := by
  have h := slotEntry_other dir3_valid (usedEntries_of _ (dirBytes 3 _) rfl rfl (by simp [dirBytes]) (by decide +kernel))
    (by decide +kernel : entryOf (dir3.xflashBytes 64 64) = some (slotEnt 3)) rfl
  simp [State.slotState, h]

theorem dir3_begin : dir3.beginBad (1 : Word).toNat (0x30000 : Word).toNat (0x10004 : Word).toNat = false := by
  have h : dir3.slotEntry (1 - (1 : Word).toNat) = some (slotEnt 3) := dir3_entry
  rw [State.beginBad, h]
  decide

/-! ### States and operands that meet the statements' hypotheses -/

theorem witness_EmptyQueueIdles_1 :
    ∃ (s : State), s.pending = [] :=
  ⟨sailS, by decide⟩

theorem witness_EmptyQueueIdles_2 :
    ∃ (s : State), s.powered = false ∧ s.bit F.MAST_STATUS_DOMAIN = true ∧ s.timePasses = true ∧ s.mast.step = none ∧ s.runningTimers = [] ∧ s.armedCompares = [] :=
  ⟨{ reefS with mast := { reefS.mast with acc := 77 } }.raise F.MAST_STATUS_XT_OK, by decide⟩

theorem witness_EmptyQueueIdles_3 :
    ∃ (s : State), s.mastHolds = true :=
  ⟨reefS, by decide⟩

theorem witness_EmptyQueueIdles_4 :
    ∃ (s : State), s.powered = false ∧ s.timePasses = false :=
  ⟨reefS, by decide⟩

theorem witness_QueueOnlyConsumed_w1 : ∃ t, step { State.reset with pending := [.slewCancel, .markSet] } = .next t := ⟨_, rfl⟩

theorem witness_FuseBitsStay_w1 : HasFuseBits fusedS 24 5 ∧ ∃ t, step fusedS = .next t := ⟨by decide, _, rfl⟩

theorem witness_MastSteering_1 :
    ∃ (_p : Path) (_lo : Word) (s : State), Open s ∧ s.authority = 2 ∧ s.wideMirrored F.MAST_PHASE_LO = false ∧ s.bit F.MAST_CTRL_PH_MODE = false ∧ s.beatRuns = true :=
  ⟨.sup, 0xFFFFFFFF, { hoistS with mast := { hoistS.mast with rem := 5 } }, by decide⟩

theorem witness_MastSteering_2 :
    ∃ (p : Path) (lo : Word) (s : State), Open s ∧ s.authority = 2 ∧ s.wideMirrored F.MAST_PHASE_LO = false ∧ s.bit F.MAST_CTRL_PH_MODE = false ∧ s.beatRuns = false ∧ s.mast.step = none ∧ (s.mast.rem + signed 64 (s.commitWide p F.MAST_PHASE_LO lo).1 * 2 ^ 38).natAbs ≤ 2 ^ 78 :=
  ⟨.sup, 0xFFFFFFFF, hoistS.raise F.MAST_STATUS_DOMAIN, by decide⟩

theorem witness_MastSteering_3 :
    ∃ (_p : Path) (_lo : Word) (s : State), Open s ∧ s.authority = 2 ∧ s.wideMirrored F.MAST_PHASE_LO = false ∧ s.bit F.MAST_CTRL_PH_MODE = true ∧ (s.inSail && s.bit F.MAST_STATUS_SET) = false ∧ s.win.setWas = none ∧ s.mastHolds = false :=
  ⟨.sup, 0xFFFFFFFF, hoistS.raise F.MAST_CTRL_PH_MODE, by decide⟩

theorem witness_MastSteering_4 :
    ∃ (_p : Path) (_lo : Word) (s : State), Open s ∧ s.authority = 1 ∧ s.wideMirrored F.MAST_PHASE_LO = false :=
  ⟨.spi, 0xFFFFFFFF, (hoistS.raise F.DSC_CTRL_EN).setFld F.DSC_CTRL_STEER_AUTH 1, by decide⟩

theorem witness_MastSteering_5 :
    ∃ (_p : Path) (_lo : Word) (s : State), Open s ∧ s.authority = 0 :=
  ⟨.spi, 0xFFFFFFFF, (hoistS.raise F.DSC_CTRL_EN).setFld F.DSC_CTRL_STEER_AUTH 0, by decide⟩

theorem witness_MastSteering_6 :
    ∃ (s : State) (q : Int), s.mast.step = some q ∧ s.mast.afterStep = 0 :=
  ⟨{ sailS with mast := { sailS.mast with step := some (-4) } }, -4, by decide⟩

theorem witness_MastSteering_7 :
    ∃ (s : State), s.beatRuns = true ∧ s.mast.step = none ∧ s.mast.remWas = none ∧ s.mast.rem ≠ 0 ∧ s.slewTerm = s.mast.rem :=
  ⟨{ sailS with mast := { sailS.mast with rem := 5 } }.setFld F.MAST_SLEW_LIMIT_LIMIT_NS 1000, by decide⟩

theorem witness_MastSteering_8 :
    ∃ (s : State), s.beatRuns = true ∧ s.bit F.MAST_STATUS_SET = true ∧ s.mast.rampIdx < s.now / 4000000 :=
  ⟨((({ sailS with mast := { sailS.mast with acc := 4000000 * 2 ^ 38 } }.raise F.MAST_STATUS_SET).setReg F.MAST_FREQ 0xFFFFFF00).setReg F.MAST_FREQ_EFF 0x10).setFld F.MAST_SLEW_LIMIT_LIMIT_NS 100, by decide⟩

theorem witness_MastSteering_9 :
    ∃ (_p : Path) (_v : Word) (s : State), Open s ∧ s.authority = 2 ∧ s.mirrorMask F.MAST_FREQ = 0 :=
  ⟨.spi, 0x80000000, hoistS, by decide⟩

theorem witness_MastSteering_10 :
    ∃ (_p : Path) (_v : Word) (s : State), Open s ∧ s.authority ≠ 2 :=
  ⟨.spi, 0x80000000, (hoistS.raise F.DSC_CTRL_EN).setFld F.DSC_CTRL_STEER_AUTH 1, by decide⟩

theorem witness_MastSteering_11 :
    ∃ (s : State), s.beatRuns = true ∧ s.mast.step = none ∧ s.bit F.MAST_STATUS_SET = false :=
  ⟨hoistS.setFld F.MAST_FREQ_FREQ 12345, by decide⟩

theorem witness_MastSteering_12 :
    ∃ (s : State), Open s ∧ s.mast.remWas = none :=
  ⟨{ sailS with mast := { sailS.mast with rem := 5 } }, by decide⟩

theorem witness_MastSteering_13 :
    ∃ (s : State), Open s ∧ s.beatRuns = true ∧ s.mast.remWas.isSome = true :=
  ⟨{ sailS with mast := { sailS.mast with rem := 5 * 2 ^ 38, afterStep := 5, remWas := some 0 } }, by decide⟩

theorem witness_MastConditions_1 :
    ∃ (s : State), Open s ∧ s.bit F.HOIST_CAUSE_VBAT_LOST = false :=
  ⟨sailS.clear F.HOIST_CAUSE_VBAT_LOST, by decide⟩

theorem witness_MastConditions_2 :
    ∃ (s : State), Open s ∧ s.inHoist = true :=
  ⟨hoistS.raise F.MAST_STATUS_SET, by decide⟩

theorem witness_MastConditions_3 :
    ∃ (s : State), s.inSail = true :=
  ⟨sailS, by decide⟩

theorem witness_MastConditions_4 :
    ∃ (s : State), s.inHoist = true ∧ s.bit F.MAST_STATUS_REF_OK = true :=
  ⟨hoistS.raise F.MAST_STATUS_REF_OK, by decide⟩

theorem witness_MastConditions_5 :
    ∃ (s : State), s.inHoist = true :=
  ⟨hoistS, by decide⟩

theorem witness_MastConditions_6 :
    ∃ (s : State), s.bit F.MAST_STATUS_XT_OK = true ∧ s.bit F.MAST_STATUS_DOMAIN = false :=
  ⟨sailS.raise F.MAST_STATUS_XT_OK, by decide⟩

theorem witness_MastConditions_7 :
    ∃ (s : State), s.bit F.MAST_STATUS_XT_OK = false ∧ s.bit F.MAST_STATUS_DOMAIN = false :=
  ⟨sailS.clear F.MAST_STATUS_XT_OK, by decide⟩

theorem witness_MastConditions_8 :
    ∃ (s : State), s.bit F.MAST_STATUS_XT_OK = false ∧ s.bit F.MAST_STATUS_DOMAIN = true ∧ s.mast.xtTicks = false :=
  ⟨(sailS.clear F.MAST_STATUS_XT_OK).raise F.MAST_STATUS_DOMAIN, by decide⟩

theorem witness_MastConditions_9 :
    ∃ (s : State), s.powered = true ∧ s.bit F.MAST_STATUS_PLL_LOCK = false ∧ (s.inSail || s.hoist.refinLoaded) = true :=
  ⟨(sailS.clear F.MAST_STATUS_PLL_LOCK).raise F.MAST_STATUS_DOMAIN, by decide⟩

theorem witness_MastConditions_10 :
    ∃ (s : State), s.powered = true ∧ s.bit F.MAST_STATUS_PLL_LOCK = true ∧ s.bit F.MAST_STATUS_REF_OK = true ∧ s.beatRuns = true ∧ s.hoistAt 7 = false :=
  ⟨(sailS.setFld F.MAST_PLL_CFG_REFIN_SEL 1).raise F.MAST_STATUS_REF_OK, by decide⟩

theorem witness_MastConditions_11 :
    ∃ (s : State), s.powered = true ∧ s.bit F.MAST_STATUS_PLL_LOCK = true ∧ s.bit F.MAST_STATUS_REF_OK = false ∧ s.hoistAt 7 = false :=
  ⟨sailS.clear F.MAST_STATUS_REF_OK, by decide⟩

theorem witness_MastConditions_12 :
    ∃ (s : State) (start : Nat) (slew : Int), s.mast.window = some (start, slew) ∧ (((s.mast.acc + 2 ^ 102 - start) % 2 ^ 102 : Nat) : Int) - (s.mast.slewSum - slew) = nominalTick * (2 ^ 14 * 2097152) :=
  ⟨{ sailS with mast := { sailS.mast with window := some (7, 0), acc := 7 + nominalTick * (2 ^ 14 * 2097152) } }, 7, 0, by decide⟩

theorem witness_PowerUpAndReset_1 :
    ∃ (s : State), s.dev.mode = .off ∧ s.dev.supplies = false :=
  ⟨{ sailS with dev := { sailS.dev with mode := .off, supplies := false } }, by decide⟩

theorem witness_PowerUpAndReset_2 :
    ∃ (s : State), s.dev.porst = true ∧ s.powered = false ∧ s.dev.supplies = true :=
  ⟨{ reefS with dev := { reefS.dev with porst := true } }, by decide⟩

theorem witness_PowerUpAndReset_3 :
    ∃ (_lag : Nat) (s : State), s.powered = true :=
  ⟨3, sailS, by decide⟩

theorem witness_PowerUpAndReset_4 :
    ∃ (_lag : Nat) (s : State), s.powered = false :=
  ⟨3, reefS, by decide⟩

theorem witness_PowerUpAndReset_5 :
    ∃ (_lag : Nat) (s : State), s.powered = true ∧ s.bit F.PWR_STATUS_PFI = false ∧ s.bit F.MODE_STATUS_REEFING = false :=
  ⟨3, sailS, by decide⟩

theorem witness_PowerUpAndReset_6 :
    ∃ (s : State), s.powered = true :=
  ⟨sailS.setFld F.STY_STATUS_ROLE 2, by decide⟩

theorem witness_PowerUpAndReset_7 :
    ∃ (s : State), s.dev.supplies = false ∧ s.powered = false :=
  ⟨{ reefS with dev := { reefS.dev with supplies := false } }, by decide⟩

theorem witness_ReefEntryAndWake_1 :
    ∃ (s : State), s.inSail = true ∧ s.bit F.PWR_STATUS_PFI = false ∧ s.bit F.MODE_STATUS_REEFING = false ∧ Still s :=
  ⟨sailS, by decide⟩

theorem witness_ReefEntryAndWake_2 :
    ∃ (s : State), (s.inHoist && s.bit F.MODE_STATUS_PFI_PAUSED && s.dev.supplies) = false :=
  ⟨sailS.raise F.PWR_STATUS_PFI, by decide⟩

theorem witness_ReefEntryAndWake_3 :
    ∃ (s : State), s.inHoist = true ∧ s.bit F.MODE_STATUS_PFI_PAUSED = true ∧ s.dev.supplies = true :=
  ⟨(hoistS.raise F.MODE_STATUS_PFI_PAUSED).raise F.PWR_STATUS_PFI, by decide⟩

theorem witness_ReefEntryAndWake_4 :
    ∃ (_p : Path) (v : Word) (s : State), s.inSail = true ∧ s.bit F.MODE_STATUS_REEFING = false ∧ Still s ∧ v.getLsbD 0 = true ∧ bits v.toNat 31 16 = 0x5057 :=
  ⟨.i2c, 0x50570001, sailS, by decide⟩

theorem witness_ReefEntryAndWake_5 :
    ∃ (s : State), s.inSail = true ∧ s.bit F.PWR_STATUS_PFI = false ∧ s.bit F.MODE_STATUS_REEFING = true ∧ s.win.reef ≠ some false ∧ s.win.flashCall = none :=
  ⟨sailS.raise F.MODE_STATUS_REEFING, by decide⟩

theorem witness_ReefEntryAndWake_6 :
    ∃ (s : State), s.inSail = true ∧ s.bit F.MODE_STATUS_REEFING = true ∧ s.pwr.reefSnapDone = true ∧ s.pwr.reefPushDone = true ∧ s.stay.pushing = false ∧ Still s :=
  ⟨{ sailS.raise F.MODE_STATUS_REEFING with pwr := { sailS.pwr with reefSnapDone := true, reefPushDone := true, byPfi := true } }, by decide⟩

theorem witness_ReefEntryAndWake_7 :
    ∃ (_n : Fin 2) (s : State), s.dev.mode = .reef ∧ s.fld F.PWR_WAKE_CFG_WAKE0 ≠ 0 ∧ s.fld F.PWR_WAKE_CFG_WAKE1 ≠ 0 :=
  ⟨1, (reefS.setFld F.PWR_WAKE_CFG_WAKE0 1).setFld F.PWR_WAKE_CFG_WAKE1 3, by decide⟩

theorem witness_ReefEntryAndWake_8 :
    ∃ (_lag : Nat) (s : State), s.dev.mode = .reef :=
  ⟨0, reefS, by decide⟩

theorem witness_ReefEntryAndWake_9 :
    ∃ (s : State), s.dev.mode = .reef ∧ s.dev.porst = false ∧ s.pwr.wake1 = true :=
  ⟨{ reefS with pwr := { reefS.pwr with wake1 := true } }, by decide⟩

theorem witness_ReefEntryAndWake_10 :
    ∃ (s : State), s.powered = false ∧ s.win.bbkLoad = none :=
  ⟨{ reefS with keys := { reefS.keys with bbk := [1, 2] } }, by decide⟩

theorem witness_HoistBootAndSource_1 :
    ∃ (_straps : BitVec 11) (_fails : List Nat) (s : State), s.hoistAt 2 = true ∧ s.hoist.booted = false ∧ s.dev.porst = false ∧ s.flash.op = none ∧ s.hoist.waitsFlash = false :=
  ⟨5, [], State.reset, by decide⟩

theorem witness_HoistBootAndSource_2 :
    ∃ (mV : Nat) (_late : Bool) (_p : FlashProbe) (s : State), s.hoistAt 2 = true ∧ s.hoist.booted = true ∧ 790 ≤ mV ∧ mV ≤ 810 ∧ s.bit F.PWR_STATUS_PFI = false ∧ s.hoist.path = none ∧ s.fld F.HST_STRAPS_BOOTSEL = 0 :=
  ⟨810, false, { present := true, jedec := 0xC22019, signature := true, major := 1, minor := 6, density := 25, reads144 := true, reads114 := false, reads122 := false, reads112 := false, quadEnabled := true, table4 := true }, { State.reset with hoist := { State.reset.hoist with booted := true } }, by decide⟩

theorem witness_HoistBootAndSource_3 :
    ∃ (_noise : List (Nat × Byte)) (s : State), s.hoistAt 4 = true ∧ s.bit F.HST_FLASH_INFO_PRESENT = false ∧ s.bit F.PWR_STATUS_PFI = false ∧ s.hoist.src = 0 :=
  ⟨[], hoistS, by decide⟩

theorem witness_HoistBootAndSource_4 :
    ∃ (_p : Path) (_w : Word) (s : State), Open s ∧ s.inHoist = true ∧ s.hoist.src = 3 ∧ 5 ≤ s.hoistStep ∧ s.bit F.MODE_STATUS_PFI_PAUSED = false ∧ s.bit F.MODE_STATUS_PARKED = false ∧ s.bit F.HST_HOST_STATUS_WAITING = false ∧ s.load.ended = false ∧ s.hbuf.length < 64 :=
  ⟨.spi, 7, { hostS with hbuf := List.replicate 63 0 }, by decide⟩

theorem witness_HoistBootAndSource_5 :
    ∃ (_p : Path) (_w : Word) (s : State), Open s ∧ s.inHoist = true ∧ s.hoist.src = 3 ∧ 5 ≤ s.hoistStep ∧ s.bit F.MODE_STATUS_PFI_PAUSED = false ∧ s.bit F.MODE_STATUS_PARKED = false ∧ s.bit F.HST_HOST_STATUS_WAITING = true :=
  ⟨.spi, 7, hostS.raise F.HST_HOST_STATUS_WAITING, by decide⟩

theorem witness_HoistBootAndSource_6 :
    ∃ (s : State), s.loading = true ∧ s.hostSourced = true ∧ s.bit F.HST_HOST_STATUS_WAITING = false :=
  ⟨{ hostS with load := { hostS.load with active := true } }, by decide⟩

theorem witness_HoistBootAndSource_7 :
    ∃ (_p : Path) (v : Word) (s : State), Open s ∧ bits v.toNat 31 16 = 0x4853 ∧ v.toNat % 4 = 1 :=
  ⟨.spi, 0x48530001, sailS, by decide⟩

theorem witness_HoistBootAndSource_8 :
    ∃ (_p : Path) (v : Word) (s : State), s.inSail = true ∧ bits v.toNat 31 16 = 0x4853 ∧ v.toNat / 2 % 2 = 1 :=
  ⟨.spi, 0x48530003, sailS, by decide⟩

theorem witness_WrongHoistKey_1 :
    ∃ (_p : Path) (v : Word) (s : State), Open s ∧ bits v.toNat 31 16 ≠ 0x4853 :=
  ⟨.spi, 0x12340003, sailS, by decide⟩

theorem witness_ImageLoadAndRelease_1 :
    ∃ (_answers : Bool) (_noise : List (Nat × Byte)) (_errs : List (Nat × Nat)) (s : State), s.loading = true ∧ s.load.hdr = none ∧ s.load.src = .spi ∧ 512 ≤ s.load.got.length ∧ s.bit F.PWR_STATUS_PFI = false ∧ s.hostSourced = true :=
  ⟨true, [], [], { hostS with load := { hostS.load with active := true, src := .spi, got := List.replicate 512 0 } }, ⟨by decide, by decide, by decide, le_of_eq List.length_replicate.symm, by decide, by decide⟩⟩

theorem witness_ImageLoadAndRelease_2 :
    ∃ (_noise : List (Nat × Byte)) (_errs : List (Nat × Nat)) (h : ImageHeader) (s : State), s.loading = true ∧ s.load.hdr = some h ∧ s.load.src = .spi ∧ 16 ≤ s.load.got.length ∧ s.bit F.PWR_STATUS_PFI = false ∧ s.hostSourced = true ∧ recordHeaderFault h s.load (s.load.got.take 16) (recordOf (s.load.got.take 16) h.trailer) = none ∧ s.recordNeeds h [] ≤ s.load.got.length :=
  ⟨[], [], paramHdr, { hostS with load := { hostS.load with active := true, src := .spi, hdr := some paramHdr, got := paramBytes, types := [1] } }, by decide⟩

theorem witness_ImageLoadAndRelease_3 :
    ∃ (_codes : List Nat) (s : State), s.hoistAt 6 = true ∧ ((∀ i ∈ List.range 14, s.fld F.HST_PLL_STATUS_REQ / 2 ^ i % 2 = 0 ∨ s.fld F.HST_PLL_STATUS_LOCK / 2 ^ i % 2 = 1)) :=
  ⟨[3, 4], (hoistS.setFld F.MODE_STATUS_HOIST_STEP 6).setReg F.HST_PLL_STATUS 0x00010001, by decide⟩

theorem witness_ImageLoadAndRelease_4 :
    ∃ (s : State), s.hoistAt 6 = true ∧ s.hostSourced = true :=
  ⟨hostS.setFld F.MODE_STATUS_HOIST_STEP 6, by decide⟩

theorem witness_ImageLoadAndRelease_5 :
    ∃ (s : State), s.hoistAt 7 = true ∧ s.hoist.stage = 0 ∧ s.reg F.HST_REL_GAP1 ≠ 0 :=
  ⟨(hoistS.setFld F.MODE_STATUS_HOIST_STEP 7).setReg F.HST_REL_GAP1 9, by decide⟩

theorem witness_ImageLoadAndRelease_6 :
    ∃ (s : State), s.hoistAt 7 = true ∧ s.hoist.stage = 0 ∧ s.reg F.HST_REL_GAP1 ≠ 0 ∧ s.fld F.HST_HAL_CFG_TO_MS ≠ 0 :=
  ⟨((hoistS.setFld F.MODE_STATUS_HOIST_STEP 7).setReg F.HST_REL_GAP1 9).setFld F.HST_HAL_CFG_TO_MS 5, by decide⟩

theorem witness_ImageLoadAndRelease_7 :
    ∃ (s : State), s.hoistAt 8 = true ∧ s.hoist.stage = 1 ∧ s.reg F.HST_REL_GAP2 ≠ 0 ∧ atOrAfter s.now s.hoist.stageAt = true :=
  ⟨{ (hoistS.setFld F.MODE_STATUS_HOIST_STEP 8).setReg F.HST_REL_GAP2 4 with hoist := { hoistS.hoist with stage := 1 } }, by decide⟩

theorem witness_ImageLoadAndRelease_8 :
    ∃ (s : State), s.hoistAt 8 = true ∧ s.hoist.stage = 2 ∧ atOrAfter s.now s.hoist.stageAt = true :=
  ⟨{ hoistS.setFld F.MODE_STATUS_HOIST_STEP 8 with hoist := { hoistS.hoist with stage := 2 } }, by decide⟩

theorem witness_DisciplineSources_1 :
    ∃ (level : Bool) (_q : Fin 5) (s : State), s.inSail = true ∧ s.swSteers = true ∧ s.bit F.DSC_PPS_CFG_EDGE = !level ∧ s.dsc.ppsPrev = none ∧ s.bit (srcFld 1) = false ∧ 1 < s.fld F.DSC_COUNTS_QUAL_N :=
  ⟨true, 3, swS.setFld F.DSC_COUNTS_QUAL_N 3, by decide⟩

theorem witness_DisciplineSources_2 :
    ∃ (m : Nat) (s : State), s.inSail = true ∧ s.swSteers = true ∧ s.dsc.ppsPrev = some m ∧ 6000000000 ≤ s.since m ∧ s.bit (srcFld 1) = true :=
  ⟨7, { swS.raise (srcFld 1) with dsc := { swS.dsc with ppsPrev := some 7, ppsRun := 9 }, mast := { swS.mast with acc := 6000000007 * 2 ^ 38 } }, by decide⟩

theorem witness_DisciplineSources_3 :
    ∃ (p : Path) (lo : Word) (s : State), Open s ∧ s.inSail = true ∧ s.wideMirrored F.DSC_TOD_SEC_LO = false ∧ s.dsc.edgeSinceTod = true ∧ (s.now + 2 ^ 64 - s.wide F.DSC_PPS_STAMP_LO) % 2 ^ 64 ≤ 3600000000 ∧ s.bit F.MAST_STATUS_SET = true ∧ (((s.commitWide p F.DSC_TOD_SEC_LO lo).1 % 2 ^ 48 : Nat) : Int) =
      ((s.wide F.DSC_PPS_STAMP_LO : Int) - s.ppsComp + 2000000000) / 4000000000 :=
  ⟨.sup, 5, { (sailS.raise F.MAST_STATUS_SET).setWide F.DSC_PPS_STAMP_LO 20000000000 with dsc := { sailS.dsc with edgeSinceTod := true }, mast := { sailS.mast with acc := 20000000100 * 2 ^ 38 } }, by decide⟩

theorem witness_DisciplineSources_4 :
    ∃ (_p : Path) (_lo : Word) (s : State), Open s ∧ s.inSail = true ∧ s.wideMirrored F.DSC_TOD_SEC_LO = false ∧ s.dsc.edgeSinceTod = false ∧ s.dsc.todDone = false :=
  ⟨.sup, 5, sailS, by decide⟩

theorem witness_DisciplineSources_5 :
    ∃ (_p : Path) (_lo : Word) (s : State), Open s ∧ s.wideMirrored F.DSC_PTP_AT_LO = false :=
  ⟨.spi, 9, hoistS, by decide⟩

theorem witness_DisciplineSources_6 :
    ∃ (_p : Path) (_lo : Word) (s : State), Open s ∧ s.inSail = true ∧ s.swSteers = true ∧ s.wideMirrored F.DSC_PTP_ERR_LO = false ∧ s.dsc.ptpAt.1 ≤ s.now ∧ s.now ≤ s.dsc.ptpAt.1 + 8000000000 ∧ s.ptpBeforeStep = false ∧ s.mast.slewHist = [] ∧ s.dsc.ptpLast = none ∧ s.dsc.ptpRun + 1 < s.fld F.DSC_COUNTS_QUAL_N :=
  ⟨.sup, 0xFFFFFFF0, swS.setFld F.DSC_COUNTS_QUAL_N 3, by decide⟩

theorem witness_DisciplineSources_7 :
    ∃ (_p : Path) (_lo : Word) (s : State), Open s ∧ s.inSail = true ∧ s.wideMirrored F.DSC_PTP_ERR_LO = false ∧ s.now < 2 ^ 62 ∧ s.dsc.ptpAt.1 + 8000000000 < s.now :=
  ⟨.sup, 0xFFFFFFF0, { sailS with mast := { sailS.mast with acc := 8000000001 * 2 ^ 38 } }, by decide⟩

theorem witness_DisciplineSources_8 :
    ∃ (m : Nat) (s : State), s.inSail = true ∧ s.dsc.ptpLast = some m ∧ (s.reg F.DSC_PTP_TIMEOUT).toNat * 4000000 < s.since m ∧ s.bit (srcFld 2) = false :=
  ⟨0, { sailS.setReg F.DSC_PTP_TIMEOUT 10 with dsc := { sailS.dsc with ptpLast := some 0 }, mast := { sailS.mast with acc := 40000001 * 2 ^ 38 } }, by decide⟩

theorem witness_DisciplineSources_9 :
    ∃ (m : Nat) (s : State), s.inSail = true ∧ s.swSteers = true ∧ s.dsc.ptpLast = some m ∧ (s.reg F.DSC_PTP_TIMEOUT).toNat * 4000000 < s.since m ∧ s.bit (srcFld 2) = true :=
  ⟨0, { (swS.raise (srcFld 2)).setReg F.DSC_PTP_TIMEOUT 10 with dsc := { swS.dsc with ptpLast := some 0 }, mast := { swS.mast with acc := 40000001 * 2 ^ 38 } }, by decide⟩

theorem witness_DisciplineSources_10 :
    ∃ (s : State), Open s ∧ s.inSail = true ∧ s.swSteers = true ∧ s.bit (srcFld 2) = true :=
  ⟨swS.raise (srcFld 2), by decide⟩

theorem witness_DisciplineSources_11 :
    ∃ (meas : Word) (s : State), s.inSail = true ∧ s.swSteers = true ∧ s.bit F.DSC_SYNCE_CFG_EN = true ∧ s.bit (F.LN_STATUS_PCS_LOCK (s.fld F.DSC_SYNCE_CFG_LANE)) = true ∧ (signed 32 meas.toNat).natAbs * 1000000 ≤ s.fld F.DSC_SYNCE_CFG_SYNCE_WIN * 2 ^ 40 ∧ s.dsc.synceRun + 1 < s.fld F.DSC_COUNTS_QUAL_N :=
  ⟨0xFFFFFFFF, (((swS.raise F.DSC_SYNCE_CFG_EN).raise (F.LN_STATUS_PCS_LOCK 0)).setFld F.DSC_SYNCE_CFG_SYNCE_WIN 1).setFld F.DSC_COUNTS_QUAL_N 3, by decide⟩

theorem witness_DisciplineControlAndModel_1 :
    ∃ (_p : Path) (auth : Fin 4) (s : State), Open s ∧ s.inHoist = true ∧ s.mirrorMask F.DSC_CTRL = 0 ∧ auth.val ≠ 3 ∧ auth.val ≠ s.fld F.DSC_CTRL_STEER_AUTH :=
  ⟨.i2c, 0, (hoistS.setFld F.DSC_CTRL_STEER_AUTH 1).setReg F.DSC_SW_OFFSET 9, by decide⟩

theorem witness_DisciplineControlAndModel_2 :
    ∃ (_p : Path) (s : State), Open s ∧ s.mirrorMask F.DSC_CTRL = 0 :=
  ⟨.sup, sailS, by decide⟩

theorem witness_DisciplineControlAndModel_3 :
    ∃ (s : State), Open s :=
  ⟨sailS.setWide F.DSC_INJ_LO 5, by decide⟩

theorem witness_DisciplineControlAndModel_4 :
    ∃ (s : State), Open s ∧ s.inHoldover = false :=
  ⟨sailS.setFld F.DSC_MODEL_STATUS_TERMS 7, by decide⟩

theorem witness_DisciplineControlAndModel_5 :
    ∃ (s : State), Open s ∧ s.inHoldover = true :=
  ⟨sailS.setFld F.DSC_STATUS_STATE 3, by decide⟩

theorem witness_DisciplineControlAndModel_6 :
    ∃ (_p : Path) (_v : Word) (s : State), Open s ∧ s.inHoldover = false ∧ s.mirrorMask F.DSC_MODEL_TREF = 0 :=
  ⟨.sup, 0x1FF80, sailS, by decide⟩

theorem witness_DisciplineControlAndModel_7 :
    ∃ (s : State), s.epochGood = true :=
  ⟨{ sailS.setFld F.DSC_STATUS_STATE 2 with dsc := { sailS.dsc with epochBad := false, epochTemps := [80, 81] } }, by decide⟩

theorem witness_DisciplineControlAndModel_8 :
    ∃ (f : Int) (s : State), s.inSail = true ∧ s.swSteers = false ∧ s.bit F.DSC_CTRL_EN = true ∧ s.fld F.DSC_CTRL_STEER_AUTH = 0 ∧ s.dscState = 0 ∧ s.modelUsable = true ∧ s.bit F.MAST_STATUS_SET = true ∧ s.modelNum = f * (2 ^ 48 * 14400000000000) ∧ -2 ^ 31 ≤ f ∧ f < 2 ^ 31 :=
  ⟨-1, { ((sailS.raise F.DSC_CTRL_EN).setFld F.DSC_MODEL_STATUS_TERMS 1).raise F.MAST_STATUS_SET with dsc := { sailS.dsc with coef := [-4294967296, 0, 0, 0] } }, by decide⟩

theorem witness_DisciplineControlAndModel_9 :
    ∃ (s : State), Open s ∧ s.inSail = true ∧ s.swSteers = false ∧ s.upd.waits = false ∧ s.flash.op = none ∧ s.flash.inCall = false ∧ s.bit F.SUP_STATUS_HALTED = false ∧ s.dsc.dirty = false ∧ s.journalUsed s.journalSector < 240 :=
  ⟨sailS, by decide⟩

theorem witness_DisciplineControlAndModel_10 :
    ∃ (s : State), s.inSail = true ∧ s.swSteers = false ∧ s.upd.waits = false ∧ s.flash.op = none ∧ s.flash.inCall = false ∧ s.bit F.MODE_STATUS_REEFING = false ∧ s.bit F.SUP_STATUS_HALTED = false ∧ s.dsc.dirty = false ∧ s.journalUsed s.journalSector < 240 ∧ s.snapPeriod ≤ s.since s.dsc.snapAt :=
  ⟨{ sailS.setFld F.DSC_MODEL_CFG_SNAP_MIN 1 with mast := { sailS.mast with acc := 240000000007 * 2 ^ 38 } }, by decide⟩

theorem witness_DisciplineControlAndModel_11 :
    ∃ (n : Nat) (s : State), s.inSail = true ∧ SnapFree n s :=
  ⟨0xFFFFFFFF, { sailS with dsc := { sailS.dsc with dirty := true, seq := some 0xFFFFFFFF } }, by decide⟩

theorem witness_DisciplineControlAndModel_13 :
    ∃ (s : State), s.inSail = true ∧ s.bit F.MAST_STATUS_SET = true ∧ s.fld F.DSC_PPS_CFG_OUT_GATE = 0 ∧ s.reg F.DSC_PPS_OUT_OFS = 0 ∧ s.now % 4000000000 = 0 ∧ 0 < (s.nextNow + 2 ^ 64 - s.now) % 2 ^ 64 :=
  ⟨sailS.raise F.MAST_STATUS_SET, by decide⟩

theorem witness_DisciplineControlAndModel_12 :
    ∃ (n : Nat) (s : State), s.inSail = true ∧ SnapFree n s ∧ s.snapPeriod ≤ s.since s.dsc.snapAt :=
  ⟨0xFFFFFFFF, { sailS.setFld F.DSC_MODEL_CFG_SNAP_MIN 1 with mast := { sailS.mast with acc := 240000000007 * 2 ^ 38 }, dsc := { sailS.dsc with dirty := true, seq := some 0xFFFFFFFF } }, by decide⟩

theorem witness_UnlistedHostAccess_1 :
    ∃ (p : Path) (a : Nat) (s : State), Open s ∧ hostPath p = true ∧ findRow a = none ∧ a / 0x10000 ≠ 3 :=
  ⟨.spi, 0x3C, { sailS with readData := 7 }, by decide⟩

theorem witness_UnlistedHostAccess_2 :
    ∃ (p : Path) (a : Nat) (_v : Word) (s : State), Open s ∧ hostPath p = true ∧ findRow a = none ∧ a / 0x10000 ≠ 3 :=
  ⟨.i2c, 0x3C, 5, sailS, by decide⟩

theorem witness_WideRegisterAccess_1 :
    ∃ (p : Path) (a : Nat) (s : State), Open s ∧ isWideLo a = true ∧ (findRow a).isSome = true ∧ a / 0x10000 ≠ 3 ∧ a ≠ F.MAST_NOW_LO ∧ a ≠ F.ERR_HEAD_TIME_LO ∧ a / 0x1000 ≠ 0x54 ∧ (¬ (0xA1000 ≤ a ∧ a < 0xA3000)) ∧ rcMask a = 0 ∧ s.latched p a = none :=
  ⟨.spi, F.MAST_REM_LO, { sailS with mast := { sailS.mast with rem := 2 ^ 78 } }, by decide⟩

theorem witness_WideRegisterAccess_2 :
    ∃ (p : Path) (s : State), Open s ∧ s.latched p F.MAST_NOW_LO = none :=
  ⟨.sup, { sailS with mast := { sailS.mast with acc := 2 ^ 102 - 1 } }, by decide⟩

theorem witness_WideRegisterAccess_3 :
    ∃ (p : Path) (s : State) (e : ErrEntry) (rest : List ErrEntry), Open s ∧ s.latched p F.ERR_HEAD_TIME_LO = none ∧ s.errs = e :: rest :=
  ⟨.spi, { sailS with errs := [⟨0x1001, 65535, 5, 9⟩] }, ⟨0x1001, 65535, 5, 9⟩, [], by decide⟩

theorem witness_WideRegisterAccess_4 :
    ∃ (p : Path) (s : State), Open s ∧ s.latched p F.ERR_HEAD_TIME_LO = none ∧ s.errs = [] :=
  ⟨.spi, sailS, by decide⟩

theorem witness_WideRegisterAccess_5 :
    ∃ (p : Path) (a : Nat) (_v : Word) (s : State), Open s ∧ isWideLo a = true ∧ (findRow (a + 4)).isSome = true ∧ a / 0x10000 ≠ 3 ∧ s.mirrorsAddr (a + 4) = false ∧ rwMask (a + 4) ||| woMask (a + 4) ≠ 0 ∧ (∀ x ∈ (s.path p).stage, x.1 = a) :=
  ⟨.spi, F.MAST_PHASE_LO, 0xFFFFFFFF, sailS, by decide⟩

theorem witness_WideRegisterAccess_6 :
    ∃ (p : Path) (a : Nat) (b : Nat) (_v : Word) (w : Word) (s : State), Open s ∧ isWideLo a = true ∧ (findRow (a + 4)).isSome = true ∧ a / 0x10000 ≠ 3 ∧ s.mirrorsAddr (a + 4) = false ∧ rwMask (a + 4) ||| woMask (a + 4) ≠ 0 ∧ (s.path p).stage = some (b, w) ∧ b ≠ a :=
  ⟨.spi, F.MAST_PHASE_LO, F.DSC_TOD_SEC_LO, 1, 2, sailS.setPath .spi { stage := some (F.DSC_TOD_SEC_LO, 2) }, by decide⟩

theorem witness_RegisterAccessCodes_1 :
    ∃ (_p : Path) (a : Nat) (i : Nat) (_v : Word) (r : RegRow) (s : State), Open s ∧ a / 0x10000 = 0x10 ∧ a % 4 = 0 ∧ a ≠ F.ERR_CMD ∧ findRow a = some r ∧ r.limits = [] ∧ i < 32 ∧ s.mirrorMask a = 0 ∧ s.mirrorsAddr a = false ∧ isWideLo (a - 4) = false :=
  ⟨.i2c, F.MON_EVENT, 5, 0x3F, { base := 0x100050, w1c := 0x3F }, sailS.setReg F.MON_EVENT 0x21, by decide⟩

theorem witness_RegisterAccessCodes_2 :
    ∃ (_p : Path) (n : Fin 256) (v : Word) (s : State), s.inSail = true ∧ s.mirrorMask (F.STMP_CFG n) = 0 ∧ (v ^^^ s.reg (F.STMP_CFG n)) &&& 0xF80001 = 0 :=
  ⟨.spi, 255, 0x55C00006, sailS, by decide⟩

theorem witness_RegisterAccessCodes_3 :
    ∃ (_p : Path) (n : Fin 256) (v : Word) (s : State), s.inSail = true ∧ s.mirrorMask (F.STMP_CFG n) = 0 ∧ (v ^^^ s.reg (F.STMP_CFG n)) &&& 0xF80001 ≠ 0 :=
  ⟨.spi, 0, 0x55C00007, sailS, by decide⟩

theorem witness_RegisterAccessCodes_4 :
    ∃ (_p : Path) (_n : Fin 64) (s : State), Open s :=
  ⟨.sup, 63, sailS.setReg (F.TMR_MISSED 63) 0xFFFFFFFF, by decide⟩

theorem witness_RegisterAccessCodes_5 :
    ∃ (p : Path) (s : State), Open s ∧ s.latched p F.MON_TEMP_PEAK = none :=
  ⟨.dbg, sailS.setReg F.MON_TEMP_PEAK 0x00001234, by decide⟩

theorem witness_FeatureAcceptWrites_1 :
    ∃ (p : Path) (k : Fin 4) (v : Word) (s : State), Open s ∧ s.featLocked p = false ∧ v &&& ~~~(s.reg (0x10 + 4 * k)) = 0 :=
  ⟨.spi, 0, 3, sailS, by decide⟩

theorem witness_FeatureAcceptWrites_2 :
    ∃ (p : Path) (k : Fin 4) (v : Word) (s : State), Open s ∧ s.featLocked p = false ∧ v &&& ~~~(s.reg (0x10 + 4 * k)) ≠ 0 :=
  ⟨.spi, 3, 8, sailS, by decide⟩

theorem witness_FeatureAcceptWrites_3 :
    ∃ (p : Path) (k : Fin 4) (v : Word) (s : State), Open s ∧ s.featLocked p = true ∧ v ≠ s.reg (F.FEAT_ACCEPT k) :=
  ⟨.spi, 0, 1, sailS.raise F.FEAT_LOCK_LOCK, by decide⟩

theorem witness_FeatureAcceptWrites_4 :
    ∃ (_p : Path) (v : Word) (s : State), Open s ∧ v.getLsbD 0 = true :=
  ⟨.jtag, 0xFFFFFFFF, hoistS, by decide⟩

theorem witness_FeatureAcceptWrites_5 :
    ∃ (p : Path) (q : Path) (v : Word) (s : State), Open s ∧ s.beatRuns = true ∧ s.bit F.FEAT_LOCK_LOCK = false ∧ v.getLsbD 0 = true ∧ p ≠ q :=
  ⟨.jtag, .spi, 1, hoistS, by decide⟩

theorem witness_CollectorAndMonitors_1 :
    ∃ (_p : Path) (v : Word) (s : State) (e : ErrEntry) (rest : List ErrEntry), Open s ∧ s.win.logged = [] ∧ s.win.pushed = [] ∧ s.errs = e :: rest ∧ rest.length < 64 ∧ v.getLsbD 0 = true ∧ e.seq = bits v.toNat 31 16 ∧ s.unkept = 0 :=
  ⟨.spi, 0xFFFF0001, { sailS with errs := [⟨0x1001, 65535, 5, 9⟩] }, ⟨0x1001, 65535, 5, 9⟩, [], by decide⟩

theorem witness_CollectorAndMonitors_2 :
    ∃ (_p : Path) (v : Word) (s : State) (e : ErrEntry) (rest : List ErrEntry), Open s ∧ s.win.logged = [] ∧ s.win.pushed = [] ∧ s.errs = e :: rest ∧ rest.length < 64 ∧ v.getLsbD 0 = true ∧ e.seq = bits v.toNat 31 16 ∧ s.unkept ≠ 0 :=
  ⟨.spi, 0x00010001, { sailS with errs := [⟨0x1001, 1, 5, 9⟩], unkept := 3 }, ⟨0x1001, 1, 5, 9⟩, [], by decide⟩

theorem witness_CollectorAndMonitors_3 :
    ∃ (_p : Path) (v : Word) (s : State), Open s ∧ (∀ e ∈ (s.errsBefore ++ s.errs).head?, v.getLsbD 0 = true → e.seq ≠ bits v.toNat 31 16) :=
  ⟨.spi, 0x00020001, { sailS with errs := [⟨0x1001, 1, 5, 9⟩], unkept := 3 }, by decide⟩

theorem witness_CollectorAndMonitors_4 :
    ∃ (_a : Nat) (_b : Nat) (_d : Nat) (_e : Nat) (s : State), QuietLog s ∧ s.beatRuns = true ∧ s.errs.length < 63 :=
  ⟨0x1002, 0x1001, 5, 9, sailS, by decide⟩

theorem witness_CollectorAndMonitors_5 :
    ∃ (die : BitVec 16) (c : Fin 4096) (s : State), s.inHoist = true ∧ 16 ≤ c.val ∧ c.val ≤ 4080 ∧ s.mon.warned = false ∧ s.mon.crit = false ∧ signed 16 die.toNat < s.sfld F.MON_TEMP_LIM_WARN ∧ signed 16 die.toNat < s.sfld F.MON_TEMP_LIM_CRIT :=
  ⟨0xFFFF, 4080, (hoistS.setFld F.MON_TEMP_LIM_WARN 100).setFld F.MON_TEMP_LIM_CRIT 200, by decide⟩

theorem witness_CollectorAndMonitors_6 :
    ∃ (die : BitVec 16) (c : Fin 4096) (s : State), s.inHoist = true ∧ 16 ≤ c.val ∧ c.val ≤ 4080 ∧ s.mon.warned = false ∧ s.mon.crit = false ∧ s.sfld F.MON_TEMP_LIM_WARN ≤ signed 16 die.toNat ∧ signed 16 die.toNat < s.sfld F.MON_TEMP_LIM_CRIT :=
  ⟨100, 16, (hoistS.setFld F.MON_TEMP_LIM_WARN 100).setFld F.MON_TEMP_LIM_CRIT 200, by decide⟩

theorem witness_CollectorAndMonitors_7 :
    ∃ (a : BitVec 16) (b : BitVec 16) (c : BitVec 16) (d : BitVec 16) (s : State), s.powered = true ∧ supplyInRange 0 a.toNat = true ∧ supplyInRange 1 b.toNat = true ∧ supplyInRange 2 c.toNat = true ∧ supplyInRange 3 d.toNat = true ∧ s.mon.supplyOut = [] :=
  ⟨825, 945, 1140, 1890, sailS, by decide⟩

theorem witness_CollectorAndMonitors_8 :
    ∃ (a : BitVec 16) (b : BitVec 16) (c : BitVec 16) (d : BitVec 16) (s : State), s.powered = true ∧ supplyInRange 0 a.toNat = false ∧ supplyInRange 1 b.toNat = true ∧ supplyInRange 2 c.toNat = true ∧ supplyInRange 3 d.toNat = true ∧ s.mon.supplyOut = [] :=
  ⟨824, 900, 1200, 1800, sailS, by decide⟩

theorem witness_CompareChannels_1 :
    ∃ (_p : Path) (n : Fin 256) (_lo : Word) (s : State), s.inSail = true ∧ s.mirrorUnit 3 n = false ∧ s.wideMirrored (F.CMP_VAL_LO n) = false ∧ s.compareDue n = false ∧ s.win.dropped.contains n.val = false :=
  ⟨.sup, 255, 0xFFFFFFFF, sailS.setPath .sup { stage := some (F.CMP_VAL_LO 255, 0xFFFFFFFF) }, by decide⟩

theorem witness_CompareChannels_2 :
    ∃ (_p : Path) (n : Fin 256) (_lo : Word) (s : State), s.inSail = true ∧ s.mirrorUnit 3 n = false ∧ s.wideMirrored (F.CMP_VAL_LO n) = false ∧ s.compareDue n = true ∧ s.reg (F.CMP_ACT n) = 0 :=
  ⟨.spi, 33, 9, { ((sailS.raise (F.CMP_STATUS_ARMED 33)).setWide (F.CMP_VAL_LO 33) 5) with mast := { sailS.mast with acc := 5 * 2 ^ 38 }, cmp := [(33, { commitAt := 4 })] }, by decide⟩

theorem witness_CompareChannels_3 :
    ∃ (_p : Path) (n : Fin 256) (_lo : Word) (s : State), Open s ∧ s.inHoist = true ∧ s.mirrorUnit 3 n = false ∧ s.wideMirrored (F.CMP_VAL_LO n) = false ∧ s.win.dropped.contains n.val = false :=
  ⟨.sup, 0, 9, hoistS, by decide⟩

theorem witness_CompareChannels_4 :
    ∃ (n : Fin 256) (s : State), s.inSail = true ∧ s.bit (F.CMP_STATUS_ARMED n) = true ∧ s.now = s.wide (F.CMP_VAL_LO n) ∧ (s.cmpOf n).commitAt ≠ s.now ∧ s.compareAhead n = true ∧ s.steppedOver s.now = false ∧ s.reg (F.CMP_ACT n) = 0 :=
  ⟨33, { ((sailS.raise (F.CMP_STATUS_ARMED 33)).setWide (F.CMP_VAL_LO 33) 5) with mast := { sailS.mast with acc := 5 * 2 ^ 38 }, cmp := [(33, { commitAt := 4 })] }, by decide⟩

theorem witness_CompareChannels_5 :
    ∃ (n : Fin 256) (s : State), s.inSail = true ∧ s.bit (F.CMP_STATUS_ARMED n) = true ∧ (s.cmpOf n).commitAt ≠ s.now ∧ atOrAfter s.now (s.wide (F.CMP_VAL_LO n)) = true ∧ s.compareAhead n = false ∧ (s.cmpOf n).commitAt ≠ s.wide (F.CMP_VAL_LO n) ∧ s.bit (F.CMP_CTRL_LOG_LATE n) = true ∧ s.reg (F.CMP_ACT n) = 0 :=
  ⟨33, { (((sailS.raise (F.CMP_STATUS_ARMED 33)).setWide (F.CMP_VAL_LO 33) 5).raise (F.CMP_CTRL_LOG_LATE 33)) with mast := { sailS.mast with acc := 70000 * 2 ^ 38 }, cmp := [(33, { commitAt := 6 })] }, by decide⟩

theorem witness_CompareChannels_7 :
    ∃ (n : Fin 256) (u : Fin 64) (s : State), s.inSail = true ∧ s.bit (F.CMP_STATUS_ARMED n) = true ∧ s.now = s.wide (F.CMP_VAL_LO n) ∧ (s.cmpOf n).commitAt ≠ s.now ∧ s.win.capClosed.contains u.val = false ∧ s.reg (F.CMP_ACT n) = BitVec.ofNat 32 (u * 2 ^ 25 + 2 ^ 23) :=
  ⟨33, 63, ({ ((sailS.raise (F.CMP_STATUS_ARMED 33)).setWide (F.CMP_VAL_LO 33) 5) with mast := { sailS.mast with acc := 5 * 2 ^ 38 }, cmp := [(33, { commitAt := 4 })] }).setReg (F.CMP_ACT 33) 0x7E800000, by decide⟩

theorem witness_CompareChannels_6 :
    ∃ (n : Fin 256) (s : State), s.inSail = true ∧ s.bit (F.CMP_STATUS_ARMED n) = true ∧ (s.cmpOf n).commitAt ≠ s.now ∧ atOrAfter s.now (s.wide (F.CMP_VAL_LO n)) = true ∧ s.compareAhead n = true ∧ s.steppedOver (s.wide (F.CMP_VAL_LO n)) = true ∧ s.reg (F.CMP_ACT n) = 0 :=
  ⟨33, { ((sailS.raise (F.CMP_STATUS_ARMED 33)).setWide (F.CMP_VAL_LO 33) 5) with mast := { sailS.mast with acc := 70000 * 2 ^ 38, lastStep := some (4, 69999) }, cmp := [(33, { commitAt := 4 })] }, by decide⟩

theorem witness_TimerCommands_1 :
    ∃ (n : Fin 64) (s : State), Open s ∧ s.mirrorUnit 2 n = false ∧ ((s.inSail = true ∨ s.reefRun n = true)) ∧ s.fld (F.TMR_STATUS_STATE n) = 0 ∧ s.win.stops.contains n.val = false :=
  ⟨63, { sailS with mast := { sailS.mast with acc := 2 ^ 102 - 1 } }, by decide⟩

theorem witness_TimerCommands_2 :
    ∃ (n : Fin 64) (s : State), Open s ∧ s.mirrorUnit 2 n = false ∧ ((s.inSail = true ∨ s.reefRun n = true)) ∧ s.fld (F.TMR_STATUS_STATE n) = 2 ∧ s.win.stops.contains n.val = false :=
  ⟨7, { (sailS.setFld (F.TMR_STATUS_STATE 7) 2) with mast := { sailS.mast with acc := 2 ^ 102 - 1 }, frozenSince := [(7, some 9)] }, by decide⟩

theorem witness_TimerCommands_3 :
    ∃ (n : Fin 64) (s : State), Open s ∧ s.mirrorUnit 2 n = false ∧ ((s.inSail = true ∨ s.reefRun n = true)) ∧ s.fld (F.TMR_STATUS_STATE n) = 2 ∧ s.win.stops.contains n.val = true :=
  ⟨7, { (sailS.setFld (F.TMR_STATUS_STATE 7) 2) with win := { sailS.win with stops := [7] } }, by decide⟩

theorem witness_TimerCommands_4 :
    ∃ (n : Fin 64) (s : State), Open s ∧ s.mirrorUnit 2 n = false ∧ ((s.inSail = true ∨ s.reefRun n = true)) ∧ s.fld (F.TMR_STATUS_STATE n) = 1 ∧ s.overflowDue n = false ∧ s.matchDue n = false :=
  ⟨7, { (sailS.setFld (F.TMR_STATUS_STATE 7) 1) with mast := { sailS.mast with acc := 2 ^ 102 - 1 } }, by decide⟩

theorem witness_TimerCommands_5 :
    ∃ (n : Fin 64) (s : State), s.inSail = true ∧ s.mirrorUnit 2 n = false ∧ s.timerFresh n = true ∧ s.win.overflowed.contains n.val = false ∧ s.overflowDue n = true ∧ s.reg (F.TMR_OACT n) = 0 ∧ s.reg (F.TMR_MACT n) = 0 :=
  ⟨63, { ((sailS.setFld (F.TMR_STATUS_STATE 63) 1).setWide (F.TMR_PERIOD_LO 63) 40) with mast := { sailS.mast with acc := 79 * 2 ^ 38 } }, by decide⟩

theorem witness_TimerCommands_6 :
    ∃ (n : Fin 64) (s : State), Open s ∧ s.mirrorUnit 2 n = false ∧ ((s.inSail = true ∨ s.reefRun n = true)) ∧ s.win.stops.contains n.val = false ∧ s.overflowDue n = false ∧ s.matchDue n = false :=
  ⟨0, ((hoistS.setFld (F.TMR_STATUS_STATE 0) 1).raise (F.TMR_CTRL_REEF_RUN 0)).raise (F.TMR_STATUS_MATCHED 0), by decide⟩

theorem witness_TimerCommands_7 :
    ∃ (n : Fin 64) (s : State), Open s ∧ s.mirrorUnit 2 n = false ∧ s.inHoist = true ∧ s.reefRun n = false :=
  ⟨63, hoistS, by decide⟩

theorem witness_TimerCommands_8 :
    ∃ (n : Fin 64) (s : State), Open s ∧ s.mirrorUnit 2 n = false ∧ s.inHoist = true ∧ s.reefRun n = false :=
  ⟨63, hoistS, by decide⟩

theorem witness_TimerCommands_9 :
    ∃ (_p : Path) (n : Fin 64) (_lo : Word) (s : State), Open s ∧ s.mirrorUnit 2 n = false ∧ s.wideMirrored (F.TMR_ORIGIN_LO n) = false ∧ s.overflowDue n = false ∧ s.matchDue n = false :=
  ⟨.spi, 63, 7, sailS, by decide⟩

theorem witness_TimerCommands_10 :
    ∃ (p : Path) (n : Fin 64) (lo : Word) (s : State), Open s ∧ s.mirrorUnit 2 n = false ∧ s.wideMirrored (F.TMR_PERIOD_LO n) = false ∧ s.overflowDue n = false ∧ s.matchDue n = false ∧ (((s.commitWide p (F.TMR_PERIOD_LO n) lo).1 % 2 ^ 48 = 0 ∨ 40 ≤ (s.commitWide p (F.TMR_PERIOD_LO n) lo).1 % 2 ^ 48)) :=
  ⟨.spi, 63, 40, sailS, by decide⟩

theorem witness_TimerCommands_11 :
    ∃ (p : Path) (n : Fin 64) (lo : Word) (s : State), Open s ∧ s.mirrorUnit 2 n = false ∧ s.wideMirrored (F.TMR_PERIOD_LO n) = false ∧ s.overflowDue n = false ∧ s.matchDue n = false ∧ 1 ≤ (s.commitWide p (F.TMR_PERIOD_LO n) lo).1 % 2 ^ 48 ∧ (s.commitWide p (F.TMR_PERIOD_LO n) lo).1 % 2 ^ 48 ≤ 39 :=
  ⟨.spi, 63, 39, sailS, by decide⟩

theorem witness_TimerCommands_12 :
    ∃ (s : State), s.inSail = true ∧ s.standby = false ∧ (∀ n : Fin 64, s.overflowDue n = false ∧ s.matchDue n = false) :=
  ⟨((sailS.raise ⟨F.GSTART_MASK 1, 31, 1⟩).raise ⟨F.GSTART_MASK 0, 0, 1⟩).setFld (F.TMR_STATUS_STATE 63) 2, by decide⟩

theorem witness_TimerCommands_13 :
    ∃ (s : State), s.inSail = true ∧ s.standby = false ∧ (∀ n : Fin 64, s.overflowDue n = false ∧ s.matchDue n = false) :=
  ⟨(sailS.raise ⟨F.GSTART_MASK 1, 31, 1⟩).setWide F.GSTART_AT_LO (2 ^ 64 - 1), by decide⟩

theorem witness_TimerEventsAndCaptures_1 :
    ∃ (n : Fin 64) (s : State), s.inSail = true ∧ s.bit F.MODE_STATUS_REEFING = false ∧ s.timerFresh n = true ∧ s.win.overflowed.contains n.val = false ∧ s.timerCounts n = true ∧ 0 < s.timerPeriod n ∧ s.timerPeriod n ≤ s.timerValue n ∧ s.timerValue n < 2 * s.timerPeriod n ∧ s.reg (F.TMR_OACT n) = 0 :=
  ⟨63, { ((sailS.setFld (F.TMR_STATUS_STATE 63) 1).setWide (F.TMR_PERIOD_LO 63) 40) with mast := { sailS.mast with acc := 79 * 2 ^ 38 } }, by decide⟩

theorem witness_TimerEventsAndCaptures_2 :
    ∃ (n : Fin 64) (s : State), s.inSail = true ∧ s.bit F.MODE_STATUS_REEFING = false ∧ s.timerFresh n = true ∧ s.win.overflowed.contains n.val = false ∧ s.timerCounts n = true ∧ 0 < s.timerPeriod n ∧ 2 * s.timerPeriod n ≤ s.timerValue n ∧ s.reg (F.TMR_OACT n) = 0 :=
  ⟨0, { ((sailS.setFld (F.TMR_STATUS_STATE 0) 1).setWide (F.TMR_PERIOD_LO 0) 40) with mast := { sailS.mast with acc := 80 * 2 ^ 38 } }, by decide⟩

theorem witness_TimerEventsAndCaptures_3 :
    ∃ (n : Fin 64) (s : State), s.inSail = true ∧ s.bit F.MODE_STATUS_REEFING = false ∧ s.timerFresh n = true ∧ s.win.overflowed.contains n.val = false ∧ s.timerCounts n = true ∧ ¬ (0 < s.timerPeriod n ∧ s.timerPeriod n ≤ s.timerValue n) ∧ s.bit (F.TMR_STATUS_MATCHED n) = false ∧ 0 < s.wide (F.TMR_MATCH_LO n) % 2 ^ 48 ∧ s.wide (F.TMR_MATCH_LO n) % 2 ^ 48 ≤ s.timerValue n ∧ s.reg (F.TMR_MACT n) = 0 :=
  ⟨63, { ((sailS.setFld (F.TMR_STATUS_STATE 63) 1).setWide (F.TMR_MATCH_LO 63) 40) with mast := { sailS.mast with acc := 40 * 2 ^ 38 } }, by decide⟩

theorem witness_TimerEventsAndCaptures_4 :
    ∃ (n : Fin 64) (_fine : Fin 40) (s : State), s.capSees n = true ∧ s.bit (F.CAP_CTRL_GATED n) = false ∧ s.bit (F.CAP_STATUS_UNREAD n) = false ∧ s.bit (F.CAP_CTRL_FAB n) = false ∧ (s.capOf n).lead = none ∧ (s.capOf n).trail = none ∧ (s.capOf n).owed = false :=
  ⟨63, 39, (sailS.setFld (F.CAP_CTRL_SRC 63) 0x112).setFld (F.CAP_CTRL_COMP 63) 128, by decide⟩

theorem witness_TimerEventsAndCaptures_5 :
    ∃ (n : Fin 64) (fine : Fin 40) (s : State) (lead : Nat) (k : Nat), s.capSees n = true ∧ (s.capOf n).lead = some (lead, k) ∧ (s.capOf n).high = true ∧ (s.capOf n).taken = true ∧ (s.capOf n).owed = false ∧ lead ≤ s.capStamp n fine ∧ 64 ≤ s.capStamp n fine - lead ∧ s.bit (F.CAP_CTRL_FAB_TRAIL n) = false :=
  ⟨0, 8, { sailS with mast := { sailS.mast with acc := 7 * 2 ^ 38 }, cap := [(0, { lead := some (0, 0), high := true, taken := true, undo := [(⟨F.CAP_RISE_LO 0, 0, 32⟩, 0)] })] }, 0, 0, by decide⟩

theorem witness_TimerEventsAndCaptures_6 :
    ∃ (n : Fin 64) (f : Fin 40) (g : Fin 40) (s : State), s.capSees n = true ∧ s.bit (F.CAP_CTRL_GATED n) = false ∧ s.bit (F.CAP_STATUS_UNREAD n) = false ∧ s.bit (F.CAP_CTRL_FAB n) = false ∧ (s.capOf n).lead = none ∧ (s.capOf n).trail = none ∧ (s.capOf n).owed = false ∧ f.val ≤ g.val ∧ 40 ≤ s.capStamp n 0 ∧ s.capStamp n 0 < 2 ^ 66 :=
  ⟨63, 0, 39, { sailS.setFld (F.CAP_CTRL_SRC 63) 0x112 with mast := { sailS.mast with acc := 7 * 2 ^ 38 } }, by decide⟩

theorem witness_TimerEventsAndCaptures_7 :
    ∃ (_p : Path) (_n : Fin 64) (s : State), Open s :=
  ⟨.spi, 63, sailS.raise (F.CAP_STATUS_UNREAD 63), by decide⟩

theorem witness_TimerEventsAndCaptures_8 :
    ∃ (_n : Fin 64) (s : State), s.inSail = true :=
  ⟨63, sailS, by decide⟩

theorem witness_TimerEventsAndCaptures_9 :
    ∃ (_n : Fin 64) (s : State), s.inSail = true :=
  ⟨0, sailS.raise (F.CAP_STATUS_WIN_OPEN 0), by decide⟩

theorem witness_SheetTokens_1 :
    ∃ (i : Fin 288) (token : Dword) (d : Nat) (port : Nat) (s : State), s.sheetAccepts i = true ∧ (s.sheetOf i).queue = [] ∧ (s.sheetOf i).lastDue = none ∧ s.portOf (if i.val < 256 then 1 else 2) (if i.val < 256 then i else i - 256) = some port ∧ 0 < d ∧ d < 2 ^ 39 ∧ token.toNat % 2 ^ 40 = (s.now + d) % 2 ^ 40 :=
  ⟨287, 0, 1, 383, { ((fabS.setReg (F.EP_BIND 383) 0x1F02).raise (sheetEn 287)) with mast := { sailS.mast with acc := 2 ^ 102 - 1 } }, by decide⟩

theorem witness_SheetTokens_2 :
    ∃ (i : Fin 288) (token : Dword) (d : Nat) (port : Nat) (s : State), s.sheetAccepts i = true ∧ (s.sheetOf i).queue = [] ∧ (s.sheetOf i).lastDue = none ∧ s.portOf (if i.val < 256 then 1 else 2) (if i.val < 256 then i else i - 256) = some port ∧ d ≤ 2 ^ 39 ∧ token.toNat % 2 ^ 40 = (s.now + 2 ^ 40 - d) % 2 ^ 40 ∧ s.bit (sheetPol i) = false ∧ s.isQuiet (sheetLateCnt i) = false :=
  ⟨255, 0, 0, 0, (fabS.setReg (F.EP_BIND 0) 0xFF01).raise (sheetEn 255), by decide⟩

theorem witness_SheetTokens_3 :
    ∃ (i : Fin 256) (k : SheetToken) (s : State), s.powered = true ∧ s.mast.lastStep = none ∧ (s.sheetOf i).queue = [k] ∧ (s.sheetOf i).pulseEnds = [] ∧ k.due = s.now ∧ k.value < 3 ∧ s.bit (F.SHT_STATUS_RELOADING i) = false ∧ s.sheetDrives i = false :=
  ⟨255, ⟨5, 1, some 3⟩, { sailS.clear (F.SHT_STATUS_LEVEL 255) with mast := { sailS.mast with acc := 5 * 2 ^ 38 }, sheet := [(255, { queue := [⟨5, 1, some 3⟩] })] }, by decide⟩

theorem witness_SheetTokens_4 :
    ∃ (i : Fin 256) (k : SheetToken) (s : State), s.powered = true ∧ s.mast.lastStep = none ∧ (s.sheetOf i).queue = [k] ∧ (s.sheetOf i).pulseEnds = [] ∧ k.due = s.now ∧ k.value < 3 ∧ s.bit (F.SHT_STATUS_RELOADING i) = false ∧ s.sheetDrives i = true ∧ k.value ≠ s.fld (F.SHT_STATUS_LEVEL i) ∧ (s.sheetOf i).lastEdge = none ∧ signed 8 (s.fld (F.SHT_SKEW_SKEW i)) = 0 :=
  ⟨255, ⟨5, 1, some 3⟩, { ((((sailS.setFld (F.SHT_FD_FD_CAL 255) 127).clear (F.SHT_STATUS_LEVEL 255)).raise (F.SHT_CFG_EN 255)).raise ⟨F.GPIO_VIO_OK, 15, 1⟩).setFld ⟨F.GPIO_VIO, 30, 2⟩ 1 with mast := { sailS.mast with acc := 5 * 2 ^ 38 }, dev := { sailS.dev with outOn := true }, sheet := [(255, { queue := [⟨5, 1, some 3⟩] })] }, by decide⟩

theorem witness_SheetTokens_5 :
    ∃ (x : Fin 32) (k : SheetToken) (s : State), s.powered = true ∧ s.mast.lastStep = none ∧ (s.sheetOf (256 + x)).queue = [k] ∧ (s.sheetOf (256 + x)).pulseEnds = [] ∧ k.due = s.now ∧ s.panelAway (s.fld (sheetOwner (256 + x))) = false ∧ s.bit (F.LSH_CFG_STBY_GATE x) = false ∧ (s.sheetOf (256 + x)).gates < s.waitingFrames x ∧ s.laneSendsGated (x / 4) = false ∧ (∀ j : Fin 4, (s.sheetOf (256 + x / 4 * 4 + j)).gates = 0) :=
  ⟨31, ⟨5, 0, some 3⟩, { sailS with mast := { sailS.mast with acc := 5 * 2 ^ 38 }, sheet := [(287, { queue := [⟨5, 0, some 3⟩] })], txsrc := [(31, { held := [(0, 1)] })] }, by decide⟩

theorem witness_CalibrationAndStamps_1 :
    ∃ (_c : Nat) (s : State), Open s ∧ s.bit F.SHT_CAL_STATUS_BUSY = false ∧ s.calPaths = [288] ∧ s.sheet = [] ∧ s.edgeNear 288 = false :=
  ⟨128, { sailS with mast := { sailS.mast with acc := 100 * 2 ^ 38 } }, by decide⟩

theorem witness_CalibrationAndStamps_2 :
    ∃ (c : Nat) (s : State), s.inSail = true ∧ s.bit F.SHT_CAL_CTRL_TRACK_EN = true ∧ s.calPaths = [288] ∧ s.edgeNear 288 = false ∧ c < 128 ∧ s.fld F.SHT_PPSO_FD_FD_CAL < c :=
  ⟨127, { sailS.raise F.SHT_CAL_CTRL_TRACK_EN with mast := { sailS.mast with acc := 100 * 2 ^ 38 } }, by decide⟩

theorem witness_CalibrationAndStamps_3 :
    ∃ (n : Fin 256) (_fine : Fin 40) (s : State), s.inSail = true ∧ s.bit (F.STMP_CFG_EN n) = true ∧ s.lvdsOdd n = false ∧ (s.stampOf n).lastEdge = none ∧ s.fld (F.STMP_CFG_EDGES n) = 3 ∧ s.panelAway (s.fld (F.STMP_CFG_OWNER n)) = false ∧ (s.stampOf n).buf.length < 4 :=
  ⟨255, 39, (sailS.raise (F.STMP_CFG_EN 255)).setFld (F.STMP_CFG_EDGES 255) 3, by decide⟩

theorem witness_CalibrationAndStamps_4 :
    ∃ (n : Fin 256) (_fine : Fin 40) (s : State), s.inSail = true ∧ s.bit (F.STMP_CFG_EN n) = true ∧ s.lvdsOdd n = false ∧ (s.stampOf n).lastEdge = none ∧ s.fld (F.STMP_CFG_EDGES n) = 1 ∧ s.panelAway (s.fld (F.STMP_CFG_OWNER n)) = false ∧ (s.stampOf n).buf.length = 4 ∧ s.isQuiet (F.STMP_LOST n) = false :=
  ⟨0, 0, { ((sailS.raise (F.STMP_CFG_EN 0)).setFld (F.STMP_CFG_EDGES 0) 1) with stamp := [(0, { buf := [0, 1, 2, 3] })] }, by decide⟩

theorem witness_CalibrationAndStamps_5 :
    ∃ (n : Fin 256) (_level : Bool) (fine : Fin 40) (e : Nat) (s : State), s.inSail = true ∧ s.bit (F.STMP_CFG_EN n) = true ∧ s.lvdsOdd n = false ∧ (s.stampOf n).lastEdge = some e ∧ (s.stampOf n).lastKept = true ∧ e ≤ s.now * 8 + fine ∧ s.now * 8 + fine < e + 64 :=
  ⟨0, false, 39, 0, { (sailS.raise (F.STMP_CFG_EN 0)) with stamp := [(0, { buf := [0, 1], lastEdge := some 0, lastKept := true })] }, by decide⟩

theorem witness_CalibrationAndStamps_6 :
    ∃ (_loc : Word) (s : State), s.powered = true ∧ s.isQuiet F.FAB_ILLEGAL_CNT = false :=
  ⟨0xFFFFFFFF, sailS.setReg F.FAB_ILLEGAL_CNT 0xFFFFFFFF, by decide⟩

theorem witness_CalibrationAndStamps_7 :
    ∃ (_loc : Word) (s : State), s.powered = true ∧ s.isQuiet F.FAB_ILLEGAL_CNT = true :=
  ⟨0xFFFFFFFF, sailS.setQuiet F.FAB_ILLEGAL_CNT true, by decide⟩

theorem witness_CalibrationAndStamps_8 :
    ∃ (n : Fin 384) (s : State), s.panelWatched (s.fld (F.EP_BIND_PANEL n)) = true ∧ s.fld F.FAB_EP_STALL_TIME_US ≠ 0 ∧ s.bit ⟨F.FAB_EP_STALL (n / 32), n % 32, 1⟩ = false :=
  ⟨383, fabS.setFld F.FAB_EP_STALL_TIME_US 1, by decide⟩

theorem witness_CalibrationAndStamps_9 :
    ∃ (k : Fin 24) (s : State), s.panelWatched k = true ∧ s.bit F.FAB_CTRL_STUCK_EN = true ∧ s.bit ⟨F.FAB_STUCK, k, 1⟩ = false :=
  ⟨23, fabS.raise F.FAB_CTRL_STUCK_EN, by decide⟩

theorem witness_PanelsQuiesceAndLoad_1 :
    ∃ (_p : Path) (k : Fin 24) (s : State), Open s ∧ s.fld F.PNL_SEL_PNL = 2 ^ k.val ∧ s.panelState k = 1 :=
  ⟨.spi, 23, (sailS.setFld F.PNL_SEL_PNL 0x800000).setFld (F.PNL_STATE_STATE 23) 1, by decide⟩

theorem witness_PanelsQuiesceAndLoad_2 :
    ∃ (_p : Path) (k : Fin 24) (s : State), Open s ∧ s.fld F.PNL_SEL_PNL = 2 ^ k.val ∧ s.panelState k ≠ 1 :=
  ⟨.spi, 0, sailS.setFld F.PNL_SEL_PNL 1, by decide⟩

theorem witness_PanelsQuiesceAndLoad_3 :
    ∃ (k : Fin 24) (s : State), s.panelState k = 2 ∧ (s.panelOf k).quiesceMask = 0 ∧ (s.panelOf k).resumeNext = false ∧ s.partialBusy = false ∧ (s.panelOf k).quiesceAt ≤ s.now ∧ s.panelCalm k = true :=
  ⟨23, { (sailS.setFld (F.PNL_STATE_STATE 23) 2) with mast := { sailS.mast with acc := 4001 * 2 ^ 38 } }, by decide⟩

theorem witness_PanelsQuiesceAndLoad_4 :
    ∃ (k : Fin 24) (s : State), s.panelState k = 2 ∧ (s.panelOf k).quiesceMask = 0 ∧ (s.panelOf k).resumeNext = false ∧ s.partialBusy = false ∧ s.fld F.PNL_QTIMEOUT_US * 4000 ≤ (s.now + 2 ^ 64 - (s.panelOf k).quiesceAt) % 2 ^ 64 :=
  ⟨0, { ((sailS.setFld (F.PNL_STATE_STATE 0) 2).setFld F.PNL_QTIMEOUT_US 1) with mast := { sailS.mast with acc := 4000 * 2 ^ 38 } }, by decide⟩

theorem witness_PanelsQuiesceAndLoad_5 :
    ∃ (_p : Path) (k : Fin 24) (s : State), Open s ∧ s.fld F.PNL_SEL_PNL = 2 ^ k.val ∧ s.panelState k = 3 ∧ s.bit (F.PNL_STATE_TORN k) = false ∧ s.heldByLoad k = false :=
  ⟨.spi, 23, (sailS.setFld F.PNL_SEL_PNL 0x800000).setFld (F.PNL_STATE_STATE 23) 3, by decide⟩

theorem witness_PanelsQuiesceAndLoad_6 :
    ∃ (_p : Path) (s : State), s.inSail = true ∧ s.partialBusy = false :=
  ⟨.spi, sailS.setReg F.PNL_LOAD_ADDR 0x40000, by decide⟩

theorem witness_PanelsQuiesceAndLoad_7 :
    ∃ (_p : Path) (s : State), s.inSail = true ∧ s.partialBusy = true :=
  ⟨.spi, sailS.raise F.PNL_LOAD_STATUS_BUSY, by decide⟩

theorem witness_PanelsQuiesceAndLoad_8 :
    ∃ (_p : Path) (_w : Word) (s : State), s.inSail = true ∧ s.partialBusy = true ∧ s.fld F.PNL_LOAD_STATUS_SRC = 2 ∧ s.load.ended = false ∧ s.hbuf.length < 64 :=
  ⟨.spi, 0xFFFFFFFF, { (sailS.raise F.PNL_LOAD_STATUS_BUSY).setFld F.PNL_LOAD_STATUS_SRC 2 with hbuf := List.replicate 63 1 }, by decide⟩

theorem witness_PanelsQuiesceAndLoad_9 :
    ∃ (_p : Path) (_w : Word) (s : State), s.inSail = true ∧ s.partialBusy = true ∧ s.fld F.PNL_LOAD_STATUS_SRC = 2 ∧ s.load.ended = false ∧ s.hbuf.length = 64 ∧ s.bit F.PNL_CTRL_AUTO_FB = false :=
  ⟨.spi, 0xFFFFFFFF, { (sailS.raise F.PNL_LOAD_STATUS_BUSY).setFld F.PNL_LOAD_STATUS_SRC 2 with hbuf := List.replicate 64 1 }, by decide⟩

theorem witness_PanelsQuiesceAndLoad_10 :
    ∃ (s : State), s.inSail = true ∧ s.partialBusy = true ∧ s.load.active = true ∧ s.load.src = .host ∧ s.bit F.PNL_CTRL_AUTO_FB = false :=
  ⟨{ sailS.raise F.PNL_LOAD_STATUS_BUSY with load := { sailS.load with active := true, src := .host } }, by decide⟩

theorem witness_PanelsQuiesceAndLoad_11 :
    ∃ (_p : Path) (s : State), Open s ∧ s.partialBusy = true :=
  ⟨.spi, ((sailS.raise F.PNL_LOAD_STATUS_BUSY).setFld F.PNL_LOAD_MASK_MASK 0x800000).setFld (F.PNL_STATE_STATE 23) 4, by decide⟩

theorem witness_PanelsQuiesceAndLoad_12 :
    ∃ (_d : Dword) (port : Nat) (s : State), s.inSail = true ∧ s.bit F.PNL_ICP_CFG_EN = true ∧ s.fabricAlive 0xE 0 = true ∧ s.partialBusy = false ∧ s.icpLast = none ∧ s.portOf 0xE 0 = some port :=
  ⟨0xFFFFFFFFFFFFFFFF, 7, (fabS.setReg (F.EP_BIND 7) 0xE).raise F.PNL_ICP_CFG_EN, by decide⟩

theorem witness_PanelsQuiesceAndLoad_13 :
    ∃ (k : Fin 24) (s : State), s.panelState k = 5 ∧ (s.panelOf k).stage = 0 ∧ s.fld (F.PNL_STATE_ORDER k) = 2 ∧ atOrAfter s.now (s.panelOf k).due = true :=
  ⟨23, (sailS.setFld (F.PNL_STATE_STATE 23) 5).setFld (F.PNL_STATE_ORDER 23) 2, by decide⟩

theorem witness_PanelsQuiesceAndLoad_14 :
    ∃ (k : Fin 24) (s : State), s.panelState k = 5 ∧ (s.panelOf k).stage = 2 ∧ s.fld (F.PNL_STATE_ORDER k) = 5 ∧ atOrAfter s.now (s.panelOf k).due = true ∧ s.partialBusy = false :=
  ⟨23, { ((sailS.setFld (F.PNL_STATE_STATE 23) 5).setFld (F.PNL_STATE_ORDER 23) 5) with panel := [(23, { outHeld := true, stage := 2 })] }, by decide⟩

theorem witness_FenceChannels_1 :
    ∃ (entry : Nat) (_d : Dword) (f : Fence) (s : State), s.fences[entry]? = some f ∧ s.powered = true ∧ s.bit F.FAB_STATUS_GSR = false ∧ s.panelState (fencePanels f).1 = 1 ∧ s.panelState (fencePanels f).2 = 1 ∧ s.fenceToken entry = none :=
  ⟨0, 0xFF, ⟨37, true, 0, 4, false, false, 0⟩, { ((fabS.setFld (F.PNL_STATE_STATE 17) 1).setFld (F.PNL_STATE_STATE 23) 1) with fences := [⟨37, true, 0, 4, false, false, 0⟩] }, by decide⟩

theorem witness_FenceChannels_2 :
    ∃ (entry : Nat) (_d : Dword) (f : Fence) (s : State), s.fences[entry]? = some f ∧ s.powered = true ∧ s.bit F.FAB_STATUS_GSR = false ∧ s.panelState (fencePanels f).1 = 1 ∧ s.panelState (fencePanels f).2 = 1 ∧ (s.fenceToken entry).isSome = true :=
  ⟨0, 0xFF, ⟨19, false, 0, 4, false, false, 0⟩, { ((fabS.setFld (F.PNL_STATE_STATE 22) 1).setFld (F.PNL_STATE_STATE 23) 1) with fences := [⟨19, false, 0, 4, false, false, 0⟩], fenceHeld := [(0, some 5)] }, by decide⟩

theorem witness_FenceChannels_3 :
    ∃ (entry : Nat) (_d : Dword) (f : Fence) (s : State), s.fences[entry]? = some f ∧ s.powered = true ∧ s.bit F.FAB_STATUS_GSR = false ∧ s.panelState (fencePanels f).1 = 4 ∧ s.panelState (fencePanels f).2 = 1 ∧ s.fenceToken entry = none ∧ f.standIn = true :=
  ⟨0, 0, ⟨0, true, 0, 64, true, false, 0⟩, { ((fabS.setFld (F.PNL_STATE_STATE 1) 4).setFld (F.PNL_STATE_STATE 0) 1) with fences := [⟨0, true, 0, 64, true, false, 0⟩] }, by decide⟩

theorem witness_FenceChannels_4 :
    ∃ (entry : Nat) (_d : Dword) (f : Fence) (s : State), s.fences[entry]? = some f ∧ s.powered = true ∧ s.bit F.FAB_STATUS_GSR = false ∧ s.panelState (fencePanels f).1 = 1 ∧ s.panelState (fencePanels f).2 = 6 ∧ f.sink = true :=
  ⟨0, 0, ⟨20, false, 0, 64, false, true, 0⟩, { ((fabS.setFld (F.PNL_STATE_STATE 0) 1).setFld (F.PNL_STATE_STATE 6) 6) with fences := [⟨20, false, 0, 64, false, true, 0⟩] }, by decide⟩

theorem witness_CrossingTransfers_1 :
    ∃ (n : Fin 96) (s : State), s.powered = true ∧ s.fld (F.XNG_CFG_KIND n) = 0 ∧ s.xngActive n = true ∧ s.toFabric n = true ∧ s.bit (F.XNG_STATUS_PARKED n) = false ∧ s.bit (F.XNG_STATUS_CSIDE_RST n) = false ∧ s.bit (F.XNG_STATUS_FSIDE_RST n) = false ∧ (s.crossing n).transit = false ∧ s.bit (F.XNG_CFG_PACE n) = false :=
  ⟨95, (sailS.setFld (F.XNG_CFG_CLIENT 95) 1).raise (F.XNG_CFG_DIR 95), by decide⟩

theorem witness_CrossingTransfers_2 :
    ∃ (n : Fin 96) (s : State), s.powered = true ∧ s.fld (F.XNG_CFG_KIND n) = 0 ∧ s.xngActive n = true ∧ s.toFabric n = true ∧ s.bit (F.XNG_STATUS_PARKED n) = false ∧ s.bit (F.XNG_STATUS_CSIDE_RST n) = false ∧ s.bit (F.XNG_STATUS_FSIDE_RST n) = false ∧ (s.crossing n).transit = true ∧ s.bit (F.XNG_CFG_PACE n) = false ∧ s.bit (F.XNG_STATUS_OVR n) = false :=
  ⟨95, { ((sailS.setFld (F.XNG_CFG_CLIENT 95) 1).raise (F.XNG_CFG_DIR 95)) with xng := [(95, { transit := true })] }, by decide⟩

theorem witness_CrossingTransfers_3 :
    ∃ (n : Fin 96) (port : Nat) (s : State), s.fld (F.XNG_CFG_KIND n) = 0 ∧ s.xngActive n = true ∧ s.toFabric n = false ∧ s.fabricAlive 4 n = true ∧ s.portOf 4 n = some port ∧ s.bit (F.XNG_STATUS_PARKED n) = false ∧ s.bit (F.XNG_STATUS_CSIDE_RST n) = false ∧ s.bit (F.XNG_STATUS_FSIDE_RST n) = false ∧ (s.crossing n).transit = false ∧ s.bit (F.XNG_CFG_PACE n) = false :=
  ⟨95, 7, (fabS.setFld (F.XNG_CFG_CLIENT 95) 1).setReg (F.EP_BIND 7) 0x5F04, by decide⟩

theorem witness_CrossingTransfers_4 :
    ∃ (n : Fin 96) (s : State), s.powered = true ∧ s.fld (F.XNG_CFG_KIND n) = 0 ∧ s.xngActive n = true ∧ (s.toFabric n = true → s.fabricOffers 4 n = true) ∧ s.bit (F.XNG_CFG_PACE n) = false :=
  ⟨95, { sailS.setFld (F.XNG_CFG_CLIENT 95) 1 with xng := [(95, { transit := true })] }, by decide⟩

theorem witness_CrossingTransfers_5 :
    ∃ (n : Fin 96) (port : Nat) (s : State), s.powered = true ∧ s.fld (F.XNG_CFG_KIND n) = 1 ∧ s.xngActive n = true ∧ s.toFabric n = true ∧ s.bit (F.XNG_STATUS_PARKED n) = false ∧ s.bit (F.XNG_STATUS_CSIDE_RST n) = false ∧ s.bit (F.XNG_STATUS_FSIDE_RST n) = false ∧ s.fabricOffers 4 n = true ∧ s.portOf 4 n = some port ∧ s.bit (F.XNG_CFG_PACE n) = false :=
  ⟨95, 383, (((fabS.setFld (F.XNG_CFG_CLIENT 95) 1).raise (F.XNG_CFG_DIR 95)).setFld (F.XNG_CFG_KIND 95) 1).setReg (F.EP_BIND 383) 0x5F04, by decide⟩

theorem witness_CrossingTransfers_6 :
    ∃ (n : Fin 96) (port : Nat) (_level : Dword) (s : State), s.fld (F.XNG_CFG_KIND n) = 1 ∧ s.xngActive n = true ∧ s.toFabric n = false ∧ s.bit (F.XNG_STATUS_PARKED n) = false ∧ s.bit (F.XNG_STATUS_CSIDE_RST n) = false ∧ s.bit (F.XNG_STATUS_FSIDE_RST n) = false ∧ s.fabricAlive 4 n = true ∧ s.portOf 4 n = some port ∧ s.bit (F.XNG_CFG_PACE n) = false ∧ (s.crossing n).level = none :=
  ⟨95, 383, 0xFFFF, ((fabS.setFld (F.XNG_CFG_CLIENT 95) 1).setFld (F.XNG_CFG_KIND 95) 1).setReg (F.EP_BIND 383) 0x5F04, by decide⟩

theorem witness_CrossingTransfers_7 :
    ∃ (n : Fin 96) (_w : Dword) (s : State), s.powered = true ∧ s.fld (F.XNG_CFG_KIND n) = 2 ∧ s.xngActive n = true ∧ s.toFabric n = true ∧ s.bit (F.XNG_STATUS_FSIDE_RST n) = false ∧ s.bit (F.XNG_STATUS_RESYNC n) = false ∧ (s.crossing n).held = [] ∧ (s.crossing n).unseen = 0 ∧ s.bit (F.XNG_STATUS_RESET_SKEW n) = false ∧ s.bit (F.XNG_CFG_REQ n) = false ∧ s.bit (F.XNG_CFG_PACE n) = false ∧ s.bit (F.XNG_CFG_VBIT n) = false :=
  ⟨0, 0xFFFFFFFFFFFFFFFF, ((sailS.setFld (F.XNG_CFG_CLIENT 0) 3).raise (F.XNG_CFG_DIR 0)).setFld (F.XNG_CFG_KIND 0) 2, by decide⟩

theorem witness_CrossingTransfers_8 :
    ∃ (n : Fin 96) (port : Nat) (w : Dword) (s : State), s.fld (F.XNG_CFG_KIND n) = 2 ∧ s.xngActive n = true ∧ s.toFabric n = true ∧ s.bit (F.XNG_STATUS_PARKED n) = false ∧ s.bit (F.XNG_STATUS_CSIDE_RST n) = false ∧ s.bit (F.XNG_STATUS_FSIDE_RST n) = false ∧ s.bit (F.XNG_STATUS_RESYNC n) = false ∧ s.bit (F.XNG_STATUS_RESET_SKEW n) = false ∧ s.fabricOffers 4 n = true ∧ s.portOf 4 n = some port ∧ s.bit (F.XNG_CFG_PACE n) = false ∧ (s.crossing n).held = [w] :=
  ⟨95, 383, 9, { ((((fabS.setFld (F.XNG_CFG_CLIENT 95) 1).raise (F.XNG_CFG_DIR 95)).setFld (F.XNG_CFG_KIND 95) 2).setReg (F.EP_BIND 383) 0x5F04) with xng := [(95, { held := [9] })] }, by decide⟩

theorem witness_CrossingTransfers_9 :
    ∃ (n : Fin 96) (m : Fin 8) (port : Nat) (s : State), s.powered = true ∧ s.fld (F.XNG_CFG_KIND n) = 2 ∧ s.bit (F.XNG_CFG_REQ n) = true ∧ s.fld (F.XNG_CFG_CLIENT n) = 2 ∧ s.fld (F.XNG_CFG_CIDX n) = m ∧ s.tapAnswers n m = true ∧ s.fabricAlive 4 (companion n) = true ∧ s.portOf 4 (companion n) = some port ∧ s.bit (F.XNG_STATUS_FSIDE_RST (companion n)) = false ∧ s.bit (F.XNG_STATUS_PARKED (companion n)) = false ∧ s.bit (F.XNG_STATUS_CSIDE_RST (companion n)) = false ∧ (s.crossing n).held = [] ∧ (s.crossing n).unseen = 0 ∧ s.bit (F.XNG_STATUS_FSIDE_RST n) = false ∧ s.bit (F.XNG_STATUS_RESYNC n) = false ∧ s.bit (F.XNG_STATUS_RESET_SKEW n) = false ∧ s.bit (F.XNG_CFG_PACE n) = false :=
  ⟨95, 7, 383, ((((((fabS.setFld (F.XNG_CFG_CLIENT 95) 2).raise (F.XNG_CFG_REQ 95)).setFld (F.XNG_CFG_KIND 95) 2).setFld (F.XNG_CFG_CIDX 95) 7).raise (F.MTAP_CFG_EN 7)).setFld (F.MTAP_CFG_XNG 7) 95).setReg (F.EP_BIND 383) 0x5E04, by decide⟩

theorem witness_CrossingTransfers_10 :
    ∃ (n : Fin 96) (_w : Dword) (s : State), s.powered = true ∧ s.fld (F.XNG_CFG_KIND n) = 3 ∧ s.xngActive n = true ∧ s.toFabric n = true ∧ s.bit (F.XNG_STATUS_PARKED n) = false ∧ s.bit (F.XNG_STATUS_FSIDE_RST n) = false ∧ s.bit (F.XNG_STATUS_RESYNC n) = false ∧ s.bit (F.XNG_STATUS_RESET_SKEW n) = false ∧ (s.crossing n).held.length + (s.crossing n).unseen < 16 ∧ s.bit (F.XNG_CFG_PACE n) = false :=
  ⟨95, 7, { (((sailS.setFld (F.XNG_CFG_CLIENT 95) 3).raise (F.XNG_CFG_DIR 95)).setFld (F.XNG_CFG_KIND 95) 3) with xng := [(95, { held := List.replicate 15 1 })] }, by decide⟩

theorem witness_CrossingTransfers_11 :
    ∃ (n : Fin 96) (_w : Dword) (s : State), s.powered = true ∧ s.fld (F.XNG_CFG_KIND n) = 3 ∧ s.xngActive n = true ∧ s.toFabric n = true ∧ s.bit (F.XNG_STATUS_PARKED n) = false ∧ s.bit (F.XNG_STATUS_FSIDE_RST n) = false ∧ s.bit (F.XNG_STATUS_RESYNC n) = false ∧ (s.crossing n).held.length = 16 ∧ s.bit (F.XNG_CFG_PACE n) = false ∧ s.bit (F.XNG_STATUS_OVR n) = false :=
  ⟨0, 7, { (((sailS.setFld (F.XNG_CFG_CLIENT 0) 3).raise (F.XNG_CFG_DIR 0)).setFld (F.XNG_CFG_KIND 0) 3) with xng := [(0, { held := List.replicate 16 1 })] }, by decide⟩

theorem witness_CrossingTransfers_12 :
    ∃ (n : Fin 96) (port : Nat) (w : Dword) (ws : List Dword) (s : State), s.fld (F.XNG_CFG_KIND n) = 3 ∧ s.xngActive n = true ∧ s.toFabric n = true ∧ s.bit (F.XNG_STATUS_PARKED n) = false ∧ s.bit (F.XNG_STATUS_CSIDE_RST n) = false ∧ s.bit (F.XNG_STATUS_FSIDE_RST n) = false ∧ s.bit (F.XNG_STATUS_RESYNC n) = false ∧ s.bit (F.XNG_STATUS_RESET_SKEW n) = false ∧ s.fabricOffers 4 n = true ∧ s.portOf 4 n = some port ∧ s.bit (F.XNG_CFG_PACE n) = false ∧ (s.crossing n).held = w :: ws ∧ ws.length ≤ 15 :=
  ⟨95, 0, 1, List.replicate 15 2, { ((((fabS.setFld (F.XNG_CFG_CLIENT 95) 3).raise (F.XNG_CFG_DIR 95)).setFld (F.XNG_CFG_KIND 95) 3).setReg (F.EP_BIND 0) 0x5F04) with xng := [(95, { held := 1 :: List.replicate 15 2 })] }, by decide⟩

theorem witness_CrossingTransfers_13 :
    ∃ (n : Fin 96) (w : Dword) (ws : List Dword) (s : State), s.powered = true ∧ s.fld (F.XNG_CFG_KIND n) = 3 ∧ s.xngActive n = true ∧ s.toFabric n = false ∧ s.bit (F.XNG_STATUS_PARKED n) = false ∧ s.bit (F.XNG_STATUS_RESET_SKEW n) = false ∧ s.bit (F.XNG_CFG_PACE n) = false ∧ s.fld (F.XNG_CFG_CLIENT n) ≠ 5 ∧ (s.crossing n).held = w :: ws :=
  ⟨95, 1, [], { ((sailS.setFld (F.XNG_CFG_CLIENT 95) 3).setFld (F.XNG_CFG_KIND 95) 3) with xng := [(95, { held := [1] })] }, by decide⟩

theorem witness_CrossingTransfers_14 :
    ∃ (n : Fin 96) (s : State), s.powered = true ∧ s.fld (F.XNG_CFG_KIND n) = 3 ∧ s.xngActive n = true ∧ s.toFabric n = false ∧ s.bit (F.XNG_STATUS_PARKED n) = false ∧ (s.crossing n).held = [] ∧ s.bit (F.XNG_STATUS_UNDR n) = false :=
  ⟨95, (sailS.setFld (F.XNG_CFG_CLIENT 95) 3).setFld (F.XNG_CFG_KIND 95) 3, by decide⟩

theorem witness_CrossingTransfers_15 :
    ∃ (n : Fin 96) (port : Nat) (_w : Dword) (s : State), s.powered = true ∧ s.fld (F.XNG_CFG_KIND n) = 3 ∧ s.xngActive n = true ∧ s.toFabric n = false ∧ s.fabricAlive 4 n = true ∧ s.portOf 4 n = some port ∧ s.isMailbox n = false ∧ s.bit (F.XNG_STATUS_PARKED n) = false ∧ s.bit (F.XNG_STATUS_CSIDE_RST n) = false ∧ s.bit (F.XNG_STATUS_FSIDE_RST n) = false ∧ s.bit (F.XNG_STATUS_RESYNC n) = false ∧ s.bit (F.XNG_CFG_PACE n) = false ∧ s.bit (F.XNG_STATUS_RESET_SKEW n) = false ∧ (s.crossing n).held.length < 16 :=
  ⟨95, 0, 1, { (((fabS.setFld (F.XNG_CFG_CLIENT 95) 3).setFld (F.XNG_CFG_KIND 95) 3).setReg (F.EP_BIND 0) 0x5F04) with xng := [(95, { held := List.replicate 15 2 })] }, by decide⟩

theorem witness_CrossingTransfers_16 :
    ∃ (n : Fin 96) (_w : Dword) (s : State), s.fld (F.XNG_CFG_KIND n) = 3 ∧ s.toFabric n = false ∧ s.bit (F.XNG_STATUS_PARKED n) = false ∧ s.bit (F.XNG_STATUS_CSIDE_RST n) = false ∧ (s.crossing n).held.length = 16 :=
  ⟨95, 1, { (((fabS.setFld (F.XNG_CFG_CLIENT 95) 3).setFld (F.XNG_CFG_KIND 95) 3).setReg (F.EP_BIND 0) 0x5F04) with xng := [(95, { held := List.replicate 16 2 })] }, by decide⟩

theorem witness_CrossingTransfers_17 :
    ∃ (port : Fin 384) (w : Dword) (ws : List Dword) (n : Nat) (s : State), s.fld (F.EP_BIND_CLASS port) = 3 ∧ s.fld (F.EP_BIND_INDEX port) = n ∧ s.fabricOffers 3 n = true ∧ (s.stampOf n).buf = w :: ws ∧ ws.length ≤ 3 ∧ s.stampYoung n = false :=
  ⟨383, 1, [2, 3, 4], 255, { (fabS.setReg (F.EP_BIND 383) 0xFF03) with stamp := [(255, { buf := [1, 2, 3, 4] })] }, by decide⟩

theorem witness_CrossingResetsAndMailboxes_1 :
    ∃ (n : Fin 96) (s : State), s.powered = true ∧ s.xngActive n = true ∧ s.bit (F.XNG_STATUS_PARKED n) = false ∧ s.wdogDue n = true :=
  ⟨95, (sailS.setFld (F.XNG_CFG_CLIENT 95) 5), by decide⟩

theorem witness_CrossingResetsAndMailboxes_2 :
    ∃ (n : Fin 96) (s : State), Open s ∧ s.bit (F.XNG_STATUS_PARKED n) = true ∧ s.bit (F.XNG_CFG_RMODE n) = false ∧ s.bit (F.XNG_CFG_PACE n) = false ∧ s.bit (F.XNG_STATUS_FSIDE_RST n) = false :=
  ⟨95, { (sailS.raise (F.XNG_STATUS_PARKED 95)).clear (F.XNG_CFG_RMODE 95) with xng := [(95, { held := [1, 2] })] }, by decide⟩

theorem witness_CrossingResetsAndMailboxes_3 :
    ∃ (n : Fin 96) (s : State), Open s ∧ s.bit (F.XNG_STATUS_PARKED n) = true :=
  ⟨0, sailS.raise (F.XNG_STATUS_PARKED 0), by decide⟩

theorem witness_CrossingResetsAndMailboxes_4 :
    ∃ (n : Fin 96) (s : State), Open s ∧ s.bit (F.XNG_CFG_RMODE n) = false ∧ s.bit (F.XNG_CFG_PACE n) = false ∧ s.bit (F.XNG_STATUS_FSIDE_RST n) = false :=
  ⟨95, { sailS.clear (F.XNG_CFG_RMODE 95) with xng := [(95, { held := [1, 2] })] }, by decide⟩

theorem witness_CrossingResetsAndMailboxes_5 :
    ∃ (n : Fin 96) (s : State), Open s ∧ s.bit (F.XNG_CFG_RMODE n) = true ∧ s.bit (F.XNG_CFG_PACE n) = false ∧ s.bit (F.XNG_STATUS_FSIDE_RST n) = false ∧ s.bit (F.XNG_STATUS_RESET_SKEW n) = false :=
  ⟨95, { sailS.raise (F.XNG_CFG_RMODE 95) with xng := [(95, { held := [1, 2] })] }, by decide⟩

theorem witness_CrossingResetsAndMailboxes_6 :
    ∃ (n : Fin 96) (s : State), s.powered = true ∧ s.bit (F.XNG_STATUS_CSIDE_RST n) = true ∧ s.bit (F.XNG_CFG_RMODE n) = false ∧ s.bit (F.XNG_CFG_PACE n) = false ∧ s.bit (F.XNG_STATUS_FSIDE_RST n) = false :=
  ⟨0, (sailS.raise (F.XNG_STATUS_CSIDE_RST 0)).clear (F.XNG_CFG_RMODE 0), by decide⟩

theorem witness_CrossingResetsAndMailboxes_7 :
    ∃ (n : Fin 96) (s : State), s.powered = true ∧ s.bit (F.XNG_STATUS_RESYNC n) = true :=
  ⟨95, sailS.raise (F.XNG_STATUS_RESYNC 95), by decide⟩

theorem witness_CrossingResetsAndMailboxes_8 :
    ∃ (_n : Fin 96) (s : State), Open s :=
  ⟨95, sailS.setFld (F.XNG_STATUS_FILL 95) 16, by decide⟩

theorem witness_CrossingResetsAndMailboxes_9 :
    ∃ (_p : Path) (n : Fin 96) (_lo : Word) (s : State), Open s ∧ s.isMailbox n = true ∧ s.toFabric n = true ∧ s.wideMirrored (F.XNG_MBOX_LO n) = false ∧ s.fld (F.XNG_CFG_KIND n) = 2 ∧ s.bit (F.XNG_STATUS_MBOX_BUSY n) = false ∧ s.bit (F.XNG_STATUS_FSIDE_RST n) = false ∧ s.bit (F.XNG_STATUS_RESYNC n) = false ∧ s.bit (F.XNG_STATUS_RESET_SKEW n) = false ∧ (s.crossing n).held = [] ∧ (s.crossing n).unseen = 0 ∧ s.bit (F.XNG_CFG_PACE n) = false :=
  ⟨.spi, 95, 7, ((sailS.setFld (F.XNG_CFG_CLIENT 95) 1).raise (F.XNG_CFG_DIR 95)).setFld (F.XNG_CFG_KIND 95) 2, by decide⟩

theorem witness_CrossingResetsAndMailboxes_10 :
    ∃ (_p : Path) (n : Fin 96) (_lo : Word) (s : State), Open s ∧ s.isMailbox n = true ∧ s.toFabric n = true ∧ s.wideMirrored (F.XNG_MBOX_LO n) = false ∧ s.fld (F.XNG_CFG_KIND n) = 2 ∧ s.bit (F.XNG_STATUS_MBOX_BUSY n) = true :=
  ⟨.spi, 95, 7, (((sailS.setFld (F.XNG_CFG_CLIENT 95) 1).raise (F.XNG_CFG_DIR 95)).setFld (F.XNG_CFG_KIND 95) 2).raise (F.XNG_STATUS_MBOX_BUSY 95), by decide⟩

theorem witness_CrossingResetsAndMailboxes_11 :
    ∃ (n : Fin 96) (w : Dword) (ws : List Dword) (s : State), Open s ∧ s.isMailbox n = true ∧ s.toFabric n = false ∧ s.bit (F.XNG_STATUS_MBOX_V n) = true ∧ (s.crossing n).held = w :: ws ∧ s.bit (F.XNG_STATUS_RESET_SKEW n) = false ∧ s.bit (F.XNG_CFG_PACE n) = false :=
  ⟨95, 0xFFFFFFFFFFFFFFFF, [1], { ((sailS.setFld (F.XNG_CFG_CLIENT 95) 1).raise (F.XNG_STATUS_MBOX_V 95)) with xng := [(95, { held := [0xFFFFFFFFFFFFFFFF, 1] })] }, by decide⟩

theorem witness_CrossingResetsAndMailboxes_12 :
    ∃ (n : Fin 96) (s : State), Open s ∧ s.isMailbox n = true ∧ s.toFabric n = false ∧ s.bit (F.XNG_STATUS_MBOX_V n) = true ∧ (s.crossing n).held = [] :=
  ⟨0, (sailS.setFld (F.XNG_CFG_CLIENT 0) 1).raise (F.XNG_STATUS_MBOX_V 0), by decide⟩

theorem witness_FifoEngines_1 :
    ∃ (n : Fin 64) (_d : Dword) (tag : Byte) (s : State), s.inSail = true ∧ s.bit (F.FIFO_CFG_EN n) = true ∧ s.fld (F.FIFO_CFG_PROD n) = 2 ∧ s.fifoMode n = 0 ∧ tagBit tag 7 = true ∧ s.bit (F.FIFO_CFG_PAR_CHK n) = false ∧ (s.engine n).words.length < s.fifoCap n ∧ s.fifoCap n < 2 ^ 20 ∧ s.bit (F.FIFO_CFG_PACE n) = false :=
  ⟨63, 0xFFFFFFFFFFFFFFFF, 0x80, ((sailS.raise (F.FIFO_CFG_EN 63)).setFld (F.FIFO_CFG_PROD 63) 2).setFld (F.FIFO_REGION_SIZE 63) 1, by decide⟩

theorem witness_FifoEngines_2 :
    ∃ (n : Fin 64) (_d : Dword) (tag : Byte) (s : State), s.inSail = true ∧ s.bit (F.FIFO_CFG_EN n) = true ∧ s.fld (F.FIFO_CFG_PROD n) = 2 ∧ s.fifoMode n = 0 ∧ tagBit tag 7 = true ∧ s.fifoCap n ≤ (s.engine n).words.length ∧ s.bit (F.FIFO_CFG_PACE n) = false ∧ s.bit (F.FIFO_STATUS_OVR n) = false :=
  ⟨0, 1, 0x80, (sailS.raise (F.FIFO_CFG_EN 0)).setFld (F.FIFO_CFG_PROD 0) 2, by decide⟩

theorem witness_FifoEngines_3 :
    ∃ (n : Fin 64) (_d : Dword) (tag : Byte) (s : State), s.fld (F.FIFO_CFG_PROD n) = 2 ∧ tagBit tag 7 = false :=
  ⟨0, 1, 0x7F, (sailS.raise (F.FIFO_CFG_EN 0)).setFld (F.FIFO_CFG_PROD 0) 2, by decide⟩

theorem witness_FifoEngines_4 :
    ∃ (n : Fin 64) (port : Nat) (back : Nat) (w : FifoWord) (ws : List FifoWord) (v : Nat) (s : State), s.inSail = true ∧ s.bit (F.FIFO_CFG_EN n) = true ∧ s.fld (F.FIFO_CFG_CONS n) = 1 ∧ s.fabricOffers 7 n = true ∧ s.portOf 7 n = some port ∧ s.portOf 8 n = some back ∧ port ≠ back ∧ (s.engine n).words = w :: ws ∧ (s.engine n).visible = v + 1 ∧ s.bit (F.FIFO_CFG_PACE n) = false ∧ ws.length < 2 ^ 20 :=
  ⟨63, 0, 1, ⟨1, 0x80, .producer⟩, [], 0, { ((((fabS.raise (F.FIFO_CFG_EN 63)).setFld (F.FIFO_CFG_CONS 63) 1).setReg (F.EP_BIND 0) 0x3F07).setReg (F.EP_BIND 1) 0x3F08) with fifo := [(63, { words := [⟨1, 0x80, .producer⟩], visible := 1 })] }, by decide⟩

theorem witness_FifoEngines_5 :
    ∃ (_p : Path) (n : Fin 64) (_lo : Word) (s : State), s.inSail = true ∧ s.bit (F.FIFO_CFG_EN n) = true ∧ s.fld (F.FIFO_CFG_PROD n) = 4 ∧ s.fifoMode n = 0 ∧ s.bit (F.FIFO_CFG_PAR_CHK n) = false ∧ (s.engine n).words.length < s.fifoCap n :=
  ⟨.jtag, 63, 5, (((sailS.raise (F.FIFO_CFG_EN 63)).setFld (F.FIFO_CFG_PROD 63) 4).setFld (F.FIFO_REGION_SIZE 63) 1).setPath .jtag { stage := some (F.FIFO_PUSH_LO 63, 0xFFFFFFFF) }, by decide⟩

theorem witness_FifoEngines_6 :
    ∃ (_p : Path) (n : Fin 64) (_lo : Word) (s : State), Open s ∧ s.fld (F.FIFO_CFG_PROD n) ≠ 4 :=
  ⟨.jtag, 63, 5, sailS, by decide⟩

theorem witness_FifoEngines_7 :
    ∃ (_p : Path) (n : Fin 64) (w : FifoWord) (ws : List FifoWord) (v : Nat) (s : State), Open s ∧ s.bit (F.FIFO_CFG_EN n) = true ∧ s.fld (F.FIFO_CFG_CONS n) = 4 ∧ (s.engine n).words = w :: ws ∧ (s.engine n).visible = v + 1 :=
  ⟨.spi, 63, ⟨0x100000002, 0x80, .producer⟩, [], 0, { ((sailS.raise (F.FIFO_CFG_EN 63)).setFld (F.FIFO_CFG_CONS 63) 4) with fifo := [(63, { words := [⟨0x100000002, 0x80, .producer⟩], visible := 1 })] }, by decide⟩

theorem witness_FifoEngines_8 :
    ∃ (_p : Path) (n : Fin 64) (w : FifoWord) (ws : List FifoWord) (v : Nat) (s : State), Open s ∧ s.bit (F.FIFO_CFG_EN n) = true ∧ s.fld (F.FIFO_CFG_CONS n) = 4 ∧ (s.engine n).words = w :: ws ∧ (s.engine n).visible = v + 1 ∧ s.bit (F.FIFO_STATUS_CE n) = false :=
  ⟨.spi, 63, ⟨0x100000002, 0x80, .producer⟩, [], 0, { ((sailS.raise (F.FIFO_CFG_EN 63)).setFld (F.FIFO_CFG_CONS 63) 4) with fifo := [(63, { words := [⟨0x100000002, 0x80, .producer⟩], visible := 1 })] }, by decide⟩

theorem witness_FifoEngines_9 :
    ∃ (_p : Path) (n : Fin 64) (s : State), Open s ∧ s.fld (F.FIFO_CFG_CONS n) ≠ 4 :=
  ⟨.spi, 63, sailS, by decide⟩

theorem witness_FifoEngines_10 :
    ∃ (n : Fin 64) (s : State), Open s ∧ (s.engine n).opened = false ∧ (s.engine n).young = 0 ∧ (s.engine n).visible ≤ (s.engine n).words.length :=
  ⟨63, { sailS with fifo := [(63, { words := [⟨1, 0x80, .producer⟩, ⟨1, 0x80, .slot⟩], visible := 1 })] }, by decide⟩

theorem witness_FifoEngines_11 :
    ∃ (n : Fin 64) (s : State), Open s ∧ (s.engine n).opened = false ∧ (s.engine n).young ≤ (s.engine n).words.length :=
  ⟨63, { sailS with fifo := [(63, { words := [⟨1, 0x80, .producer⟩, ⟨1, 0x80, .slot⟩], visible := 1, young := 1 })] }, by decide⟩

theorem witness_FifoEngines_12 :
    ∃ (_n : Fin 64) (s : State), Open s :=
  ⟨63, sailS.setFld (F.FIFO_FILL_WORDS 63) 1024, by decide⟩

theorem witness_FifoEngines_13 :
    ∃ (s : State), s.powered = true ∧ s.bit F.FIFO_SCRUB_CFG_EN = true ∧ s.fld F.FIFO_SCRUB_STATUS_ADDR < 524287 :=
  ⟨(sailS.raise F.FIFO_SCRUB_CFG_EN).setFld F.FIFO_SCRUB_STATUS_ADDR 524286, by decide⟩

theorem witness_FifoEngines_14 :
    ∃ (s : State), s.powered = true ∧ s.bit F.FIFO_SCRUB_CFG_EN = true ∧ s.fld F.FIFO_SCRUB_STATUS_ADDR = 524287 :=
  ⟨(sailS.raise F.FIFO_SCRUB_CFG_EN).setFld F.FIFO_SCRUB_STATUS_ADDR 524287, by decide⟩

theorem witness_LaneStates_1 :
    ∃ (k : Fin 8) (s : State), Open s ∧ s.laneDeclared k = true ∧ s.laneState k = 0 :=
  ⟨7, hoistS.setFld (F.LN_CFG_MODE 7) 4, by decide⟩

theorem witness_LaneStates_2 :
    ∃ (k : Fin 8) (s : State), s.powered = true ∧ s.laneState k = 1 :=
  ⟨7, hoistS.setFld (F.LN_STATUS_STATE 7) 1, by decide⟩

theorem witness_LaneStates_3 :
    ∃ (k : Fin 8) (s : State), s.powered = true ∧ s.laneState k = 2 :=
  ⟨7, hoistS.setFld (F.LN_STATUS_STATE 7) 2, by decide⟩

theorem witness_LaneStates_4 :
    ∃ (k : Fin 8) (s : State), s.powered = true ∧ s.laneState k = 3 :=
  ⟨0, hoistS.setFld (F.LN_STATUS_STATE 0) 3, by decide⟩

theorem witness_LaneStates_5 :
    ∃ (k : Fin 8) (s : State), s.powered = true ∧ s.laneState k = 4 ∧ s.fld F.DSC_SYNCE_CFG_LANE ≠ k :=
  ⟨7, (sailS.setFld (F.LN_STATUS_STATE 7) 4).raise (F.LN_STATUS_PCS_LOCK 7), by decide⟩

theorem witness_LaneStates_6 :
    ∃ (k : Fin 8) (s : State), Open s ∧ s.fld F.DSC_SYNCE_CFG_LANE ≠ k :=
  ⟨7, (sailS.setFld (F.LN_STATUS_STATE 7) 4).raise (F.LN_STATUS_PCS_LOCK 7), by decide⟩

theorem witness_LaneStates_7 :
    ∃ (k : Fin 8) (_on : Bool) (s : State), s.powered = true ∧ 3 ≤ s.laneState k :=
  ⟨7, true, sailS.setFld (F.LN_STATUS_STATE 7) 3, by decide⟩

theorem witness_LaneStates_8 :
    ∃ (k : Fin 8) (_on : Bool) (s : State), s.powered = true ∧ 3 ≤ s.laneState k :=
  ⟨0, false, sailS.setFld (F.LN_STATUS_STATE 0) 4, by decide⟩

theorem witness_LaneStates_9 :
    ∃ (k : Fin 8) (s : State) (r : Nat × Word) (rest : List (Nat × Word)), Open s ∧ (s.laneOf k).reports = r :: rest :=
  ⟨7, { sailS with lane := [(7, { reports := [(5, 6), (7, 8)] })] }, (5, 6), [(7, 8)], by decide⟩

theorem witness_LaneFrames_1 :
    ∃ (k : Fin 8) (f : RxFrame) (s : State), s.inSail = true ∧ s.laneState k = 4 ∧ s.fld (F.LN_CFG_MODE k) ≠ 4 ∧ f.octets ≠ [] ∧ f.octets.length ≤ s.fld (F.LN_RX_CFG_MAX_LEN k) ∧ f.perr = false ∧ f.fecCorr = 0 ∧ f.fecUncorr = 0 ∧ s.fld (F.LN_RX_CFG_DEST k) = 0 ∧ 96 ≤ s.fld (F.LN_XNG_RX_RX k) ∧ 96 ≤ s.fld (F.LN_XNG_RX_RXD k) :=
  ⟨7, ⟨List.replicate 64 1, false, 0, 0⟩, ((((sailS.setFld (F.LN_STATUS_STATE 7) 4).setFld (F.LN_CFG_MODE 7) 1).setFld (F.LN_RX_CFG_MAX_LEN 7) 64).setReg (F.LN_XNG_RX 7) 0x6060).setReg (F.LN_RX_FRAMES 7) 0xFFFFFFFF, by decide⟩

theorem witness_LaneFrames_2 :
    ∃ (k : Fin 8) (n : Fin 96) (f : RxFrame) (s : State), s.inSail = true ∧ s.laneState k = 4 ∧ s.fld (F.LN_CFG_MODE k) ≠ 4 ∧ f.octets ≠ [] ∧ f.octets.length ≤ 8 ∧ f.octets.length ≤ s.fld (F.LN_RX_CFG_MAX_LEN k) ∧ f.perr = false ∧ f.fecCorr = 0 ∧ f.fecUncorr = 0 ∧ s.fld (F.LN_RX_CFG_DEST k) = 0 ∧ s.fld (F.LN_XNG_RX_RX k) = n ∧ 96 ≤ s.fld (F.LN_XNG_RX_RXD k) ∧ s.bit (F.XNG_STATUS_FSIDE_RST n) = false ∧ s.bit (F.XNG_STATUS_RESYNC n) = false ∧ s.bit (F.XNG_STATUS_RESET_SKEW n) = false ∧ (s.crossing n).held.length + (s.crossing n).unseen < s.xngDepth n ∧ s.bit (F.XNG_CFG_PACE n) = false :=
  ⟨7, 95, ⟨List.replicate 8 1, false, 0, 0⟩, ((((sailS.setFld (F.LN_STATUS_STATE 7) 4).setFld (F.LN_CFG_MODE 7) 1).setFld (F.LN_RX_CFG_MAX_LEN 7) 64).setReg (F.LN_XNG_RX 7) 0x605F).setFld (F.XNG_CFG_CLIENT 95) 5, by decide⟩

theorem witness_LaneFrames_3 :
    ∃ (k : Fin 8) (f : RxFrame) (s : State), s.inSail = true ∧ s.laneState k = 4 ∧ s.fld (F.LN_CFG_MODE k) ≠ 4 ∧ f.octets ≠ [] ∧ s.fld (F.LN_RX_CFG_MAX_LEN k) < f.octets.length ∧ f.perr = false ∧ f.fecCorr = 0 ∧ f.fecUncorr = 0 ∧ s.fld (F.LN_RX_CFG_DEST k) = 0 ∧ 96 ≤ s.fld (F.LN_XNG_RX_RX k) ∧ 96 ≤ s.fld (F.LN_XNG_RX_RXD k) ∧ s.isQuiet (F.LN_RX_TRUNC k) = false :=
  ⟨0, ⟨List.replicate 65 1, false, 0, 0⟩, (((sailS.setFld (F.LN_STATUS_STATE 0) 4).setFld (F.LN_CFG_MODE 0) 1).setFld (F.LN_RX_CFG_MAX_LEN 0) 64).setReg (F.LN_XNG_RX 0) 0x7F7F, by decide⟩

theorem witness_LaneFrames_4 :
    ∃ (k : Fin 8) (j : Fin 4) (_lead : Nat) (d : Dword) (tag : Byte) (ws : List (Dword × Byte)) (s : State), s.powered = true ∧ 2 ≤ s.laneState k ∧ s.laneSends k = false ∧ s.fld (F.LN_CFG_MODE k) ≠ 4 ∧ (s.source (4 * k + j)).held = (d, tag) :: ws ∧ ws.length = txWords d ∧ (s.srcCrossing (4 * k + j)).all (fun n => (s.crossing n).held.isEmpty) = true ∧ (s.srcEngine (4 * k + j)).all (fun n => (s.engine n).visible == 0) = true ∧ txBad d = false ∧ txOp d = 0 ∧ eopWrong d ((d, tag) :: ws) = false ∧ s.srcGated (4 * k + j) = false ∧ s.srcTurn k j d = true :=
  ⟨7, 3, 0, 64, 0x80, List.replicate 8 (5, 0x80), { ((sailS.setFld (F.LN_STATUS_STATE 7) 4).setFld (F.LN_CFG_MODE 7) 1) with txsrc := [(31, { held := (64, 0x80) :: List.replicate 8 (5, 0x80) })] }, by decide⟩

theorem witness_LaneFrames_5 :
    ∃ (k : Fin 8) (j : Fin 4) (_lead : Nat) (g : Nat) (d : Dword) (tag : Byte) (ws : List (Dword × Byte)) (s : State), s.powered = true ∧ 2 ≤ s.laneState k ∧ s.laneSends k = false ∧ s.fld (F.LN_CFG_MODE k) ≠ 4 ∧ (s.source (4 * k + j)).held = (d, tag) :: ws ∧ ws.length = txWords d ∧ (s.srcCrossing (4 * k + j)).all (fun n => (s.crossing n).held.isEmpty) = true ∧ (s.srcEngine (4 * k + j)).all (fun n => (s.engine n).visible == 0) = true ∧ txBad d = false ∧ txOp d = 0 ∧ eopWrong d ((d, tag) :: ws) = false ∧ s.srcGated (4 * k + j) = true ∧ (s.sheetOf (256 + (4 * k + j))).gates = g + 1 :=
  ⟨7, 3, 0, 1, 64, 0x80, List.replicate 8 (5, 0x80), { (((sailS.setFld (F.LN_STATUS_STATE 7) 4).setFld (F.LN_CFG_MODE 7) 1).raise (F.LSH_CFG_EN 31)) with sheet := [(287, { gates := 2 })], txsrc := [(31, { held := (64, 0x80) :: List.replicate 8 (5, 0x80) })] }, by decide⟩

theorem witness_LaneFrames_7 :
    ∃ (k : Fin 8) (j : Fin 4) (_lead : Nat) (d : Dword) (tag : Byte) (ws : List (Dword × Byte)) (s : State), s.powered = true ∧ 2 ≤ s.laneState k ∧ s.laneSends k = false ∧ s.fld (F.LN_CFG_MODE k) ≠ 4 ∧ (s.source (4 * k + j)).held = (d, tag) :: ws ∧ (s.srcCrossing (4 * k + j)).all (fun n => (s.crossing n).held.isEmpty) = true ∧ (s.srcEngine (4 * k + j)).all (fun n => (s.engine n).visible == 0) = true ∧ txLen d < 64 ∧ s.srcGated (4 * k + j) = false :=
  ⟨7, 3, 0, 63, 0x80, List.replicate 8 (5, 0x80), { ((sailS.setFld (F.LN_STATUS_STATE 7) 4).setFld (F.LN_CFG_MODE 7) 1) with txsrc := [(31, { held := (63, 0x80) :: List.replicate 8 (5, 0x80) })] }, by decide⟩

theorem witness_LaneFrames_8 :
    ∃ (k : Fin 8) (f : TxFrame) (s : State), s.powered = true ∧ (s.laneOf k).tx = some f ∧ s.isQuiet (F.LN_TX_UNDR k) = false :=
  ⟨7, ⟨3, false, 64, none, [1], 0⟩, { sailS with lane := [(7, { tx := some ⟨3, false, 64, none, [1], 0⟩ })] }, by decide⟩

theorem witness_LaneFrames_6 :
    ∃ (k : Fin 8) (j : Fin 4) (_lead : Nat) (d : Dword) (tag : Byte) (ws : List (Dword × Byte)) (s : State), s.powered = true ∧ 2 ≤ s.laneState k ∧ s.laneSends k = false ∧ s.fld (F.LN_CFG_MODE k) = 4 ∧ (s.source (4 * k + j)).held = (d, tag) :: ws ∧ s.srcCrossing (4 * k + j) = none ∧ s.srcEngine (4 * k + j) = none ∧ s.srcGated (4 * k + j) = false ∧ s.reg (F.LN_RAW_MASK k) = 0 :=
  ⟨7, 3, 0, 64, 0x80, [(7, 0x80)], { ((sailS.setFld (F.LN_STATUS_STATE 7) 4).setFld (F.LN_CFG_MODE 7) 4) with txsrc := [(31, { held := [(64, 0x80), (7, 0x80)] })] }, by decide⟩

theorem witness_LinkPorts_1 :
    ∃ (q : Fin 5) (s : State), s.powered = true ∧ s.linkState q = 1 :=
  ⟨4, hoistS.setFld (linkFld 4) 1, by decide⟩

theorem witness_LinkPorts_2 :
    ∃ (q : Fin 5) (s : State), s.powered = true ∧ s.linkState q = 2 :=
  ⟨3, hoistS.setFld (linkFld 3) 2, by decide⟩

theorem witness_LinkPorts_3 :
    ∃ (_port : Fin 4) (s : State), s.powered = true ∧ s.linkState 4 = 3 ∧ (s.linkOf 4).peerSeen = true ∧ (s.linkOf 4).trains < 7 :=
  ⟨3, { hoistS.setFld (linkFld 4) 3 with link := [(4, { trains := 6, peerSeen := true })] }, by decide⟩

theorem witness_LinkPorts_4 :
    ∃ (_port : Fin 4) (s : State), s.powered = true ∧ s.linkState 4 = 3 ∧ (s.linkOf 4).peerSeen = true ∧ (s.linkOf 4).trains = 7 ∧ (s.linkOf 4).waiting = [] :=
  ⟨3, { hoistS.setFld (linkFld 4) 3 with link := [(4, { trains := 7, peerSeen := true })] }, by decide⟩

theorem witness_LinkPorts_5 :
    ∃ (q : Fin 4) (_port : Fin 4) (s : State), s.powered = true ∧ s.linkState q = 3 ∧ (s.linkOf q).peerSeen = true ∧ (s.linkOf q).trains = 7 ∧ (s.linkOf q).waiting = [] ∧ s.fstate ≠ 0 :=
  ⟨3, 2, { (hoistS.setFld (linkFld 3) 3).setFld F.SHR_STATUS_FSTATE 1 with link := [(3, { trains := 7, peerSeen := true })] }, by decide⟩

theorem witness_LinkPorts_6 :
    ∃ (q : Fin 5) (_a : Bool) (_b : Bool) (_c : Bool) (_port : Fin 4) (s : State), s.powered = true ∧ 3 ≤ s.linkState q :=
  ⟨4, true, true, true, 0, linkS, by decide⟩

theorem witness_LinkPorts_7 :
    ∃ (q : Fin 5) (_a : BitVec 16) (_b : BitVec 16) (s : State), s.powered = true ∧ s.linkUp q = true ∧ (s.linkOf q).waiting = [] :=
  ⟨0, 0xFFFF, 1, linkS, by decide⟩

theorem witness_LinkPorts_8 :
    ∃ (q : Fin 4) (seq : Byte) (f : List Byte) (s : State), s.powered = true ∧ s.linkUp q = true ∧ (s.linkOf q).waiting = [] ∧ (s.linkOf q).unacked = [(seq.toNat, f)] :=
  ⟨0, 255, [], { linkS with link := [(0, { unacked := [(255, [])], stalls := 3 })] }, by decide⟩

theorem witness_LinkPorts_9 :
    ∃ (q : Fin 5) (s : State), s.powered = true ∧ s.linkUp q = true ∧ (s.linkOf q).unacked ≠ [] ∧ (s.linkOf q).stalls < 7 ∧ s.gone (s.linkOf q).ackAt 8000 = true :=
  ⟨4, later { linkS with link := [(4, { unacked := [(255, [])], stalls := 6 })] }, by decide⟩

theorem witness_LinkPorts_10 :
    ∃ (s : State), s.powered = true ∧ s.linkUp 4 = true ∧ (s.linkOf 4).unacked ≠ [] ∧ (s.linkOf 4).stalls = 7 ∧ s.gone (s.linkOf 4).ackAt 8000 = true :=
  ⟨later { linkS with link := [(4, { unacked := [(255, [])], stalls := 7 })] }, by decide⟩

theorem witness_LinkPorts_11 :
    ∃ (q : Fin 5) (cause : Fin 16) (s : State), s.powered = true ∧ s.linkUp q = true ∧ 1 ≤ cause.val ∧ cause.val ≤ 5 :=
  ⟨0, 5, { linkS with link := [(0, { unacked := [(255, [])], stalls := 7 })] }, by decide⟩

theorem witness_LinkPorts_12 :
    ∃ (q : Fin 5) (s : State), s.powered = true ∧ ((s.linkState q = 2 ∨ s.linkState q = 3)) :=
  ⟨4, hoistS.setFld (linkFld 4) 2, by decide⟩

theorem witness_LinkPorts_13 :
    ∃ (q : Fin 5) (s : State), s.powered = true ∧ s.linkState q = 3 :=
  ⟨0, hoistS.setFld (linkFld 0) 3, by decide⟩

theorem witness_LinkPorts_14 :
    ∃ (q : Fin 5) (bs : List Byte) (s : State), s.powered = true ∧ s.linkUp q = true ∧ frameCrcGood bs = false ∧ (s.linkOf q).nakOut = false :=
  ⟨0, List.replicate 16 0, linkS, by set_option maxRecDepth 4000 in decide⟩

theorem witness_LinkPorts_15 :
    ∃ (bs : List Byte) (s : State), s.powered = true ∧ s.linkUp 4 = true ∧ (s.linkReceive 4 bs).1 = true ∧ u8 bs 1 = 0xB ∧ u8 bs 4 = 0 ∧ u16 bs 6 = 0 :=
  ⟨sealFrame (stayFrame 0xB 0 0 0 []) 255, { linkS with link := [(4, { rxSeq := 255 })] }, by set_option maxRecDepth 8000 in decide⟩

theorem witness_LinkPorts_16 :
    ∃ (q : Fin 4) (w : WaitFrame) (s : State), s.powered = true ∧ (s.linkOf q).waiting = [w] ∧ w.vc = 0 ∧ w.ingress = none ∧ s.gone w.since 200000 = true ∧ s.isQuiet F.SHR_DISC = false :=
  ⟨0, ⟨0, 0, [], none, 0⟩, later { linkS with link := [(0, { waiting := [⟨0, 0, [], none, 0⟩] })] }, by decide⟩

theorem witness_ShroudElection_1 :
    ∃ (s : State), s.powered = true ∧ s.selfBest = true ∧ s.fstate ≠ 0 :=
  ⟨{ (linkS.setFld F.SHR_STATUS_FSTATE 3) with shroud := { linkS.shroud with best := some linkS.ownKey, seq := 255 } }, by decide⟩

theorem witness_ShroudElection_2 :
    ∃ (q : Fin 4) (s : State), s.powered = true ∧ s.selfBest = true ∧ s.fstate ≠ 0 ∧ s.defers = false ∧ s.shroud.hello = [] ∧ s.upPorts = [q.val] ∧ Ready q s :=
  ⟨0, { (linkS.setFld F.SHR_STATUS_FSTATE 3) with shroud := { linkS.shroud with best := some linkS.ownKey, seq := 255 } }, by decide⟩

theorem witness_ShroudElection_3 :
    ∃ (q : Fin 4) (data : List Byte) (s : State), s.powered = true ∧ s.linkUp q = true ∧ s.shroud.hello = [] ∧ s.shroud.best = some s.ownKey ∧ s.fstate = 1 ∧ (parseHello data).key < s.ownKey ∧ s.helloIgnored (parseHello data).key = false :=
  ⟨0, List.replicate 28 0 ++ [1, 5, 0, 0], { (linkS.setFld F.SHR_STATUS_FSTATE 1) with shroud := { linkS.shroud with best := some linkS.ownKey } }, by decide⟩

theorem witness_ShroudElection_4 :
    ∃ (s : State), s.powered = true ∧ s.fstate = 1 ∧ s.selfBest = true ∧ s.gone s.shroud.bestAt (s.fld F.SHR_TIMING_FORM_QUIET_US * 4000) = true :=
  ⟨later { (linkS.setFld F.SHR_STATUS_FSTATE 1) with shroud := { linkS.shroud with best := some linkS.ownKey } }, by decide⟩

theorem witness_ShroudElection_5 :
    ∃ (q : Fin 4) (s : State), s.powered = true ∧ 2 ≤ s.fstate ∧ s.selfBest = false ∧ s.parent = q ∧ Ready q s :=
  ⟨0, (linkS.setFld F.SHR_STATUS_FSTATE 2).setFld F.SHR_FABRIC_PARENT 0, by decide⟩

theorem witness_ShroudElection_6 :
    ∃ (q : Fin 4) (_bs : List Byte) (s : State), s.powered = true ∧ s.linkUp q = true ∧ s.selfBest = true ∧ s.shroud.topos = [] :=
  ⟨0, List.replicate 96 1, { (linkS.setFld F.SHR_STATUS_FSTATE 2) with shroud := { linkS.shroud with best := some linkS.ownKey } }, by decide⟩

theorem witness_ShroudElection_7 :
    ∃ (s : State), s.powered = true ∧ s.bit F.SHR_STATUS_IS_COORD = true ∧ s.fstate = 2 ∧ s.shroud.topos = [] ∧ s.shroud.hasTable = false ∧ s.fld F.SHR_CFG_EXPECT = 0 ∧ s.gone s.shroud.topoAt (s.fld F.SHR_TIMING_FORM_QUIET_US * 4000) = true ∧ s.shroud.issued = s.fld F.SHR_STATUS_EPOCH ∧ s.bit F.SHR_CFG_ADDR_STRAP = true :=
  ⟨later { (((linkS.setFld F.SHR_STATUS_FSTATE 2).raise F.SHR_STATUS_IS_COORD).raise F.SHR_CFG_ADDR_STRAP).setFld F.SHR_STATUS_EPOCH 255 with shroud := { linkS.shroud with best := some linkS.ownKey, issued := 255 } }, by decide⟩

theorem witness_ShroudElection_8 :
    ∃ (q : Fin 4) (bs : List Byte) (s : State), s.powered = true ∧ s.linkUp q = true ∧ s.fstate = 2 ∧ s.selfBest = false ∧ s.shroud.hasTable = false ∧ u8 (bs.drop 16) 4 ≤ u8 bs 10 ∧ u8 (bs.drop 16) 5 / 64 % 2 = 1 :=
  ⟨0, List.replicate 20 0 ++ [0, 0xFF, 0xFF, 0] ++ List.replicate 8 0 ++ List.replicate 32 0xF4, linkS.setFld F.SHR_STATUS_FSTATE 2, by decide⟩

theorem witness_ShroudElection_9 :
    ∃ (r : RouteTable) (s : State), s.powered = true ∧ s.shroud.table = some r ∧ atOrAfter s.now r.switch = true :=
  ⟨⟨255, 0, List.replicate 8 0xFFFFFFFF, 63, 0⟩, { linkS with shroud := { linkS.shroud with table := some ⟨255, 0, List.replicate 8 0xFFFFFFFF, 63, 0⟩ } }, by decide⟩

theorem witness_ShroudElection_10 :
    ∃ (q : Fin 4) (uid : BitVec 96) (port : Fin 4) (e : Byte) (s : State), s.powered = true ∧ s.upPorts = [q.val] ∧ (uid.toNat, port.val, e.toNat) ∉ s.shroud.seenDown ∧ s.bit F.SHR_STATUS_IS_COORD = false :=
  ⟨0, 1, 3, 255, linkS, by decide⟩

theorem witness_ShroudElection_11 :
    ∃ (s : State), s.powered = true ∧ s.fstate ≠ 0 ∧ s.selfBest = false ∧ s.gone s.shroud.seqAt 4000000 = true :=
  ⟨later { (linkS.setFld F.SHR_STATUS_FSTATE 3) with shroud := { linkS.shroud with best := some 5 } }, by decide⟩

theorem witness_ShroudElection_12 :
    ∃ (s : State), Open s ∧ s.bit F.SHR_STATUS_IS_COORD = true ∧ s.formed = true :=
  ⟨(linkS.setFld F.SHR_STATUS_FSTATE 3).raise F.SHR_STATUS_IS_COORD, by decide⟩

theorem witness_ShroudElection_13 :
    ∃ (q : Fin 4) (_ofs : Nat) (s : State), s.powered = true ∧ 2 ≤ s.fstate ∧ s.shroud.noAddr = false ∧ s.selfBest = false ∧ s.parent = q ∧ Ready q s :=
  ⟨0, 3, (linkS.setFld F.SHR_STATUS_FSTATE 2).setFld F.SHR_FABRIC_PARENT 0, by decide⟩

theorem witness_ShroudElection_14 :
    ∃ (q : Fin 4) (_ofs : Nat) (s : State), s.powered = true ∧ Ready q s :=
  ⟨0, 3, linkS, by decide⟩

theorem witness_ShroudElection_15 :
    ∃ (q : Fin 4) (d : Nat) (t1 : Nat) (t3 : Nat) (ofs : Nat) (s : State), s.powered = true ∧ s.linkUp q = true ∧ s.shroud.sync = some (q.val, t1, s.mast.steps) ∧ s.reg (F.SHR_P_ASYM q) = 0 ∧ s.bit F.SHR_STATUS_IS_COORD = false ∧ s.formed = false ∧ d < 2 ^ 31 ∧ t1 < 2 ^ 64 ∧ t3 < 2 ^ 64 ∧ (s.now + ofs) % 2 ^ 64 = (t3 + d) % 2 ^ 64 :=
  ⟨0, 2147483647, 18446744073709551615, 0, 2147483647, { (linkS.setFld F.SHR_STATUS_FSTATE 2) with shroud := { linkS.shroud with sync := some (0, 18446744073709551615, 0) } }, by decide⟩

theorem witness_ShroudElection_16 :
    ∃ (_a : Fin 64) (s : State), s.powered = true ∧ s.formed = true ∧ s.bit F.SHR_STATUS_IS_COORD = true :=
  ⟨63, (linkS.setFld F.SHR_STATUS_FSTATE 3).raise F.SHR_STATUS_IS_COORD, by decide⟩

theorem witness_ShroudElection_17 :
    ∃ (q : Fin 4) (s : State), s.powered = true ∧ s.formed = true ∧ s.bit F.SHR_STATUS_IS_COORD = false ∧ s.routeTo (s.fld F.SHR_FABRIC_COORD_ADDR) = q ∧ Ready q s :=
  ⟨0, (linkS.setFld F.SHR_STATUS_FSTATE 3).setReg (F.SHR_ROUTE 0) 0, by decide⟩

theorem witness_ShroudEndpoints_1 :
    ∃ (n : Fin 64) (q : Fin 4) (port : Nat) (_d : Dword) (s : State), s.epSends n = true ∧ s.bit (F.SHR_EP_CFG_TX_FIFO n) = false ∧ s.fabricAlive 0xA n = true ∧ s.portOf 0xA n = some port ∧ 1 ≤ s.epCredit n ∧ s.routeTo (s.txPeer n / 64) = q ∧ Ready q s :=
  ⟨63, 0, 0, 7, ((((linkS.clear F.FAB_STATUS_GSR).setFld F.SHR_STATUS_FSTATE 3).raise (F.SHR_EP_CFG_TX_EN 63)).setReg (F.EP_BIND 0) 0x3F0A).setReg (F.SHR_ROUTE 0) 0, by decide⟩

theorem witness_ShroudEndpoints_2 :
    ∃ (n : Fin 64) (q : Fin 4) (s : State), s.powered = true ∧ s.formed = true ∧ s.bit (F.SHR_EP_CFG_RX_EN n) = true ∧ s.fld (F.SHR_EP_RX_TAKEN_CNT n) ≠ (s.endpointOf n).credited ∧ s.gone (s.endpointOf n).advAt 4000 = true ∧ s.routeTo (s.rxPeer n / 64) = q ∧ Ready q s :=
  ⟨63, 0, later ((((linkS.setFld F.SHR_STATUS_FSTATE 3).raise (F.SHR_EP_CFG_RX_EN 63)).setReg (F.SHR_EP_RX_TAKEN 63) 0xFFFFFFFF).setReg (F.SHR_ROUTE 0) 0), by decide⟩

theorem witness_ShroudEndpoints_3 :
    ∃ (n : Fin 64) (q : Fin 4) (s : State), s.epSends n = true ∧ s.epSent n ≠ (s.endpointOf n).recv ∧ s.probeDue n = true ∧ s.routeTo (s.txPeer n / 64) = q ∧ Ready q s :=
  ⟨63, 0, later (((((linkS.clear F.FAB_STATUS_GSR).setFld F.SHR_STATUS_FSTATE 3).raise (F.SHR_EP_CFG_TX_EN 63)).setReg (F.SHR_EP_TX_SENT 63) 5).setReg (F.SHR_ROUTE 0) 0), by decide⟩

theorem witness_ShroudEndpoints_4 :
    ∃ (n : Fin 64) (recv : Word) (_taken : Word) (sent : Nat) (l : Nat) (s : State), s.powered = true ∧ s.formed = true ∧ s.bit (F.SHR_EP_CFG_TX_EN n) = true ∧ (s.endpointOf n).probe = some sent ∧ sent < 2 ^ 32 ∧ 0 < l ∧ l < 65536 ∧ (sent + 2 ^ 32 - s.fld (F.SHR_EP_TX_LOST_CNT n)) % 2 ^ 32 = (recv.toNat + l) % 2 ^ 32 :=
  ⟨63, 0xFFFFFFFF, 7, 5, 6, { ((linkS.setFld F.SHR_STATUS_FSTATE 3).raise (F.SHR_EP_CFG_TX_EN 63)) with endpoint := [(63, { probe := some 5 })] }, by decide⟩

theorem witness_ShroudEndpoints_5 :
    ∃ (n : Fin 64) (recv : Word) (_taken : Word) (sent : Nat) (s : State), s.powered = true ∧ s.formed = true ∧ s.bit (F.SHR_EP_CFG_TX_EN n) = true ∧ (s.endpointOf n).probe = some sent ∧ sent < 2 ^ 32 ∧ (sent + 2 ^ 32 - s.fld (F.SHR_EP_TX_LOST_CNT n)) % 2 ^ 32 = recv.toNat :=
  ⟨63, 5, 7, 5, { ((linkS.setFld F.SHR_STATUS_FSTATE 3).raise (F.SHR_EP_CFG_TX_EN 63)) with endpoint := [(63, { probe := some 5 })] }, by decide⟩

theorem witness_ShroudEndpoints_6 :
    ∃ (_p : Path) (n : Fin 64) (_v : Word) (s : State), Open s ∧ s.mirrorMask (F.SHR_EP_TX_PEER n) = 0 ∧ s.epSent n = (s.endpointOf n).taken :=
  ⟨.spi, 63, 0xFFFFFFFF, linkS, by decide⟩

theorem witness_ShroudEndpoints_7 :
    ∃ (_p : Path) (n : Fin 64) (_v : Word) (s : State), Open s ∧ s.epSent n ≠ (s.endpointOf n).taken :=
  ⟨.spi, 63, 0xFFFFFFFF, linkS.setReg (F.SHR_EP_TX_SENT 63) 1, by decide⟩

theorem witness_ShroudEndpoints_8 :
    ∃ (_p : Path) (n : Fin 64) (_v : Word) (s : State), Open s ∧ (s.endpointOf n).held ≠ [] :=
  ⟨.spi, 0, 0xFFFFFFFF, { linkS with endpoint := [(0, { held := [(1, 0)] })] }, by decide⟩

theorem witness_StayRoles_1 :
    ∃ (s : State), s.powered = true ∧ s.stayUp = true :=
  ⟨{ actS with stay := { actS.stay with hbSeq := 65535 } }, by decide⟩

theorem witness_StayRoles_2 :
    ∃ (_flags : Byte) (s : State), s.powered = true ∧ s.stayUp = true ∧ s.role = 1 ∧ s.fld F.STY_STATUS_PARTNER_ROLE = 2 ∧ s.bit F.STY_STATUS_PARTNER_PRESENT = true :=
  ⟨0xFF, (stbyS.setFld F.STY_STATUS_PARTNER_ROLE 2).raise F.STY_STATUS_PARTNER_PRESENT, by decide⟩

theorem witness_StayRoles_3 :
    ∃ (s : State), s.powered = true ∧ s.role = 1 ∧ s.stay.misses ≠ 2 ∧ s.gone s.stay.hbAt (24000 + 20000 * s.stay.misses) = true :=
  ⟨later (stbyS.setReg F.STY_HB_MISS 0xFFFFFFFF), by decide⟩

theorem witness_StayRoles_4 :
    ∃ (s : State), s.inSail = true ∧ s.role = 1 ∧ s.stay.misses = 2 ∧ s.gone s.stay.hbAt 64000 = true ∧ s.stay.actIn = false ∧ s.bit F.MODE_STATUS_REEFING = false ∧ s.stay.takeover = none :=
  ⟨later { stbyS with stay := { stbyS.stay with misses := 2 } }, by decide⟩

theorem witness_StayRoles_5 :
    ∃ (s : State), s.inSail = true ∧ s.role = 1 ∧ s.stay.actIn = true ∧ s.bit F.MODE_STATUS_REEFING = false ∧ s.stay.takeover = none :=
  ⟨{ stbyS.raise F.STY_STATUS_WARM with stay := { stbyS.stay with actIn := true } }, by decide⟩

theorem witness_StayRoles_6 :
    ∃ (t0 : Nat) (d : Nat) (s : State), s.powered = true ∧ s.stay.takeover = some (t0, d) :=
  ⟨18446744073709551615, 3, { actS with stay := { actS.stay with takeover := some (18446744073709551615, 3) } }, by decide⟩

theorem witness_StayRoles_7 :
    ∃ (s : State), s.inSail = true ∧ s.stay.claim = true ∧ s.gone s.stay.claimAt (s.fld F.STY_TIMING_CLAIM_US * 4000) = true ∧ s.role ≠ 2 ∧ s.stay.actIn = false :=
  ⟨later { linkS with stay := { linkS.stay with claim := true } }, by decide⟩

theorem witness_StayRoles_8 :
    ∃ (s : State), s.powered = true ∧ s.role = 2 ∧ s.stay.actIn = true ∧ s.gone s.stay.contendAt 4000 = true ∧ s.bit F.STY_STATUS_PAIRED = true ∧ s.primary = false ∧ s.bit F.STY_STATUS_PARTNER_PRIMARY = true :=
  ⟨later { actS.raise F.STY_STATUS_PARTNER_PRIMARY with stay := { actS.stay with actIn := true } }, by decide⟩

theorem witness_StayRoles_9 :
    ∃ (_uid : BitVec 96) (s : State), s.powered = true ∧ s.stayUp = true ∧ s.role = 1 ∧ s.primary = true :=
  ⟨0xFFFFFFFF0000000000000001, (stbyS.raise F.HST_STRAPS_ROLE).setReg F.STY_SIG 5, by decide⟩

theorem witness_StayRoles_10 :
    ∃ (_uid : BitVec 96) (sig : Word) (s : State), s.powered = true ∧ s.stayUp = true ∧ s.role = 1 ∧ s.primary = true ∧ sig ≠ s.reg F.STY_SIG :=
  ⟨1, 6, (stbyS.raise F.HST_STRAPS_ROLE).setReg F.STY_SIG 5, by decide⟩

theorem witness_StayRoles_11 :
    ∃ (_p : Path) (v : Word) (s : State), Open s ∧ v.toNat / 2 ^ 16 ≠ 0x5354 :=
  ⟨.spi, 0x12340001, actS, by decide⟩

theorem witness_StayRoles_12 :
    ∃ (_p : Path) (v : Word) (s : State), s.inSail = true ∧ v.toNat / 2 ^ 16 = 0x5354 ∧ s.role = 2 ∧ s.fld F.STY_STATUS_PARTNER_ROLE = 1 ∧ s.stay.partnerWarm = true ∧ s.stay.partnerAligned = true ∧ s.stayUp = true ∧ s.bit F.STY_STATUS_SIG_MATCH = true ∧ s.ledgerGrants (s.reg F.STY_PUSH_COST).toNat false = true :=
  ⟨.spi, 0x53540001, { actS.setFld F.STY_STATUS_PARTNER_ROLE 1 with stay := { actS.stay with partnerWarm := true, partnerAligned := true } }, by decide⟩

theorem witness_StayRoles_13 :
    ∃ (s : State), s.powered = true ∧ s.stay.handing = true ∧ s.role = 2 :=
  ⟨{ actS with stay := { actS.stay with handing := true } }, by decide⟩

theorem witness_StayRoles_14 :
    ∃ (s : State), s.inSail = true ∧ s.gone s.dsc.partnerAt (3 * s.fld F.STY_TIMING_SYNC_US * 4000) = true :=
  ⟨later (stbyS.raise (srcFld 4)), by decide⟩

theorem witness_StayRoles_15 :
    ∃ (s : State), s.inSail = true ∧ s.gone s.dsc.coordAt (3 * s.fld F.SHR_TIMING_SYNC_US * 4000) = true :=
  ⟨later (stbyS.raise (srcFld 3)), by decide⟩

theorem witness_StayMirror_1 :
    ∃ (s : State), s.role = 2 ∧ Ready 4 s ∧ s.gone s.stay.refreshAt (s.fld F.STY_CFG_REFRESH_MS * 4000000) = true ∧ s.stay.handing = false ∧ s.stay.pushing = false ∧ s.bit F.STY_STATUS_SIG_MATCH = false :=
  ⟨later (actS.clear F.STY_STATUS_SIG_MATCH), by decide⟩

theorem witness_StayMirror_2 :
    ∃ (i : Fin 512) (n : Nat) (a : Nat) (m : Nat) (s : State), s.mirrors = true ∧ Ready 4 s ∧ s.stayEntries[i.val]? = some (3, n, a, m) ∧ s.entryView i ≠ Table.get (fun _ => []) s.stay.sentEntry i :=
  ⟨0, 255, 0, 0, { actS with stayEntries := [(3, 255, 0, 0)] }, by decide⟩

theorem witness_StayMirror_3 :
    ∃ (s : State), s.mirrors = true ∧ s.bit F.STY_CFG_DSC_MIRROR = true ∧ Ready 4 s :=
  ⟨actS.raise F.STY_CFG_DSC_MIRROR, by decide⟩

theorem witness_StayMirror_4 :
    ∃ (i : BitVec 16) (_v : Word) (n : Nat) (a : Nat) (m : Nat) (s : State), s.applies = true ∧ s.stayEntries[i.toNat]? = some (1, n, a, m) ∧ a ≠ F.STY_MIRROR_RX :=
  ⟨0, 0xFFFFFFFF, 0, F.PWR_IRQ_EN, 5, { stbyS with stayEntries := [(1, 0, F.PWR_IRQ_EN, 5)] }, by decide⟩

theorem witness_StayMirror_5 :
    ∃ (i : Fin 512) (n : Nat) (data : List Byte) (s : State), s.applies = true ∧ s.entryUnit 2 i = some n ∧ n < 64 ∧ u8 data 36 % 4 = 2 ∧ data.length = 48 :=
  ⟨0, 63, List.replicate 36 255 ++ [2] ++ List.replicate 11 0, { stbyS with stayEntries := [(2, 63, 0, 0)] }, by decide⟩

theorem witness_StayMirror_6 :
    ∃ (i : Fin 512) (n : Nat) (data : List Byte) (s : State), s.applies = true ∧ s.entryUnit 3 i = some n ∧ n < 256 ∧ (s.cmpOf n).applied ≠ some (u8 data 21) ∧ data.length = 32 :=
  ⟨0, 255, List.replicate 32 255, { stbyS with stayEntries := [(3, 255, 0, 0)] }, by decide⟩

theorem witness_StayMirror_7 :
    ∃ (_data : List Byte) (s : State), s.applies = true :=
  ⟨[3, 4, 1, 0], stbyS, by decide⟩

theorem witness_StayMirror_8 :
    ∃ (record : List Byte) (s : State), s.applies = true ∧ s.bit F.DSC_MODEL_CFG_MIRROR_ADOPT = true ∧ recordGood record = true :=
  ⟨goodRec, stbyS.raise F.DSC_MODEL_CFG_MIRROR_ADOPT, by decide, by decide, goodRec_good⟩

theorem witness_StayMirror_9 :
    ∃ (_record : List Byte) (s : State), s.bit F.DSC_MODEL_CFG_MIRROR_ADOPT = false :=
  ⟨[], stbyS.clear F.DSC_MODEL_CFG_MIRROR_ADOPT, by decide⟩

theorem witness_StayMirror_10 :
    ∃ (n : Fin 32) (_a : Dword) (_b : Dword) (_c : Dword) (_d : Dword) (s : State), s.applies = true ∧ (s.slotOf n).offered = none :=
  ⟨31, 1, 2, 3, 4, stbyS, by decide⟩

theorem witness_StayMirror_11 :
    ∃ (s : State), s.inSail = true ∧ s.role = 1 ∧ s.bit F.STY_STATUS_PAIRED = true ∧ s.bit F.STY_STATUS_WARM = false ∧ s.reg F.STY_SLOT_RX &&& s.reg F.STY_SLOTS = s.reg F.STY_SLOTS :=
  ⟨(stbyS.setReg F.STY_SLOTS 0x80000001).setReg F.STY_SLOT_RX 0x80000001, by decide⟩

theorem witness_StayMirror_12 :
    ∃ (n : Fin 32) (port : Nat) (a : Dword) (b : Dword) (c : Dword) (_d : Dword) (s : State), s.fabricAlive 0xC n = true ∧ s.portOf 0xC n = some port ∧ s.role = 2 ∧ Table.get (fun _ => []) s.stay.slotOut n = [a, b, c] ∧ s.mirrors = false ∧ n.val ∉ s.stay.slotUnsent ∧ (s.linkOf 4).waiting = [] :=
  ⟨31, 0, 1, 2, 3, 4, { ((actS.clear F.STY_STATUS_SIG_MATCH).clear F.FAB_STATUS_GSR).setReg (F.EP_BIND 0) 0x1F0C with stay := { actS.stay with slotOut := [(31, [1, 2, 3])] } }, by decide⟩

theorem witness_StayMirror_13 :
    ∃ (_ofs : Nat) (s : State), s.powered = true ∧ Ready 4 s ∧ s.role ≠ 2 ∧ s.fld F.STY_STATUS_PARTNER_ROLE = 2 :=
  ⟨3, stbyS.setFld F.STY_STATUS_PARTNER_ROLE 2, by decide⟩

theorem witness_StayMirror_14 :
    ∃ (_ofs : Nat) (s : State), s.powered = true ∧ Ready 4 s :=
  ⟨3, stbyS, by decide⟩

theorem witness_StayMirror_15 :
    ∃ (d : Nat) (t1 : Nat) (t3 : Nat) (ofs : Nat) (s : State), s.powered = true ∧ s.stayUp = true ∧ s.stay.sync = some (t1, s.mast.steps) ∧ s.reg F.STY_ASYM = 0 ∧ d < 2 ^ 31 ∧ t1 < 2 ^ 64 ∧ t3 < 2 ^ 64 ∧ (s.now + ofs) % 2 ^ 64 = (t3 + d) % 2 ^ 64 :=
  ⟨2147483647, 18446744073709551615, 0, 2147483647, { stbyS with stay := { stbyS.stay with sync := some (18446744073709551615, stbyS.mast.steps) } }, by decide⟩

theorem witness_VoltageLoop_1 :
    ∃ (_mV : Nat) (_mA : Nat) (s : State), s.powered = true ∧ s.bit F.PWR_STATUS_CEILING_PRESSURE = false ∧ s.bit F.PWR_STATUS_AVS_FAULT = false :=
  ⟨800, 65535, sailS, by decide⟩

theorem witness_VoltageLoop_2 :
    ∃ (_mV : Nat) (_mA : Nat) (s : State), s.powered = true ∧ s.bit F.PWR_STATUS_CEILING_PRESSURE = false ∧ s.bit F.PWR_STATUS_AVS_FAULT = true :=
  ⟨800, 1, sailS.raise F.PWR_STATUS_AVS_FAULT, by decide⟩

theorem witness_VoltageLoop_3 :
    ∃ (s : State), s.powered = true ∧ s.bit F.PWR_STATUS_AVS_FAULT = false :=
  ⟨sailS, by decide⟩

theorem witness_VoltageLoop_4 :
    ∃ (_cmd : Fin 16) (s : State), s.powered = true ∧ s.bit F.PWR_STATUS_AVS_FAULT = false :=
  ⟨15, sailS, by decide⟩

theorem witness_VoltageLoop_5 :
    ∃ (s : State), s.bit F.PWR_STATUS_LOOP_RUN = true ∧ s.gone s.pwr.paceAt (s.fld F.PWR_PACE_TIME_PACE_US * 4000) = true ∧ s.win.found = [] ∧ s.paceInputs = 0 ∧ s.fld F.PWR_VDDF_FLOOR_MV ≤ 800 ∧ 800 ≤ s.fld F.PWR_VDDF_CEIL_MV ∧ s.pwr.capLim = 950 :=
  ⟨later (((sailS.raise F.PWR_STATUS_LOOP_RUN).setFld F.PWR_VDDF_FLOOR_MV 800).setFld F.PWR_VDDF_CEIL_MV 800), by decide⟩

theorem witness_VoltageLoop_6 :
    ∃ (s : State), s.bit F.PWR_STATUS_LOOP_RUN = true ∧ s.fld F.PWR_POWER_CAP_MW = 0 ∧ s.fld F.PWR_VDDF_FLOOR_MV ≤ s.fld F.PWR_VDDF_CEIL_MV ∧ s.fld F.PWR_VDDF_TARGET_REQ ≤ s.fld F.PWR_VDDF_CEIL_MV ∧ s.fld F.PWR_VDDF_CEIL_MV ≤ 950 :=
  ⟨{ ((sailS.raise F.PWR_STATUS_LOOP_RUN).setFld F.PWR_VDDF_CEIL_MV 950) with pwr := { sailS.pwr with capLim := 550 } }, by decide⟩

theorem witness_VoltageLoop_7 :
    ∃ (s : State), s.bit F.PWR_STATUS_LOOP_RUN = true ∧ 0 < s.fld F.PWR_POWER_CAP_MW ∧ s.fld F.PWR_POWER_CAP_MW * 1000 < s.fld F.PWR_VDDF_MEAS_MV * s.fld F.PWR_VDDF_MEAS_MA :=
  ⟨((((sailS.raise F.PWR_STATUS_LOOP_RUN).setFld F.PWR_POWER_CAP_MW 1).setFld F.PWR_VDDF_MEAS_MV 1000).setFld F.PWR_VDDF_MEAS_MA 2).setFld F.PWR_PACE_CFG_STEP_DN 5, by decide⟩

theorem witness_ReserveAndLedger_1 :
    ∃ (code : Fin 4096) (s : State), s.powered = true ∧ s.pwr.rsvEn = true ∧ s.pwr.rsvDiv = 4096 ∧ code.val * 6000 % 1024 = 0 ∧ code.val * 6000 / 1024 < 65536 ∧ code.val * 6000 / 1024 * (code.val * 6000 / 1024) * s.fld F.PWR_RSV_C_VALUE ≤ s.twiceEcap ∧ s.bit F.MODE_STATUS_REEFING = false ∧ s.bit F.MODE_STATUS_PFI_PAUSED = false ∧ code.val * 6000 / 1024 + s.fld F.PWR_RSV_CTRL_HYST < s.fld F.PWR_RSV_VSTOP_MV ∧ s.bit F.PWR_STATUS_CHARGING = false :=
  ⟨1024, { (((sailS.setFld F.PWR_RSV_C_VALUE 1000).setFld F.PWR_RSV_ECAP_VALUE 1000000).setFld F.PWR_RSV_VSTOP_MV 6300) with pwr := { sailS.pwr with rsvEn := true, rsvDiv := 4096 } }, by decide⟩

theorem witness_ReserveAndLedger_2 :
    ∃ (code : Fin 4096) (s : State), s.powered = true ∧ s.pwr.rsvEn = true ∧ s.pwr.rsvDiv = 4096 ∧ code.val * 6000 % 1024 = 0 ∧ code.val * 6000 / 1024 < 65536 ∧ s.twiceEcap < code.val * 6000 / 1024 * (code.val * 6000 / 1024) * s.fld F.PWR_RSV_C_VALUE ∧ s.pwr.rsvExcursion = false :=
  ⟨1024, { sailS.setFld F.PWR_RSV_C_VALUE 1000 with pwr := { sailS.pwr with rsvEn := true, rsvDiv := 4096 } }, by decide⟩

theorem witness_ReserveAndLedger_3 :
    ∃ (s : State), s.powered = true ∧ s.bit F.PWR_STATUS_CHARGING = true ∧ s.pwr.chargeLogged = false ∧ s.gone s.pwr.chargeAt (s.fld F.PWR_RSV_CTRL_CHG_TO * 4000000000) = true :=
  ⟨later (sailS.raise F.PWR_STATUS_CHARGING), by decide⟩

theorem witness_ReserveAndLedger_4 :
    ∃ (_p : Path) (_v : Word) (s : State), Open s ∧ s.pwr.rsvEn = true :=
  ⟨.spi, 0xFFFFFFFF, { sailS.setFld F.PWR_RSV_C_VALUE 1000 with pwr := { sailS.pwr with rsvEn := true, rsvDiv := 4096 } }, by decide⟩

theorem witness_ReserveAndLedger_5 :
    ∃ (_code : Fin 7) (cost : Nat) (reefOp : Bool) (s : State), s.powered = true ∧ s.ledgerGrants cost reefOp = true :=
  ⟨6, 4294967295, false, sailS, by decide⟩

theorem witness_ReserveAndLedger_6 :
    ∃ (_code : Fin 7) (cost : Nat) (s : State), s.powered = true ∧ s.pwr.rsvEn = true ∧ s.fld F.PWR_RSV_E_UJ < s.fld F.PWR_LEDGER_COMMIT_UJ + cost + s.fld F.PWR_LEDGER_MARGIN_UJ ∧ cost < 2 ^ 24 ∧ s.isQuiet F.PWR_LEDGER_REFUSED = false :=
  ⟨6, 16777215, { sailS with pwr := { sailS.pwr with rsvEn := true } }, by decide⟩

theorem witness_ReserveAndLedger_7 :
    ∃ (mV : Nat) (s : State), s.inSail = true ∧ 2000 ≤ mV :=
  ⟨2000, sailS, by decide⟩

theorem witness_ReserveAndLedger_8 :
    ∃ (mV : Nat) (s : State), s.inSail = true ∧ mV < 2000 ∧ s.pwr.vbatLogged = false :=
  ⟨1999, sailS, by decide⟩

theorem witness_PinsAndEventLines_1 :
    ∃ (mV : Nat) (vs : List Nat) (s : State), s.inSail = true ∧ vs.length = 15 ∧ (∀ b : Fin 15, s.bankSupply (b + 1) = none) ∧ s.bankSupply 0 = some 1800 ∧ 1620 ≤ mV ∧ mV ≤ 1980 ∧ s.vioBad % 2 = 0 :=
  ⟨1980, List.replicate 15 0, sailS.setFld ⟨F.GPIO_VIO, 0, 2⟩ 1, by decide⟩

theorem witness_PinsAndEventLines_2 :
    ∃ (mV : Nat) (vs : List Nat) (s : State), s.inSail = true ∧ vs.length = 15 ∧ (∀ b : Fin 15, s.bankSupply (b + 1) = none) ∧ s.bankSupply 0 = some 3300 ∧ mV < 2970 ∧ s.vioBad % 2 = 0 :=
  ⟨2969, List.replicate 15 0, (sailS.setFld ⟨F.GPIO_VIO, 0, 2⟩ 3).raise ⟨F.GPIO_VIO_OK, 0, 1⟩, by decide⟩

theorem witness_PinsAndEventLines_3 :
    ∃ (_p : Path) (b : Fin 16) (v : Word) (s : State), Open s ∧ s.mirrorMask (F.GPIO_OUT b) = 0 ∧ (s.reg (F.GPIO_OUT b)).toNat < 2 ^ 16 ∧ (s.reg (F.GPIO_OUT b) ^^^ v) &&& BitVec.ofNat 32 (s.sheetOwned b) = 0 :=
  ⟨.spi, 15, 0xFFFFFFFF, sailS, by decide⟩

theorem witness_PinsAndEventLines_4 :
    ∃ (_p : Path) (b : Fin 16) (v : Word) (s : State), Open s ∧ s.mirrorMask (F.GPIO_OE b) = 0 ∧ (s.reg (F.GPIO_OE b) ^^^ v) &&& BitVec.ofNat 32 (s.sheetOwned b) ≠ 0 :=
  ⟨.spi, 15, 0x8001, sailS.raise (F.SHT_CFG_EN 255), by decide⟩

theorem witness_PinsAndEventLines_5 :
    ∃ (n : Fin 16) (_fine : Fin 40) (s : State), s.inSail = true ∧ s.bit (F.EV_CFG_EN n) = true ∧ s.fld (F.EV_CFG_TRIG n) = 1 ∧ (s.line n).lastEdge = none ∧ (s.line n).owed = false ∧ s.armedBy n = [] ∧ s.portOf 9 n = none :=
  ⟨15, 39, (sailS.setReg (F.EV_CFG 15) 0xF05).setReg (F.EV_COUNT 15) 0xFFFFFFFF, by decide⟩

theorem witness_PinsAndEventLines_6 :
    ∃ (_p : Path) (n : Fin 16) (v : Word) (s : State), Open s ∧ s.lvdsOdd (16 * bits v.toNat 11 8 + n) = false ∧ s.mirrorMask (F.EV_CFG n) = 0 ∧ bits v.toNat 4 2 < 4 ∧ (s.line n).owed = false :=
  ⟨.spi, 15, 0xFFFFFFEF, sailS, by decide⟩

theorem witness_PinsAndEventLines_7 :
    ∃ (_p : Path) (n : Fin 16) (v : Word) (s : State), Open s ∧ s.lvdsOdd (16 * bits v.toNat 11 8 + n) = true :=
  ⟨.spi, 15, 0xF05, sailS.raise (F.GPIO_PIN_CFG_LVDS 254), by decide⟩

theorem witness_FlashCallsAtOnce_1 :
    ∃ (_c : RoutineCall) (s : State), s.powered = true ∧ NoCall s :=
  ⟨⟨0, 0, 0, 0, 0x20000000, 0x40000000⟩, sailS, by decide⟩

theorem witness_FlashCallsAtOnce_2 :
    ∃ (c : RoutineCall) (s : State), s.powered = true ∧ NoCall s ∧ 1 ≤ c.a0.toNat ∧ c.a0.toNat ≤ 4 ∧ c.a1.toNat ≤ 65535 ∧ s.flash.op = none :=
  ⟨⟨4, 65535, 0, 0, 0x20000000, 0x40000000⟩, sailS, by decide⟩

theorem witness_FlashCallsAtOnce_3 :
    ∃ (c : RoutineCall) (s : State), s.powered = true ∧ NoCall s ∧ (c.a0.toNat < 1 ∨ 4 < c.a0.toNat ∨ 65535 < c.a1.toNat) :=
  ⟨⟨5, 65535, 0, 0, 0x20000000, 0x40000000⟩, sailS, by decide⟩

theorem witness_FlashCallsAtOnce_4 :
    ∃ (c : RoutineCall) (s : State), s.powered = true ∧ NoCall s ∧ c.a0.toNat + c.a1.toNat ≤ 0x1000000 ∧ s.rangeBusy c.a0.toNat c.a1.toNat = false ∧ s.flashBytes c.a0.toNat c.a1.toNat = List.replicate c.a1.toNat 0xFF :=
  ⟨⟨0xFFFFF0, 16, 0, 0, 0x20000000, 0x40000000⟩, sailS, by decide⟩

theorem witness_FlashCallsAtOnce_5 :
    ∃ (c : RoutineCall) (s : State), s.powered = true ∧ NoCall s ∧ c.a0.toNat + c.a1.toNat ≤ 0x1000000 ∧ s.rangeBusy c.a0.toNat c.a1.toNat = false ∧ 0 < c.a1.toNat ∧ s.flashBytes c.a0.toNat 1 ≠ [0xFF] :=
  ⟨⟨0xFFFFFF, 1, 0, 0, 0x20000000, 0x40000000⟩, { sailS with flash := { sailS.flash with mem := [(0xFFFFFF, 0)] } }, by decide⟩

theorem witness_FlashCallsAtOnce_6 :
    ∃ (c : RoutineCall) (s : State), s.powered = true ∧ NoCall s ∧ s.flash.op = none ∧ 1 ≤ c.a2.toNat ∧ c.a1.toNat % 32 + c.a2.toNat ≤ 32 ∧ c.a1.toNat + c.a2.toNat ≤ 0x1000000 ∧ 0x20000000 ≤ c.a0.toNat ∧ c.a0.toNat + c.a2.toNat ≤ 0x2003C000 ∧ s.rangeBusy c.a1.toNat c.a2.toNat = false ∧ Table.get (fun _ => false) s.flash.bad (c.a1.toNat / 32) = false ∧ 1 ≤ s.fld F.FLC_WARN_LEVEL :=
  ⟨⟨0x2003BFFE, 0xFFFFFE, 2, 0, 0x20000000, 0x40000000⟩, { sailS with flash := { sailS.flash with mem := [(0xFFFFFF, 7)] } }, by decide⟩

theorem witness_FlashCallsAtOnce_7 :
    ∃ (c : RoutineCall) (_errs : List (Nat × Nat)) (s : State), s.powered = true ∧ NoCall s ∧ (c.a2.toNat < 1 ∨ 262144 < c.a2.toNat ∨ 0x1000000 < c.a1.toNat + c.a2.toNat) :=
  ⟨⟨0x20000000, 0xFFFFFF, 2, 0, 0x20000000, 0x40000000⟩, [], sailS, by decide⟩

theorem witness_FlashCallsAtOnce_8 :
    ∃ (c : RoutineCall) (op : FlashOp) (s : State), s.powered = true ∧ NoCall s ∧ s.flash.op = some op ∧ op.caller = callerOf c :=
  ⟨⟨0, 0, 0, 0, 0x20000000, 0x40000000⟩, ⟨true, 0x20000, 1, 0, 0, [], some 0, 0, false, false⟩, { sailS with flash := { sailS.flash with op := some ⟨true, 0x20000, 1, 0, 0, [], some 0, 0, false, false⟩ } }, by decide⟩

theorem witness_FlashCallsAtOnce_9 :
    ∃ (c : RoutineCall) (st : Word) (n : Word) (ofs : Word) (s : State), s.powered = true ∧ NoCall s ∧ s.flash.op = none ∧ s.flash.results = [(callerOf c, [st, n, ofs])] :=
  ⟨⟨0, 0, 0, 0, 0x20000000, 0x40000000⟩, 9, 32, 0x620020, { sailS with flash := { sailS.flash with results := [(0, [9, 32, 0x620020])] } }, by decide⟩

theorem witness_FlashCallsAtOnce_10 :
    ∃ (p : Path) (_ofs : Fin 65536) (write : Bool) (s : State), Open s ∧ (write = true ∨ p = .sup) :=
  ⟨.sup, 0x43, false, sailS, by decide⟩

theorem witness_FlashCallsAtOnce_11 :
    ∃ (p : Path) (_ofs : Fin 65536) (s : State), Open s ∧ p ≠ .sup :=
  ⟨.jtag, 0x40, sailS, by decide⟩

theorem witness_FlashPrograms_1 :
    ∃ (c : RoutineCall) (s : State), s.powered = true ∧ NoCall s ∧ c.a0.toNat % 32 = 0 ∧ c.a2.toNat % 32 = 0 ∧ 32 ≤ c.a2.toNat ∧ c.a2.toNat ≤ 4096 ∧ c.a0.toNat + c.a2.toNat ≤ 0x1000000 ∧ c.a3 = 0 ∧ srcOk c c.a1.toNat c.a2.toNat = true ∧ (sectorsOf c.a0.toNat c.a2.toNat).all (mayWrite false) = true ∧ s.flash.op = none ∧ s.writesBarred = false ∧ inOwnBank c c.a0.toNat c.a2.toNat = false ∧ ((List.range (c.a2.toNat / 32)).all fun k => s.unitBlank (c.a0.toNat / 32 + k)) = true ∧ s.ledgerGrants (2 * (c.a2.toNat / 32)) false = true :=
  ⟨⟨0xFFFFC0, 0x20000000, 64, 0, 0x20000000, 0x20000000⟩, sailS, by decide⟩

theorem witness_FlashPrograms_2 :
    ∃ (c : RoutineCall) (s : State), s.powered = true ∧ NoCall s ∧ c.a0.toNat % 32 ≠ 0 :=
  ⟨⟨0xFFFFC4, 0x20000000, 32, 0, 0x20000000, 0x20000000⟩, sailS, by decide⟩

theorem witness_FlashPrograms_3 :
    ∃ (c : RoutineCall) (s : State), s.powered = true ∧ NoCall s ∧ c.a0.toNat % 32 = 0 ∧ c.a2.toNat % 32 = 0 ∧ 32 ≤ c.a2.toNat ∧ c.a2.toNat ≤ 4096 ∧ c.a0.toNat < 0x20000 ∧ c.a3.toNat < 8 ∧ srcOk c c.a1.toNat c.a2.toNat = true :=
  ⟨⟨0x1FFE0, 0x20000000, 64, 4, 0x20000000, 0x20000000⟩, sailS, by decide⟩

theorem witness_FlashPrograms_4 :
    ∃ (c : RoutineCall) (s : State), s.powered = true ∧ NoCall s ∧ c.a0.toNat % 32 = 0 ∧ c.a2.toNat % 32 = 0 ∧ 32 ≤ c.a2.toNat ∧ c.a2.toNat ≤ 4096 ∧ c.a0.toNat + c.a2.toNat ≤ 0x1000000 ∧ c.a3.toNat < 8 ∧ srcOk c c.a1.toNat c.a2.toNat = true ∧ (sectorsOf c.a0.toNat c.a2.toNat).all (mayWrite false) = true ∧ s.flash.op = none ∧ s.bit F.PWR_STATUS_PFI = true :=
  ⟨⟨0xFFFFC0, 0x20000000, 64, 0, 0x20000000, 0x20000000⟩, sailS.raise F.PWR_STATUS_PFI, by decide⟩

theorem witness_FlashPrograms_5 :
    ∃ (c : RoutineCall) (s : State), s.powered = true ∧ NoCall s ∧ c.a0.toNat % 32 = 0 ∧ c.a2.toNat = 32 ∧ c.a0.toNat + 32 ≤ 0x1000000 ∧ c.a3 = 0 ∧ srcOk c c.a1.toNat 32 = true ∧ mayWrite false (c.a0.toNat / 65536) = true ∧ s.flash.op = none ∧ s.writesBarred = false ∧ inOwnBank c c.a0.toNat 32 = false ∧ s.flashBytes c.a0.toNat 32 ≠ List.replicate 32 0xFF :=
  ⟨⟨0xFFFFE0, 0x20000000, 32, 0, 0x20000000, 0x20000000⟩, { sailS with flash := { sailS.flash with mem := [(0xFFFFFF, 0)] } }, by decide⟩

theorem witness_FlashPrograms_6 :
    ∃ (p : Nat) (op : FlashOp) (s : State), s.powered = true ∧ s.flash.op = some op ∧ op.erase = false ∧ op.caller = 0 ∧ op.waits = false ∧ s.keys.massErase = none ∧ s.flash.results = [] ∧ s.upd.steps = [] ∧ s.dsc.snapWait = [] ∧ 1 ≤ p ∧ p ≤ 16 ∧ op.taken.length = 32 * op.total :=
  ⟨16, ⟨false, 0xFFFFE0, 1, 0, 0x20000000, unitBytes, none, 0, false, false⟩, { sailS with flash := { sailS.flash with op := some ⟨false, 0xFFFFE0, 1, 0, 0x20000000, unitBytes, none, 0, false, false⟩ } }, by set_option maxRecDepth 8000 in decide⟩

theorem witness_FlashErasesAndPatrol_1 :
    ∃ (c : RoutineCall) (s : State), s.powered = true ∧ NoCall s ∧ c.a0.toNat % 65536 = 0 ∧ 1 ≤ c.a1.toNat ∧ c.a0.toNat + 65536 * c.a1.toNat ≤ 0x1000000 ∧ c.a3 = 0 ∧ (sectorsOf c.a0.toNat (65536 * c.a1.toNat)).all (mayWrite false) = true ∧ s.flash.op = none ∧ s.writesBarred = false ∧ inOwnBank c c.a0.toNat (65536 * c.a1.toNat) = false ∧ s.journalNext (s.fld F.FLC_SYS_ACTIVE) + c.a1.toNat ≤ 960 ∧ s.ledgerGrants (2004 * c.a1.toNat) false = true :=
  ⟨⟨0xFE0000, 2, 0, 0, 0x20000000, 0x20000000⟩, sailS, by set_option maxRecDepth 16000 in decide⟩

theorem witness_FlashErasesAndPatrol_2 :
    ∃ (p : Nat) (op : FlashOp) (e : Nat) (s : State), s.powered = true ∧ s.flash.op = some op ∧ op.erase = true ∧ op.caller = 0 ∧ op.waits = false ∧ op.done + 1 = op.total ∧ op.entry = some e ∧ s.keys.massErase = none ∧ s.flash.results = [] ∧ s.upd.steps = [] ∧ s.dsc.snapWait = [] ∧ 1 ≤ p ∧ p ≤ 48 ∧ 2 ≤ op.ofs / 65536 + op.done ∧ e < 992 :=
  ⟨48, ⟨true, 0xFE0000, 2, 1, 0, [], some 991, 0, false, false⟩, 991, { sailS with flash := { sailS.flash with op := some ⟨true, 0xFE0000, 2, 1, 0, [], some 991, 0, false, false⟩, mem := [(0xFF0000, 3), (0xFF0001, 4)] } }, by decide⟩

theorem witness_FlashErasesAndPatrol_3 :
    ∃ (errs : List (Nat × Nat)) (s : State), s.inSail = true ∧ s.fld F.FLC_PATROL_CFG_MS ≠ 0 ∧ s.gone s.flash.patrolFrom (s.fld F.FLC_PATROL_CFG_MS * 4000000) = true ∧ s.bankBusy (decide (0x800000 ≤ s.fld F.FLC_PATROL_POS_OFS)) = false ∧ s.chunkCount errs (s.fld F.FLC_PATROL_POS_OFS / 32) = 0 ∧ 1 ≤ s.fld F.FLC_WARN_LEVEL ∧ s.fld F.FLC_PATROL_POS_OFS % 32 = 0 ∧ s.fld F.FLC_PATROL_POS_OFS < 0xFFFFE0 :=
  ⟨[], later ((sailS.setFld F.FLC_PATROL_CFG_MS 1).setFld F.FLC_PATROL_POS_OFS 0xFFFFC0), by decide⟩

theorem witness_FlashErasesAndPatrol_4 :
    ∃ (errs : List (Nat × Nat)) (s : State), s.inSail = true ∧ s.fld F.FLC_PATROL_CFG_MS ≠ 0 ∧ s.gone s.flash.patrolFrom (s.fld F.FLC_PATROL_CFG_MS * 4000000) = true ∧ s.bankBusy true = false ∧ s.fld F.FLC_PATROL_POS_OFS = 0xFFFFE0 ∧ s.chunkCount errs 0x7FFFF = 0 ∧ 1 ≤ s.fld F.FLC_WARN_LEVEL :=
  ⟨[], later ((sailS.setFld F.FLC_PATROL_CFG_MS 1).setFld F.FLC_PATROL_POS_OFS 0xFFFFE0), by decide⟩

theorem witness_FlashErasesAndPatrol_5 :
    ∃ (errs : List (Nat × Nat)) (s : State), s.inSail = true ∧ s.fld F.FLC_PATROL_CFG_MS ≠ 0 ∧ s.gone s.flash.patrolFrom (s.fld F.FLC_PATROL_CFG_MS * 4000000) = true ∧ s.bankBusy (decide (0x800000 ≤ s.fld F.FLC_PATROL_POS_OFS)) = false ∧ s.fld F.FLC_WARN_LEVEL ≤ s.chunkCount errs (s.fld F.FLC_PATROL_POS_OFS / 32) ∧ s.chunkCount errs (s.fld F.FLC_PATROL_POS_OFS / 32) ≤ 4 ∧ s.fld F.FLC_PATROL_POS_OFS % 32 = 0 ∧ s.fld F.FLC_PATROL_POS_OFS < 0xFFFFE0 ∧ s.flash.patrolLogged < 8 :=
  ⟨[(2, 4)], later { (sailS.setFld F.FLC_PATROL_CFG_MS 1).setFld F.FLC_PATROL_POS_OFS 64 with flash := { sailS.flash with mem := [(64, 0)] } }, by decide⟩

theorem witness_FlashErasesAndPatrol_6 :
    ∃ (_errs : List (Nat × Nat)) (s : State), s.bankBusy (decide (0x800000 ≤ s.fld F.FLC_PATROL_POS_OFS)) = true :=
  ⟨[], sailS.raise F.FLC_STATUS_BUSY_A, by decide⟩

theorem witness_DirectoryEntriesRoundTrip_1 :
    ∃ (e : DirEntry), e.slot < 2 ^ 8 ∧ e.state < 2 ^ 8 ∧ e.seq < 2 ^ 32 ∧ e.addr < 2 ^ 32 ∧ e.len < 2 ^ 32 ∧ e.svn < 2 ^ 16 ∧ e.attempt < 2 ^ 8 ∧ e.reason < 2 ^ 8 ∧ e.build < 2 ^ 32 ∧ e.nonce < 2 ^ 64 ∧ e.trialId < 2 ^ 32 :=
  ⟨⟨255, 255, 0xFFFFFFFF, 0xFFFFFFFE, 0xFFFFFFFD, 65535, 254, 253, 0xFFFFFFFC, 0xFFFFFFFFFFFFFFFE, 0xFFFFFFFB⟩, by decide⟩

theorem witness_UpdateRoutinesAppend_1 :
    ∃ (c : RoutineCall) (e : DirEntry) (s : State), UpdFree s ∧ DirRoom s ∧ c.a0.toNat < 2 ∧ s.slotEntry c.a0.toNat = some e ∧ e.state = 1 :=
  ⟨⟨0, 0, 0, 0, 0x20000000, 0x20000000⟩, slotEnt 1, dir1, by set_option maxRecDepth 20000 in exact ⟨by decide, ⟨dir1_valid, dir1_room, by decide⟩, by decide, dir1_entry, rfl⟩⟩

theorem witness_UpdateRoutinesAppend_2 :
    ∃ (c : RoutineCall) (e : DirEntry) (s : State), UpdFree s ∧ DirRoom s ∧ c.a0.toNat < 2 ∧ s.slotEntry c.a0.toNat = some e ∧ e.state = 3 ∧ s.runningSlot c.a0.toNat = false :=
  ⟨⟨0, 0, 0, 0, 0x20000000, 0x20000000⟩, slotEnt 3, dir3.setFld F.UPD_STATUS_RUN 1, by set_option maxRecDepth 20000 in exact ⟨by decide, ⟨dir3_valid, dir3_room, by decide⟩, by decide, dir3_entry, rfl, by decide⟩⟩

theorem witness_UpdateRoutinesAppend_3 :
    ∃ (_c : RoutineCall) (e : DirEntry) (w : Nat) (s : State), UpdFree s ∧ DirRoom s ∧ s.fld F.UPD_STATUS_RUN < 2 ∧ s.slotEntry (s.fld F.UPD_STATUS_RUN) = some e ∧ e.state = 4 ∧ s.bit F.UPD_STATUS_TRIAL = true ∧ s.upd.window = some w :=
  ⟨⟨0, 0, 0, 0, 0x20000000, 0x20000000⟩, slotEnt 4, 0, dir4, by set_option maxRecDepth 20000 in exact ⟨by decide, ⟨dir4_valid, dir4_room, by decide⟩, by decide, dir4_entry, rfl, by decide, rfl⟩⟩

theorem witness_UpdateRoutinesAppend_4 :
    ∃ (c : RoutineCall) (e : DirEntry) (s : State), UpdFree s ∧ DirRoom s ∧ c.a0.toNat < 2 ∧ c.a3 = 8 ∧ s.slotEntry c.a0.toNat = some e ∧ e.state = 3 ∧ s.slotState (1 - c.a0.toNat) ≠ 4 ∧ s.swSteers = false ∧ s.dsc.dirty = false ∧ s.dsc.snapBusy = none ∧ s.dsc.snapWait = [] ∧ s.bit F.SUP_STATUS_HALTED = false ∧ s.journalUsed s.journalSector < 240 :=
  ⟨⟨0, 0, 0, 8, 0x20000000, 0x20000000⟩, slotEnt 3, dir3, by set_option maxRecDepth 20000 in exact ⟨by decide, ⟨dir3_valid, dir3_room, by decide⟩, by decide, rfl, dir3_entry, rfl, dir3_other, by decide, rfl, rfl, rfl, by decide, by decide +kernel⟩⟩

theorem witness_UpdateRoutinesAppend_5 :
    ∃ (c : RoutineCall) (s : State), UpdFree s ∧ DirRoom s ∧ s.beginBad c.a0.toNat c.a1.toNat c.a2.toNat = false ∧ s.runningSlot c.a0.toNat = false ∧ s.ledgerGrants (s.fld F.UPD_COST_ERASE_UJ) false = true ∧ (s.ledgerTake 6 (s.fld F.UPD_COST_ERASE_UJ)).ledgerGrants (s.fld F.UPD_COST_PAGE_UJ) false = true :=
  ⟨⟨1, 0x30000, 0x10004, 0, 0x20000000, 0x20000000⟩, dir3, by set_option maxRecDepth 20000 in exact ⟨by decide, ⟨dir3_valid, dir3_room, by decide⟩, dir3_begin, by decide, by decide, by decide⟩⟩

theorem witness_UpdateRoutinesAppend_6 :
    ∃ (c : RoutineCall) (s : State), UpdFree s ∧ c.a0.toNat < 2 ∧ s.slotEntry c.a0.toNat = none :=
  ⟨⟨1, 0, 0, 0, 0x20000000, 0x20000000⟩, sailS.raise F.HST_FLASH_INFO_PRESENT, by decide⟩

theorem witness_UpdateRoutinesOnImages_1 :
    ∃ (_c : RoutineCall) (s : State), s.inSail = true ∧ NoCall s :=
  ⟨⟨0, 0, 0, 0, 0x20000000, 0x20000000⟩, { sailS with upd := { sailS.upd with window := some 0 } }, by decide⟩

theorem witness_UpdateRoutinesOnImages_2 :
    ∃ (c : RoutineCall) (e : DirEntry) (k : Nat) (s : State), UpdFree s ∧ s.upd.begun = some k ∧ s.slotEntry k = some e ∧ e.state = 1 ∧ e.slot = k ∧ c.a0.toNat % 4 = 0 ∧ c.a2.toNat % 4 = 0 ∧ 4 ≤ c.a2.toNat ∧ (e.addr + c.a0.toNat) % 256 + c.a2.toNat ≤ 256 ∧ c.a0.toNat + c.a2.toNat ≤ e.len ∧ dstOk c c.a1.toNat c.a2.toNat = true ∧ (s.xflashBytes (e.addr + c.a0.toNat) c.a2.toNat).all (· == 0xFF) = true ∧ s.ledgerGrants (s.fld F.UPD_COST_PAGE_UJ) false = true :=
  ⟨⟨1020, 0x20000000, 4, 0, 0x20000000, 0x20000000⟩, slotEnt 1, 0, { dir1 with upd := { dir1.upd with begun := some 0 } }, by set_option maxRecDepth 20000 in exact ⟨by decide, rfl, dir1_entry, rfl, rfl, by decide, by decide, by decide, by decide, by decide, by decide, by decide +kernel, by decide⟩⟩

theorem witness_UpdateRoutinesOnImages_3 :
    ∃ (c : RoutineCall) (e : DirEntry) (s : State), UpdFree s ∧ c.a0.toNat < 2 ∧ c.a3 = 0 ∧ s.slotEntry c.a0.toNat = some e ∧ e.state = 2 :=
  ⟨⟨0, 0, 0, 0, 0x20000000, 0x20000000⟩, slotEnt 2, dir2, by set_option maxRecDepth 20000 in exact ⟨by decide, by decide, rfl, dir2_entry, rfl⟩⟩

theorem witness_UpdateRoutinesOnImages_4 :
    ∃ (c : RoutineCall) (e : DirEntry) (s : State), UpdFree s ∧ c.a0.toNat < 2 ∧ c.a3 = 0 ∧ s.slotEntry c.a0.toNat = some e ∧ e.state = 5 ∧ s.fld F.UPD_STATUS_RUN < 2 ∧ s.slotState (s.fld F.UPD_STATUS_RUN) = 5 ∧ 0 < e.len ∧ e.len ≤ 6291456 ∧ u8 (s.xflashBytes e.addr 16) 14 / 2 % 2 = 0 ∧ s.journalNext (s.fld F.FLC_SYS_ACTIVE) + (e.len + 65535) / 65536 ≤ 960 ∧ s.ledgerGrants (2004 * ((e.len + 65535) / 65536)) false = true :=
  ⟨⟨0, 0, 0, 0, 0x20000000, 0x20000000⟩, slotEnt 5, dir5, by set_option maxRecDepth 20000 in exact ⟨by decide, by decide, rfl, dir5_entry, rfl, by decide, by rw [State.slotState, show dir5.fld F.UPD_STATUS_RUN = 0 from by decide, dir5_entry]; rfl, by decide, by decide, by decide +kernel, by decide +kernel, by decide⟩⟩

theorem witness_UpdateRoutinesOnImages_5 :
    ∃ (c : RoutineCall) (s : State), s.inSail = true ∧ NoCall s ∧ s.upd.steps ≠ [] ∧ s.upd.own = false ∧ s.upd.caller = callerOf c ∧ s.upd.kind = 4 :=
  ⟨⟨0, 0, 0, 0, 0x20000000, 0x20000000⟩, { sailS with upd := { sailS.upd with steps := [.verify 0], kind := 4 } }, by decide⟩

theorem witness_UpdateRoutinesOnImages_6 :
    ∃ (c : RoutineCall) (st : Word) (code : Word) (s : State), s.inSail = true ∧ NoCall s ∧ s.upd.steps = [] ∧ s.upd.results = [(callerOf c, [st, code])] :=
  ⟨⟨0, 0, 0, 0, 0x20000000, 0x20000000⟩, 0x12, 0x0201, { sailS with upd := { sailS.upd with results := [(0, [0x12, 0x0201])] } }, by decide⟩

theorem witness_UpdateOperationsEnd_1 :
    ∃ (a : Nat) (n : Nat) (cost : Nat) (bs : List Byte) (s : State), s.inSail = true ∧ s.upd.steps = [.prog a bs, .answer [0, n]] ∧ s.upd.going = true ∧ s.upd.own = false ∧ s.upd.kind = 2 ∧ s.upd.caller = 0 ∧ s.upd.waits = true ∧ s.upd.refused = false ∧ 0x20000 ≤ a ∧ bs.length = n ∧ s.pwr.grants = [(5, cost)] :=
  ⟨0x20100, 2, 7, [1, 0xFF], { sailS with upd := { sailS.upd with steps := [.prog 0x20100 [1, 0xFF], .answer [0, 2]], going := true, kind := 2, waits := true }, pwr := { sailS.pwr with grants := [(5, 7)] } }, by decide⟩

theorem witness_UpdateOperationsEnd_2 :
    ∃ (a : Nat) (n : Nat) (cost : Nat) (bs : List Byte) (s : State), s.inSail = true ∧ s.upd.steps = [.prog a bs, .answer [0, n]] ∧ s.upd.going = true ∧ s.upd.own = false ∧ s.upd.kind = 2 ∧ s.upd.caller = 0 ∧ s.upd.waits = true ∧ s.upd.refused = false ∧ s.upd.done = 0 ∧ 0x20000 ≤ a ∧ s.pwr.grants = [(5, cost)] :=
  ⟨0x20100, 2, 7, [1, 0xFF], { sailS with upd := { sailS.upd with steps := [.prog 0x20100 [1, 0xFF], .answer [0, 2]], going := true, kind := 2, waits := true }, pwr := { sailS.pwr with grants := [(5, 7)] } }, by decide⟩

theorem witness_UpdateOperationsEnd_3 :
    ∃ (e : DirEntry) (s : State), s.inSail = true ∧ s.upd.steps = [.verify e.slot] ∧ s.upd.going = true ∧ s.upd.own = false ∧ s.upd.refused = false ∧ s.slotEntry e.slot = some e ∧ e.state = 2 ∧ DirRoom s ∧ s.writesBarred = false ∧ s.partialBusy = false :=
  ⟨slotEnt 2, { dir2 with upd := { dir2.upd with steps := [.verify 0], going := true, kind := 4 } }, by set_option maxRecDepth 20000 in exact ⟨by decide, rfl, rfl, rfl, rfl, dir2_entry, rfl, ⟨dir2_valid, dir2_room, by decide⟩, by decide, by decide⟩⟩

theorem witness_UpdateOperationsEnd_4 :
    ∃ (s : State), s.inSail = true ∧ s.upd.served = false ∧ s.upd.steps = [] ∧ s.writesBarred = false ∧ s.upd.readDir = false ∧ s.flash.bad = [] ∧ s.pwr.grants = [] ∧ 1 ≤ s.fld F.FLC_WARN_LEVEL :=
  ⟨sailS, by decide⟩

theorem witness_UpdateOperationsEnd_5 :
    ∃ (e : DirEntry) (s : State), s.inSail = true ∧ s.upd.served = false ∧ s.upd.steps = [] ∧ s.writesBarred = false ∧ s.upd.readDir = true ∧ s.upd.trials = [] ∧ s.upd.trial = none ∧ s.bit F.UPD_STATUS_TRIAL = true ∧ s.slotEntry (s.fld F.UPD_STATUS_RUN) = some e ∧ e.state = 4 ∧ DirRoom s ∧ s.partialBusy = false :=
  ⟨slotEnt 4, { dir4 with upd := { dir4.upd with readDir := true } }, by set_option maxRecDepth 20000 in exact ⟨by decide, rfl, rfl, by decide, rfl, rfl, rfl, by decide, dir4_entry, rfl, ⟨dir4_valid, dir4_room, by decide⟩, by decide⟩⟩

theorem witness_UpdateOperationsEnd_6 :
    ∃ (a : Nat) (bs : List Byte) (rest : List UpdStep) (s : State), s.inSail = true ∧ s.upd.own = true ∧ s.upd.going = false ∧ s.retryDue = true ∧ s.upd.steps = .prog a bs :: rest ∧ s.writesBarred = false ∧ s.partialBusy = false ∧ s.ledgerGrants (s.fld F.UPD_COST_PAGE_UJ) false = true :=
  ⟨64, [1], [], later { sailS with upd := { sailS.upd with steps := [.prog 64 [1]], own := true, refused := true } }, by decide⟩

theorem witness_UpdateOperationsEnd_7 :
    ∃ (w : Nat) (s : State), s.inSail = true ∧ s.upd.window = some w ∧ w + s.fld F.UPD_CFG_CONFIRM_S * 4000000000 * 2 ^ 38 ≤ s.mast.ran ∧ s.writesBarred = false ∧ s.upd.steps = [] :=
  ⟨0, { sailS with upd := { sailS.upd with window := some 0 }, mast := { sailS.mast with ran := 2 ^ 90 } }, by decide⟩

theorem witness_UpdateOperationsEnd_8 :
    ∃ (s : State), s.windowOver = false :=
  ⟨sailS, by decide⟩

theorem witness_UpdateOperationsEnd_9 :
    ∃ (_p : Path) (_v : Word) (s : State), Open s ∧ s.upd.window = none :=
  ⟨.spi, 0x10000, sailS, by decide⟩

theorem witness_KeysAndChallenge_1 :
    ∃ (_p : Path) (v : Word) (s : State), Open s ∧ ImgCommand 0 v ∧ NoImgYet s ∧ s.loadUsesBbk = false ∧ s.keys.busyCmd = none :=
  ⟨.spi, 0x494D00FF, { sailS.raise F.IMG_STATUS_BBK_VALID with keys := { sailS.keys with bbk := [1, 2] } }, by decide⟩

theorem witness_KeysAndChallenge_2 :
    ∃ (_p : Path) (v : Word) (s : State), Open s ∧ bits v.toNat 31 16 ≠ 0x494D ∧ v.toNat % 2 = 1 :=
  ⟨.spi, 0x494C00FF, sailS, by decide⟩

theorem witness_KeysAndChallenge_3 :
    ∃ (_p : Path) (v : Word) (s : State), Open s ∧ ImgCommand 3 v ∧ NoImgYet s ∧ s.keys.busyCmd = none ∧ s.bit F.IMG_STATUS_BBK_VALID = false :=
  ⟨.spi, 0x494D00F8, sailS.setReg (F.IMG_BBK_DATA 7) 0x01020304, by decide⟩

theorem witness_KeysAndChallenge_4 :
    ∃ (_p : Path) (v : Word) (s : State), Open s ∧ ImgCommand 3 v ∧ NoImgYet s ∧ s.keys.busyCmd = none ∧ s.bit F.IMG_STATUS_BBK_VALID = true :=
  ⟨.spi, 0x494D00F8, sailS.raise F.IMG_STATUS_BBK_VALID, by decide⟩

theorem witness_KeysAndChallenge_5 :
    ∃ (_p : Path) (v : Word) (s : State), Open s ∧ ImgCommand 1 v ∧ NoImgYet s ∧ s.keys.busyCmd = none :=
  ⟨.spi, 0x494D00FE, sailS.raise F.IMG_STATUS_DBG_UNLOCKED, by decide⟩

theorem witness_KeysAndChallenge_6 :
    ∃ (_p : Path) (v : Word) (s : State), Open s ∧ ImgCommand 2 v ∧ NoImgYet s ∧ s.keys.busyCmd = none ∧ s.protLevel = 1 :=
  ⟨.spi, 0x494D00FC, sailS.setFld F.FLC_SYS_LEVEL 1, by decide⟩

theorem witness_KeysAndChallenge_7 :
    ∃ (_p : Path) (v : Word) (s : State), Open s ∧ ImgCommand 2 v ∧ NoImgYet s ∧ s.keys.busyCmd = none ∧ s.protLevel ≠ 1 :=
  ⟨.spi, 0x494D00FC, sailS, by decide⟩

theorem witness_KeysAndChallenge_8 :
    ∃ (_p : Path) (_w : Word) (s : State), Open s ∧ s.keys.token.length < 48 :=
  ⟨.spi, 7, { sailS with keys := { sailS.keys with token := List.replicate 47 0 } }, by decide⟩

theorem witness_KeysAndChallenge_9 :
    ∃ (_p : Path) (_w : Word) (s : State), 48 ≤ s.keys.token.length :=
  ⟨.spi, 7, { sailS with keys := { sailS.keys with token := List.replicate 48 0 } }, by decide⟩

theorem witness_LevelsFusesAndReadback_1 :
    ∃ (_p : Path) (v : Word) (s : State), Open s ∧ ImgCommand 4 v ∧ NoImgYet s ∧ s.levelBusy = false ∧ s.protLevel = 0 ∧ s.slotOk 0 = true ∧ s.ledgerGrants 2 false = true ∧ s.protNext (s.fld F.FLC_SYS_ACTIVE) < 64 :=
  ⟨.spi, 0x494D0010, { sailS with keys := { sailS.keys with fuse := [(24, 1)] } }, by decide⟩

theorem witness_LevelsFusesAndReadback_2 :
    ∃ (ofs : Nat) (s : State), s.inSail = true ∧ s.keys.massErase = none ∧ s.keys.busyCmd = some 4 ∧ s.flash.op = some ⟨false, ofs, 1, 0, 0, protRecord 1, none, 4, false, false⟩ ∧ s.flash.results = [] ∧ s.upd.steps = [] ∧ s.dsc.snapWait = [] ∧ s.bit F.SUP_STATUS_HALTED = false :=
  ⟨64, { sailS with keys := { sailS.keys with busyCmd := some 4 }, flash := { sailS.flash with op := some ⟨false, 64, 1, 0, 0, protRecord 1, none, 4, false, false⟩ } }, ⟨by decide, rfl, rfl, rfl, rfl, rfl, rfl, by decide⟩⟩

theorem witness_LevelsFusesAndReadback_3 :
    ∃ (_p : Path) (v : Word) (s : State), Open s ∧ ImgCommand 4 v ∧ NoImgYet s ∧ s.levelBusy = false ∧ s.protLevel ≠ 0 :=
  ⟨.spi, 0x494D0010, sailS.setFld F.FLC_SYS_LEVEL 1, by decide⟩

theorem witness_LevelsFusesAndReadback_4 :
    ∃ (_p : Path) (v : Word) (s : State), Open s ∧ ImgCommand 5 v ∧ NoImgYet s ∧ s.levelBusy = false ∧ s.protLevel = 1 ∧ s.bit F.IMG_STATUS_DBG_UNLOCKED = true ∧ s.ledgerGrants (2000 * 255 + 4) false = true ∧ s.loadUsesBbk = false ∧ s.journalNext (s.fld F.FLC_SYS_ACTIVE) < 960 :=
  ⟨.spi, 0x494D0020, (sailS.setFld F.FLC_SYS_LEVEL 1).raise F.IMG_STATUS_DBG_UNLOCKED, by decide +kernel⟩

theorem witness_LevelsFusesAndReadback_5 :
    ∃ (_p : Path) (v : Word) (s : State), s.inSail = true ∧ ImgCommand 6 v ∧ NoImgYet s ∧ s.bit F.PWR_STATUS_PFI = false ∧ s.keys.busyCmd = none ∧ s.protLevel ≠ 2 ∧ s.fuseForbids (s.fld F.IMG_FUSE_ADDR_WORD) (s.reg F.IMG_FUSE_DATA).toNat = false :=
  ⟨.spi, 0x494D0040, (sailS.setFld F.IMG_FUSE_ADDR_WORD 35).setReg F.IMG_FUSE_DATA 0x80000001, by decide⟩

theorem witness_LevelsFusesAndReadback_6 :
    ∃ (_p : Path) (v : Word) (s : State), s.inSail = true ∧ ImgCommand 6 v ∧ NoImgYet s ∧ s.bit F.PWR_STATUS_PFI = false ∧ s.keys.busyCmd = none ∧ s.protLevel ≠ 2 ∧ s.fuseForbids (s.fld F.IMG_FUSE_ADDR_WORD) (s.reg F.IMG_FUSE_DATA).toNat = true :=
  ⟨.spi, 0x494D0040, (sailS.setFld F.IMG_FUSE_ADDR_WORD 33).setReg F.IMG_FUSE_DATA 1, by decide⟩

theorem witness_LevelsFusesAndReadback_7 :
    ∃ (_p : Path) (v : Word) (s : State), s.inSail = true ∧ ImgCommand 7 v ∧ NoImgYet s ∧ s.bit F.PWR_STATUS_PFI = false ∧ s.keys.busyCmd = none ∧ s.minSvn < s.fld F.IMG_SVN_SVN :=
  ⟨.spi, 0x494D0080, sailS.setFld F.IMG_SVN_SVN 64, by decide⟩

theorem witness_LevelsFusesAndReadback_8 :
    ∃ (_p : Path) (v : Word) (s : State), s.inSail = true ∧ ImgCommand 7 v ∧ NoImgYet s ∧ s.bit F.PWR_STATUS_PFI = false ∧ s.keys.busyCmd = none ∧ s.fld F.IMG_SVN_SVN ≤ s.minSvn :=
  ⟨.spi, 0x494D0080, { sailS with keys := { sailS.keys with fuse := [(33, 0xFFFFFFFF)] } }, by decide⟩

theorem witness_LevelsFusesAndReadback_9 :
    ∃ (k : Nat) (d : Nat) (s : State), s.powered = true ∧ s.keys.busyCmd = some 6 ∧ s.keys.fuseOp = some (k, d) :=
  ⟨24, 6, { fusedS with keys := { fusedS.keys with busyCmd := some 6, fuseOp := some (24, 6) } }, by decide⟩

theorem witness_LevelsFusesAndReadback_10 :
    ∃ (k : Nat) (d : Nat) (s : State), s.powered = true ∧ s.keys.busyCmd = some 6 ∧ s.keys.fuseOp = some (k, d) :=
  ⟨24, 6, { fusedS with keys := { fusedS.keys with busyCmd := some 6, fuseOp := some (24, 6) } }, by decide⟩

theorem witness_LevelsFusesAndReadback_11 :
    ∃ (_p : Path) (errs : List (Nat × Nat)) (s : State), Open s ∧ s.protLevel = 0 ∧ (s.reg F.IMG_RB_ADDR).toNat < 0x1000000 ∧ s.rangeBusy ((s.reg F.IMG_RB_ADDR).toNat / 4 * 4) 4 = false ∧ s.chunkCount errs ((s.reg F.IMG_RB_ADDR).toNat / 32) = 0 ∧ 1 ≤ s.fld F.FLC_WARN_LEVEL :=
  ⟨.spi, [], sailS.setReg F.IMG_RB_ADDR 0xFFFFFC, by decide⟩

theorem witness_RefusedReadback_1 :
    ∃ (p : Path) (_errs : List (Nat × Nat)) (s : State), Open s ∧ ((p ≠ .sup ∧ s.protLevel ≠ 0) ∨ 2 ≤ (s.reg F.IMG_RB_ADDR).toNat / 2 ^ 28 ∨
      ((s.reg F.IMG_RB_ADDR).toNat / 2 ^ 28 = 0 ∧ 0x1000000 ≤ (s.reg F.IMG_RB_ADDR).toNat) ∨
      ((s.reg F.IMG_RB_ADDR).toNat / 2 ^ 28 = 1 ∧ 24 * 491536 ≤ (s.reg F.IMG_RB_ADDR).toNat % 2 ^ 28)) :=
  ⟨.sup, [], sailS.setReg F.IMG_RB_ADDR 0x10B40180, by decide⟩

theorem witness_JtagInstructions_1 :
    ∃ (s : State), Open s :=
  ⟨sailS, by decide⟩

theorem witness_JtagInstructions_2 :
    ∃ (s : State), Open s :=
  ⟨sailS, by decide⟩

theorem witness_JtagInstructions_3 :
    ∃ (_bs : List Bool) (s : State), Open s :=
  ⟨[true, false, true, true, true, true, true, true, true], sailS, by decide⟩

theorem witness_JtagInstructions_4 :
    ∃ (_bs : List Bool) (s : State), Open s :=
  ⟨[true], sailS, by decide⟩

theorem witness_JtagInstructions_5 :
    ∃ (s : State), Open s :=
  ⟨sailS, by decide⟩

theorem witness_JtagInstructions_6 :
    ∃ (s : State), Open s :=
  ⟨sailS, by decide⟩

theorem witness_JtagInstructions_7 :
    ∃ (s : State), Open s :=
  ⟨sailS, by decide⟩

theorem witness_JtagInstructions_8 :
    ∃ (s : State), Open s :=
  ⟨{ sailS with keys := { sailS.keys with fuse := [(24, 35), (33, 7)] } }, by decide⟩

theorem witness_JtagInstructions_9 :
    ∃ (s : State), Open s :=
  ⟨{ sailS.raise F.MAST_STATUS_DOMAIN with mast := { sailS.mast with acc := 2 ^ 102 - 1 } }, by decide⟩

theorem witness_JtagInstructions_10 :
    ∃ (w : Word) (s : State), s.inSail = true ∧ w ≠ 0x4D494754 :=
  ⟨7, sailS, by decide⟩

theorem witness_JtagInstructions_11 :
    ∃ (w : Word) (s : State), s.inSail = true ∧ w = 0x4D494754 :=
  ⟨0x4D494754, sailS, by decide⟩

theorem witness_JtagInstructions_12 :
    ∃ (_w : Word) (s : State), Open s ∧ s.inHoist = true ∧ s.hoist.src = 4 ∧ s.hoist.booted = true ∧ 5 ≤ s.hoistStep ∧ s.bit F.MODE_STATUS_PFI_PAUSED = false ∧ s.bit F.MODE_STATUS_PARKED = false ∧ s.bit F.HST_HOST_STATUS_WAITING = false ∧ s.load.ended = false ∧ s.hbuf.length < 64 :=
  ⟨0x4D494754, { hostS with hoist := { hostS.hoist with src := 4 }, hbuf := List.replicate 63 0 }, by decide⟩

theorem witness_DebugModule_1 :
    ∃ (s : State), s.inSail = true ∧ s.dbgOpen = true ∧ s.bit F.SUP_STATUS_HALTED = false ∧ s.haltHeld = false ∧ s.userRuns = true ∧ (∀ n : Fin 64, s.bit (F.TMR_CTRL_FRZ_ON_HALT n) = false) :=
  ⟨sailS.raise F.SUP_STATUS_USER, by decide⟩

theorem witness_DebugModule_2 :
    ∃ (s : State), s.inSail = true ∧ s.dbgOpen = false :=
  ⟨sailS.setFld F.FLC_SYS_LEVEL 1, by decide⟩

theorem witness_DebugModule_3 :
    ∃ (s : State), Open s ∧ s.inSail = false :=
  ⟨hoistS, by decide⟩

theorem witness_DebugModule_4 :
    ∃ (s : State), Open s ∧ s.bit F.SUP_STATUS_HALTED = true ∧ s.userRuns = true ∧ (s.csr csrDcsr).getLsbD 2 = false ∧ (∀ n : Fin 64, s.bit (F.TMR_CTRL_FRZ_ON_HALT n) = false) :=
  ⟨{ (sailS.raise F.SUP_STATUS_USER).raise F.SUP_STATUS_HALTED with sup := { sailS.sup with csr := [(0x7B1, 0x20000010)] } }, by decide⟩

theorem witness_DebugModule_5 :
    ∃ (s : State), s.bit F.SUP_STATUS_HALTED = false :=
  ⟨sailS, by decide⟩

theorem witness_DebugModule_6 :
    ∃ (_write : Bool) (addr : Word) (_data : Word) (s : State), Open s ∧ s.dbg.sbError = 0 ∧ addr.toNat % 4 ≠ 0 :=
  ⟨true, 0x10002, 7, sailS, by decide⟩

theorem witness_DebugModule_7 :
    ∃ (_data : Word) (s : State), Open s ∧ s.dbg.sbError = 0 ∧ s.standby = false :=
  ⟨0xFFFFFFFF, sailS, by decide⟩

theorem witness_DebugModule_8 :
    ∃ (_data : Word) (s : State), Open s ∧ s.dbg.sbError = 0 :=
  ⟨5, sailS.setReg F.IMG_RB_ADDR 0x80000001, by decide⟩

theorem witness_DebugModule_9 :
    ∃ (_v : Word) (s : State), Open s :=
  ⟨0, sailS, by decide⟩

theorem witness_DebugModule_10 :
    ∃ (_addr : Fin 128) (_data : Word) (s : State), Open s :=
  ⟨4, 0, sailS, by decide⟩

theorem witness_DebugModule_11 :
    ∃ (_data : Word) (s : State), Open s ∧ s.dbg.active = true :=
  ⟨0xFFFFFFFF, { sailS with dbg := { sailS.dbg with active := true } }, by decide⟩

theorem witness_DebugModule_12 :
    ∃ (_data : Word) (s : State), Open s ∧ s.dbg.active = true :=
  ⟨0, { sailS with dbg := { sailS.dbg with active := true } }, by decide⟩

theorem witness_DebugModule_13 :
    ∃ (_cause : Word) (_epc : Word) (_tval : Word) (s : State), s.inSail = true ∧ s.bit F.SUP_STATUS_USER = true ∧ s.bit F.SUP_STATUS_TRAPPED = false ∧ s.bit F.SUP_STATUS_HALTED = false :=
  ⟨0x8000000B, 0x20000004, 7, sailS.raise F.SUP_STATUS_USER, by decide⟩

theorem witness_SpiWriteFrames_1 :
    ∃ (s : State), Open s :=
  ⟨{ sailS with host := { sailS.host with crcErr := true } }, by decide⟩

theorem witness_SpiWriteFrames_2 :
    ∃ (a : BitVec 24) (_v : Word) (_w : Word) (s : State), Open s ∧ a.toNat % 4 = 0 ∧ s.feature 0 = false ∧ s.host.spiPosted.length ≤ 6 :=
  ⟨0xFFFFFC, 0x01020304, 0xFFFFFFFF, sailS, by decide⟩

theorem witness_SpiWriteFrames_3 :
    ∃ (a : BitVec 24) (_v : Word) (_w : Word) (s : State), Open s ∧ a.toNat % 4 = 0 ∧ s.feature 0 = false ∧ s.host.spiPosted.length ≤ 6 :=
  ⟨0xFFFFFC, 0x01020304, 0xFFFFFFFF, sailS, by decide⟩

theorem witness_SpiWriteFrames_4 :
    ∃ (a : BitVec 24) (_v : Word) (_w : Word) (s : State), Open s ∧ a.toNat % 4 = 0 ∧ s.host.spiPosted.length ≤ 6 :=
  ⟨0xFFFFFC, 0x01020304, 0xFFFFFFFF, sailS, by decide⟩

theorem witness_SpiWriteFrames_5 :
    ∃ (a : BitVec 24) (_v : Word) (_w : Word) (s : State), Open s ∧ a.toNat % 4 = 0 ∧ s.host.spiPosted.length ≤ 6 :=
  ⟨0xFFFFFC, 0x01020304, 0xFFFFFFFF, sailS, by decide⟩

theorem witness_SpiWriteFrames_6 :
    ∃ (a : BitVec 24) (v : Word) (c : Byte) (s : State), Open s ∧ a.toNat % 4 = 0 ∧ c ≠ crc8 (addrBytes a.toNat ++ leBytes 4 v.toNat) :=
  ⟨0xFFFFFC, 0x01020304, 0, sailS, by decide +kernel⟩

theorem witness_SpiWriteFrames_7 :
    ∃ (a : BitVec 24) (_bs : List Byte) (_ds : List Nat) (s : State), Open s ∧ a.toNat % 4 ≠ 0 :=
  ⟨0xFFFFFD, [1, 2, 3, 4], [], sailS, by decide⟩

theorem witness_SpiWriteFrames_8 :
    ∃ (a : BitVec 24) (_bs : List Byte) (_ds : List Nat) (s : State), Open s ∧ a.toNat % 4 = 0 ∧ s.feature 0 = true :=
  ⟨0xFFFFFC, [1, 2, 3, 4], [], sailS.raise ⟨F.FEAT_ACCEPT 0, 0, 1⟩, by decide⟩

theorem witness_SpiWriteFrames_9 :
    ∃ (a : BitVec 24) (_v : Word) (s : State), Open s ∧ a.toNat % 4 = 0 ∧ s.feature 0 = false ∧ 8 ≤ s.host.spiPosted.length :=
  ⟨0xFFFFFC, 7, { sailS with host := { sailS.host with spiPosted := List.replicate 8 (0, 0) } }, by decide⟩

theorem witness_SpiWriteFrames_10 :
    ∃ (cmd : Byte) (s : State), Open s ∧ spiCommands.contains cmd.toNat = false :=
  ⟨0xFF, sailS, by decide⟩

theorem witness_SpiWriteFrames_11 :
    ∃ (v : Word) (rest : List (Nat × Word)) (s : State), Open s ∧ s.host.spiPosted = (F.IMG_RB_ADDR, v) :: rest ∧ s.standby = false :=
  ⟨0xFFFFFFFF, [], { sailS with host := { sailS.host with spiPosted := [(F.IMG_RB_ADDR, 0xFFFFFFFF)] } }, by decide⟩

theorem witness_SpiWriteFrames_12 :
    ∃ (i2c : Bool) (s : State), s.posted i2c = [] :=
  ⟨true, sailS, by decide⟩

theorem witness_SpiReadFrames_1 :
    ∃ (a : BitVec 24) (_k : Fin 33) (s : State), Open s ∧ a.toNat % 4 = 0 ∧ s.host.spiPosted = [] :=
  ⟨0x20068, 32, sailS.setReg F.IMG_RB_ADDR 0x01020304, by decide⟩

theorem witness_SpiReadFrames_2 :
    ∃ (s : State), Open s ∧ s.host.spiPosted = [] :=
  ⟨sailS.setReg F.IMG_RB_ADDR 0x01020304, by decide⟩

theorem witness_SpiReadFrames_3 :
    ∃ (s : State), Open s ∧ s.host.spiPosted = [] :=
  ⟨sailS.setReg F.IMG_RB_ADDR 0x01020304, by decide⟩

theorem witness_SpiReadFrames_4 :
    ∃ (a : BitVec 24) (_k : Fin 33) (s : State), Open s ∧ a.toNat % 4 = 0 ∧ s.host.spiPosted = [] :=
  ⟨0x20068, 32, sailS.setReg F.IMG_RB_ADDR 0x01020304, by decide⟩

theorem witness_SpiReadFrames_5 :
    ∃ (a : BitVec 24) (_k : Fin 33) (s : State), Open s ∧ a.toNat % 4 = 0 ∧ s.host.spiPosted = [] :=
  ⟨0x20068, 32, sailS.setReg F.IMG_RB_ADDR 0x01020304, by decide⟩

theorem witness_SpiReadFrames_6 :
    ∃ (a : BitVec 24) (_k : Fin 33) (s : State), Open s ∧ a.toNat % 4 = 0 ∧ s.host.spiPosted = [] :=
  ⟨0x20068, 32, sailS.setReg F.IMG_RB_ADDR 0x01020304, by decide⟩

theorem witness_SpiReadFrames_7 :
    ∃ (a : BitVec 24) (_ws : List (Fin 33)) (_n : Nat) (s : State), Open s ∧ a.toNat % 4 ≠ 0 :=
  ⟨0x20069, [0], 5, sailS, by decide⟩

theorem witness_SpiReadFrames_8 :
    ∃ (_fixed : Bool) (_crc : Bool) (a : BitVec 24) (s : State), Open s ∧ a.toNat % 4 = 0 ∧ s.host.spiPosted = [] :=
  ⟨false, true, 0x20068, sailS, by decide⟩

theorem witness_I2cTransfers_1 :
    ∃ (dev : BitVec 7) (hi : Byte) (_mid : Byte) (lo : Byte) (_v : Word) (s : State), Open s ∧ s.host.i2cOpen = false ∧ s.i2cAnswers dev = true ∧ s.host.i2cPosted.length ≤ 7 ∧ hi.toNat < 0x20 ∧ lo.toNat % 4 = 0 :=
  ⟨0x60, 0x1F, 0xFF, 0xFC, 0x01020304, sailS, by decide⟩

theorem witness_I2cTransfers_2 :
    ∃ (dev : BitVec 7) (hi : Byte) (_mid : Byte) (lo : Byte) (_v : Word) (s : State), Open s ∧ s.host.i2cOpen = false ∧ s.i2cAnswers dev = true ∧ s.host.i2cPosted.length ≤ 7 ∧ 0x80 ≤ hi.toNat ∧ hi.toNat < 0xA0 ∧ lo.toNat % 4 = 0 :=
  ⟨0x60, 0x9F, 0xFF, 0xFC, 0x01020304, sailS, by decide⟩

theorem witness_I2cTransfers_3 :
    ∃ (dev : BitVec 7) (hi : Byte) (_mid : Byte) (lo : Byte) (_bs : List Byte) (s : State), Open s ∧ s.host.i2cOpen = false ∧ s.i2cAnswers dev = true ∧ (lo.toNat % 4 ≠ 0 ∨ hi.toNat / 32 % 4 ≠ 0) :=
  ⟨0x60, 0x20, 0xFF, 0xFC, [1, 2, 3, 4], sailS, by decide⟩

theorem witness_I2cTransfers_4 :
    ∃ (dev : BitVec 7) (_bs : List Byte) (_ds : List Nat) (s : State), s.host.i2cOpen = false ∧ s.host.i2cPart = [] ∧ s.host.i2cIgnores = false ∧ s.i2cAnswers dev = false :=
  ⟨0x61, [0, 0, 0], [], sailS, by decide⟩

theorem witness_I2cTransfers_5 :
    ∃ (dev : BitVec 7) (s : State), Open s ∧ s.host.i2cOpen = false ∧ s.i2cAnswers dev = true ∧ s.host.i2cPosted = [] ∧ s.host.i2cPtr = F.IMG_RB_ADDR ∧ s.host.i2cFixed = false :=
  ⟨0x60, { sailS.setReg F.IMG_RB_ADDR 0x01020304 with host := { sailS.host with i2cPtr := F.IMG_RB_ADDR } }, by decide⟩

theorem witness_I2cTransfers_6 :
    ∃ (_restart : Bool) (s : State), Open s ∧ s.host.i2cOpen = true ∧ s.host.i2cPart ≠ [] :=
  ⟨false, { sailS with host := { sailS.host with i2cOpen := true, i2cPart := [1] } }, by decide⟩

theorem witness_I2cTransfers_7 :
    ∃ (_restart : Bool) (s : State), Open s ∧ s.host.i2cPart = [] :=
  ⟨false, { sailS with host := { sailS.host with i2cIgnores := true } }, by decide⟩

theorem witness_I2cTransfers_8 :
    ∃ (s : State), Open s ∧ s.host.i2cOpen = true ∧ s.host.i2cTimed = true ∧ s.host.i2cIgnores = false :=
  ⟨{ sailS with host := { sailS.host with i2cOpen := true, i2cTimed := true } }, by decide⟩

theorem witness_MailboxAndEpisodes_1 :
    ∃ (_p : Path) (v : Word) (s : State), s.inSail = true ∧ bits v.toNat 31 16 = 0x4D42 ∧ s.bit F.MBOX_STATUS_BUSY = false ∧ bits v.toNat 8 8 = 1 ∧ bits v.toNat 3 0 < 9 ∧ bits v.toNat 3 0 ≠ 2 :=
  ⟨.spi, 0x4D420108, sailS.setReg (F.MBOX_ARG 3) 0xF, by decide⟩

theorem witness_MailboxAndEpisodes_2 :
    ∃ (_p : Path) (v : Word) (s : State), s.inSail = true ∧ bits v.toNat 31 16 = 0x4D42 ∧ s.bit F.MBOX_STATUS_BUSY = false ∧ bits v.toNat 8 8 = 1 ∧ 9 ≤ bits v.toNat 3 0 :=
  ⟨.spi, 0x4D420109, sailS, by decide⟩

theorem witness_MailboxAndEpisodes_3 :
    ∃ (_errs : List (Nat × Nat)) (c : RoutineCall) (s : State), s.inSail = true ∧ s.noEpisode = false ∧ s.bit F.MODE_STATUS_REEFING = false ∧ s.dsc.snapWait = [] ∧ s.upd.steps = [] ∧ s.flash.op = none ∧ s.mbox.call = some (0, 0, c) :=
  ⟨[], ⟨0, 0, 0, 0, 0x10000000, 0⟩, { sailS.raise F.MBOX_STATUS_BUSY with mbox := { call := some (0, 0, ⟨0, 0, 0, 0, 0x10000000, 0⟩) } }, by decide⟩

theorem witness_MailboxAndEpisodes_4 :
    ∃ (_errs : List (Nat × Nat)) (s : State), s.bit F.SUP_STATUS_HALTED = true :=
  ⟨[], sailS.raise F.SUP_STATUS_HALTED, by decide⟩

theorem witness_MailboxAndEpisodes_5 :
    ∃ (st : Word) (n : Word) (ofs : Word) (s : State), s.inSail = true ∧ s.noEpisode = false ∧ s.mbox.running = some 0 ∧ s.flash.results = [(1, [st, n, ofs])] :=
  ⟨9, 32, 0x620020, { sailS.raise F.MBOX_STATUS_BUSY with mbox := { running := some 0 }, flash := { sailS.flash with results := [(1, [9, 32, 0x620020])] } }, by decide⟩

theorem witness_MailboxAndEpisodes_6 :
    ∃ (_p : Path) (_v : Word) (s : State), Open s ∧ s.bit F.MBOX_STATUS_BUSY = false ∧ s.flash.op = none :=
  ⟨.spi, 0x01000304, sailS.setFld F.MBOX_BUF_ADDR_WORD 1023, by decide⟩

theorem witness_MailboxAndEpisodes_7 :
    ∃ (_p : Path) (_v : Word) (s : State), Open s ∧ s.bit F.MBOX_STATUS_BUSY = true :=
  ⟨.spi, 7, sailS.raise F.MBOX_STATUS_BUSY, by decide⟩

theorem witness_MailboxAndEpisodes_8 :
    ∃ (_p : Path) (s : State), Open s :=
  ⟨.spi, { sailS.setFld F.MBOX_BUF_ADDR_WORD 1023 with sram := [(0x3CFFC, 4), (0x3CFFF, 1)] }, by decide⟩

theorem witness_ResetValues_w1 : State.reset.reg F.DEV_ID = 0x74368001 := by decide

/-! ### Well-formedness refuses an ill-formed operand of each check -/

theorem test_wf_bus_address_aligned : Instr.wf (.wideLoRead .spi 0x40010) = true ∧ Instr.wf (.wideLoRead .spi 0x40012) = false := by decide

theorem test_wf_bus_address_in_space : Instr.wf (.wideHiWrite .jtag 0x10FFFC 0) = true ∧ Instr.wf (.wideHiWrite .jtag 0x110000 0) = false := by decide

theorem test_wf_register_write : Instr.wf (.registerWrite .sup 0x110000 0) = false ∧ Instr.wf (.rcFieldRead .sup 2) = false ∧
    Instr.wf (.unlistedOffsetAccess .i2c 0x3D none) = false := by decide

theorem test_wf_delay_codes : Instr.wf (.sheetRecal [0, 127]) = true ∧ Instr.wf (.sheetRecal [128]) = false ∧
    Instr.wf (.calibrationTrack [200]) = false ∧ Instr.wf (.clockLoopWaitEnd [1, 128]) = false := by decide

theorem test_wf_frame_bytes : Instr.wf (.shroudFrame 0 (List.replicate 32 0)) = true ∧ Instr.wf (.shroudFrame 0 (List.replicate 24 0)) = false ∧
    Instr.wf (.route 0 []) = false := by decide

theorem test_wf_chunk_errors : Instr.wf (.patrolRead [(2 ^ 19 - 1, 1)]) = true ∧ Instr.wf (.patrolRead [(2 ^ 19, 1)]) = false ∧
    Instr.wf (.flashRead ⟨0, 0, 0, 0, 0, 0⟩ [(2 ^ 19, 1)]) = false := by decide

theorem test_wf_rom_boot : Instr.wf (.romBoot 0 [2 ^ 32]) = false := by decide

theorem test_wf_lengths : Instr.wf (.vioCheck [0]) = false ∧ Instr.wf (.mirrorModel [0]) = false := by decide

/-! ### Values worked out from the spec by hand -/

/-- CRC-32 of "123456789" is 0xCBF43926 (PRESUMED parameters, log entry 23). -/
theorem test_crc32 : crc32 [0x31, 0x32, 0x33, 0x34, 0x35, 0x36, 0x37, 0x38, 0x39] = 0xCBF43926 := by decide +kernel

/-- The CRC-8 of R960 (polynomial 0x07, initial value 0) of "123456789" is 0xF4. -/
theorem test_crc8 : crc8 [0x31, 0x32, 0x33, 0x34, 0x35, 0x36, 0x37, 0x38, 0x39] = 0xF4 := by decide +kernel

/-- IDCODE shifts out least significant byte first (spec/11_images_and_keys.md R601). -/
theorem test_idcode : leNat [0xC9, 0xA2, 0x68, 0x13] = 0x1368A2C9 := by decide

/-- A table word spells no command. -/
theorem test_no_words : decodeTableWord 32 0x12345678 = none := by decide

/-- An empty queue: a step is one tick of time. -/
theorem test_idle : step sailS = .next sailS.idle := rfl

end Sys2Proof.Tests
end

section
/-! Scope and register conventions (spec/00_scope.md): accesses to offsets that no block map lists, what a read returns, and the Reset
column. -/

namespace Sys2Proof.Machine

open Sys2Proof

/-! ### What logging a code changes (spec/19_supervisor_and_host.md R974-R976) -/

/-- A code enters the codes of its window as one more entry. -/
theorem insertErr_length (ws : List ErrEntry) (e : ErrEntry) : (insertErr ws e).length = ws.length + 1 := by
  have hsplit : ∀ l : List ErrEntry,
      (l.filter fun x => decide (x.code ≤ e.code)).length + (l.filter fun x => decide (e.code < x.code)).length = l.length := by
    intro l
    induction l with
    | nil => rfl
    | cons x l ih =>
      by_cases hx : x.code ≤ e.code
      · simp [hx, Nat.not_lt.mpr hx]; omega
      · simp [hx, Nat.lt_of_not_le hx]; omega
  have hlen := hsplit ws
  simp only [insertErr, List.length_zipWith, List.length_append, List.length_map, List.length_cons, List.length_nil]
  omega

/-- A collector with room keeps every entry, with or without ERR_OVERWRITE. -/
theorem keptErrs_of_room (newest : Bool) {all : List ErrEntry} (h : all.length ≤ 64) : keptErrs newest all = all := by
  cases newest with
  | false => exact List.take_of_length_le h
  | true => simp [keptErrs, Nat.sub_eq_zero_of_le h]

/-- The code that State.log takes is logged. -/
theorem State.logs_log (s : State) (c d : Nat) : Logs c d s (s.log c d) := by
  intro room
  rw [List.length_append] at room
  rw [State.errs_log, keptErrs_of_room]
  rw [List.length_append, insertErr_length]
  omega

/-- Beside registers, logging changes the collector, its count of unkept codes, CFG_STATUS' code and the marks of its window alone. -/
theorem State.log_frame (s : State) (c d : Nat) :
    { s.log c d with regs := s.regs, errs := s.errs, unkept := s.unkept, bootCode := s.bootCode,
                     win := { (s.log c d).win with logged := s.win.logged, pushed := s.win.pushed } } = s := by
  simp [State.log_win]

/-- A log changes no field outside the collector's registers. -/
theorem State.onlyAndLog_log (s : State) (c d : Nat) : OnlyAndLog [] s (s.log c d) :=
  ⟨(OnlyFields.refl _ s).log fun _ hf => List.mem_append_left _ hf, s.log_frame c d⟩

/-! ### Accesses to an offset that no block map lists (R14, R15) -/

/-- On a host path the command does what State.unlisted says of a host. -/
theorem exec_unlisted_host {p : Path} {a : Nat} {s : State} (w : Option Word) (ho : Open s) (hp : hostPath p = true)
    (hrow : findRow a = none) (hflc : a / 0x10000 ≠ 3) :
    exec (.unlistedOffsetAccess p a w) s = .next (if w.isSome then s.log 0x1002 a else (s.log 0x1002 a).gives 0) := by
  change whenOpen s _ = _
  rw [whenOpen_of_open ho]
  simp [hrow, hflc, State.unlisted, hp]

/-- A returned word is all that gives changes. -/
theorem State.gives_frame {s : State} {r : Word} (w : Word) (h : s.readData = r) : { s.gives w with readData := r } = s := by
  subst h; rfl

/-! ### Reads under the access codes (R7, R11) -/

/-- Above the MAST block, only the FIFO engines' POP registers and the captures do more on a read than their access codes say. -/
theorem State.readReg_eq_readPlain (s : State) (p : Path) {a : Nat} (hrow : (findRow a).isSome = true) (hlow : 0x50000 ≤ a)
    (hfifo : a < 0xA1000 ∨ 0xA3000 ≤ a) (hcap : a < 0x54000 ∨ 0x55000 ≤ a) : s.readReg p a = s.readPlain p a := by
  have hne : ∀ b, b < 0x50000 → a ≠ b := by omega
  have hlisted : ¬ (findRow a).isNone = true := fun h => Option.isSome_iff_ne_none.mp hrow (Option.isNone_iff_eq_none.mp h)
  rw [State.readReg, if_neg (by omega), if_neg hlisted, if_neg (hne _ (by decide)), if_neg (hne _ (by decide)),
    if_neg (hne _ (by decide)), if_neg (hne _ (by decide)), if_neg (hne _ (by decide)), if_neg (by omega)]
  exact if_neg (by omega)

/-- A word that the path has latched is returned in place of the register, and no RC field clears. -/
theorem State.readPlain_latched {s : State} {p : Path} {a : Nat} {w : Word} (h : s.latched p a = some w)
    (hcap : a < 0x54000 ∨ 0x55000 ≤ a) : s.readPlain p a = s.gives w := by
  have hset : ¬ (0x54000 ≤ a ∧ a < 0x55000 ∧ a % 64 = 0x24) := by omega
  simp only [State.readPlain, h, hset, if_false]

/-- With the register space open, the command that reads a register with RC fields reads it. -/
theorem exec_rcFieldRead {s : State} (p : Path) {a : Nat} (ho : Open s) (hrc : rcMask a ≠ 0) :
    exec (.rcFieldRead p a) s = .next (s.readReg p a) := by
  change whenOpen s _ = _
  rw [whenOpen_of_open ho, if_neg hrc]

/-- A state in Sail whose SPI path carries a cleat of two words one word below TMR_MISSED of timer 0, where no access tags one. -/
theorem exists_stray_cleat : ∃ s : State,
    Open s ∧ s.latched .spi (F.TMR_MISSED (0 : Fin 64)) = some 1 ∧ s.reg (F.TMR_MISSED (0 : Fin 64)) = 0 :=
  ⟨{ dev := { State.reset.dev with mode := .sail },
     paths := [(Path.index .spi, { cleatTag := some (F.TMR_MISSED 0 - 4), cleat := [0, 1] })] }, by decide⟩

end Sys2Proof.Machine

namespace Sys2Proof

open Sys2Proof.Machine

/-- Settles O16: a host access to an unlisted offset is one log, and a read gives 0 beside it. -/
theorem unlistedHostAccess : Obligations.UnlistedHostAccess := by
  unfold Obligations.UnlistedHostAccess
  constructor
  · intro p a s ho hp hrow hflc
    exact .intro (exec_unlisted_host none ho hp hrow hflc) ⟨rfl, s.logs_log 0x1002 a, State.gives_frame 0 (s.log_readData 0x1002 a)⟩
  · intro p a v s ho hp hrow hflc
    exact .intro (exec_unlisted_host (some v) ho hp hrow hflc) ⟨s.logs_log 0x1002 a, s.onlyAndLog_log 0x1002 a⟩

/-- Refutes O18: its clause on TMR_MISSED assumes nothing of what the path has latched (its clause on MON_TEMP_PEAK does), and a read
returns a latched word in place of the register. -/
theorem not_registerAccessCodes : ¬ Obligations.RegisterAccessCodes := by
  unfold Obligations.RegisterAccessCodes
  rintro ⟨-, -, -, hmissed, -⟩
  obtain ⟨s, hopen, hlatched, hreg⟩ := exists_stray_cleat
  have hplain : s.readReg .spi (F.TMR_MISSED (0 : Fin 64)) = s.readPlain .spi (F.TMR_MISSED (0 : Fin 64)) :=
    s.readReg_eq_readPlain .spi (by decide) (by decide) (by decide) (by decide)
  obtain ⟨t, ht, hread, -⟩ := hmissed .spi 0 s hopen
  rw [exec_rcFieldRead .spi hopen (by decide), hplain, State.readPlain_latched hlatched (by decide)] at ht
  obtain rfl : s.gives 1 = t := Host.Outcome.next.inj ht
  exact absurd (hread.trans hreg) (by decide : (1 : Word) ≠ 0)

/-- Settles O57, by evaluation of the reset state: a register that nothing has written reads its Reset column (log entry 3 takes
MAST_RCAL's nominal value for its Reset of U, log entries 4, 6 and 7 the empty memories, log entry 41 the Hoist at reset). -/
theorem resetValues : Obligations.ResetValues := by
  unfold Obligations.ResetValues
  exact ⟨by decide, by decide⟩

end Sys2Proof
end

section
/-! Power-up, PORST_N, a dropout of the supplies and the loss of VBAT (spec/01_architecture.md R29, R32, R50, R1075, spec/16_stay.md R803,
spec/17_power_and_reef.md R851-R855, R1074): what a cold start keeps, and what the stop of the core leaves as it was. -/

namespace Sys2Proof.Machine

open Sys2Proof

/- With this option each proof is elaborated before the next declaration: several at once pass the memory limit of the check. No `variable`
is affected. -/
set_option deprecated.oldSectionVars true

/-! ### Timers that settle -/

theorem timerFrame_refl (s : State) : TimerFrame s s := (rfl)

theorem timerFrame_trans {s t u : State} (h : TimerFrame s t) (k : TimerFrame t u) : TimerFrame s u :=
  (congrArg (fun x : State => { x with regs := s.regs, frozenSince := s.frozenSince,
                                       win := { x.win with acted := s.win.acted, moved := s.win.moved } }) k).trans h

theorem State.setReg_timerFrame (s : State) (a : Nat) (v : Word) : TimerFrame s (s.setReg a v) := by cases s; rfl

theorem State.frozenSince_timerFrame (s : State) (f : Table (Option Nat)) : TimerFrame s { s with frozenSince := f } := by cases s; rfl

theorem State.markMoved_timerFrame (s : State) (n : Nat) : TimerFrame s (s.markMoved n) := by cases s; rfl

/-- A timer settles by writes of its registers, and a mark of what it freezes from. -/
theorem State.settleTimer_timerFrame (s : State) (n : Nat) : TimerFrame s (s.settleTimer n) :=
  timerFrame_trans (timerFrame_trans (s.setReg_timerFrame _ _) (State.setReg_timerFrame _ _ _))
    (timerFrame_trans (State.setReg_timerFrame _ _ _) (State.frozenSince_timerFrame _ _))

theorem State.idleTimer_timerFrame (s : State) (n : Nat) : TimerFrame s (s.idleTimer n) :=
  timerFrame_trans (s.setReg_timerFrame _ _) (State.settleTimer_timerFrame _ n)

theorem State.idleTimers_timerFrame (s : State) : TimerFrame s s.idleTimers := by
  refine List.foldlRecOn _ _ (timerFrame_refl s) fun t h n _ => ?_
  split
  · exact h
  · exact timerFrame_trans h (t.idleTimer_timerFrame n)

theorem State.settleHalted_timerFrame (s : State) : TimerFrame s s.settleHalted := by
  refine List.foldlRecOn _ _ (timerFrame_refl s) fun t h n _ => ?_
  split
  · exact timerFrame_trans h (timerFrame_trans (t.settleTimer_timerFrame n) (State.markMoved_timerFrame _ n))
  · exact h

theorem State.endHalt_of_halted {s : State} (h : s.bit F.SUP_STATUS_HALTED = true) :
    s.endHalt = (s.clear F.SUP_STATUS_HALTED).settleHalted := if_pos h

theorem State.endHalt_of_running {s : State} (h : ¬ s.bit F.SUP_STATUS_HALTED = true) : s.endHalt = s := if_neg h

theorem State.endHalt_timerFrame (s : State) : TimerFrame s s.endHalt := by
  by_cases h : s.bit F.SUP_STATUS_HALTED = true
  · rw [State.endHalt_of_halted h]
    exact timerFrame_trans (s.setReg_timerFrame _ _) (State.settleHalted_timerFrame _)
  · rw [State.endHalt_of_running h]

/-- A register of the timers' block. -/
abbrev timerReg (a : Nat) : Prop := 0x51000 ≤ a ∧ a < 0x52000

/-- A timer below 64 settles within the registers of the timers. -/
theorem State.reg_settleTimer (s : State) {n a : Nat} (hn : n < 64) (ha : ¬ timerReg a) : (s.settleTimer n).reg a = s.reg a := by
  have hlo : a ≠ 0x51018 + 64 * n := by omega
  have hhi : a ≠ 0x51018 + 64 * n + 4 := by omega
  have hstat : a ≠ 0x51038 + 64 * n := by omega
  change (State.setFld _ _ _).reg a = s.reg a
  rw [State.reg_setFld_ne _ _ hstat]
  exact s.reg_setWide_ne _ hlo hhi

theorem State.reg_settleHalted (s : State) {a : Nat} (ha : ¬ timerReg a) : s.settleHalted.reg a = s.reg a := by
  refine List.foldlRecOn _ _ (motive := fun t => t.reg a = s.reg a) rfl fun (t : State) h n hn => ?_
  split
  · exact (t.reg_settleTimer (List.mem_range.mp hn) ha).trans h
  · exact h

/-- The end of a halt shows in SUP_STATUS and in the timers alone. -/
theorem State.reg_endHalt (s : State) {a : Nat} (hsup : a ≠ F.SUP_STATUS) (ha : ¬ timerReg a) : s.endHalt.reg a = s.reg a := by
  by_cases h : s.bit F.SUP_STATUS_HALTED = true
  · rw [State.endHalt_of_halted h]
    exact (State.reg_settleHalted _ ha).trans (s.reg_setFld_ne 0 hsup)
  · rw [State.endHalt_of_running h]

/-! ### A cold start (R32) -/

/-- The state of a cold start before its timers settle. -/
def State.coldLeft (s : State) (cause : Nat) : State :=
  { s.coldStart with mast := { s.coldStart.mast with xtTicks := cause != 1 && s.bit F.MAST_STATUS_XT_OK } }

theorem State.startHoist_of_cold (s : State) {cause : Nat} (hc : cause ≤ 3) :
    s.startHoist cause false =
      { (s.coldLeft cause).idleTimers with
        dev := { (s.coldLeft cause).idleTimers.dev with cause := cause, wakes := if cause = 3 then s.dev.wakes else 0 },
        jtag := {},
        hoist := { (s.coldLeft cause).idleTimers.hoist with restart := false, stepAt := s.mast.ran } } := by
  simp only [State.startHoist, hc, decide_true, Bool.not_false, Bool.and_true, if_true]
  rfl

/-- The device as a Hoist that starts cold finds it: the outputs off, with its CAUSE. -/
theorem State.startHoist_cold_dev (s : State) {cause : Nat} (hc : cause ≤ 3) :
    (s.startHoist cause false).dev =
      { vbatLost := s.dev.vbatLost, porst := s.dev.porst, cause := cause, wakes := if cause = 3 then s.dev.wakes else 0 } := by
  have hdev : (s.coldLeft cause).idleTimers.dev = s.coldStart.dev := congrArg (·.dev) (s.coldLeft cause).idleTimers_timerFrame
  rw [s.startHoist_of_cold hc, hdev]
  rfl

/-- A cold start keeps, of the battery-backed domain, the Mast and the key, and the fuses and the flashes; the collector and the SRAM are
empty after it. -/
theorem State.startHoist_cold_keeps (s : State) {cause : Nat} (hc : cause ≤ 3) {t : State} (ht : s.startHoist cause false = t) :
    t.mast.acc = (if s.dev.vbatLost then 0 else s.mast.acc) ∧ t.keys.fuse = s.keys.fuse ∧ t.keys.bbk = s.keys.bbk ∧
      t.flash.mem = s.flash.mem ∧ t.xflash = s.xflash ∧ t.errs = [] ∧ t.sram = [] := by
  have hframe := (s.coldLeft cause).idleTimers_timerFrame
  rw [← ht, s.startHoist_of_cold hc]
  exact ⟨congrArg (·.mast.acc) hframe, congrArg (·.keys.fuse) hframe, congrArg (·.keys.bbk) hframe, congrArg (·.flash.mem) hframe,
    congrArg (·.xflash) hframe, congrArg (·.errs) hframe, congrArg (·.sram) hframe⟩

theorem execPor_off {s : State} (hoff : s.dev.mode = .off) (hbad : s.dev.supplies = false) :
    execPor s = .next (State.startHoist { s with dev := { s.dev with supplies := true } } 1 false) :=
  congrArg Host.Outcome.next (if_pos (by rw [hoff, hbad]; rfl))

theorem execPorstNRelease_held {s : State} (hheld : s.dev.porst = true) (hdown : s.powered = false) (hgood : s.dev.supplies = true) :
    execPorstNRelease s = .next (State.startHoist { s with dev := { s.dev with porst := false } } 2 false) :=
  congrArg Host.Outcome.next (if_pos (by rw [hheld, hdown, hgood]; rfl))

/-! ### Operations of the flashes and the fuses that a loss of power cuts -/

/-- Neither a register nor the device's mode and supplies nor the Mast changed. -/
abbrev CutKeeps (s t : State) : Prop := t.regs = s.regs ∧ t.dev = s.dev ∧ t.mast = s.mast

theorem CutKeeps.refl (s : State) : CutKeeps s s := ⟨rfl, rfl, rfl⟩

theorem CutKeeps.trans {s t u : State} : CutKeeps s t → CutKeeps t u → CutKeeps s u
  | ⟨hregs, hdev, hmast⟩, ⟨kregs, kdev, kmast⟩ => ⟨kregs.trans hregs, kdev.trans hdev, kmast.trans hmast⟩

theorem CutKeeps.dev {s t : State} : CutKeeps s t → t.dev = s.dev
  | ⟨_, hdev, _⟩ => hdev

theorem CutKeeps.mast {s t : State} : CutKeeps s t → t.mast = s.mast
  | ⟨_, _, hmast⟩ => hmast

theorem CutKeeps.reg {s t : State} (a : Nat) : CutKeeps s t → t.reg a = s.reg a
  | ⟨hregs, _, _⟩ => congrArg (Table.get resetWord · a) hregs

theorem State.unitCut_cutKeeps (s : State) (a : Nat) (bs : List Byte) : CutKeeps s (s.unitCut a bs) := by
  unfold State.unitCut
  dsimp only
  split
  · exact ⟨rfl, rfl, rfl⟩
  · split <;> exact ⟨rfl, rfl, rfl⟩

theorem State.flashCut_cutKeeps (s : State) : CutKeeps s s.flashCut := by
  unfold State.flashCut
  split
  next op _ =>
    extract_lets bs begun t
    have ht : CutKeeps s t := by
      unfold t
      split
      · exact ⟨rfl, rfl, rfl⟩
      · exact CutKeeps.trans (t := s.flashPut op.ofs (bs.take (32 * begun))) ⟨rfl, rfl, rfl⟩ (State.unitCut_cutKeeps _ _ _)
    exact ht
  next => exact .refl s

theorem State.open_cutKeeps (s : State) : CutKeeps s s.open_.2 := ⟨rfl, rfl, rfl⟩

theorem State.xflashPut_cutKeeps (s : State) (a : Nat) (bs : List Byte) : CutKeeps s (s.xflashPut a bs) := ⟨rfl, rfl, rfl⟩

theorem State.xflashErased_cutKeeps (s : State) (k : Nat) : CutKeeps s (s.xflashErased k) := ⟨rfl, rfl, rfl⟩

/-- A page or a block of the external flash stays, is written, or is left open. -/
theorem State.xflashCut_cutKeeps (s : State) : CutKeeps s s.xflashCut := by
  have hopen := s.open_cutKeeps
  unfold State.xflashCut
  dsimp only
  split
  next a bs _ _ =>
    split
    · exact hopen
    · split
      · exact hopen.trans (State.xflashPut_cutKeeps _ a bs)
      · exact hopen.trans ⟨rfl, rfl, rfl⟩
  next =>
    split
    · exact hopen
    · split
      · exact hopen.trans (State.xflashErased_cutKeeps _ _)
      · exact hopen.trans ⟨rfl, rfl, rfl⟩
  next => exact .refl s

theorem State.fuseOpen_cutKeeps (s : State) (k d : Nat) : CutKeeps s (s.fuseOpen k d) := ⟨rfl, rfl, rfl⟩

theorem State.fuseCut_cutKeeps (s : State) : CutKeeps s s.fuseCut := by
  unfold State.fuseCut
  split
  · exact s.fuseOpen_cutKeeps _ _
  · exact (s.fuseOpen_cutKeeps _ _).trans (State.fuseOpen_cutKeeps _ _ _)
  · exact .refl s

/-- What the core leaves with every operation of the flashes and the fuses cut. -/
def State.cutLeft (s : State) : State := (if s.xflashBusy then s.xflashCut else s).flashCut.fuseCut

theorem State.cutLeft_cutKeeps (s : State) : CutKeeps s s.cutLeft := by
  refine CutKeeps.trans ?_ ((State.flashCut_cutKeeps _).trans (State.fuseCut_cutKeeps _))
  split
  · exact s.xflashCut_cutKeeps
  · exact .refl s

/-! ### Every output off (R803) -/

/-- The fields that a fall of ROLE to NONE writes. -/
def roleFields : List Fld := [F.STY_STATUS_ROLE, F.STY_STATUS_WARM, F.STY_EVENT_ROLE_CHG, F.STY_STATUS_CONTEND]

theorem State.role_eq (s : State) : s.role = s.fld F.STY_STATUS_ROLE := (rfl)

theorem State.setRole_same {s : State} (h : s.role = 0) : s.setRole 0 = s := if_pos h

/-- A member of ROLE NONE is not in contention. -/
theorem State.showContend_of_none {s : State} (h : s.role = 0) : s.showContend = s.clear F.STY_STATUS_CONTEND := by
  simp [State.showContend, h]

/-- A role that falls to NONE writes these fields, one after the other. -/
theorem State.setRole_none {s : State} (h : s.role ≠ 0) :
    s.setRole 0 = (((s.setFld F.STY_STATUS_ROLE 0).setFld F.STY_STATUS_WARM 0).setFld F.STY_EVENT_ROLE_CHG 1).setFld F.STY_STATUS_CONTEND 0 := by
  have hnone : (((s.setFld F.STY_STATUS_ROLE 0).clear F.STY_STATUS_WARM).raise F.STY_EVENT_ROLE_CHG).role = 0 := by
    rw [State.role_eq, State.raise_eq, State.clear_eq, State.fld_setFld_ne _ _ (by decide), State.fld_setFld_disjoint _ _ (by decide) (by decide),
      State.fld_setFld_self _ _ (by decide), Nat.zero_mod]
  exact (if_neg h).trans (State.showContend_of_none hnone)

/-- A field write after which nothing but registers has changed. -/
theorem regsFrame_setFld {s t : State} {f : Fld} {v : Nat} (h : { t with regs := s.regs } = s) : { t.setFld f v with regs := s.regs } = s := h

/-- The fall of the role to NONE writes registers alone. -/
theorem State.setRole_none_frame (s : State) : { s.setRole 0 with regs := s.regs } = s := by
  by_cases h : s.role = 0
  · rw [State.setRole_same h]
  · rw [State.setRole_none h]
    exact regsFrame_setFld (regsFrame_setFld (regsFrame_setFld (regsFrame_setFld (Eq.refl s))))

theorem State.setRole_none_onlyFields (s : State) : OnlyFields roleFields s (s.setRole 0) := by
  by_cases h : s.role = 0
  · rw [State.setRole_same h]
    exact .refl _ s
  · rw [State.setRole_none h]
    exact ((((OnlyFields.refl _ s).setFld (by decide) (by decide)).setFld (by decide) (by decide)).setFld (by decide) (by decide)).setFld
      (by decide) (by decide)

theorem State.role_setRole_none (s : State) : (s.setRole 0).role = 0 := by
  by_cases h : s.role = 0
  · rw [State.setRole_same h, h]
  · rw [State.setRole_none h, State.role_eq, State.fld_setFld_disjoint _ _ (by decide) (by decide), State.fld_setFld_ne _ _ (by decide),
      State.fld_setFld_disjoint _ _ (by decide) (by decide), State.fld_setFld_self _ _ (by decide), Nat.zero_mod]

theorem State.reg_setRole_none (s : State) {a : Nat} (hs : a ≠ F.STY_STATUS) (he : a ≠ F.STY_EVENT) : (s.setRole 0).reg a = s.reg a := by
  by_cases h : s.role = 0
  · rw [State.setRole_same h]
  · rw [State.setRole_none h, State.reg_setFld_ne _ _ hs, State.reg_setFld_ne _ _ he, State.reg_setFld_ne _ _ hs,
      State.reg_setFld_ne _ _ hs]

theorem State.outputsOff_dev (s : State) : s.outputsOff.dev = { s.dev with outOn := false } := (rfl)

theorem State.reg_outputsOff (s : State) {a : Nat} (hs : a ≠ F.STY_STATUS) (he : a ≠ F.STY_EVENT) : s.outputsOff.reg a = s.reg a :=
  s.reg_setRole_none hs he

theorem State.outputsOff_mast (s : State) : s.outputsOff.mast = s.mast := (congrArg (·.mast) s.setRole_none_frame :)

/-- Beside registers only the outputs change. -/
theorem State.outputsOff_frame (s : State) : { s.outputsOff with regs := s.regs, dev := s.dev } = s :=
  (congrArg (fun x : State => { x with dev := s.dev }) s.setRole_none_frame :)

theorem execVddfOutOfRange_powered {s : State} (hpow : s.powered = true) : execVddfOutOfRange s = .next s.outputsOff :=
  congrArg Host.Outcome.next (if_pos hpow)

/-- A field that was cleared is no flag that stands. -/
theorem State.bit_setFld_zero (s : State) {f : Fld} (h : f.lo + f.width ≤ 32) : (s.setFld f 0).bit f = false := by
  rw [State.bit_eq, s.fld_setFld_self 0 h, Nat.zero_mod]
  rfl

/-! ### The core stops (R50, R854, R1074) -/

/-- The registers outside the timers that the stop of the core writes. -/
def coreDownRegs : List Nat := [F.SUP_STATUS, F.MAST_STATUS, F.HST_HAL_STATUS, F.STY_STATUS, F.STY_EVENT]

theorem ne_of_not_mem_coreDownRegs {a : Nat} (h : a ∉ coreDownRegs) :
    a ≠ F.SUP_STATUS ∧ a ≠ F.MAST_STATUS ∧ a ≠ F.HST_HAL_STATUS ∧ a ≠ F.STY_STATUS ∧ a ≠ F.STY_EVENT := by
  simpa only [coreDownRegs, List.mem_cons, List.not_mem_nil, or_false, not_or] using h

/-- The battery-backed Mast as the core stops (R854): while the beat ran it stands back to the last XT32 edge, and a step that has not acted
is lost. -/
def State.mastBack (s : State) (lag : Nat) : MastUnit :=
  let back := if !s.bit F.MAST_STATUS_DOMAIN && s.bit F.MAST_STATUS_XT_OK then min lag (nominalSpan - 1) else 0
  { s.mast with acc := (s.mast.acc + 2 ^ 102 - back) % 2 ^ 102, step := none, remWas := none, afterStep := 0 }

/-- The Mast handed to the 32 kHz domain, where it is not there yet. -/
def State.mastHanded (s : State) (beat : Bool) : State := if beat then s.toReefDomain else s

/-- What the core leaves as it stops, before the flashes, the fuses and the outputs. -/
def State.mastLeft (s : State) (lag : Nat) : State :=
  (State.mastHanded { s.endHalt with mast := s.endHalt.mastBack lag, jtag := {} } (!s.endHalt.bit F.MAST_STATUS_DOMAIN)).clear
    F.HST_HAL_STATUS_DRIVE

theorem State.coreDown_eq (s : State) (lag : Nat) :
    s.coreDown lag =
      { (s.mastLeft lag).cutLeft.outputsOff with
        dev := { (s.mastLeft lag).cutLeft.outputsOff.dev with mode := .off, seenNotGood := false },
        upd := { trial := (s.mastLeft lag).cutLeft.outputsOff.upd.trial } } := (rfl)

theorem State.mastHanded_dev (s : State) (beat : Bool) : (s.mastHanded beat).dev = s.dev := by cases beat <;> rfl

theorem State.mastHanded_step (s : State) (beat : Bool) : (s.mastHanded beat).mast.step = s.mast.step := by cases beat <;> rfl

theorem State.reg_mastHanded (s : State) (beat : Bool) {a : Nat} (h : a ≠ F.MAST_STATUS) : (s.mastHanded beat).reg a = s.reg a := by
  cases beat with
  | false => rfl
  | true => exact (State.reg_setFld_ne _ _ h).trans (State.reg_setFld_ne _ _ h)

theorem State.mastLeft_dev (s : State) (lag : Nat) : (s.mastLeft lag).dev = s.dev :=
  (State.mastHanded_dev _ _).trans (congrArg (·.dev) s.endHalt_timerFrame)

theorem State.mastLeft_step (s : State) (lag : Nat) : (s.mastLeft lag).mast.step = none := State.mastHanded_step _ _

theorem State.reg_mast_jtag (s : State) (m : MastUnit) (j : JtagUnit) (a : Nat) : ({ s with mast := m, jtag := j } : State).reg a = s.reg a :=
  (rfl)

theorem State.reg_mastLeft (s : State) (lag : Nat) {a : Nat} (hr : a ∉ coreDownRegs) (ht : ¬ timerReg a) :
    (s.mastLeft lag).reg a = s.reg a := by
  obtain ⟨hsup, hmast, hhal, -, -⟩ := ne_of_not_mem_coreDownRegs hr
  refine (State.reg_setFld_ne _ _ hhal).trans ?_
  rw [State.reg_mastHanded _ _ hmast, State.reg_mast_jtag, s.reg_endHalt hsup ht]

/-- As the core stops the device is unpowered with every output off, and beside that `dev` stands. -/
theorem State.coreDown_dev (s : State) (lag : Nat) :
    (s.coreDown lag).dev = { s.dev with mode := .off, seenNotGood := false, outOn := false } := by
  rw [s.coreDown_eq, State.outputsOff_dev, (State.cutLeft_cutKeeps _).dev, s.mastLeft_dev]

/-- A committed step that has not acted is lost with the core (log entry 49). -/
theorem State.coreDown_step (s : State) (lag : Nat) : (s.coreDown lag).mast.step = none := by
  rw [s.coreDown_eq]
  change (State.outputsOff _).mast.step = none
  rw [State.outputsOff_mast, (State.cutLeft_cutKeeps _).mast, s.mastLeft_step]

theorem State.reg_dev_upd (s : State) (d : DeviceUnit) (u : UpdateUnit) (a : Nat) : ({ s with dev := d, upd := u } : State).reg a = s.reg a :=
  (rfl)

/-- Every register outside those and the timers reads as before. -/
theorem State.reg_coreDown (s : State) (lag : Nat) {a : Nat} (hr : a ∉ coreDownRegs) (ht : ¬ timerReg a) :
    (s.coreDown lag).reg a = s.reg a := by
  obtain ⟨-, -, -, hs, he⟩ := ne_of_not_mem_coreDownRegs hr
  rw [s.coreDown_eq, State.reg_dev_upd, State.reg_outputsOff _ hs he, (State.cutLeft_cutKeeps _).reg a, s.reg_mastLeft lag hr ht]

theorem execPorstNAssert_powered {s : State} (lag : Nat) (hpow : s.powered = true) :
    execPorstNAssert lag s =
      .next ((State.coreDown { s with dev := { s.dev with porst := true } } lag).clear F.MODE_STATUS_REEFING) :=
  congrArg Host.Outcome.next (if_pos hpow)

theorem execPorstNAssert_unpowered {s : State} (lag : Nat) (hdown : s.powered = false) :
    execPorstNAssert lag s = .next { s with dev := { s.dev with porst := true } } :=
  congrArg Host.Outcome.next (if_neg (by rw [hdown]; decide))

/-- A powered device after a dropout that no PFI announced (R855), before its supplies are taken as gone. -/
def State.droppedOut (s : State) (lag : Nat) : State := ((s.raise F.PWR_REEF_STATUS_DROPOUT).coreDown lag).clear F.MODE_STATUS_REEFING

theorem execSupplyDropout_unannounced {s : State} (lag : Nat) (hpow : s.powered = true) (hpfi : s.bit F.PWR_STATUS_PFI = false)
    (hreef : s.bit F.MODE_STATUS_REEFING = false) :
    execSupplyDropout lag s = .next { s.droppedOut lag with dev := { (s.droppedOut lag).dev with supplies := false } } := by
  simp only [execSupplyDropout, hpow, hpfi, hreef, Bool.not_true, Bool.or_self, Bool.false_eq_true, if_false, State.droppedOut]

theorem State.droppedOut_dev (s : State) (lag : Nat) :
    (s.droppedOut lag).dev = { s.dev with mode := .off, seenNotGood := false, outOn := false } := State.coreDown_dev _ lag

/-- DROPOUT, raised before the core stops, stands after it. -/
theorem State.droppedOut_bit (s : State) (lag : Nat) : (s.droppedOut lag).bit F.PWR_REEF_STATUS_DROPOUT = true := by
  have hstands : (s.droppedOut lag).reg F.PWR_REEF_STATUS = (s.raise F.PWR_REEF_STATUS_DROPOUT).reg F.PWR_REEF_STATUS := by
    exact (State.reg_setFld_ne _ _ (by decide)).trans (State.reg_coreDown _ _ (by decide) (by decide))
  rw [State.bit_eq, State.fld_of_reg hstands, State.raise_eq, State.fld_setFld_self _ _ (by decide)]
  rfl

/-! ### The battery-backed domain loses its contents (R851) -/

/-- A register of which nothing is kept returns to its Reset column. -/
theorem get_keepRegs_of_none {keeps : Nat → Word} {a : Nat} (h : keeps a = 0) (rs : Table Word) :
    Table.get resetWord (keepRegs keeps rs) a = resetWord a := by
  induction rs with
  | nil => rfl
  | cons e rs ih =>
    obtain ⟨j, w⟩ := e
    by_cases hj : j = a
    · subst hj
      have hreset : (w &&& (keeps j &&& ~~~(irqEnableBits j)) ||| (resetWord j &&& ~~~(keeps j &&& ~~~(irqEnableBits j)))) = resetWord j := by
        simp only [h, BitVec.ofNat_eq_ofNat, BitVec.zero_and, BitVec.and_zero, BitVec.zero_or, BitVec.not_zero, BitVec.and_allOnes]
      simpa only [keepRegs, List.map_cons, List.filter_cons, hreset, bne_self_eq_false, Bool.false_eq_true, if_false] using ih
    · simp only [keepRegs, List.map_cons, List.filter_cons]
      split
      · rw [Table.get, if_neg hj]; exact ih
      · exact ih

/-- The device as loss of VBAT leaves it. -/
def State.vbatGone (s : State) : State :=
  { ({ s with regs := keepRegs ballsKeep s.regs }).clear F.HST_HAL_STATUS_DRIVE with
    mast := { s.mast with acc := 0 },
    frozenSince := [],
    keys := { s.keys with bbk := [], bbkZeroised := false, tamperUnlogged := false },
    upd := {},
    pwr := {},
    dev := { s.dev with mode := .off, vbatLost := true } }

theorem execVbatLoss_unpowered {s : State} (hbad : s.dev.supplies = false) (hdown : s.powered = false) :
    execVbatLoss s = .next s.vbatGone := by
  simp only [execVbatLoss, hbad, hdown, Bool.or_self, Bool.false_eq_true, if_false, State.vbatGone]

/-- A register that shows nothing of the balls returns to its Reset column. -/
theorem State.reg_vbatGone (s : State) {a : Nat} (hkeep : ballsKeep a = 0) (hhal : a ≠ F.HST_HAL_STATUS) : s.vbatGone.reg a = resetWord a :=
  calc s.vbatGone.reg a
      = ({ s with regs := keepRegs ballsKeep s.regs } : State).reg a := State.reg_setFld_ne _ _ hhal
    _ = resetWord a := get_keepRegs_of_none hkeep s.regs

end Sys2Proof.Machine

namespace Sys2Proof

open Sys2Proof.Machine

set_option deprecated.oldSectionVars true

/-- Settles O9. One flag for both supplies (R853), and ROLE NONE with the outputs off once VDDF leaves its range, are log entry 28; R980 empties
the collector. A cold start keeps what State.startHoist_cold_keeps says, the stop of the core what State.coreDown_dev,
coreDown_step and reg_coreDown say. -/
theorem powerUpAndReset : Obligations.PowerUpAndReset := by
  unfold Obligations.PowerUpAndReset
  refine ⟨?por, ?release, ?assert, ?held, ?dropout, ?vddf, ?vbat⟩
  case por =>
    intro s hoff hbad
    refine .intro (execPor_off hoff hbad) ?_
    rw [State.startHoist_cold_dev _ (by decide)]
    exact ⟨rfl, rfl, rfl, rfl, State.startHoist_cold_keeps { s with dev := { s.dev with supplies := true } } (by decide) rfl⟩
  case release =>
    intro s hheld hdown hgood
    refine .intro (execPorstNRelease_held hheld hdown hgood) ?_
    rw [State.startHoist_cold_dev _ (by decide)]
    exact ⟨rfl, rfl, rfl, rfl, State.startHoist_cold_keeps { s with dev := { s.dev with porst := false } } (by decide) rfl⟩
  case assert =>
    intro lag s hpow
    refine .intro (execPorstNAssert_powered lag hpow) ?_
    rw [State.clear_eq, State.setFld_dev, State.setFld_mast, State.coreDown_dev]
    exact ⟨rfl, rfl, rfl, State.bit_setFld_zero _ (by decide), State.coreDown_step _ _⟩
  case held =>
    intro lag s hdown
    exact .intro (execPorstNAssert_unpowered lag hdown) rfl
  case dropout =>
    intro lag s hpow hpfi hreef
    have hdev := s.droppedOut_dev lag
    exact .intro (execSupplyDropout_unannounced lag hpow hpfi hreef)
      ⟨congrArg (·.mode) hdev, rfl, congrArg (·.outOn) hdev, s.droppedOut_bit lag⟩
  case vddf =>
    intro s hpow
    exact .intro (execVddfOutOfRange_powered hpow)
      ⟨s.outputsOff_dev, s.role_setRole_none, s.setRole_none_onlyFields, s.outputsOff_frame⟩
  case vbat =>
    intro s hbad hdown
    exact .intro (execVbatLoss_unpowered hbad hdown)
      ⟨rfl, rfl, rfl, rfl, rfl, rfl, rfl, State.bit_setFld_zero _ (by decide), fun a hkeep hhal => s.reg_vbatGone hkeep hhal⟩

end Sys2Proof
end

section
/-! Two's complement, and the frames of field writes and logs that the Mast's statements (spec/02_mast.md) share. -/

namespace Sys2Proof.Machine

open Sys2Proof

/-! ### Two's complement and clamps -/

theorem signed_bounds {w : Nat} (hw : 0 < w) (v : Nat) : -2 ^ (w - 1) ≤ signed w v ∧ signed w v < 2 ^ (w - 1) := by
  obtain ⟨k, rfl⟩ := Nat.exists_eq_succ_of_ne_zero hw.ne'
  have hmod : v % 2 ^ (k + 1) < 2 ^ (k + 1) := Nat.mod_lt v (Nat.two_pow_pos _)
  have hdouble : 2 ^ (k + 1) = 2 * 2 ^ k := by ring
  have hcast : ((2 ^ k : Nat) : Int) = 2 ^ k := by norm_cast
  simp only [signed, Nat.succ_eq_add_one, Nat.add_sub_cancel]
  split <;> omega

/-- A value within the range of its width is read back as it was stored. -/
theorem signed_unsigned {w : Nat} (hw : 0 < w) {x : Int} (hlo : -2 ^ (w - 1) ≤ x) (hhi : x < 2 ^ (w - 1)) : signed w (unsigned w x) = x := by
  obtain ⟨k, rfl⟩ := Nat.exists_eq_succ_of_ne_zero hw.ne'
  simp only [Nat.succ_eq_add_one, Nat.add_sub_cancel] at hlo hhi
  have hdouble : 2 ^ (k + 1) = 2 * 2 ^ k := by ring
  have hcast : ((2 ^ k : Nat) : Int) = 2 ^ k := by norm_cast
  have hpos : 0 < 2 ^ k := Nat.two_pow_pos k
  have hmod : x % ((2 ^ (k + 1) : Nat) : Int) = if 0 ≤ x then x else x + ((2 ^ (k + 1) : Nat) : Int) := by
    split
    next h => exact Int.emod_eq_of_lt h (by omega)
    next h => rw [← Int.add_emod_right]; exact Int.emod_eq_of_lt (by omega) (by omega)
  have hsmall : unsigned (k + 1) x < 2 ^ (k + 1) := by
    rw [unsigned, hmod]
    split <;> omega
  simp only [signed, Nat.succ_eq_add_one, Nat.add_sub_cancel, Nat.mod_eq_of_lt hsmall]
  rw [unsigned, hmod]
  split <;> split <;> omega

theorem unsigned_lt (w : Nat) (x : Int) : unsigned w x < 2 ^ w := by
  have hpos : (0 : Int) < ((2 ^ w : Nat) : Int) := Int.natCast_pos.mpr (Nat.two_pow_pos w)
  have hlt := Int.emod_lt_of_pos x hpos
  have hnonneg := Int.emod_nonneg x hpos.ne'
  rw [unsigned]
  omega

theorem clampInt_of_within {b v : Int} (h : v.natAbs ≤ b) : clampInt (-b) b v = v := by
  simp only [clampInt]
  omega

/-- A step toward a target by at most a limit stays between the two. -/
theorem clampInt_between {b d : Int} (h : 0 ≤ b) : min 0 d ≤ clampInt (-b) b d ∧ clampInt (-b) b d ≤ max 0 d := by
  simp only [clampInt]
  omega

/-! ### Fields after writes -/

theorem State.fld_whole (s : State) (a : Nat) : s.fld (whole a) = (s.reg a).toNat := by
  simpa [State.fld, whole] using Nat.mod_eq_of_lt (s.reg a).isLt

theorem State.bit_of_fld {s t : State} {f : Fld} (h : t.fld f = s.fld f) : t.bit f = s.bit f := congrArg (· != 0) h

theorem State.bit_of_regs {s t : State} (h : t.regs = s.regs) (f : Fld) : t.bit f = s.bit f :=
  State.bit_of_fld (State.fld_of_reg (congrArg (Table.get resetWord · f.addr) h))

/-- A flag that was raised stands. -/
theorem State.bit_setFld_one (s : State) {f : Fld} (h : f.lo + f.width ≤ 32) (hw : f.width = 1) : (s.setFld f 1).bit f = true := by
  rw [State.bit_eq, s.fld_setFld_self 1 h, hw]
  rfl

end Sys2Proof.Machine

namespace Sys2Proof

open Sys2Proof.Machine

/-! ### Frames -/

/-- A field that has no bit in common with those of a frame. -/
abbrev apart (fs : List Fld) (g : Fld) : Prop := ∀ f ∈ fs, g.addr ≠ f.addr ∨ g.lo + g.width ≤ f.lo ∨ f.lo + f.width ≤ g.lo

theorem OnlyFields.bit {fs : List Fld} {s t : State} {g : Fld} (h : OnlyFields fs s t) (hg : apart fs g) : t.bit g = s.bit g :=
  State.bit_of_fld (h g hg)

theorem bit_setFld_apart (s : State) {f g : Fld} (v : Nat) (hf : f.lo + f.width ≤ 32) (hg : apart [f] g) :
    (s.setFld f v).bit g = s.bit g :=
  ((OnlyFields.refl [f] s).setFld hf ⟨f, List.mem_singleton_self f, rfl, le_rfl, le_rfl⟩).bit hg

theorem OnlyFields.reg {fs : List Fld} {s t : State} {a : Nat} (h : OnlyFields fs s t) (ha : apart fs (whole a)) : t.reg a = s.reg a :=
  BitVec.eq_of_toNat_eq (by rw [← State.fld_whole, ← State.fld_whole, h _ ha])

theorem OnlyFields.wide {fs : List Fld} {s t : State} {a : Nat} (h : OnlyFields fs s t) (hlo : apart fs (whole a))
    (hhi : apart fs (whole (a + 4))) : t.wide a = s.wide a := by
  rw [State.wide, h.reg hlo, h.reg hhi, State.wide]

/-! ### Logs among other writes -/

theorem log_onlyFields (s : State) (c d : Nat) : OnlyFields collectorFields s (s.log c d) :=
  (OnlyFields.refl _ s).log fun _ hf => hf

/-- A code that is logged stays logged when a field is written. -/
theorem Logs.setFld {c d : Nat} {s t : State} {f : Fld} {v : Nat} (h : Logs c d s t) : Logs c d s (t.setFld f v) := h

/-- What is logged from a state that agrees on the collector, its window, SEQ and the Mast. -/
theorem Logs.congr {c d : Nat} {s u t : State} (h : Logs c d u t) (herrs : u.errs = s.errs) (hwin : u.win = s.win)
    (hseq : u.fld F.ERR_NEXT_SEQ_SEQ = s.fld F.ERR_NEXT_SEQ_SEQ) (hnow : u.now = s.now) : Logs c d s t := by
  simpa only [Logs, State.errsBefore, State.entryFor, herrs, hwin, hseq, hnow] using h

/-- In a window that has logged nothing a code that is logged is the youngest. -/
theorem Logs.first {c d : Nat} {s t : State} (h : Logs c d s t) : LogsFirst c d s t := by
  rintro ⟨hlogged, hpushed, -⟩ hroom
  have hbefore : s.errsBefore = s.errs := s.errsBefore_quiet ⟨hlogged, hpushed⟩
  simpa only [Logs, hbefore, hlogged, List.append_nil, insertErr_nil, hroom, forall_true_left] using h

/-- A field write followed by writes and a log stays in the frame when the frame names the field. -/
theorem OnlyAndLog.setFld {fs : List Fld} {s t : State} {f : Fld} {v : Nat} (h : OnlyAndLog fs s t) (hf : f.lo + f.width ≤ 32)
    (hm : f ∈ fs) : OnlyAndLog fs s (t.setFld f v) :=
  ⟨h.1.setFld hf ⟨f, List.mem_append_right _ hm, rfl, le_rfl, le_rfl⟩, h.2⟩

theorem Only.setFld {fs : List Fld} {s t : State} {f : Fld} {v : Nat} (h : Only fs s t) (hf : f.lo + f.width ≤ 32) (hm : f ∈ fs) :
    Only fs s (t.setFld f v) :=
  ⟨h.1.setFld hf ⟨f, hm, rfl, le_rfl, le_rfl⟩, h.2⟩

theorem Only.refl (fs : List Fld) (s : State) : Only fs s s := ⟨.refl fs s, rfl⟩

/-- A log after field writes. -/
theorem Only.log {fs : List Fld} {s t : State} (h : Only fs s t) (c d : Nat) : OnlyAndLog fs s (t.log c d) := by
  obtain ⟨honly, hframe⟩ := h
  obtain ⟨rs, rfl⟩ : ∃ rs, t = { s with regs := rs } := ⟨t.regs, congrArg (fun x : State => { x with regs := t.regs }) hframe⟩
  exact ⟨(honly.mono fun f hf => List.mem_append_right _ hf).log fun f hf => List.mem_append_left _ hf,
    congrArg (fun x : State => { x with regs := s.regs }) (State.log_frame _ c d)⟩

end Sys2Proof
end

section
/-! Steering the Mast (spec/02_mast.md R57-R71, R100-R104). -/

namespace Sys2Proof.Machine

open Sys2Proof

/-! ### What the beat depends on -/

theorem State.mastHolds_of_reg {s t : State} (h : t.reg F.MAST_STATUS = s.reg F.MAST_STATUS) : t.mastHolds = s.mastHolds := by
  simp only [State.mastHolds, State.bit, State.fld, h]

theorem State.beatRuns_of_reg {s t : State} (h : t.reg F.MAST_STATUS = s.reg F.MAST_STATUS) : t.beatRuns = s.beatRuns := by
  simp only [State.beatRuns, State.bit, State.fld, State.mastHolds_of_reg h, h]

theorem State.beatRuns_iff (s : State) : s.beatRuns = true ↔ s.bit F.MAST_STATUS_DOMAIN = false ∧ s.mastHolds = false := by
  simp [State.beatRuns]

/-! ### Slew requests (R64, R65, R100) -/

/-- The fields that a slew beyond the bound of R65 writes. -/
def clampFields : List Fld := F.MAST_EVENT_REM_CLAMP :: collectorFields

theorem State.addSlew_onlyFields (s : State) (q : Int) : OnlyFields clampFields s (s.addSlew q) := by
  unfold State.addSlew
  extract_lets want got _ t
  have ht : OnlyFields clampFields s t := (OnlyFields.refl _ s).of_regs rfl
  split
  · exact ht
  · exact (ht.log fun _ hf => List.mem_cons_of_mem _ hf).setFld (by decide) (by decide)

theorem State.addSlew_mast (s : State) (q : Int) :
    (s.addSlew q).mast = { s.mast with rem := clampInt (-remBound) remBound (s.mast.rem + q * 2 ^ 38) } := by
  unfold State.addSlew
  extract_lets want got _ t
  split
  · rfl
  · rw [State.raise_eq, State.setFld_mast, State.log_mast]

/-- A slew that keeps REM within the bound logs nothing. -/
theorem State.addSlew_within {s : State} {q : Int} (h : (s.mast.rem + q * 2 ^ 38).natAbs ≤ 2 ^ 78) :
    s.addSlew q = { s with mast := { s.mast with rem := s.mast.rem + q * 2 ^ 38 } } := by
  have hkept : clampInt (-remBound) remBound (s.mast.rem + q * 2 ^ 38) = s.mast.rem + q * 2 ^ 38 :=
    clampInt_of_within (by rw [remBound]; omega)
  simp only [State.addSlew, hkept, if_true]

/-- On a beat a path's slew waits for the beat with the other requests of its window. -/
theorem State.phaseRequest_slew_beat {s : State} (h : s.beatRuns = true) (p : Path) (q : Int) :
    s.phaseRequest (some p) q false =
      { s with
        mast := { s.mast with afterStep := s.mast.afterStep + q, remWas := some (s.mast.remWas.getD s.mast.rem),
                              rem := clampInt (-remBound) remBound (s.mast.remWas.getD s.mast.rem + (s.mast.afterStep + q) * 2 ^ 38) },
        win := { s.win with slews := s.win.slews ++ [(p, q)] } } := by
  have hslew : s.phaseRequest (some p) q false = (s.requestSlew q).markSlew (some p) q := rfl
  have hbeat : (s.requestSlew q).beatRuns = true := by
    rw [State.requestSlew, if_pos h]
    exact h
  rw [hslew, State.markSlew, if_pos hbeat, State.requestSlew, if_pos h]

/-- While no beat runs and no step waits, a slew within the bound reaches REM at once. -/
theorem State.phaseRequest_slew_held {s : State} (h : s.beatRuns = false) (hstep : s.mast.step = none) (p : Path) {q : Int}
    (hq : (s.mast.rem + q * 2 ^ 38).natAbs ≤ 2 ^ 78) :
    s.phaseRequest (some p) q false = { s with mast := { s.mast with rem := s.mast.rem + q * 2 ^ 38 } } := by
  have hslew : s.phaseRequest (some p) q false = (s.requestSlew q).markSlew (some p) q := rfl
  have hreq : s.requestSlew q = { s with mast := { s.mast with rem := s.mast.rem + q * 2 ^ 38 } } := by
    simp only [State.requestSlew, h, hstep, Option.isSome_none, Bool.false_eq_true, if_false, State.addSlew_within hq]
  have hheld : ¬ (s.requestSlew q).beatRuns = true := by
    rw [hreq]
    exact ne_true_of_eq_false h
  rw [hslew, State.markSlew, if_neg hheld, hreq]

/-- A step waits for the next beat or tick (R66). -/
theorem State.phaseRequest_step {s : State} {p : Option Path} (hset : (s.inSail && s.setBefore p) = false) (hold : s.mastHolds = false)
    (q : Int) : s.phaseRequest p q true = { s with mast := { s.mast with step := some (s.mast.step.getD 0 + q) } } := by
  simp only [State.phaseRequest, hset, hold, Bool.not_false, Bool.and_self, Bool.false_eq_true, if_true, if_false]

/-! ### Steps (R66, R67) -/

/-- The fields that SET becoming 1 writes. -/
def setFields : List Fld := F.MAST_STATUS_SET :: bothWords F.DSC_MODEL_T0_LO

theorem State.becomeSet_cases (s : State) :
    s.becomeSet = s.raise F.MAST_STATUS_SET ∨ ∃ v, s.becomeSet = (s.raise F.MAST_STATUS_SET).setWide F.DSC_MODEL_T0_LO v := by
  unfold State.becomeSet
  extract_lets t
  split
  · exact .inr ⟨_, rfl⟩
  · exact .inl rfl

theorem State.becomeSet_frame (s : State) : { s.becomeSet with regs := s.regs } = s := by
  obtain h | ⟨v, h⟩ := s.becomeSet_cases <;> rw [h] <;> rfl

theorem State.becomeSet_onlyFields (s : State) : OnlyFields setFields s s.becomeSet := by
  have hset : OnlyFields setFields s (s.raise F.MAST_STATUS_SET) := (OnlyFields.refl _ s).setFld (by decide) (by decide)
  obtain h | ⟨v, h⟩ := s.becomeSet_cases
  · rwa [h]
  · rw [h]
    exact hset.setWide (by decide) (by decide)

theorem State.becomeSet_bit (s : State) : s.becomeSet.bit F.MAST_STATUS_SET = true := by
  have hset : (s.raise F.MAST_STATUS_SET).bit F.MAST_STATUS_SET = true := s.bit_setFld_one (by decide) rfl
  obtain h | ⟨v, h⟩ := s.becomeSet_cases
  · rwa [h]
  · have hother := (OnlyFields.refl (bothWords F.DSC_MODEL_T0_LO) (s.raise F.MAST_STATUS_SET)).setWide (a := F.DSC_MODEL_T0_LO) (v := v)
      (by decide) (by decide)
    rw [h, hother.bit (by decide), hset]

/-- MARK_SET where the model's t0 has its meaning: SET alone. -/
theorem State.becomeSet_of_vbat_kept {s : State} (h : s.bit F.HOIST_CAUSE_VBAT_LOST = false) : s.becomeSet = s.raise F.MAST_STATUS_SET := by
  simp only [State.becomeSet, h, Bool.and_false, Bool.false_eq_true, if_false]

/-- The state that a step leaves before SET, the calibration window and the slews that follow it. -/
def State.stepMoved (s : State) (q : Int) : State :=
  let acc := (((s.mast.acc : Int) + q * 2 ^ 38) % (2 ^ 102 : Int)).toNat
  State.setWide
    { s with win := { s.win with stepped := true },
             mast := { s.mast with acc := acc, rem := 0, remWas := none, step := none, afterStep := 0, steps := s.mast.steps + 1,
                                   lastStep := if 0 < q then some (s.now, acc / 2 ^ 38 % 2 ^ 64) else none,
                                   stepAt := some (acc / 2 ^ 38 % 2 ^ 64) } }
    F.DSC_MODEL_T0_LO (unsigned 64 ((s.wide F.DSC_MODEL_T0_LO : Int) + q))

/-- A step and SET, with the next calibration window, before the slews that follow it. -/
def State.stepTaken (s : State) (q : Int) : State := (s.stepMoved q).becomeSet.startWindow

theorem State.applyStep_eq (s : State) (q : Int) : s.applyStep q = (s.stepTaken q).addSlew s.mast.afterStep := (rfl)

theorem State.stepTaken_frame (s : State) (q : Int) : { s.stepTaken q with regs := s.regs, mast := s.mast, win := s.win } = s :=
  congrArg (fun x : State => { x with regs := s.regs, mast := s.mast, win := s.win }) (s.stepMoved q).becomeSet_frame

theorem State.stepTaken_mast (s : State) (q : Int) :
    { (s.stepTaken q).mast with window := s.mast.window } = { (s.stepMoved q).mast with window := s.mast.window } :=
  congrArg (fun x : State => { x.mast with window := s.mast.window }) (s.stepMoved q).becomeSet_frame

theorem State.stepTaken_win (s : State) (q : Int) : (s.stepTaken q).win = { s.win with stepped := true } :=
  (congrArg (·.win) (s.stepMoved q).becomeSet_frame :)

theorem State.stepTaken_onlyFields (s : State) (q : Int) : OnlyFields setFields s (s.stepTaken q) :=
  have hmoved : OnlyFields setFields s (s.stepMoved q) := ((OnlyFields.refl _ s).of_regs rfl).setWide (by decide) (by decide)
  (hmoved.trans (State.becomeSet_onlyFields _)).of_regs rfl

theorem State.applyStep_onlyFields (s : State) (q : Int) : OnlyFields (setFields ++ clampFields) s (s.applyStep q) :=
  ((s.stepTaken_onlyFields q).mono fun _ hf => List.mem_append_left _ hf).trans
    ((State.addSlew_onlyFields _ _).mono fun _ hf => List.mem_append_right _ hf)

/-- A step behind which no slew waits. -/
theorem State.applyStep_alone {s : State} (q : Int) (h : s.mast.afterStep = 0) :
    s.applyStep q = { s.stepTaken q with mast := { (s.stepTaken q).mast with rem := 0 } } := by
  have hrem : (s.stepTaken q).mast.rem = 0 := congrArg (·.rem) (s.stepTaken_mast q)
  rw [s.applyStep_eq, h, State.addSlew_within (by rw [hrem]; decide), hrem, Int.zero_mul, Int.add_zero]

theorem State.applyPending_of_none {s : State} (h : s.mast.step = none) : s.applyPending = s := by rw [State.applyPending, h]

theorem State.applyPending_of_some {s : State} {q : Int} (h : s.mast.step = some q) : s.applyPending = s.applyStep q := by
  rw [State.applyPending, h]

/-! ### What a phase request may write (R64, R66, R71) -/

/-- The fields that a phase request may write, beside those of its own register. -/
def phaseFields : List Fld := F.MAST_EVENT_STEP_CONV :: (setFields ++ clampFields)

theorem State.markSlew_regs (s : State) (p : Option Path) (q : Int) : (s.markSlew p q).regs = s.regs := by
  cases p with
  | none => rfl
  | some p =>
    rw [State.markSlew]
    split <;> rfl

theorem State.requestSlew_onlyFields (s : State) (q : Int) : OnlyFields clampFields s (s.requestSlew q) := by
  unfold State.requestSlew
  extract_lets sum before
  split
  · exact (OnlyFields.refl _ s).of_regs rfl
  · split
    · exact (OnlyFields.refl _ s).of_regs rfl
    · exact s.addSlew_onlyFields q

theorem State.applyPending_onlyFields (s : State) : OnlyFields (setFields ++ clampFields) s s.applyPending := by
  unfold State.applyPending
  split
  · exact s.applyStep_onlyFields _
  · exact .refl _ s

theorem State.phaseRequest_onlyFields (s : State) (p : Option Path) (q : Int) (asStep : Bool) :
    OnlyFields phaseFields s (s.phaseRequest p q asStep) := by
  have hslew : ∀ t : State, OnlyFields phaseFields t ((t.requestSlew q).markSlew p q) := fun t =>
    ((t.requestSlew_onlyFields q).mono fun _ hf => List.mem_cons_of_mem _ (List.mem_append_right _ hf)).of_regs (State.markSlew_regs _ p q)
  unfold State.phaseRequest
  split
  · extract_lets _ t
    have ht : OnlyFields phaseFields s t := (OnlyFields.refl _ s).of_regs rfl
    split
    · exact ht.trans (t.applyPending_onlyFields.mono fun _ hf => List.mem_cons_of_mem _ hf)
    · exact ht
  · extract_lets t
    have ht : OnlyFields phaseFields s t := by
      unfold t
      split
      · exact ((OnlyFields.refl _ s).log (by decide)).setFld (by decide) (by decide)
      · exact .refl _ s
    exact ht.trans (hslew t)

/-! ### Steering writes (R70, R97, R104, R156) -/

/-- The state in which a write of MAST_PHASE_LO has committed the register. -/
def State.phaseWritten (s : State) (p : Path) (lo : Word) : State :=
  (s.commitWide p F.MAST_PHASE_LO lo).2.setWide F.MAST_PHASE_LO (s.commitWide p F.MAST_PHASE_LO lo).1

/-- The phase that it commits, in qn. -/
abbrev State.phaseOf (s : State) (p : Path) (lo : Word) : Int := signed 64 (s.commitWide p F.MAST_PHASE_LO lo).1

theorem State.phaseWritten_onlyFields (s : State) (p : Path) (lo : Word) : OnlyFields (bothWords F.MAST_PHASE_LO) s (s.phaseWritten p lo) :=
  ((OnlyFields.refl _ s).of_regs rfl).setWide (by decide) (by decide)

theorem State.phaseWritten_wide (s : State) (p : Path) (lo : Word) :
    (s.phaseWritten p lo).wide F.MAST_PHASE_LO = (s.commitWide p F.MAST_PHASE_LO lo).1 % 2 ^ 64 := State.wide_setWide_self _ _ _

theorem State.phaseWritten_beatRuns (s : State) (p : Path) (lo : Word) : (s.phaseWritten p lo).beatRuns = s.beatRuns :=
  State.beatRuns_of_reg ((s.phaseWritten_onlyFields p lo).reg (by decide))

theorem State.phaseWritten_mastHolds (s : State) (p : Path) (lo : Word) : (s.phaseWritten p lo).mastHolds = s.mastHolds :=
  State.mastHolds_of_reg ((s.phaseWritten_onlyFields p lo).reg (by decide))

theorem State.phaseWritten_setBefore {s : State} (q : Path) (p : Path) (lo : Word) (h : s.win.setWas = none) :
    (s.phaseWritten p lo).setBefore (some q) = s.bit F.MAST_STATUS_SET := by
  have hnone : (s.phaseWritten p lo).win.setWas = none := h
  rw [State.setBefore, hnone]
  exact (s.phaseWritten_onlyFields p lo).bit (by decide)

/-- Under SW a phase request is the Mast's own. -/
theorem exec_phaseCommit_sw (p : Path) (lo : Word) {s : State} (ho : Open s) (ha : s.authority = 2)
    (hm : s.wideMirrored F.MAST_PHASE_LO = false) :
    exec (.phaseCommit p lo) s =
      .next ((s.phaseWritten p lo).phaseRequest (some p) (s.phaseOf p lo) (s.bit F.MAST_CTRL_PH_MODE)) := by
  change execPhaseCommit p lo s = _
  simp only [execPhaseCommit, ha, hm, OfNat.ofNat_ne_zero, OfNat.ofNat_ne_one, Bool.false_eq_true, if_false, whenOpen_of_open ho]
  rfl

/-- Under SHARED it adds to INJ as well (R157). -/
theorem exec_phaseCommit_shared {p : Path} {lo : Word} {s : State} (ho : Open s) (ha : s.authority = 1)
    (hm : s.wideMirrored F.MAST_PHASE_LO = false) :
    exec (.phaseCommit p lo) s =
      .next (((s.phaseWritten p lo).setWide F.DSC_INJ_LO
          (unsigned 64 (signed 64 ((s.phaseWritten p lo).wide F.DSC_INJ_LO) + s.phaseOf p lo))).phaseRequest
        (some p) (s.phaseOf p lo) (s.bit F.MAST_CTRL_PH_MODE)) := by
  change execPhaseCommit p lo s = _
  simp only [execPhaseCommit, ha, hm, one_ne_zero, Bool.false_eq_true, if_false, if_true, whenOpen_of_open ho]
  rfl

theorem exec_phaseCommit_hw {p : Path} {lo : Word} {s : State} (ho : Open s) (ha : s.authority = 0) :
    exec (.phaseCommit p lo) s = .next (s.refuseSteer F.MAST_PHASE_LO) := by
  change execPhaseCommit p lo s = _
  rw [execPhaseCommit, if_pos ha, whenOpen_of_open ho]

theorem exec_mastFreqWrite_sw {p : Path} {v : Word} {s : State} (ho : Open s) (ha : s.authority = 2) (hm : s.mirrorMask F.MAST_FREQ = 0) :
    exec (.mastFreqWrite p v) s = .next (s.setReg F.MAST_FREQ v) := by
  change execMastFreqWrite p v s = _
  simp [execMastFreqWrite, ha, State.mirrorMerge, hm, whenOpen_of_open ho]

theorem exec_mastFreqWrite_refused {p : Path} {v : Word} {s : State} (ho : Open s) (ha : s.authority ≠ 2) :
    exec (.mastFreqWrite p v) s = .next (s.refuseSteer F.MAST_FREQ) := by
  change execMastFreqWrite p v s = _
  rw [execMastFreqWrite, if_neg ha, whenOpen_of_open ho]

/-- A steering write that the authority ignores is one log and one event flag; its register, and a staged word, stay (log entry 12). -/
theorem State.refuseSteer_effect (s : State) (a : Nat) :
    Logs 0x0501 a s (s.refuseSteer a) ∧ (s.refuseSteer a).bit F.DSC_EVENT_AUTH_REFUSED = true ∧
      OnlyAndLog [F.DSC_EVENT_AUTH_REFUSED] s (s.refuseSteer a) := by
  rw [State.refuseSteer, State.raise_eq]
  exact ⟨(s.logs_log 0x0501 a).setFld, State.bit_setFld_one _ (by decide) rfl,
    ((Only.refl _ s).log 0x0501 a).setFld (by decide) (List.mem_singleton_self _)⟩

end Sys2Proof.Machine
end

section
/-! The beat (spec/02_mast.md R57-R63, R65, R100, R101, R104) and what steers it. -/

namespace Sys2Proof.Machine

open Sys2Proof

/-! ### The frequency (R60, R61) -/

theorem State.rampMax_nonneg (s : State) : 0 ≤ s.rampMax := Int.natCast_nonneg _

/-- MAST_FREQ_EFF moves toward MAST_FREQ by at most RAMP. -/
theorem State.rampOnce_sfld (s : State) :
    s.rampOnce.sfld F.MAST_FREQ_EFF_FREQ = s.sfld F.MAST_FREQ_EFF_FREQ +
      clampInt (-s.rampMax) s.rampMax (s.sfld F.MAST_FREQ_FREQ - s.sfld F.MAST_FREQ_EFF_FREQ) := by
  have heff : -2 ^ 31 ≤ s.sfld F.MAST_FREQ_EFF_FREQ ∧ s.sfld F.MAST_FREQ_EFF_FREQ < 2 ^ 31 := signed_bounds (by decide) _
  have htarget : -2 ^ 31 ≤ s.sfld F.MAST_FREQ_FREQ ∧ s.sfld F.MAST_FREQ_FREQ < 2 ^ 31 := signed_bounds (by decide) _
  have hmove := clampInt_between (d := s.sfld F.MAST_FREQ_FREQ - s.sfld F.MAST_FREQ_EFF_FREQ) s.rampMax_nonneg
  have hfits := unsigned_lt 32 (s.sfld F.MAST_FREQ_EFF_FREQ +
    clampInt (-s.rampMax) s.rampMax (s.sfld F.MAST_FREQ_FREQ - s.sfld F.MAST_FREQ_EFF_FREQ))
  rw [State.sfld, State.rampOnce, State.fld_setFld_self _ _ (by decide), Nat.mod_eq_of_lt hfits]
  exact signed_unsigned (w := 32) (by decide) (by omega) (by omega)

theorem State.rampBeat_onlyFields (s : State) (set : Bool) : OnlyFields [F.MAST_FREQ_EFF_FREQ] s (s.rampBeat set) := by
  have hwrite : ∀ v, OnlyFields [F.MAST_FREQ_EFF_FREQ] s (s.setFld F.MAST_FREQ_EFF_FREQ v) := fun v =>
    (OnlyFields.refl _ s).setFld (by decide) (by decide)
  unfold State.rampBeat
  extract_lets k t
  refine OnlyFields.of_regs (t := t) ?_ rfl
  unfold t
  split
  · split
    · exact hwrite _
    · exact .refl _ s
  · exact hwrite _

/-- Beside its register the update notes the Mast's 4,000,000 qn. -/
theorem State.rampBeat_frame (s : State) (set : Bool) :
    { s.rampBeat set with regs := s.regs } = { s with mast := { s.mast with rampIdx := s.now / 4000000 } } := by
  unfold State.rampBeat
  cases set with
  | false => rfl
  | true =>
    by_cases hdue : s.mast.rampIdx < s.now / 4000000
    · simp only [hdue, if_true]; rfl
    · simp only [hdue, if_true, if_false]

theorem State.rampBeat_mast (s : State) (set : Bool) : (s.rampBeat set).mast = { s.mast with rampIdx := s.now / 4000000 } :=
  (congrArg (·.mast) (s.rampBeat_frame set) :)

theorem State.rampBeat_due {s : State} (h : s.mast.rampIdx < s.now / 4000000) :
    s.rampBeat true = { s.rampOnce with mast := { s.mast with rampIdx := s.now / 4000000 } } := by
  simp only [State.rampBeat, h, if_true]
  rfl

/-- While SET is 0 the target is taken at once. -/
theorem State.rampBeat_unset_fld (s : State) : (s.rampBeat false).fld F.MAST_FREQ_EFF_FREQ = s.fld F.MAST_FREQ_FREQ :=
  (s.fld_setFld_self _ (by decide)).trans (Nat.mod_eq_of_lt (s.fld_lt F.MAST_FREQ_FREQ))

theorem exec_freqRampUpdate_due {s : State} (hbeat : s.beatRuns = true) (hdue : s.mast.rampIdx < s.now / 4000000) :
    exec .freqRampUpdate s = .next (s.rampBeat (s.bit F.MAST_STATUS_SET)) :=
  congrArg Host.Outcome.next (if_pos (by rw [hbeat, decide_eq_true hdue]; rfl))

/-! ### One beat -/

theorem State.passTime_beat {s : State} (h : s.beatRuns = true) : s.passTime = s.beat := by
  obtain ⟨hdomain, hruns⟩ := s.beatRuns_iff.mp h
  simp only [State.passTime, hruns, hdomain, Bool.false_eq_true, Bool.not_false, if_true, if_false]

/-- A window that waited for XT32 starts in the Mast alone. -/
theorem State.dueWindow_frame (s : State) : { s.dueWindow with mast := s.mast } = s := by
  unfold State.dueWindow
  split
  · split <;> rfl
  · rfl

theorem State.dueWindow_regs (s : State) : s.dueWindow.regs = s.regs := (congrArg (·.regs) s.dueWindow_frame :)

theorem State.dueWindow_mast (s : State) : { s.dueWindow.mast with window := s.mast.window, windowAt := s.mast.windowAt } = s.mast := by
  unfold State.dueWindow
  split
  · split <;> rfl
  · rfl

/-- The state in which a beat moves the Mast: the window's slews are summed, and mcycle has counted the beat. -/
def State.beatFound (s : State) : State :=
  let t := s.beginBeat.windowSlews
  if t.bit F.SUP_STATUS_HALTED then t else { t with sup := { t.sup with cycles := t.sup.cycles + 1 } }

/-- The state in which a beat has moved the Mast and REM. -/
def State.beatMoved (s : State) : State := (s.beatFound.advanceMast s.beatFound.inc).slewBeat

/-- How a beat ends: MAST_FREQ_EFF follows, and a calibration window that is due starts. -/
def State.beatEnd (s : State) (set : Bool) : State := (s.rampBeat set).dueWindow

theorem State.beatEnd_onlyFields (s : State) (set : Bool) : OnlyFields [F.MAST_FREQ_EFF_FREQ] s (s.beatEnd set) :=
  (s.rampBeat_onlyFields set).of_regs (State.dueWindow_regs _)

theorem State.beatEnd_mast (s : State) (set : Bool) :
    { (s.beatEnd set).mast with window := s.mast.window, windowAt := s.mast.windowAt } = { s.mast with rampIdx := s.now / 4000000 } :=
  calc { (s.beatEnd set).mast with window := s.mast.window, windowAt := s.mast.windowAt }
      = { (s.rampBeat set).mast with window := s.mast.window, windowAt := s.mast.windowAt } :=
        congrArg (fun m : MastUnit => { m with window := s.mast.window, windowAt := s.mast.windowAt }) (s.rampBeat set).dueWindow_mast
    _ = { s.mast with rampIdx := s.now / 4000000 } := by rw [s.rampBeat_mast]

theorem State.beatEnd_frame (s : State) (set : Bool) : { s.beatEnd set with regs := s.regs, mast := s.mast } = s :=
  calc { s.beatEnd set with regs := s.regs, mast := s.mast }
      = { s.rampBeat set with regs := s.regs, mast := s.mast } :=
        congrArg (fun x : State => { x with regs := s.regs, mast := s.mast }) (s.rampBeat set).dueWindow_frame
    _ = s := congrArg (fun x : State => { x with mast := s.mast }) (s.rampBeat_frame set)

/-- While SET is 0 the target is taken at the beat (R61). -/
theorem State.beatEnd_unset_fld (s : State) : (s.beatEnd false).fld F.MAST_FREQ_EFF_FREQ = s.fld F.MAST_FREQ_FREQ := by
  have hregs : (s.beatEnd false).regs = (s.rampBeat false).regs := State.dueWindow_regs _
  rw [State.fld, State.reg, hregs]
  exact s.rampBeat_unset_fld

theorem State.beat_eq (s : State) : s.beat = s.beatMoved.applyPending.beatEnd (s.beatMoved.bit F.MAST_STATUS_SET) := (rfl)

/-- A beat on which no step acts. -/
theorem State.beat_of_no_step {s : State} (h : s.beatMoved.mast.step = none) :
    s.beat = s.beatMoved.beatEnd (s.beatMoved.bit F.MAST_STATUS_SET) := by
  rw [s.beat_eq, State.applyPending_of_none h]

/-- The slew of a beat changes REM and what was slewed, and sets SLEW_DONE with the last remainder. -/
theorem State.slewBeat_onlyFields (s : State) : OnlyFields [F.MAST_EVENT_SLEW_DONE] s s.slewBeat := by
  unfold State.slewBeat
  extract_lets q hist _ t
  have ht : OnlyFields [F.MAST_EVENT_SLEW_DONE] s t := (OnlyFields.refl _ s).of_regs rfl
  split
  · exact ht.setFld (by decide) (by decide)
  · exact ht

theorem State.slewBeat_step (s : State) : s.slewBeat.mast.step = s.mast.step := by
  unfold State.slewBeat
  extract_lets q hist _ t
  split <;> rfl

/-- A slew that gives up the last remainder of REM sets SLEW_DONE. -/
theorem State.slewBeat_last {s : State} (hrem : s.mast.rem ≠ 0) (hlast : s.slewTerm = s.mast.rem) :
    ∃ m : MastUnit, m.rem = 0 ∧ m.acc = s.mast.acc ∧ m.step = s.mast.step ∧
      s.slewBeat = State.setFld { s with mast := m } F.MAST_EVENT_SLEW_DONE 1 := by
  have hgone : s.mast.rem - s.slewTerm = 0 := by rw [hlast, Int.sub_self]
  unfold State.slewBeat
  extract_lets q hist _ t
  exact ⟨t.mast, hgone, rfl, rfl, if_pos ⟨hrem, hgone⟩⟩

theorem State.sumSlews_onlyFields (s : State) : OnlyFields clampFields s s.sumSlews := by
  unfold State.sumSlews
  split
  · exact OnlyFields.trans ((OnlyFields.refl _ s).of_regs rfl) (State.addSlew_onlyFields _ _)
  · exact .refl _ s

theorem State.sumSlews_step (s : State) : s.sumSlews.mast.step = s.mast.step := by
  unfold State.sumSlews
  split
  · rw [State.addSlew_mast]
  · rfl

theorem State.windowSlews_of_no_step {s : State} (h : s.mast.step = none) : s.windowSlews = s.sumSlews := by
  rw [State.windowSlews, h]
  rfl

/-- With neither a step nor a slew of the window, a beat finds REM as it stood. -/
theorem State.windowSlews_of_none {s : State} (h : s.mast.step = none) (hrem : s.mast.remWas = none) : s.windowSlews = s := by
  rw [State.windowSlews_of_no_step h, State.sumSlews, hrem]

/-- Beside the window's slews a beat finds mcycle counted. -/
theorem State.beatFound_eq (s : State) : ∃ x, s.beatFound = { s.beginBeat.windowSlews with sup := x } := by
  unfold State.beatFound
  extract_lets t
  split
  · exact ⟨t.sup, rfl⟩
  · exact ⟨_, rfl⟩

/-- The advance of a beat depends on MAST_FREQ_EFF, the slew limit and REM. -/
theorem State.slewTerm_congr {s t : State} (hregs : t.regs = s.regs) (hrem : t.mast.rem = s.mast.rem) : t.slewTerm = s.slewTerm := by
  simp only [State.slewTerm, State.slewMax, State.fld, State.reg, hregs, hrem]

theorem State.inc_congr {s t : State} (hregs : t.regs = s.regs) (hrem : t.mast.rem = s.mast.rem) : t.inc = s.inc := by
  simp only [State.inc, State.sfld, State.fld, State.reg, State.slewTerm_congr hregs hrem, hregs]

/-- A beat with no step writes, before the frequency follows, the flags of a slew alone. -/
theorem State.beatMoved_of_no_step {s : State} (h : s.mast.step = none) :
    OnlyFields (F.MAST_EVENT_SLEW_DONE :: clampFields) s s.beatMoved ∧ s.beatMoved.mast.step = none := by
  obtain ⟨x, hfound⟩ := s.beatFound_eq
  rw [State.windowSlews_of_no_step (s := s.beginBeat) h] at hfound
  have hsum : OnlyFields (F.MAST_EVENT_SLEW_DONE :: clampFields) s s.beginBeat.sumSlews :=
    OnlyFields.trans ((OnlyFields.refl _ s).of_regs rfl) (s.beginBeat.sumSlews_onlyFields.mono fun _ hf => List.mem_cons_of_mem _ hf)
  have hadvanced : OnlyFields (F.MAST_EVENT_SLEW_DONE :: clampFields) s (s.beatFound.advanceMast s.beatFound.inc) :=
    hsum.of_regs (congrArg (·.regs) hfound)
  refine ⟨hadvanced.trans ((State.slewBeat_onlyFields _).mono (by decide)), ?_⟩
  calc s.beatMoved.mast.step
      = s.beatFound.mast.step := State.slewBeat_step _
    _ = s.beginBeat.sumSlews.mast.step := congrArg (·.mast.step) hfound
    _ = none := by rw [State.sumSlews_step]; exact h

/-- The beat that gives up the last remainder of REM: the Mast advances by INC, REM is 0 and SLEW_DONE is set. -/
theorem State.beatMoved_last {s : State} (hstep : s.mast.step = none) (hwas : s.mast.remWas = none) (hrem : s.mast.rem ≠ 0)
    (hlast : s.slewTerm = s.mast.rem) :
    ∃ u : State, s.beatMoved = u.setFld F.MAST_EVENT_SLEW_DONE 1 ∧ u.mast.rem = 0 ∧ u.mast.acc = (s.mast.acc + s.inc) % 2 ^ 102 ∧
      u.mast.step = none ∧ { u with mast := s.mast, sup := s.sup, win := s.win } = s := by
  obtain ⟨x, hfound⟩ := s.beatFound_eq
  rw [State.windowSlews_of_none (s := s.beginBeat) hstep hwas] at hfound
  have hinc : s.beatFound.inc = s.inc := State.inc_congr (congrArg (·.regs) hfound) (congrArg (·.mast.rem) hfound)
  have hterm : (s.beatFound.advanceMast s.beatFound.inc).slewTerm = s.slewTerm :=
    State.slewTerm_congr (congrArg (·.regs) hfound) (congrArg (·.mast.rem) hfound)
  have hleft : (s.beatFound.advanceMast s.beatFound.inc).mast.rem = s.mast.rem := congrArg (·.mast.rem) hfound
  obtain ⟨m, hm, hacc, hmstep, hmoved⟩ := State.slewBeat_last (s := s.beatFound.advanceMast s.beatFound.inc)
    (by rwa [hleft]) (by rw [hterm, hleft, hlast])
  refine ⟨{ s.beatFound.advanceMast s.beatFound.inc with mast := m }, hmoved, hm, ?_, ?_, ?_⟩
  · have hstood : s.beatFound.mast.acc = s.mast.acc := congrArg (·.mast.acc) hfound
    rw [hacc, ← hinc, ← hstood]
    rfl
  · rw [hmstep]
    exact (congrArg (·.mast.step) hfound).trans hstep
  · exact congrArg (fun t : State => { t with mast := s.mast, sup := s.sup, win := s.win }) hfound

/-- What a beat's end leaves as it was, of a state that differs from another in these parts. -/
theorem State.beatEnd_frame_of {s t : State} (h : { t with regs := s.regs, mast := s.mast, sup := s.sup, win := s.win } = s) (set : Bool) :
    { t.beatEnd set with regs := s.regs, mast := s.mast, sup := s.sup, win := s.win } = s :=
  (congrArg (fun y : State => { y with regs := s.regs, mast := s.mast, sup := s.sup, win := s.win }) (t.beatEnd_frame set)).trans h

/-- The beat on which REM gives its remainder up (R62). -/
theorem State.passTime_slewDone {s : State} (hbeat : s.beatRuns = true) (hstep : s.mast.step = none) (hwas : s.mast.remWas = none)
    (hrem : s.mast.rem ≠ 0) (hlast : s.slewTerm = s.mast.rem) :
    s.passTime.mast.rem = 0 ∧ s.passTime.mast.acc = (s.mast.acc + s.inc) % 2 ^ 102 ∧ s.passTime.bit F.MAST_EVENT_SLEW_DONE = true ∧
      OnlyFields [F.MAST_EVENT_SLEW_DONE, F.MAST_FREQ_EFF_FREQ] s s.passTime ∧
      { s.passTime with regs := s.regs, mast := s.mast, sup := s.sup, win := s.win } = s := by
  obtain ⟨u, hmoved, hgone, hacc, hmstep, hframe⟩ := State.beatMoved_last hstep hwas hrem hlast
  have hpass := (State.passTime_beat hbeat).trans (State.beat_of_no_step (by rw [hmoved]; exact hmstep))
  have hflag : OnlyFields [F.MAST_EVENT_SLEW_DONE] s (u.setFld F.MAST_EVENT_SLEW_DONE 1) :=
    ((OnlyFields.refl _ s).of_regs (congrArg (·.regs) hframe)).setFld (by decide) (by decide)
  rw [hmoved] at hpass
  have hend := (u.setFld F.MAST_EVENT_SLEW_DONE 1).beatEnd_mast ((u.setFld F.MAST_EVENT_SLEW_DONE 1).bit F.MAST_STATUS_SET)
  have honly := (u.setFld F.MAST_EVENT_SLEW_DONE 1).beatEnd_onlyFields ((u.setFld F.MAST_EVENT_SLEW_DONE 1).bit F.MAST_STATUS_SET)
  rw [hpass]
  exact ⟨(congrArg (·.rem) hend).trans hgone, (congrArg (·.acc) hend).trans hacc,
    (honly.bit (by decide)).trans (u.bit_setFld_one (by decide) rfl), (hflag.mono (by decide)).trans (honly.mono (by decide)),
    State.beatEnd_frame_of (congrArg (fun x : State => { x with regs := s.regs }) hframe) _⟩

/-- While SET is 0 a beat takes the frequency's target (R61). -/
theorem State.passTime_unset {s : State} (hbeat : s.beatRuns = true) (hstep : s.mast.step = none) (hset : s.bit F.MAST_STATUS_SET = false) :
    s.passTime.fld F.MAST_FREQ_EFF_FREQ = s.fld F.MAST_FREQ_FREQ := by
  obtain ⟨honly, hmstep⟩ := State.beatMoved_of_no_step hstep
  rw [State.passTime_beat hbeat, State.beat_of_no_step hmstep, honly.bit (by decide), hset, State.beatEnd_unset_fld]
  exact honly _ (by decide)

/-! ### SLEW_CANCEL (R101) -/

theorem exec_slewCancel_alone {s : State} (ho : Open s) (h : s.mast.remWas = none) :
    exec .slewCancel s = .next { s with mast := { s.mast with rem := 0, remWas := none, afterStep := 0 } } := by
  change whenOpen s (s.cancelSlew none) = _
  rw [whenOpen_of_open ho, State.cancelSlew, h]
  rfl

/-- The command is no path's own write, so every slew of its window follows it. -/
theorem State.slewsOf_none (s : State) : s.slewsOf none = 0 := by
  simp [State.slewsOf]

theorem exec_slewCancel_window {s : State} (ho : Open s) (hbeat : s.beatRuns = true) (h : s.mast.remWas.isSome = true) :
    exec .slewCancel s =
      .next { s with
        win := { s.win with slews := s.win.slews.filter fun e => some e.1 != none },
        mast := { s.mast with rem := clampInt (-remBound) remBound (s.mast.afterStep * 2 ^ 38), remWas := some 0,
                              afterStep := s.mast.afterStep } } := by
  change whenOpen s (s.cancelSlew none) = _
  simp only [whenOpen_of_open ho, State.cancelSlew, h, hbeat, Bool.and_self, if_true, s.slewsOf_none, Int.sub_zero]

/-! ### The committed step and the slew's last beat, as commands -/

theorem exec_stepApply_some {s : State} {q : Int} (h : s.mast.step = some q) : exec .stepApply s = .next (s.newWindow.applyStep q) := by
  change execStepApply s = _
  rw [execStepApply, h]
  exact congrArg Host.Outcome.next (State.applyPending_of_some h)

theorem exec_slewDone_last {s : State} (hbeat : s.beatRuns = true) (hrem : s.mast.rem ≠ 0) (hlast : s.slewTerm = s.mast.rem) :
    exec .slewDone s = .next s.idle :=
  congrArg Host.Outcome.next (if_pos (by simp [hbeat, hrem, hlast]))

end Sys2Proof.Machine

namespace Sys2Proof

open Sys2Proof.Machine

/-- Settles O7. That a refused write keeps the staged word and its tag is log entry 12; SLEW_DONE and the requests of one window rest on
R64 and R65 as well, SLEW_CANCEL on R101, SHARED on R157. -/
theorem mastSteering : Obligations.MastSteering := by
  unfold Obligations.MastSteering
  refine ⟨?slewOnBeat, ?slewHeld, ?step, ?shared, ?hw, ?stepApply, ?slewDone, ?ramp, ?freq, ?freqRefused, ?unset, ?cancel, ?cancelWindow⟩
  case slewOnBeat =>
    intro p lo s ho ha hm hmode hbeat
    have hrun := exec_phaseCommit_sw p lo ho ha hm
    rw [hmode, State.phaseRequest_slew_beat ((s.phaseWritten_beatRuns p lo).trans hbeat)] at hrun
    exact .intro hrun ⟨rfl, rfl, s.phaseWritten_wide p lo, (s.phaseWritten_onlyFields p lo).of_regs rfl, rfl⟩
  case slewHeld =>
    intro p lo s ho ha hm hmode hbeat hstep hq
    have hrun := exec_phaseCommit_sw p lo ho ha hm
    rw [hmode, State.phaseRequest_slew_held ((s.phaseWritten_beatRuns p lo).trans hbeat) hstep p hq] at hrun
    exact .intro hrun ⟨rfl, s.phaseWritten_wide p lo, (s.phaseWritten_onlyFields p lo).of_regs rfl, rfl⟩
  case step =>
    intro p lo s ho ha hm hmode hset hwas hold
    have hrun := exec_phaseCommit_sw p lo ho ha hm
    have hfree : ((s.phaseWritten p lo).inSail && (s.phaseWritten p lo).setBefore (some p)) = false := by
      rw [State.phaseWritten_setBefore p p lo hwas]
      exact hset
    rw [hmode, State.phaseRequest_step hfree ((s.phaseWritten_mastHolds p lo).trans hold)] at hrun
    exact .intro hrun ⟨rfl, (s.phaseWritten_onlyFields p lo).of_regs rfl, rfl⟩
  case shared =>
    intro p lo s ho ha hm
    refine .intro (exec_phaseCommit_shared ho ha hm) ⟨?_, ?_⟩
    · rw [(State.phaseRequest_onlyFields _ _ _ _).wide (by decide) (by decide), State.wide_setWide_self,
        (s.phaseWritten_onlyFields p lo).wide (by decide) (by decide), Nat.mod_eq_of_lt (unsigned_lt 64 _)]
    · rw [(State.phaseRequest_onlyFields _ _ _ _).wide (by decide) (by decide),
        ((OnlyFields.refl (bothWords F.DSC_INJ_LO) _).setWide (by decide) (by decide)).wide (by decide) (by decide)]
      exact s.phaseWritten_wide p lo
  case hw =>
    intro p lo s ho ha
    exact .intro (exec_phaseCommit_hw ho ha) (s.refuseSteer_effect F.MAST_PHASE_LO)
  case stepApply =>
    intro s q hstep hafter
    have hrun := exec_stepApply_some hstep
    rw [State.applyStep_alone (s := s.newWindow) q hafter] at hrun
    have hmast := s.newWindow.stepTaken_mast q
    exact .intro hrun ⟨congrArg (·.acc) hmast, rfl, congrArg (·.step) hmast, State.becomeSet_bit _,
      congrArg (·.stepped) (s.newWindow.stepTaken_win q), s.newWindow.stepTaken_onlyFields q,
      congrArg (fun x : State => { x with win := s.win }) (s.newWindow.stepTaken_frame q)⟩
  case slewDone =>
    intro s hbeat hstep hwas hrem hlast
    obtain ⟨hgone, hacc, hflag, honly, hframe⟩ := State.passTime_slewDone hbeat hstep hwas hrem hlast
    exact ⟨hgone, hacc, hflag, honly, hframe, .intro (exec_slewDone_last hbeat hrem hlast) rfl⟩
  case ramp =>
    intro s hbeat hset hdue
    have hrun := exec_freqRampUpdate_due hbeat hdue
    rw [hset] at hrun
    refine .intro hrun ⟨?_, s.rampBeat_mast true, s.rampBeat_onlyFields true, ?_⟩
    · rw [State.rampBeat_due hdue]
      exact s.rampOnce_sfld
    · exact congrArg (fun x : State => { x with mast := s.mast }) (s.rampBeat_frame true)
  case freq =>
    intro p v s ho ha hm
    exact .intro (exec_mastFreqWrite_sw ho ha hm) ⟨s.reg_setReg_self F.MAST_FREQ v, (OnlyFields.refl _ s).setReg (by decide), rfl⟩
  case freqRefused =>
    intro p v s ho ha
    exact .intro (exec_mastFreqWrite_refused ho ha) (s.refuseSteer_effect F.MAST_FREQ)
  case unset =>
    intro s hbeat hstep hset
    exact State.passTime_unset hbeat hstep hset
  case cancel =>
    intro s ho hwas
    refine .intro (exec_slewCancel_alone ho hwas) ⟨rfl, ?_, rfl⟩
    rw [← hwas]
  case cancelWindow =>
    intro s ho hbeat hwas
    exact .intro (exec_slewCancel_window ho hbeat hwas) ⟨rfl, rfl⟩

end Sys2Proof
end

section
/-! Marks, REFIN, XT32, the Mast PLL and the calibration window (spec/02_mast.md R67-R69, R75-R79, R85-R89, R1072). -/

namespace Sys2Proof.Machine

open Sys2Proof

/-! ### Modes -/

theorem State.inHoist_of_inSail {s : State} (h : s.inSail = true) : s.inHoist = false := by
  simp only [State.inSail, beq_iff_eq] at h
  simp only [State.inHoist, h]
  rfl

theorem open_of_inSail {s : State} (h : s.inSail = true) : Open s := by
  simp only [Open, State.powered, State.romCloses, h, State.inHoist_of_inSail h, Bool.false_and, Bool.true_or, Bool.not_false, Bool.and_self]

theorem State.inSail_of_inHoist {s : State} (h : s.inHoist = true) : s.inSail = false := by
  simp only [State.inHoist, beq_iff_eq] at h
  simp only [State.inSail, h]
  rfl

theorem State.powered_of_inHoist {s : State} (h : s.inHoist = true) : s.powered = true := by
  simp only [State.powered, h, Bool.or_true]

/-- In Hoist the discipline unit is idle (R138). -/
theorem State.dscEval_of_inHoist {s : State} (h : s.inHoist = true) : s.dscEval = s := by
  rw [State.dscEval, State.inSail_of_inHoist h]
  rfl

/-! ### SET (R67-R69) -/

/-- A mark of SET notes in the window alone what SET was. -/
theorem State.markSetWas_frame (s : State) (p : Option Path) : { s.markSetWas p with win := s.win } = s := by
  unfold State.markSetWas
  split <;> rfl

theorem State.markSetWas_regs (s : State) (p : Option Path) : (s.markSetWas p).regs = s.regs := (congrArg (·.regs) (s.markSetWas_frame p) :)

theorem exec_markSet_vbat_kept {s : State} (ho : Open s) (hv : s.bit F.HOIST_CAUSE_VBAT_LOST = false) :
    exec .markSet s = .next ((s.markSetWas none).raise F.MAST_STATUS_SET) := by
  have hkept : (s.markSetWas none).bit F.HOIST_CAUSE_VBAT_LOST = false :=
    (((OnlyFields.refl [] s).of_regs (s.markSetWas_regs none)).bit (by decide)).trans hv
  change whenOpen s (s.markSetWas none).becomeSet = _
  rw [whenOpen_of_open ho, State.becomeSet_of_vbat_kept hkept]

theorem exec_unset_hoist {s : State} (ho : Open s) (h : s.inHoist = true) :
    exec .unset s = .next ((s.markSetWas none).clear F.MAST_STATUS_SET) := by
  change whenOpen s (s.unset none) = _
  rw [whenOpen_of_open ho, State.unset, if_pos h]

theorem exec_unset_sail {s : State} (h : s.inSail = true) :
    exec .unset s = .next ((s.log 0x0404 0).raise F.MAST_EVENT_UNSET_REFUSED) := by
  change whenOpen s (s.unset none) = _
  rw [whenOpen_of_open (open_of_inSail h), State.unset, if_neg (by rw [State.inHoist_of_inSail h]; decide)]

/-- What a write of SET leaves of a marked window. -/
theorem State.markSetWas_setFld (s : State) (v : Nat) :
    OnlyFields [F.MAST_STATUS_SET] s ((s.markSetWas none).setFld F.MAST_STATUS_SET v) ∧
      { (s.markSetWas none).setFld F.MAST_STATUS_SET v with regs := s.regs, win := s.win } = s :=
  ⟨((OnlyFields.refl _ s).of_regs (s.markSetWas_regs none)).setFld (by decide) (by decide),
    congrArg (fun x : State => { x with regs := s.regs }) (s.markSetWas_frame none)⟩

/-! ### REFIN (R75-R77) -/

theorem exec_refinLoss_hoist {s : State} (h : s.inHoist = true) (href : s.bit F.MAST_STATUS_REF_OK = true) :
    exec .refinLoss s = .next (((s.setFld F.MAST_STATUS_REF_OK 0).log 0x0402 0).setFld F.MAST_EVENT_REF_LOST 1) := by
  change Host.Outcome.next s.refinLoses.dscEval = _
  have hhoist : State.inHoist (((s.setFld F.MAST_STATUS_REF_OK 0).log 0x0402 0).setFld F.MAST_EVENT_REF_LOST 1) = true := by
    rw [State.inHoist, State.setFld_dev, State.log_dev, State.setFld_dev]
    exact h
  rw [State.refinLoses, if_pos href, State.clear_eq, State.raise_eq, State.dscEval_of_inHoist hhoist]

theorem exec_refinReturn_hoist {s : State} (h : s.inHoist = true) :
    exec .refinReturn s = .next (s.setFld F.MAST_STATUS_REF_OK 1) := by
  change Host.Outcome.next s.refinComes.dscEval = _
  rw [State.refinComes, if_pos (State.powered_of_inHoist h), State.raise_eq, State.dscEval_of_inHoist (s := s.setFld _ _) h]

/-! ### XT32 (R85, R89, R1072) -/

/-- The state after a stop of XT32 while the beat runs. -/
def State.xtStopped (s : State) : State := ((s.setFld F.MAST_STATUS_XT_OK 0).cutWindow.log 0x0407 0).setFld F.MAST_EVENT_XT_STOP 1

theorem exec_xt32Stop_beat {s : State} (hxt : s.bit F.MAST_STATUS_XT_OK = true) (hd : s.bit F.MAST_STATUS_DOMAIN = false) :
    exec .xt32Stop s = .next s.xtStopped :=
  congrArg Host.Outcome.next (if_pos (by rw [hxt, hd]; rfl))

theorem State.xtStopped_bit (s : State) : s.xtStopped.bit F.MAST_STATUS_XT_OK = false := by
  rw [State.xtStopped, bit_setFld_apart _ _ (by decide) (by decide), (log_onlyFields _ _ _).bit (by decide)]
  exact s.bit_setFld_zero (by decide)

theorem State.xtStopped_mast (s : State) : s.xtStopped.mast = { s.mast with window := none, windowAt := none } := by
  rw [State.xtStopped, State.setFld_mast, State.log_mast]
  rfl

theorem State.logs_xtStopped (s : State) : Logs 0x0407 0 s s.xtStopped :=
  (Logs.congr (s := s) ((s.setFld F.MAST_STATUS_XT_OK 0).cutWindow.logs_log 0x0407 0) rfl rfl
    (s.fld_setFld_ne (f := F.MAST_STATUS_XT_OK) (g := F.ERR_NEXT_SEQ_SEQ) 0 (by decide)) rfl).setFld

theorem State.xtStopped_onlyFields (s : State) :
    OnlyFields (F.MAST_STATUS_XT_OK :: F.MAST_EVENT_XT_STOP :: collectorFields) s s.xtStopped := by
  have hcut : OnlyFields (F.MAST_STATUS_XT_OK :: F.MAST_EVENT_XT_STOP :: collectorFields) s (s.setFld F.MAST_STATUS_XT_OK 0).cutWindow :=
    ((OnlyFields.refl _ s).setFld (f := F.MAST_STATUS_XT_OK) (v := 0) (by decide) (by decide)).of_regs rfl
  exact (hcut.log (by decide)).setFld (by decide) (by decide)

/-- The window that follows a stop is due one XT32 period later, whose length on the beat is open (log entry 1). -/
def State.xtResumed (s : State) : State :=
  let t := { s with mast := { s.mast with xtTicks := false } }
  { t.open_.2 with mast := { t.mast with windowAt := some (t.mast.ran + t.open_.1 % (2 * t.tickSpan)) } }

theorem State.xtResumed_frame_of {s t : State} (h : { t with regs := s.regs } = s) :
    { t.xtResumed with regs := s.regs, mast := s.mast, fresh := s.fresh } = s :=
  congrArg (fun x : State => { x with mast := s.mast, fresh := s.fresh }) h

theorem exec_xt32Resume_beat {s : State} (hxt : s.bit F.MAST_STATUS_XT_OK = false) (hd : s.bit F.MAST_STATUS_DOMAIN = false) :
    exec .xt32Resume s = .next (s.setFld F.MAST_STATUS_XT_OK 1).xtResumed := by
  change execXt32Resume s = _
  rw [execXt32Resume, if_neg (by rw [hxt]; decide)]
  exact congrArg Host.Outcome.next (if_neg (by rw [hd]; decide))

/-- In the 32 kHz domain the first edge after a stop adds no tick (R1072). -/
theorem exec_xt32Resume_domain {s : State} (hxt : s.bit F.MAST_STATUS_XT_OK = false) (hd : s.bit F.MAST_STATUS_DOMAIN = true)
    (hticks : s.mast.xtTicks = false) : exec .xt32Resume s = .next (s.setFld F.MAST_STATUS_XT_OK 1) := by
  have hkept : { s.mast with xtTicks := false } = s.mast := by rw [← hticks]
  change execXt32Resume s = _
  simp only [execXt32Resume, hxt, hd, hticks, Bool.false_eq_true, if_false, if_true, State.raise_eq, State.setFld_mast, hkept]
  rfl

/-! ### The Mast PLL (R79, R89) -/

/-- The registers of a Mast PLL that has locked. -/
def State.pllLocked (s : State) : State :=
  (((s.setFld F.MAST_STATUS_PLL_LOCK 1).setFld F.MAST_STATUS_REF_OK 1).setFld F.MAST_STATUS_DOMAIN 0).setFld ⟨F.HST_PLL_STATUS, 0, 1⟩ 1

theorem State.pllLocked_bits (s : State) :
    s.pllLocked.bit F.MAST_STATUS_PLL_LOCK = true ∧ s.pllLocked.bit F.MAST_STATUS_REF_OK = true ∧
      s.pllLocked.bit F.MAST_STATUS_DOMAIN = false := by
  refine ⟨?_, ?_, ?_⟩
  · rw [State.pllLocked, bit_setFld_apart _ _ (by decide) (by decide), bit_setFld_apart _ _ (by decide) (by decide),
      bit_setFld_apart _ _ (by decide) (by decide), State.bit_setFld_one _ (by decide) rfl]
  · rw [State.pllLocked, bit_setFld_apart _ _ (by decide) (by decide), bit_setFld_apart _ _ (by decide) (by decide),
      State.bit_setFld_one _ (by decide) rfl]
  · rw [State.pllLocked, bit_setFld_apart _ _ (by decide) (by decide), State.bit_setFld_zero _ (by decide)]

/-- The fields that lock writes. -/
def pllLockFields : List Fld := [F.MAST_STATUS_PLL_LOCK, F.MAST_STATUS_REF_OK, F.MAST_STATUS_DOMAIN, ⟨F.HST_PLL_STATUS, 0, 1⟩]

theorem State.pllLocked_onlyFields (s : State) : OnlyFields pllLockFields s s.pllLocked :=
  ((((OnlyFields.refl _ s).setFld (by decide) (by decide)).setFld (by decide) (by decide)).setFld (by decide) (by decide)).setFld (by decide)
    (by decide)

theorem State.pllLocked_frame (s : State) : { s.pllLocked with regs := s.regs } = s :=
  regsFrame_setFld (regsFrame_setFld (regsFrame_setFld (regsFrame_setFld (Eq.refl s))))

/-- The beat engine that takes the Mast's value and goes on from it. -/
def State.beatTaken (s : State) : State := State.startWindow { s with mast := { s.mast with rampIdx := s.now / 4000000 } }

theorem State.beatTaken_frame_of {s t : State} (h : { t with regs := s.regs } = s) : { t.beatTaken with regs := s.regs, mast := s.mast } = s :=
  congrArg (fun x : State => { x with mast := s.mast }) h

theorem exec_mastPllLock_unlocked {s : State} (hp : s.powered = true) (hl : s.bit F.MAST_STATUS_PLL_LOCK = false)
    (hr : (s.inSail || s.hoist.refinLoaded) = true) : exec .mastPllLock s = .next s.pllLocked.beatTaken :=
  congrArg Host.Outcome.next (if_pos (by rw [hp, hl, hr]; rfl))

/-- The registers of a Mast PLL that has unlocked. -/
def State.pllLost (s : State) : State := (s.setFld F.MAST_STATUS_PLL_LOCK 0).setFld ⟨F.HST_PLL_STATUS, 0, 1⟩ 0

/-- The fields that unlock writes. -/
def pllLostFields : List Fld := [F.MAST_STATUS_PLL_LOCK, ⟨F.HST_PLL_STATUS, 0, 1⟩]

theorem State.pllLost_only (s : State) : Only pllLostFields s s.pllLost :=
  ((Only.refl _ s).setFld (by decide) (by decide)).setFld (by decide) (by decide)

theorem State.pllLost_bit (s : State) : s.pllLost.bit F.MAST_STATUS_PLL_LOCK = false := by
  rw [State.pllLost, bit_setFld_apart _ _ (by decide) (by decide), State.bit_setFld_zero _ (by decide)]

/-- The state in which an unlock with REFIN present is logged, before the window is cut. -/
def State.pllLostLogged (s : State) : State :=
  (s.pllLost.log 0x0401 (s.fld F.MAST_PLL_CFG_REFIN_SEL)).setFld F.MAST_EVENT_PLL_UNLOCK 1

theorem State.pllLostLogged_bit (s : State) : s.pllLostLogged.bit F.MAST_STATUS_PLL_LOCK = false := by
  rw [State.pllLostLogged, bit_setFld_apart _ _ (by decide) (by decide), (log_onlyFields _ _ _).bit (by decide), s.pllLost_bit]

theorem State.pllLostLogged_mast (s : State) : s.pllLostLogged.mast = s.mast := by
  rw [State.pllLostLogged, State.setFld_mast, State.log_mast]
  rfl

theorem State.logs_pllLostLogged (s : State) : Logs 0x0401 (s.fld F.MAST_PLL_CFG_REFIN_SEL) s s.pllLostLogged := by
  obtain ⟨honly, -⟩ := s.pllLost_only
  exact (Logs.congr (s := s) (s.pllLost.logs_log _ _) rfl rfl (honly F.ERR_NEXT_SEQ_SEQ (by decide)) rfl).setFld

theorem State.pllLostLogged_onlyFields (s : State) :
    OnlyFields ([F.MAST_STATUS_PLL_LOCK, F.MAST_EVENT_PLL_UNLOCK, ⟨F.HST_PLL_STATUS, 0, 1⟩] ++ collectorFields) s s.pllLostLogged := by
  obtain ⟨honly, -⟩ := s.pllLost_only
  exact ((honly.mono (by decide)).log (by decide)).setFld (by decide) (by decide)

/-- Unlock with REFIN present is logged with REFIN_SEL. -/
theorem exec_mastPllUnlock_refin {s : State} (hp : s.powered = true) (hl : s.bit F.MAST_STATUS_PLL_LOCK = true)
    (href : s.bit F.MAST_STATUS_REF_OK = true) (hstep : s.hoistAt 7 = false) :
    exec .mastPllUnlock s = .next s.pllLostLogged.cutWindow := by
  change execMastPllUnlock s = _
  simp only [execMastPllUnlock, hp, hl, href, hstep, Bool.and_self, Bool.false_eq_true, if_true, if_false]
  rfl

/-- Unlock once REFIN has gone logs nothing more. -/
theorem exec_mastPllUnlock_no_refin {s : State} (hp : s.powered = true) (hl : s.bit F.MAST_STATUS_PLL_LOCK = true)
    (href : s.bit F.MAST_STATUS_REF_OK = false) (hstep : s.hoistAt 7 = false) :
    exec .mastPllUnlock s = .next s.pllLost.cutWindow := by
  change execMastPllUnlock s = _
  simp only [execMastPllUnlock, hp, hl, href, hstep, Bool.and_self, Bool.false_eq_true, if_true, if_false]
  rfl

/-! ### The calibration window (R87, R88) -/

/-- A quotient without remainder needs no rounding. -/
theorem State.roundOpen_exact (s : State) (q : Int) {den : Nat} (h : 0 < den) : s.roundOpen (q * (den : Int)) den = (q, s) := by
  rw [State.roundOpen, if_pos (Int.mul_emod_left q den), Int.mul_ediv_cancel q (by omega)]

/-- The state in which a window has stored the nominal tick and 0 ppb. -/
def State.calibrated (s : State) : State :=
  let t := (s.startWindow.setWide F.MAST_RCAL_LO nominalTick).setReg F.MAST_RCAL_PPB 0
  { t with mast := { t.mast with age := 0 } }.setFld F.MAST_STATUS_RCAL_VALID 1

theorem State.calibrated_wide (s : State) : s.calibrated.wide F.MAST_RCAL_LO = nominalTick := by
  have hafter : OnlyFields [F.MAST_STATUS_RCAL_VALID, whole F.MAST_RCAL_PPB] (s.startWindow.setWide F.MAST_RCAL_LO nominalTick) s.calibrated :=
    (((OnlyFields.refl _ _).setReg (a := F.MAST_RCAL_PPB) (v := 0) (by decide)).of_regs rfl).setFld (by decide) (by decide)
  rw [hafter.wide (by decide) (by decide), State.wide_setWide_self]
  decide

theorem State.calibrated_ppb (s : State) : s.calibrated.reg F.MAST_RCAL_PPB = 0 :=
  (State.reg_setFld_ne _ 1 (by decide)).trans (State.reg_setReg_self _ F.MAST_RCAL_PPB 0)

theorem State.calibrated_onlyFields (s : State) :
    OnlyFields (F.MAST_STATUS_RCAL_VALID :: whole F.MAST_RCAL_PPB :: bothWords F.MAST_RCAL_LO) s s.calibrated := by
  have hwords : OnlyFields (F.MAST_STATUS_RCAL_VALID :: whole F.MAST_RCAL_PPB :: bothWords F.MAST_RCAL_LO) s
      ((s.startWindow.setWide F.MAST_RCAL_LO nominalTick).setReg F.MAST_RCAL_PPB 0) :=
    (((OnlyFields.refl _ s).of_regs rfl).setWide (by decide) (by decide)).setReg (by decide)
  exact (hwords.of_regs rfl).setFld (by decide) (by decide)

theorem exec_rcalWindowComplete_nominal {s : State} {start : Nat} {slew : Int} (hw : s.mast.window = some (start, slew))
    (hadv : (((s.mast.acc + 2 ^ 102 - start) % 2 ^ 102 : Nat) : Int) - (s.mast.slewSum - slew) = nominalTick * (2 ^ 14 * 2097152)) :
    exec .rcalWindowComplete s = .next s.calibrated := by
  change execRcalWindowComplete s = _
  have htick : s.roundOpen ((nominalTick : Int) * (2 ^ 14 * 2097152)) (2 ^ 14 * 2097152) = ((nominalTick : Int), s) :=
    s.roundOpen_exact nominalTick (den := 2 ^ 14 * 2097152) (by decide)
  have hppb : s.roundOpen (0 * 1000000000) (max 1 (nominalTick : Int).toNat) = (0, s) := by
    rw [Int.zero_mul, ← Int.zero_mul ((max 1 (nominalTick : Int).toNat : Nat) : Int)]
    exact s.roundOpen_exact 0 (by decide)
  simp only [execRcalWindowComplete, hw, hadv, htick, hppb, Int.sub_self, Int.natAbs_zero, Nat.zero_mul, Nat.zero_le, if_true]
  rfl

end Sys2Proof.Machine

namespace Sys2Proof

open Sys2Proof.Machine

/-- Settles O8. That the return of XT32 adds no tick is R1072; that a loss of REFIN leaves PLL_LOCK to the lock events is log entry 12. -/
theorem mastConditions : Obligations.MastConditions := by
  unfold Obligations.MastConditions
  refine ⟨?markSet, ?unset, ?unsetRefused, ?refLost, ?refReturn, ?xtStop, ?xtBeat, ?xtDomain, ?lock, ?unlock, ?unlockNoRef, ?rcal⟩
  case markSet =>
    intro s ho hv
    exact .intro (exec_markSet_vbat_kept ho hv) ⟨State.bit_setFld_one _ (by decide) rfl, s.markSetWas_setFld 1⟩
  case unset =>
    intro s ho h
    exact .intro (exec_unset_hoist ho h) ⟨State.bit_setFld_zero _ (by decide), s.markSetWas_setFld 0⟩
  case unsetRefused =>
    intro s h
    exact .intro (exec_unset_sail h) ⟨(s.logs_log 0x0404 0).setFld, State.bit_setFld_one _ (by decide) rfl,
      ((Only.refl _ s).log 0x0404 0).setFld (by decide) (by decide)⟩
  case refLost =>
    intro s h href
    have hlogs : Logs 0x0402 0 s ((s.setFld F.MAST_STATUS_REF_OK 0).log 0x0402 0) :=
      (State.logs_log _ 0x0402 0).congr rfl rfl (s.fld_setFld_ne 0 (by decide)) rfl
    have hcleared : ((s.setFld F.MAST_STATUS_REF_OK 0).log 0x0402 0).bit F.MAST_STATUS_REF_OK = false :=
      ((log_onlyFields _ 0x0402 0).bit (by decide)).trans (s.bit_setFld_zero (by decide))
    exact .intro (exec_refinLoss_hoist h href) ⟨(bit_setFld_apart _ 1 (by decide) (by decide)).trans hcleared, hlogs.setFld,
      State.bit_setFld_one _ (by decide) rfl,
      (((Only.refl _ s).setFld (by decide) (by decide)).log 0x0402 0).setFld (by decide) (by decide)⟩
  case refReturn =>
    intro s h
    exact .intro (exec_refinReturn_hoist h) ⟨s.bit_setFld_one (by decide) rfl, (Only.refl _ s).setFld (by decide) (by decide)⟩
  case xtStop =>
    intro s hxt hd
    exact .intro (exec_xt32Stop_beat hxt hd)
      ⟨s.xtStopped_bit, s.xtStopped_mast, s.logs_xtStopped, State.bit_setFld_one _ (by decide) rfl, s.xtStopped_onlyFields⟩
  case xtBeat =>
    intro s hxt hd
    have hset : OnlyFields [F.MAST_STATUS_XT_OK] s (s.setFld F.MAST_STATUS_XT_OK 1) := (OnlyFields.refl _ s).setFld (by decide) (by decide)
    exact .intro (exec_xt32Resume_beat hxt hd) ⟨s.bit_setFld_one (by decide) rfl, rfl, rfl, hset.of_regs rfl,
      State.xtResumed_frame_of (regsFrame_setFld (Eq.refl s))⟩
  case xtDomain =>
    intro s hxt hd hticks
    exact .intro (exec_xt32Resume_domain hxt hd hticks)
      ⟨s.bit_setFld_one (by decide) rfl, rfl, (Only.refl _ s).setFld (by decide) (by decide)⟩
  case lock =>
    intro s hp hl hr
    obtain ⟨hlock, href, hdomain⟩ := s.pllLocked_bits
    have hbit := State.bit_of_regs (s := s.pllLocked) (t := s.pllLocked.beatTaken) rfl
    exact .intro (exec_mastPllLock_unlocked hp hl hr) ⟨(hbit _).trans hlock, (hbit _).trans href, (hbit _).trans hdomain, rfl, rfl,
      s.pllLocked_onlyFields.of_regs rfl, State.beatTaken_frame_of s.pllLocked_frame⟩
  case unlock =>
    intro s hp hl href hbeat hstep
    have hbit := State.bit_of_regs (s := s.pllLostLogged) (t := s.pllLostLogged.cutWindow) rfl
    exact .intro (exec_mastPllUnlock_refin hp hl href hstep) ⟨(hbit _).trans s.pllLostLogged_bit,
      congrArg (fun m : MastUnit => { m with window := none, windowAt := none }) s.pllLostLogged_mast, s.logs_pllLostLogged.first,
      (hbit _).trans (State.bit_setFld_one _ (by decide) rfl), s.pllLostLogged_onlyFields.of_regs rfl⟩
  case unlockNoRef =>
    intro s hp hl href hstep
    obtain ⟨honly, -⟩ := s.pllLost_only
    exact .intro (exec_mastPllUnlock_no_refin hp hl href hstep) ⟨s.pllLost_bit, rfl, honly.of_regs rfl, rfl⟩
  case rcal =>
    intro s start slew hw hadv
    exact .intro (exec_rcalWindowComplete_nominal hw hadv)
      ⟨s.calibrated_wide, s.calibrated_ppb, State.bit_setFld_one _ (by decide) rfl, rfl, s.calibrated_onlyFields⟩

end Sys2Proof
end

section
/-! Wide registers on an access path (spec/02_mast.md R92-R98, spec/19_supervisor_and_host.md R977). -/

namespace Sys2Proof.Machine

open Sys2Proof

/-! ### The _LO words of the register map -/

/-- Each set of wide registers lies within a block, with its _HI words. -/
theorem wides_within_block : ∀ w ∈ wides, 0 < w.2.1 ∧ w.1 % 0x10000 + w.2.1 * w.2.2 + 4 ≤ 0x10000 := by decide

theorem isWideLo_high_block {a : Nat} (h : isWideLo a = true) : (a + 4) / 0x10000 = a / 0x10000 := by
  obtain ⟨w, hmem, hw⟩ := List.any_eq_true.mp h
  simp only [Bool.and_eq_true, decide_eq_true_eq] at hw
  obtain ⟨⟨hbase, -⟩, hcount⟩ := hw
  obtain ⟨hstride, hfits⟩ := wides_within_block w hmem
  have hofs : a - w.1 < w.2.1 * w.2.2 := by
    rw [Nat.mul_comm]
    exact (Nat.div_lt_iff_lt_mul hstride).mp hcount
  omega

theorem ne_of_isWideLo {a b : Nat} (h : isWideLo a = true) (hb : isWideLo b = false) : a ≠ b := by
  rintro rfl
  rw [h] at hb
  cases hb

/-! ### Paths -/

@[simp] theorem State.path_setPath (s : State) (p : Path) (x : PathState) : (s.setPath p x).path p = x := Table.get_put_self _ _ _ _

/-- A path's own state is all that a path holds. -/
theorem State.setPath_frame (s : State) (p : Path) (x : PathState) : { s.setPath p x with paths := s.paths } = s := (rfl)

/-! ### Reads of a _LO word (R93) -/

/-- The state after a read of a _LO word whose set the path latches, that returns a word. -/
def State.cleated (s : State) (p : Path) (a : Nat) (w : Word) : State :=
  (s.setPath p { s.path p with cleatTag := some a, cleat := s.cleatSet a }).gives w

theorem State.cleated_frame (s : State) (p : Path) (a : Nat) (w : Word) :
    { s.cleated p a w with paths := s.paths, readData := s.readData } = s := (rfl)

theorem State.cleated_path (s : State) (p : Path) (a : Nat) (w : Word) :
    (s.cleated p a w).path p = { s.path p with cleatTag := some a, cleat := s.cleatSet a } :=
  s.path_setPath p { s.path p with cleatTag := some a, cleat := s.cleatSet a }

/-- A _LO word without RC fields that the path has not latched. -/
theorem State.readPlain_wideLo {s : State} {p : Path} {a : Nat} (hw : isWideLo a = true) (hrc : rcMask a = 0) (hl : s.latched p a = none) :
    s.readPlain p a = s.cleated p a (s.view a &&& ~~~(woMask a)) := by
  simp only [State.readPlain, hl, hw, hrc, if_true]
  rfl

/-- A register without WO fields reads as it shows. -/
theorem view_no_wo {a : Nat} (h : woMask a = 0) {w : Word} : w &&& ~~~(woMask a) = w := by
  rw [h]
  exact BitVec.and_allOnes

/-- A _LO word other than MAST_NOW_LO, of no FIFO engine and of no capture unit, has no read effect but its cleat. -/
theorem State.readReg_wideLo {s : State} {p : Path} {a : Nat} (hw : isWideLo a = true) (hrow : (findRow a).isSome = true)
    (hflc : a / 0x10000 ≠ 3) (hnow : a ≠ F.MAST_NOW_LO) (hfifo : ¬ (0xA1000 ≤ a ∧ a < 0xA3000)) (hcap : a / 0x1000 ≠ 0x54) :
    s.readReg p a = s.readPlain p a := by
  have hlisted : ¬ (findRow a).isNone = true := fun h => Option.isSome_iff_ne_none.mp hrow (Option.isNone_iff_eq_none.mp h)
  rw [State.readReg, if_neg hflc, if_neg hlisted, if_neg hnow, if_neg (ne_of_isWideLo hw (by decide)),
    if_neg (ne_of_isWideLo hw (by decide)), if_neg (ne_of_isWideLo hw (by decide)), if_neg (ne_of_isWideLo hw (by decide)),
    if_neg fun h => hfifo ⟨h.1, h.2.1⟩]
  exact if_neg (by omega)

theorem State.cleatSet_register {s : State} {a : Nat} (hcap : a / 0x1000 ≠ 0x54) (herr : a ≠ F.ERR_HEAD_TIME_LO) :
    s.cleatSet a = [s.view a, s.view (a + 4)] := by
  rw [State.cleatSet, if_neg (by omega), if_neg herr]

theorem exec_wideLoRead_of_open {s : State} (p : Path) {a : Nat} (ho : Open s) (hw : isWideLo a = true) :
    exec (.wideLoRead p a) s = .next (s.readReg p a) := by
  change execWideLoRead p a s = _
  rw [execWideLoRead, whenOpen_of_open ho, if_pos hw]

/-! ### MAST_NOW and MAST_FRAC (R93, R95) -/

theorem State.view_now_lo (s : State) : s.view F.MAST_NOW_LO = BitVec.ofNat 32 s.now := (rfl)

theorem State.view_now_hi (s : State) : s.view F.MAST_NOW_HI = BitVec.ofNat 32 (s.now / 2 ^ 32) := (rfl)

theorem State.view_frac (s : State) : s.view F.MAST_FRAC = BitVec.ofNat 32 (s.mast.acc / 2 ^ 14 % 2 ^ 24) := (rfl)

theorem State.cleatSet_now (s : State) :
    s.cleatSet F.MAST_NOW_LO = [BitVec.ofNat 32 s.now, BitVec.ofNat 32 (s.now / 2 ^ 32)] := by
  rw [State.cleatSet_register (by decide) (by decide), ← s.view_now_lo, ← s.view_now_hi]

/-- A path's state after a read of MAST_NOW_LO: the Mast, and MAST_FRAC of the same instant. -/
def State.nowLatched (s : State) (p : Path) : PathState :=
  { s.path p with cleatTag := some F.MAST_NOW_LO, cleat := s.cleatSet F.MAST_NOW_LO, frac := some (s.mast.acc / 2 ^ 14 % 2 ^ 24) }

theorem State.readReg_now {s : State} {p : Path} (hl : s.latched p F.MAST_NOW_LO = none) :
    s.readReg p F.MAST_NOW_LO = (s.cleated p F.MAST_NOW_LO (BitVec.ofNat 32 s.now)).setPath p (s.nowLatched p) := by
  have hnow : s.readReg p F.MAST_NOW_LO = s.readNow p := (rfl)
  have hfrac : (s.view F.MAST_FRAC).toNat = s.mast.acc / 2 ^ 14 % 2 ^ 24 := by
    rw [s.view_frac, BitVec.toNat_ofNat]
    omega
  rw [hnow, State.readNow, State.readPlain_wideLo (by decide) (by decide) hl, view_no_wo (by decide), s.view_now_lo, State.cleated_path,
    hfrac]
  rfl

/-! ### The head of the error collector (R977) -/

theorem State.view_errHead (s : State) : s.view F.ERR_HEAD_TIME_LO = s.errHead.getD 0 0 := (rfl)

/-- A read of ERR_HEAD_TIME_LO latches the four words of the oldest entry. -/
theorem exec_errHeadRead_of_open {s : State} {p : Path} (ho : Open s) (hl : s.latched p F.ERR_HEAD_TIME_LO = none) :
    exec (.errHeadRead p) s = .next (s.cleated p F.ERR_HEAD_TIME_LO (s.errHead.getD 0 0)) := by
  have hplain := s.readReg_eq_readPlain p (a := F.ERR_HEAD_TIME_LO) (by decide) (by decide) (by decide) (by decide)
  change whenOpen s _ = _
  rw [whenOpen_of_open ho, hplain, State.readPlain_wideLo (by decide) (by decide) hl, view_no_wo (by decide), s.view_errHead]

theorem State.cleatSet_errHead (s : State) : s.cleatSet F.ERR_HEAD_TIME_LO = s.errHead := (rfl)

/-! ### Staging of a _HI word (R96, R98) -/

theorem exec_wideHiWrite_staged {s : State} (p : Path) {a : Nat} (v : Word) (ho : Open s) (hw : isWideLo a = true)
    (hrow : (findRow (a + 4)).isSome = true) (hflc : a / 0x10000 ≠ 3) (hmirror : s.mirrorsAddr (a + 4) = false)
    (hbits : rwMask (a + 4) ||| woMask (a + 4) ≠ 0) : exec (.wideHiWrite p (a + 4) v) s = .next (s.stageHigh p a v) := by
  have hlisted : ¬ (findRow (a + 4)).isNone = true := fun h => Option.isSome_iff_ne_none.mp hrow (Option.isNone_iff_eq_none.mp h)
  have hstage : s.writeReg p (a + 4) v = s.stageHigh p a v := by
    rw [State.writeReg, isWideLo_high_block hw, if_neg hflc, if_neg hlisted, hmirror, if_neg Bool.false_ne_true, Nat.add_sub_cancel,
      if_pos (Bool.and_eq_true_iff.mpr ⟨hw, bne_iff_ne.mpr hbits⟩)]
  change execWideHiWrite p (a + 4) v s = _
  rw [execWideHiWrite, whenOpen_of_open ho, Nat.add_sub_cancel,
    if_pos (Bool.and_eq_true_iff.mpr ⟨hw, decide_eq_true (Nat.le_add_left 4 a)⟩), hstage]

/-- Over nothing, or over its own word, a _HI word is staged without more. -/
theorem State.stageHigh_free {s : State} {p : Path} {a : Nat} (v : Word) (h : ∀ x ∈ (s.path p).stage, x.1 = a) :
    s.stageHigh p a v = s.setPath p { s.path p with stage := some (a, v) } := by
  cases hstage : (s.path p).stage with
  | none =>
    simp only [State.stageHigh, hstage]
  | some x =>
    have hown : x.1 = a := h x (Option.mem_def.mpr hstage)
    simp only [State.stageHigh, hstage, hown, if_true]

/-- Over another register's word the loss of that word is logged. -/
theorem State.stageHigh_over {s : State} {p : Path} {a b : Nat} {w : Word} (v : Word) (h : (s.path p).stage = some (b, w)) (hne : b ≠ a) :
    s.stageHigh p a v =
      ((s.log 0x0408 (b + 4)).setFld F.MAST_EVENT_STAGE_DROP 1).setPath p { s.path p with stage := some (a, v) } := by
  simp only [State.stageHigh, h, if_neg hne]
  rfl

/-- A change of what the paths hold, beside a log and the fields given. -/
theorem onlyAndLog_setPath {fs : List Fld} {s t : State} (h : OnlyAndLog fs s t) (p : Path) (x : PathState) :
    OnlyAndLog fs s { t.setPath p x with paths := s.paths } := by
  obtain ⟨honly, hframe⟩ := h
  exact ⟨honly.of_regs rfl, congrArg (fun y : State => { y with paths := s.paths }) hframe⟩

end Sys2Proof.Machine

namespace Sys2Proof

open Sys2Proof.Machine

/-- Settles O17. The latch of a read is R93, with MAST_FRAC R95 and the head of the collector R977; a staged word and its loss are R96 and R98. -/
theorem wideRegisterAccess : Obligations.WideRegisterAccess := by
  unfold Obligations.WideRegisterAccess
  refine ⟨?register, ?now, ?head, ?headEmpty, ?staged, ?stagedOver⟩
  case register =>
    intro p a s ho hw hrow hflc hnow herr hcap hfifo hrc hl
    have hrun := exec_wideLoRead_of_open p ho hw
    rw [State.readReg_wideLo hw hrow hflc hnow hfifo hcap, State.readPlain_wideLo hw hrc hl] at hrun
    refine .intro hrun ⟨rfl, ?_, s.cleated_frame p a _⟩
    rw [State.cleated_path, State.cleatSet_register hcap herr]
  case now =>
    intro p s ho hl
    have hrun := exec_wideLoRead_of_open p (a := F.MAST_NOW_LO) ho (by decide)
    rw [State.readReg_now hl] at hrun
    refine .intro hrun ⟨rfl, ?_, ?_, rfl⟩
    · rw [State.path_setPath]
      exact s.cleatSet_now
    · rw [State.path_setPath]
      rfl
  case head =>
    intro p s e rest ho hl herrs
    have hhead : s.errHead = [BitVec.ofNat 32 e.mast, BitVec.ofNat 32 (e.mast / 2 ^ 32), BitVec.ofNat 32 (e.seq * 65536 + e.code), e.detail] := by
      rw [State.errHead, herrs]
    have hrun := exec_errHeadRead_of_open (p := p) ho hl
    refine .intro hrun ⟨?_, ?_, ?_, s.cleated_frame p _ _⟩
    · rw [hhead]
      rfl
    · rw [State.cleated_path, State.cleatSet_errHead, hhead]
    · rw [State.cleated_path]
  case headEmpty =>
    intro p s ho hl herrs
    have hhead : s.errHead = [0, 0, 0, 0] := by rw [State.errHead, herrs]
    refine .intro (exec_errHeadRead_of_open ho hl) ⟨?_, ?_, s.cleated_frame p _ _⟩
    · rw [hhead]
      rfl
    · rw [State.cleated_path, State.cleatSet_errHead, hhead]
  case staged =>
    intro p a v s ho hw hrow hflc hmirror hbits hfree
    have hrun := exec_wideHiWrite_staged p v ho hw hrow hflc hmirror hbits
    rw [State.stageHigh_free v hfree] at hrun
    exact .intro hrun ⟨s.path_setPath p _, fun _ => rfl, s.setPath_frame p _⟩
  case stagedOver =>
    intro p a b v w s ho hw hrow hflc hmirror hbits hstage hne
    have hrun := exec_wideHiWrite_staged p v ho hw hrow hflc hmirror hbits
    rw [State.stageHigh_over v hstage hne] at hrun
    have hdropped : OnlyAndLog [F.MAST_EVENT_STAGE_DROP] s ((s.log 0x0408 (b + 4)).setFld F.MAST_EVENT_STAGE_DROP 1) :=
      ((Only.refl _ s).log 0x0408 (b + 4)).setFld (by decide) (by decide)
    exact .intro hrun ⟨congrArg (·.stage) (State.path_setPath _ p _), State.bit_setFld_one _ (by decide) rfl,
      s.logs_log 0x0408 (b + 4), onlyAndLog_setPath hdropped p _⟩

end Sys2Proof
end

section
/-! A tick of time on an empty queue (spec/02_mast.md R57, R78, R86; log entry 40). -/

namespace Sys2Proof.Machine

open Sys2Proof

theorem State.passTime_held {s : State} (h : s.mastHolds = true) : s.passTime = s := if_pos h

theorem State.timePasses_domain {s : State} (hd : s.bit F.MAST_STATUS_DOMAIN = true) (h : s.timePasses = true) :
    s.mastHolds = false ∧ (s.bit F.MAST_STATUS_XT_OK && !s.bit F.PWR_REEF_STATUS_DEEP_HELD) = true := by
  simpa only [State.timePasses, hd, Bool.not_true, Bool.false_or, Bool.and_eq_true, Bool.not_eq_true'] using h

/-- In the 32 kHz domain time passes by ticks. -/
theorem State.passTime_tick {s : State} (hd : s.bit F.MAST_STATUS_DOMAIN = true) (h : s.timePasses = true) : s.passTime = s.tick := by
  obtain ⟨hruns, hticks⟩ := State.timePasses_domain hd h
  rw [State.passTime, hruns, if_neg Bool.false_ne_true, hd, if_neg (by decide), if_pos hticks]

/-- A tick with no step is the tick length. -/
theorem State.tick_of_no_step {s : State} (h : s.mast.step = none) : s.tick = s.beginBeat.advanceMast s.tickSpan :=
  State.applyPending_of_none h

/-- Where no timer runs and no channel is armed a beat evaluates nothing. -/
theorem State.evalBeat_idle {s : State} (htimers : s.runningTimers = []) (hcompares : s.armedCompares = []) :
    s.evalBeat = { s with win := { s.win with evaluated := true } } := by
  have hnone : s.applyFires [] = s := by
    rw [State.applyFires]
    split <;> rfl
  simp only [State.evalBeat, State.matchesNow, htimers, hcompares, List.filter_nil, List.map_nil, List.foldl_nil, List.append_nil, hnone]

/-- An unpowered device on which time passes: the Mast, and the timers and compare channels. -/
theorem State.idle_unpowered {s : State} (hp : s.powered = false) (ht : s.timePasses = true) (hpass : s.passTime.powered = false) :
    s.idle = s.passTime.evalBeat := by
  simp only [State.idle, State.beatUnits, hp, ht, hpass, Bool.false_eq_true, if_false, if_true]

/-- A tick in Reef moves the Mast alone. -/
theorem State.idle_tick {s : State} (hp : s.powered = false) (hd : s.bit F.MAST_STATUS_DOMAIN = true) (ht : s.timePasses = true)
    (hstep : s.mast.step = none) (htimers : s.runningTimers = []) (hcompares : s.armedCompares = []) :
    s.idle.mast.acc = (s.mast.acc + s.tickSpan) % 2 ^ 102 ∧ { s.idle with mast := s.mast, win := s.win } = s := by
  have hpass : s.passTime = s.beginBeat.advanceMast s.tickSpan := (State.passTime_tick hd ht).trans (State.tick_of_no_step hstep)
  have hidle := State.idle_unpowered hp ht (by rw [hpass]; exact hp)
  rw [hpass, State.evalBeat_idle (s := s.beginBeat.advanceMast s.tickSpan) htimers hcompares] at hidle
  rw [hidle]
  exact ⟨rfl, rfl⟩

theorem State.idle_still {s : State} (hp : s.powered = false) (ht : s.timePasses = false) : s.idle = s := by
  simp only [State.idle, hp, ht, Bool.false_eq_true, if_false]

end Sys2Proof.Machine

namespace Sys2Proof

open Sys2Proof.Machine

/-- Settles O2. That a step on an empty queue is one tick of time is log entry 40; the ticks of Reef are R78, the hold R86. -/
theorem emptyQueueIdles : Obligations.EmptyQueueIdles := by
  unfold Obligations.EmptyQueueIdles
  refine ⟨?empty, ?reef, ?held, ?still⟩
  case empty =>
    intro s h
    rw [step, h]
  case reef =>
    intro s hp hd ht hstep htimers hcompares
    exact State.idle_tick hp hd ht hstep htimers hcompares
  case held =>
    intro s h
    exact State.passTime_held h
  case still =>
    intro s hp ht
    exact State.idle_still hp ht

end Sys2Proof
end
